-- ==== Sys2Proof/Word.lean ====
section
/-! DEFINITION. The word types of the model: the byte, a string of bytes, and the sparse table keyed by a number. -/

namespace Sys2Proof

/-- A byte (R8: multi-byte fields are little-endian strings of these). -/
abbrev Byte := BitVec 8

/-- A string of bytes, lowest address first. -/
abbrev Bytes := List Byte

/-- Sparse data by number: pairs of key and value, keys strictly rising. -/
abbrev Tab (α : Type) := List (Nat × α)

end Sys2Proof
end

