-- ==== Sys2Proof/Syntax.lean ====
section
/-! DEFINITION. The commands the block takes, one constructor per row of the table of steps, and the data they carry:
packets (R119 to R131), flits (R82), control payloads (R61, R134, R376, R418, R508, R566, R643), and what the outside
supplies with an event. The row table gives no operands, so their choice is the model's (log 4). -/

namespace Sys2Proof

/-- Packet types (R121). -/
inductive PType where
  | read | write | writePosted | atomic | resp | msg | jobPost | jobResult | reduceContrib | reduceResult | ctrl
  deriving DecidableEq, Repr, Inhabited

/-- A host port (R587). -/
inductive HostId where
  | ha | hb
  deriving DecidableEq, Repr, Inhabited

/-- Where a packet enters: a fabric port P0 to P383, or a host. -/
inductive Ingress where
  | port (p : Nat)
  | host (h : HostId)
  deriving DecidableEq, Repr, Inhabited

/-- A packet: the common header (R120), the fields of its type's extension (R124, R127 to R131; unused ones 0), the payload
in the clear, and whether its integrity tag holds at this receiver. HLEN is the type's (R121), LEN the payload's length. -/
structure Packet where
  ptype : PType
  cls : Nat := 0
  enc : Bool := false
  mc : Bool := false
  dst : Nat := 0
  src : Nat := 0
  comp : Nat := 0
  kslot : Nat := 0
  kgen : Nat := 0
  tag : Nat := 0
  reqEpoch : Nat := 0
  status : Nat := 0
  da : Nat := 0
  epoch : Nat := 0
  rkey : Nat := 0
  rlen : Nat := 0
  aop : Nat := 0
  awidth : Nat := 0
  asigned : Bool := false
  swgen : Bool := false
  swId : Nat := 0
  dstDomain : Nat := 0xFFFF
  srcDomain : Nat := 0xFFFF
  mqueue : Nat := 0
  workId : Nat := 0
  quad : Nat := 0
  node : Nat := 0
  part : Nat := 0
  final : Bool := false
  group : Nat := 0
  chunk : Nat := 0
  contrib : Nat := 0
  ifmt : Nat := 0
  nelem : Nat := 0
  rop : Nat := 0
  ctype : Nat := 0
  srcSw : Nat := 0
  fromSw : Bool := false
  payload : Bytes := []
  tagOk : Bool := true
  /-- Class of the DATA flits that brought the packet, where it is not CLS (R120). -/
  carrier : Option Nat := none
  deriving DecidableEq, Repr, Inhabited

/-- A flit (R82): header fields, payload, and whether its CRC-32 checks. -/
structure Flit where
  ftype : Nat := 0
  cls : Nat := 0
  sh : Bool := false
  seq : Nat := 0
  ack : Nat := 0
  ackValid : Bool := false
  nak : Bool := false
  craSel : Nat := 15
  craCnt : Nat := 0
  crbSel : Nat := 15
  crbCnt : Nat := 0
  sop : Nat := 0xFF
  lcmd : Nat := 0
  lmask : Nat := 0
  payload : Bytes := []
  crcOk : Bool := true
  deriving DecidableEq, Repr, Inhabited

/-- Tick marker (R61, R133). -/
structure Marker where
  tick : Nat
  master : Nat
  depth : Nat
  corr : Nat
  holdover : Bool
  extAligned : Bool
  handoverIn : Nat
  deriving DecidableEq, Repr, Inhabited

/-- Status beacon (R134). -/
structure Beacon where
  tick : Nat
  switchId : Nat
  svcLevel : Nat
  campion : Nat
  tickState : Nat
  depth : Nat
  flags : Nat
  domId : Nat
  serial : Nat
  meas : Bytes
  deriving DecidableEq, Repr, Inhabited

/-- What the peer's TRAIN flits announce (R102, R546). -/
structure TrainInfo where
  role : Nat
  domId : Nat
  switchId : Nat
  feid : Nat
  laneSet : Nat
  credits : List Nat
  salt : Nat
  malformed : Bool
  deriving DecidableEq, Repr, Inhabited

/-- The DYING payload, bytes 10 to 25 of the flit (R114). -/
structure Dying where
  reason : Nat
  srcKind : Nat
  srcId : Nat
  tick : Nat
  portsLeft : Nat
  deriving DecidableEq, Repr, Inhabited

/-- COMMIT payload (R566). -/
structure CommitMsg where
  op : Nat
  reason : Nat := 0
  sw : Nat := 0
  seq : Nat := 0
  tick : Nat := 0
  changed : Nat := 0
  digest : Bytes := []
  deriving DecidableEq, Repr, Inhabited

/-- REGISTRY payload (R376). -/
structure RegistryMsg where
  op : Nat
  reason : Nat := 0
  groupId : Nat := 0
  part : Nat := 0
  nparts : Nat := 1
  tick : Nat := 0
  body : Bytes := []
  deriving DecidableEq, Repr, Inhabited

/-- RECOVERY payload (R508). -/
structure RecoveryMsg where
  op : Nat
  comp : Nat := 0
  reason : Nat := 0
  tick : Nat := 0
  sw : Nat := 0
  kind : Nat := 0
  id : Nat := 0
  phase : Nat := 0
  targets : Nat := 0
  deriving DecidableEq, Repr, Inhabited

/-- JOB_CANCEL payload (R418). -/
structure CancelMsg where
  workId : Nat
  op : Nat
  sw : Nat := 0
  replyFeid : Nat := 0
  toSw : Nat := 0
  deriving DecidableEq, Repr, Inhabited

/-- BIST payload (R643). -/
structure BistMsg where
  op : Nat
  sw : Nat
  toSw : Nat
  pass : Nat
  tick : Nat
  detail : Nat
  deriving DecidableEq, Repr, Inhabited

/-- A header and body of a key-delivery (R541) or management (R582) message. -/
structure SessMsg where
  op : Nat
  status : Nat := 0
  session : Nat := 0
  counter : Nat := 0
  body : Bytes := []
  deriving DecidableEq, Repr, Inhabited

/-- What the sensors measure in the tick that ended (R631, R632, R116): package draw per consumer of R28 in W, draw per tile in mW,
die temperatures (Q0 to Q3, control die), stack temperatures, the corrected symbol rate of the worst lane of a port; and what the
cycle-granular counters measured in it: FEC symbols and codewords by lane (R118), buffer words corrected (R171), cycles without credit by
port (R101), cycles with a packet waiting by quadrant (R161) and by composition (R564), stall on walks in ns (R272), cycles an ATOMIC
waited for a dedup record by quadrant (R217), bytes read from and written
to each stack (R258), input voltage and current. -/
structure EdgeMeas where
  consumerW : List Nat := []
  tileMw : Tab Nat := []
  dieTemp : List Nat := []
  stackTemp : List Nat := []
  laneSer : Tab Nat := []
  fecCorr : Tab Nat := []
  fecUncorr : Tab Nat := []
  cellCorr : Nat := 0
  admitWait : List Nat := []
  classWaits : Tab Nat := []
  walkStallNs : Nat := 0
  dedupWait : List Nat := []
  hbmRd : Tab Nat := []
  hbmWr : Tab Nat := []
  vinMv : Nat := 48000
  iinMa : Nat := 0
  deriving DecidableEq, Repr, Inhabited

/-- Errors that have arisen in the memory by the time of an access: sectors, by window offset ÷ 64, whose stored bits now hold an error that
the code corrects, and one that it only detects (R235, R236), and lines whose bits in the L2 hold an error that SECDED only detects (R234).
An error is found by the read that meets it. -/
structure Ecc where
  soft : List Nat := []
  bad : List Nat := []
  l2 : List Nat := []
  deriving DecidableEq, Repr, Inhabited

/-- No error has arisen. -/
def Ecc.clean : Ecc := {}

/-- An atomic that a tile executes in its L1 (R298): its place in the line, operation, width, signedness and operand as in R207. -/
structure L1Atomic where
  off : Nat
  aop : Nat
  awidth : Nat
  asigned : Bool := false
  operand : Bytes := []
  deriving DecidableEq, Repr, Inhabited

/-- An agent's access to a line: the context that its copy is to be tagged with (R293), the errors that have arisen by then, and for a GETM
where in the line its bytes go, or the atomic that it executes on the line (R296, R298). -/
structure AgentAccess where
  ctx : Nat
  found : Ecc := {}
  off : Nat := 0
  atomic : Option L1Atomic := none
  deriving DecidableEq, Repr, Inhabited

/-- A class's turn at an ingress buffer, and the core cycle of the tick in which it comes (R159, R180). -/
structure ClassTurn where
  cls : Nat
  cycle : Nat
  deriving DecidableEq, Repr, Inhabited

/-- Who makes an access at the L2 under HREAD, HWRITE or HATOM (R296). -/
inductive HSource where
  | home | bar2 (h : HostId) | walker | scrub | fill
  deriving DecidableEq, Repr, Inhabited

/-- The unit that runs a quantum: a tile, or an engine of a quadrant (R316, R425): gather 0 and 1, filter, DMA, the Yarrow GF lanes. -/
inductive RunUnit where
  | tile (t : Nat)
  | engine (q : Nat) (e : Nat)
  deriving DecidableEq, Repr, Inhabited

/-- What the outside supplies of a quantum that ends: a status its microcode reports (0 for none), and the errors that have arisen in the memory
by then. -/
structure QuantumEnd where
  status : Nat := 0
  found : Ecc := Ecc.clean
  deriving DecidableEq, Repr, Inhabited

/-- An image envelope (R530) as a verifier sees it. -/
structure Image where
  imgType : Nat
  keyIndex : Nat
  svn : Nat
  bodyDigest : Bytes
  pubkey : Bytes
  sig : Bytes
  body : Bytes
  deriving DecidableEq, Repr, Inhabited

/-- A debug token (R554). -/
structure DebugToken where
  serial : Nat
  challenge : Bytes
  scope : Nat
  authority : Nat
  expiryTicks : Nat
  pubkey : Bytes
  sig : Bytes
  deriving DecidableEq, Repr, Inhabited

/-- One dictionary access (R605): entry, offset, and the bytes written or the length read. -/
structure EntryRef where
  index : Nat
  sub : Nat
  offset : Nat := 0
  deriving DecidableEq, Repr, Inhabited

/-- The commands, one constructor per row of the table of steps: those with operands in its order, then those without. -/
inductive Instr where
  | tickEdge (m : EdgeMeas)
  | beacon (port : Nat) (b : Beacon)
  | tickMarker (port : Nat) (m : Marker) (arrivalPs : Int) (residencePs : Nat)
  | tickInEdge (offsetPs : Int)
  | linkDelayMeasure (port : Nat) (rttPs : Nat)
  | domainRecovery (commanded : Bool) (phase : Nat) (targets : Nat)
  | dataFlit (port : Nat) (f : Flit)
  | idleFlit (port : Nat) (f : Flit)
  | alignFlit (port : Nat) (lane : Nat) (skewNs : Nat) (f : Flit)
  | trainFlit (port : Nat) (t : TrainInfo)
  | dyingRcvd (port : Nat) (d : Dying)
  | dyingHoldEnd (port : Nat)
  | linkRetryTimeout (port : Nat)
  | laneFailed (port : Nat) (lane : Nat)
  | degradeReq (port : Nat) (f : Flit)
  | laneSwitch (port : Nat) (mask : Nat)
  | laneRepaired (port : Nat) (lane : Nat)
  | restoreReq (port : Nat) (f : Flit)
  | signalDetected (port : Nat)
  | equalizeDone (port : Nat) (passMask : Nat)
  | lockDone (port : Nat) (polarity : Nat)
  | paramDone (port : Nat) (rttPs : Nat)
  | portActive (port : Nat)
  | trainingTimeout (port : Nat)
  | retrainDone (port : Nat)
  | retrainTimeout (port : Nat)
  | lossOfSignal (port : Nat)
  | read (src : Ingress) (p : Packet)
  | write (src : Ingress) (p : Packet)
  | writePosted (src : Ingress) (p : Packet)
  | atomic (src : Ingress) (p : Packet)
  | resp (src : Ingress) (p : Packet)
  | msg (src : Ingress) (p : Packet)
  | jobPost (src : Ingress) (p : Packet)
  | jobResult (src : Ingress) (p : Packet)
  | reduceContrib (src : Ingress) (p : Packet)
  | reduceResult (src : Ingress) (p : Packet)
  | packetAdmit (src : Ingress) (turn : ClassTurn)
  | packetEgressDone (port : Nat) (cls : Nat) (uncorrectable : Bool)
  | hotWindowEnd (q : Nat)
  | teaselAuditStart (q : Nat)
  | teaselAuditDone (q : Nat)
  | homeRead (q : Nat)
  | homeWrite (q : Nat)
  | homeAtomic (q : Nat)
  | trayResp (port : Nat) (p : Packet)
  | mergeWindowClose (q : Nat) (line : Nat)
  | mergeWriteDone (q : Nat) (line : Nat)
  | dedupStale (q : Nat) (src reqEpoch tag : Nat)
  | dedupFree (q : Nat) (src reqEpoch tag : Nat)
  | staleWindowEnd (q : Nat)
  | requestRetryTimeout (q : Nat) (tray : Nat) (tag : Nat)
  | bar2Read (h : HostId) (addr : Nat) (len : Nat)
  | bar2Write (h : HostId) (addr : Nat) (data : Bytes)
  | bar2Unsupported (h : HostId) (addr : Nat) (len : Nat) (atomicOp : Bool)
  | stackFailed (s : Nat) (thermal : Bool)
  | stackWake (s : Nat)
  | scrubSector (s : Nat) (soft : List Nat) (bad : List Nat) (cancelled : Bool)
  | stagingFillResp (slot : Nat) (block : Nat) (status : Nat) (data : Bytes)
  | stagingSlotRelease (slot : Nat)
  | stagingDeadline (comp : Nat) (reqId : Nat)
  | pageWalkDone (q : Nat) (ctx : Nat) (page : Nat)
  | faultRecordWrite (h : HostId)
  | faultRespRetry (h : HostId) (faultId : Nat)
  | faultRespAbort (h : HostId) (faultId : Nat) (status : Nat)
  | faultTimeout (h : HostId) (faultId : Nat)
  | invalReq (acc : Nat) (tag : Nat)
  | ctxEntryWrite (acc : Nat) (entry : Nat)
  | gets (agent : Nat) (line : Nat) (w : AgentAccess)
  | getm (agent : Nat) (line : Nat) (w : AgentAccess) (data : Bytes)
  | wfull (agent : Nat) (line : Nat) (ctx : Nat) (data : Bytes)
  | pute (agent : Nat) (line : Nat)
  | putm (agent : Nat) (line : Nat)
  | dirtyNotice (agent : Nat) (line : Nat) (data : Bytes)
  | hread (src : HSource) (off : Nat) (len : Nat) (found : Ecc)
  | hwrite (src : HSource) (off : Nat) (data : Bytes)
  | hatom (src : HSource) (off : Nat) (aop awidth : Nat) (asigned : Bool) (operand : Bytes)
  | snoopResponse (agent : Nat) (line : Nat)
  | invalidationReceive (agent : Nat) (line : Nat)
  | invalidationApply (agent : Nat)
  | heartbeat (agent : Nat) (slice : Nat)
  | agentDead (agent : Nat)
  | acquireWaitMet (agent : Nat) (off cond width value : Nat)
  | acquireWaitTimeout (agent : Nat)
  | releaseComplete (agent : Nat) (line : Nat) (data : Bytes)
  | jobAdmit (q : Nat)
  | quantumStart (u : RunUnit)
  | quantumComplete (u : RunUnit) (e : QuantumEnd)
  | quantumOverrun (u : RunUnit)
  | halveRestore (q : Nat) (job : Nat)
  | jobTimeout (q : Nat) (job : Nat)
  | jobCancel (src : Ingress) (srcSw : Nat) (fromSw : Bool) (p : Packet)
  | libVerify (bank : Nat) (img : Image)
  | libActivateA (acc : Nat)
  | libActivateB (acc : Nat)
  | contribTake (q : Nat)
  | chunkTimeout (group : Nat) (chunk : Nat)
  | chunkRound (group : Nat) (chunk : Nat)
  | resultAckTimeout (group : Nat) (chunk : Nat) (dest : Nat)
  | reduceAck (src : Ingress) (srcSw : Nat) (fromSw : Bool) (p : Packet)
  | reduceNack (src : Ingress) (srcSw : Nat) (fromSw : Bool) (p : Packet)
  | groupRegister (acc : Nat)
  | groupRemove (acc : Nat)
  | groupReadmit (acc : Nat)
  | registryRegister (port : Nat) (src : Nat) (m : RegistryMsg)
  | registryRemove (port : Nat) (src : Nat) (m : RegistryMsg)
  | registryReadmit (port : Nat) (src : Nat) (m : RegistryMsg)
  | registryAccept (port : Nat) (src : Nat) (m : RegistryMsg)
  | registryRefuse (port : Nat) (src : Nat) (m : RegistryMsg)
  | registryActivate (port : Nat) (src : Nat) (m : RegistryMsg)
  | groupActivationTick (group : Nat)
  | registryAnswerTimeout (group : Nat)
  | gfParityWork (q : Nat)
  | planLoad (acc : Nat)
  | planUnload (acc : Nat)
  | planActivate (slot : Nat)
  | nodeLate (q : Nat) (job : Nat) (node : Nat)
  | contribRetry (q : Nat) (job : Nat) (group : Nat) (chunk : Nat)
  | backupNotify (port : Nat) (comp : Nat) (m : CancelMsg)
  | backupClaim (port : Nat) (comp : Nat) (m : CancelMsg)
  | backupGrant (port : Nat) (comp : Nat) (m : CancelMsg)
  | backupDeny (port : Nat) (comp : Nat) (m : CancelMsg)
  | backupCancel (port : Nat) (comp : Nat) (m : CancelMsg)
  | claimWaitTimeout (q : Nat) (job : Nat)
  | claimEntryExpire (comp : Nat) (replyFeid : Nat) (workId : Nat)
  | engineQuantumStart (q : Nat) (e : Nat)
  | gatherElement (q : Nat) (e : Nat) (index : Nat) (found : Ecc)
  | speculativeRead (q : Nat) (e : Nat) (ahead : Nat) (ok : Bool) (found : Ecc)
  | filterRows (q : Nat) (rows : Nat) (first : Nat) (found : Ecc)
  | blockDecode (t : Nat) (nblk : Nat) (blk : Nat) (idx idxNext : Nat) (opLen : Nat) (block : Bytes) (waited : Nat)
  | tableBufferWait (q : Nat) (t : Nat)
  | memberFailed (group : Nat) (member : Nat)
  | failMember (acc : Nat)
  | rebuildStart (group : Nat) (member : Nat)
  | rebuildStripe (group : Nat) (entry : Nat) (stripe : Nat)
  | rebuildRestart (group : Nat)
  | transitionRevert (entry : Nat)
  | resyncStripe (group : Nat) (stripe : Nat) (entry : Nat) (quad : Nat) (epoch : Nat)
  | stepFenceReq (acc : Nat) (comp : Nat)
  | stepFenceDone (comp : Nat)
  | dieHeartbeatTimeout (die : Nat)
  | agentReset (agent : Nat)
  | agentRejoined (agent : Nat) (passed : Bool)
  | recoveryFence (port : Nat) (m : RecoveryMsg)
  | recoveryExpel (port : Nat) (m : RecoveryMsg)
  | recoveryRecover (port : Nat) (m : RecoveryMsg)
  | healthReadmit (acc : Nat) (item : Nat)
  | eventDelivery (h : HostId) (log : Nat)
  | evlogConsWrite (h : HostId) (cons : Nat)
  | flogConsWrite (h : HostId) (cons : Nat)
  | imageVerify (img : Image) (atBoot : Bool)
  | image (port : Nat) (imgType bank offset totalLen : Nat) (data : Bytes) (assembled : Option Image)
  | svnCommit (acc : Nat) (counter : Nat)
  | reportRead (acc : Nat) (offset : Nat) (len : Nat)
  | kdsHello (src : Ingress) (feid : Nat) (comp : Nat) (m : SessMsg)
  | kdsAccept (src : Ingress) (feid : Nat) (comp : Nat) (m : SessMsg)
  | kdsLoad (src : Ingress) (feid : Nat) (comp : Nat) (m : SessMsg)
  | kdsRetire (src : Ingress) (feid : Nat) (comp : Nat) (m : SessMsg)
  | kdsCerts (src : Ingress) (feid : Nat) (comp : Nat) (m : SessMsg)
  | kdsClose (src : Ingress) (feid : Nat) (comp : Nat) (m : SessMsg)
  | kdsSessionTimeout (session : Nat)
  | keyLive (slot : Nat)
  | keyRetired (slot : Nat)
  | keyZeroized (slot : Nat) (gen : Nat)
  | slotRetire (acc : Nat)
  | debugToken (acc : Nat) (t : DebugToken)
  | commit (acc : Nat)
  | resync (acc : Nat)
  | commitPrepare (port : Nat) (src : Nat) (m : CommitMsg)
  | commitReady (port : Nat) (src : Nat) (m : CommitMsg)
  | commitNotReady (port : Nat) (src : Nat) (m : CommitMsg)
  | commitAnnounce (port : Nat) (src : Nat) (m : CommitMsg)
  | commitAbort (port : Nat) (src : Nat) (m : CommitMsg)
  | commitDirty (port : Nat) (src : Nat) (m : CommitMsg)
  | reportCmd (acc : Nat)
  | cmpHello (m : SessMsg)
  | cmpAccept (m : SessMsg)
  | cmpRead (session : Nat) (counter : Nat) (reqId : Nat) (e : EntryRef) (len : Nat)
  | cmpWrite (session : Nat) (counter : Nat) (reqId : Nat) (e : EntryRef) (data : Bytes)
  | cmpSubscribe (session : Nat) (counter : Nat) (mask : Nat)
  | cmpClose (session : Nat) (counter : Nat)
  | cmpIdleTimeout (session : Nat)
  | mbRead (h : HostId) (addr : Nat) (offset : Nat) (len : Nat)
  | mbWrite (h : HostId) (addr : Nat) (offset : Nat) (data : Bytes)
  | smbusSelect (e : EntryRef)
  | smbusRead (len : Nat)
  | consoleRead (e : EntryRef) (len : Nat)
  | consoleWrite (e : EntryRef) (data : Bytes)
  | sendSlotWrite (h : HostId) (slot : Nat) (offset : Nat) (data : Bytes)
  | rxringWrite (h : HostId)
  | rxringConsWrite (h : HostId) (cons : Nat)
  | msixUnmask (h : HostId) (vec : Nat)
  | hostPortReset (h : HostId)
  | rcRead (acc : Nat) (e : EntryRef)
  | cfgLockSet (acc : Nat)
  | cfgLockClear (acc : Nat)
  | ownerDebugHashWrite (acc : Nat) (hash : Bytes)
  | pbModeWrite (acc : Nat) (block : Nat) (mode : Nat)
  | portEnableWrite (acc : Nat) (port : Nat) (enable : Nat)
  | portRoleWrite (acc : Nat) (port : Nat) (sub : Nat) (value : Nat)
  | domainIdWrite (acc : Nat) (sub : Nat) (value : Nat)
  | hmapStage (acc : Nat) (entry : Bytes)
  | regionStage (acc : Nat) (entry : Bytes)
  | sgStage (acc : Nat) (entry : Bytes)
  | dictWrite (acc : Nat) (e : EntryRef) (data : Bytes)
  | quadOffSet (acc : Nat) (q : Nat)
  | quadOffClear (acc : Nat) (q : Nat)
  | refclkPrefWrite (acc : Nat) (value : Nat)
  | bistRun (acc : Nat)
  | bistDone (failed : Nat)
  | bistPacketRun (port : Nat) (m : BistMsg)
  | bistPacketResult (port : Nat) (m : BistMsg)
  | dipStart (mV : Nat)
  | dipEnd (mV : Nat)
  | overvoltage (mV : Nat)
  | powerOn (mV : Nat) (failedUnits : Nat) (untrained : Nat) (dieAttest : Nat)
  | hbmTrainTimeout (s : Nat)
  | modResetN (low : Bool) (failedUnits : Nat) (untrained : Nat) (dieAttest : Nat)
  | warmResetCmd (acc : Nat)
  | fundamentalResetCmd (acc : Nat)
  | resetBegin (failedUnits : Nat) (untrained : Nat) (dieAttest : Nat)
  | thermalTrip (die : Nat) (celsius : Nat)
  | pcieRefclkLoss (h : HostId)
  | rungEntry (domain : Nat) (unit : Nat)
  | rungWake (domain : Nat) (unit : Nat)
  | flitSlot (port : Nat)
  | hostLinkUp (h : HostId) (width gen : Nat)
  | switchLost (sw : Nat)
  | fabricRefclkReturn (b : Bool)
  | holdoverEntry
  | masterLost
  | handoverAnnounce
  | startupPhase
  | tlbInvalidate
  | invalDrained
  | libSwitch
  | provisionalEnd
  | debugUnlockExpiry
  | commitAnswerTimeout
  | commitFreezeTimeout
  | commitApply
  | usageReportPeriodic
  | campionWatchdog
  | campionRestartDone
  | smbusStatus
  | smbusAlertResponse
  | dipClassB
  | supplyStop
  | overvoltageTimeout
  | refclkSwitch
  | refclkLost
  | mgmtClkLoss
  | crossbarGrant
  | mgmtClkReturn
  deriving DecidableEq, Repr

end Sys2Proof
end

