-- ==== Sys2Proof/Decode.lean ====
section
/-! DEFINITION. The commands that words spell: none, since no row of the table of steps gives bits. -/

namespace Sys2Proof

/-- The command a word spells by the table's bits. The table gives no row bits, so no word spells one (log 28). -/
def decodeTableWord (_nbits _w : Nat) : Option Instr := none

end Sys2Proof
end

