-- ==== Sys2Proof/Machine/Bits.lean ====
section
/-! DEFINITION. Bit fields and byte strings: the readings of fields the spec gives as bit ranges `[hi:lo]` of little-endian
values (R8), and the sets of ports, switches and lanes that stand as masks. -/

namespace Sys2Proof.Machine

/-- Bits `lo` to `lo + w - 1` of a value (R8). -/
def bits (v lo w : Nat) : Nat := (v >>> lo) % 2 ^ w

/-- Bit `i` of a value. -/
def bit (v i : Nat) : Bool := v.testBit i

/-- A value with bits `lo` to `lo + w - 1` replaced. -/
def setBits (v lo w x : Nat) : Nat :=
  v - (bits v lo w <<< lo) + ((x % 2 ^ w) <<< lo)

/-- A value with bit `i` set or cleared. -/
def setBit (v i : Nat) (b : Bool) : Nat := setBits v i 1 b.toNat

/-- How many of the low `w` bits are set. -/
def popCount : Nat → Nat → Nat
  | 0, _ => 0
  | w + 1, v => v % 2 + popCount w (v / 2)

/-- The set bits among the low `w`, rising from position `base`. -/
def setBitsFrom : Nat → Nat → Nat → List Nat
  | 0, _, _ => []
  | w + 1, base, v => if v % 2 = 1 then base :: setBitsFrom w (base + 1) (v / 2) else setBitsFrom w (base + 1) (v / 2)

/-- The members of a mask of `w` bits, rising. -/
def members (w v : Nat) : List Nat := setBitsFrom w 0 v

/-- The mask whose members are listed. -/
def maskOf (l : List Nat) : Nat := l.foldl (fun m i => m ||| (1 <<< i)) 0

/-- `n` bytes, least significant first (R8). -/
def leBytes : Nat → Nat → Bytes
  | 0, _ => []
  | n + 1, v => BitVec.ofNat 8 v :: leBytes n (v / 256)

/-- The value of a little-endian byte string (R8). -/
def leNat : Bytes → Nat
  | [] => 0
  | b :: bs => b.toNat + 256 * leNat bs

/-- Bytes `off` to `off + n - 1` of a string; absent ones read 0. -/
def slice (bs : Bytes) (off n : Nat) : Bytes :=
  let got := (bs.drop off).take n
  got ++ List.replicate (n - got.length) 0

/-- The little-endian field of `n` bytes at `off`. -/
def le (bs : Bytes) (off n : Nat) : Nat := leNat (slice bs off n)

/-- The big-endian value of a byte string. -/
def beNat (bs : Bytes) : Nat := bs.foldl (fun v b => 256 * v + b.toNat) 0

/-- `n` bytes, most significant first. -/
def beBytes (n v : Nat) : Bytes := (leBytes n v).reverse

/-- A string padded with zero bytes, or cut, to `n` bytes. -/
def padTo (n : Nat) (bs : Bytes) : Bytes := slice bs 0 n

/-- A string with the bytes at `off` replaced. -/
def splice (bs : Bytes) (off : Nat) (new : Bytes) : Bytes :=
  padTo off bs ++ new ++ bs.drop (off + new.length)

/-- Two's complement: the integer a `w`-bit field stands for. -/
def toInt (w v : Nat) : Int := if v < 2 ^ (w - 1) then (v : Int) else (v : Int) - 2 ^ w

/-- Two's complement: the `w`-bit field of an integer, modulo 2^w. -/
def ofInt (w : Nat) (z : Int) : Nat := (z % ((2 : Int) ^ w)).toNat

/-- Bytewise exclusive or, to the length of the longer string. -/
def xorBytes : Bytes → Bytes → Bytes
  | [], ys => ys
  | xs, [] => xs
  | x :: xs, y :: ys => (x ^^^ y) :: xorBytes xs ys

/-- A number rounded up to a multiple. -/
def roundUp (n m : Nat) : Nat := (n + m - 1) / m * m

/-- The quotient rounded up. -/
def ceilDiv (n m : Nat) : Nat := (n + m - 1) / m

/-- The values `0 … n - 1` that satisfy a test. -/
def whichOf (n : Nat) (p : Nat → Bool) : List Nat := (List.range n).filter p

/-- The least element under a measure, the first of equals. -/
def minBy {α : Type} (f : α → Nat) : List α → Option α
  | [] => none
  | x :: xs =>
    match minBy f xs with
    | none => some x
    | some y => if f x ≤ f y then some x else some y

/-- Insert into a list that rises under a measure. -/
def insertBy {α : Type} (f : α → Nat) (x : α) : List α → List α
  | [] => [x]
  | y :: ys => if f x ≤ f y then x :: y :: ys else y :: insertBy f x ys

/-- Sort by a measure, equals in their order. -/
def sortBy {α : Type} (f : α → Nat) : List α → List α
  | [] => []
  | x :: xs => insertBy f x (sortBy f xs)

/-- Divide with the fraction .5 rounded away from zero. -/
def roundDiv (n m : Nat) : Nat := (2 * n + m) / (2 * m)

/-- Replace the element at a position; out of range nothing changes. -/
def setAt {α : Type} : List α → Nat → α → List α
  | [], _, _ => []
  | _ :: xs, 0, y => y :: xs
  | x :: xs, i + 1, y => x :: setAt xs i y

/-- The list without the first element that satisfies a test. -/
def removeFirst {α : Type} (p : α → Bool) : List α → List α
  | [] => []
  | x :: xs => if p x then xs else x :: removeFirst p xs

/-- The list with its first element equal to `x` replaced by `y`. -/
def replaceFirst {α : Type} [DecidableEq α] (x y : α) : List α → List α
  | [] => []
  | z :: zs => if z = x then y :: zs else z :: replaceFirst x y zs

end Sys2Proof.Machine
end

