-- ==== Sys2Proof/Machine/Operands.lean ====
section
/-! DEFINITION. The layouts of what commands carry: packet headers (R120 to R131), control payloads (R133, R134, R376, R418, R508,
R566, R643), table entries (R141, R194, R262, R468, R559), the flit header (R82) and addresses (R7, R73). -/

namespace Sys2Proof.Machine

/-! ### Addresses -/

/-- End of tier P and base of the tier H windows (R7). -/
def tierHBase : Nat := 0x2E0000000000
/-- Size of one tier H window, 576 GiB (R7). -/
def windowSize : Nat := 0x9000000000

/-! ### System areas (R230, R231) -/

namespace SysArea
/-- Window offset of a stack's system area. -/
def start (s : Nat) : Nat := s * 0xC00000000 + 0xBC0000000
/-- Offset and size, in a quadrant's system area, of the dedup store, Yarrow's journal, the microcode images, the records that wait for their
hosts, and the reserved rest. -/
def dedup : Nat × Nat := (0, 0x8000000)
def journal : Nat × Nat := (0x8000000, 0x20000000)
def images : Nat × Nat := (0x28000000, 0x4000000)
def records : Nat × Nat := (0x2C000000, 0x1000000)
def reserved : Nat × Nat := (0x2D000000, 0x13000000)
/-- The two library banks of the microcode images, A at 0 and B at 32 MiB (R344). -/
def bank (b : Nat) : Nat × Nat := (images.1 + if b = 1 then 0 else 0x2000000, 0x2000000)
end SysArea
/-- Start of the window of a switch ID (R7, R73). -/
def windowBase (sw : Nat) : Nat := tierHBase + sw * windowSize
/-- The switch ID whose window holds a DA, for DAs outside tier P. -/
def windowOf (da : Nat) : Nat := (da - tierHBase) / windowSize
/-- A DA lies in tier P (R7). -/
def isTierP (da : Nat) : Bool := da < tierHBase

end Sys2Proof.Machine

namespace Sys2Proof
open Machine

/-! ### Packets -/

/-- PTYPE codes (R121). -/
def PType.code : PType → Nat
  | .read => 1 | .write => 2 | .writePosted => 3 | .atomic => 4 | .resp => 5 | .msg => 6
  | .jobPost => 7 | .jobResult => 8 | .reduceContrib => 9 | .reduceResult => 10 | .ctrl => 11

/-- The type of a PTYPE code; the rest is reserved (R121). -/
def ptypeOf : Nat → Option PType
  | 1 => some .read | 2 => some .write | 3 => some .writePosted | 4 => some .atomic | 5 => some .resp | 6 => some .msg
  | 7 => some .jobPost | 8 => some .jobResult | 9 => some .reduceContrib | 10 => some .reduceResult | 11 => some .ctrl
  | _ => none

/-- HLEN of a type in 8-byte units (R121). -/
def PType.hlen : PType → Nat
  | .read | .write | .writePosted | .atomic | .jobPost | .jobResult | .reduceContrib | .reduceResult => 4
  | .resp | .msg | .ctrl => 3

/-- Types that draw an answer when they fail (R121, R152). -/
def PType.isRequest : PType → Bool
  | .read | .write | .writePosted | .atomic | .msg | .jobPost | .reduceContrib => true
  | .resp | .jobResult | .reduceResult | .ctrl => false

/-- Memory requests (R124). -/
def PType.isMem : PType → Bool
  | .read | .write | .writePosted | .atomic => true
  | _ => false

/-- Length of a packet in its class stream (R119). -/
def Packet.wireLen (p : Packet) : Nat := 8 * p.ptype.hlen + p.payload.length + (if p.enc then 16 else 0)

/-- The class stream a packet came in: that of the flits that carried it (R82, R120). -/
def Packet.stream (p : Packet) : Nat := p.carrier.getD p.cls

/-- Cells a packet occupies (R154). -/
def Packet.cells (p : Packet) : Nat := ceilDiv p.wireLen 256

/-- Common header, bytes 0 to 15, as one number (R120). -/
def Packet.header (p : Packet) : Nat :=
  p.ptype.code + p.cls * 2 ^ 8 + p.enc.toNat * 2 ^ 11 + p.ptype.hlen * 2 ^ 12 + p.mc.toNat * 2 ^ 15 + p.dst * 2 ^ 16
    + p.src * 2 ^ 28 + p.comp * 2 ^ 40 + p.kslot * 2 ^ 48 + p.kgen * 2 ^ 56 + p.payload.length * 2 ^ 64 + p.tag * 2 ^ 80
    + p.reqEpoch * 2 ^ 96 + p.status * 2 ^ 104

/-- The extension of the type, from byte 16, as one number (R124, R127 to R131). -/
def Packet.extension (p : Packet) : Nat :=
  match p.ptype with
  | .read | .write | .writePosted | .atomic =>
    p.da + p.epoch * 2 ^ 46 + p.rkey * 2 ^ 64 + p.rlen * 2 ^ 96 + p.aop * 2 ^ 112 + p.awidth * 2 ^ 116 + p.asigned.toNat * 2 ^ 118
  | .resp => p.epoch + p.swgen.toNat * 2 ^ 16 + p.swId * 2 ^ 17
  | .msg => p.dstDomain + p.srcDomain * 2 ^ 16 + p.mqueue * 2 ^ 32
  | .jobPost | .jobResult => p.workId + p.quad * 2 ^ 64 + p.node * 2 ^ 72 + p.part * 2 ^ 80 + p.final.toNat * 2 ^ 96
  | .reduceContrib | .reduceResult =>
    p.group + p.chunk * 2 ^ 16 + p.contrib * 2 ^ 48 + p.ifmt * 2 ^ 60 + p.nelem * 2 ^ 64 + p.rop * 2 ^ 80
  | .ctrl => p.ctype + p.srcSw * 2 ^ 8 + p.fromSw.toNat * 2 ^ 13

/-- The header of 8 × HLEN bytes (R119). -/
def Packet.headerBytes (p : Packet) : Bytes := leBytes 16 p.header ++ leBytes (8 * p.ptype.hlen - 16) p.extension

/-- The whole packet in its class stream, with the encrypted payload and tag given where ENC is 1 (R119). -/
def Packet.bytes (p : Packet) (sealed : Bytes) : Bytes := p.headerBytes ++ (if p.enc then sealed else p.payload)

/-- The packet as a CTRL packet with this CTYPE, SRC_SW and FROM_SW in its extension (R131). -/
def Packet.asCtrl (p : Packet) (ctype srcSw : Nat) (fromSw : Bool) : Packet :=
  { p with ptype := .ctrl, ctype := ctype, srcSw := srcSw, fromSw := fromSw }

/-- A packet of the own header fields and a payload as a host writes it into a send slot (R591). -/
def packetOf (bs : Bytes) : Option Packet :=
  let h := le bs 0 16
  match ptypeOf (bits h 0 8) with
  | none => none
  | some t =>
    let x := le bs 16 (8 * t.hlen - 16)
    let mem := t.isMem
    let job := decide (t = .jobPost ∨ t = .jobResult)
    let red := decide (t = .reduceContrib ∨ t = .reduceResult)
    some { ptype := t, cls := bits h 8 3, enc := bit h 11, mc := bit h 15, dst := bits h 16 12, src := bits h 28 12,
           comp := bits h 40 6, kslot := bits h 48 8, kgen := bits h 56 8, tag := bits h 80 16, reqEpoch := bits h 96 8,
           status := bits h 104 8,
           da := if mem then bits x 0 46 else 0,
           epoch := if mem then bits x 46 16 else if t = .resp then bits x 0 16 else 0,
           rkey := if mem then bits x 64 32 else 0, rlen := if mem then bits x 96 13 else 0,
           aop := if mem then bits x 112 4 else 0, awidth := if mem then bits x 116 2 else 0,
           asigned := mem && bit x 118,
           swgen := decide (t = .resp) && bit x 16, swId := if t = .resp then bits x 17 5 else 0,
           dstDomain := if t = .msg then bits x 0 16 else 0xFFFF, srcDomain := if t = .msg then bits x 16 16 else 0xFFFF,
           mqueue := if t = .msg then bits x 32 16 else 0,
           workId := if job then bits x 0 64 else 0, quad := if job then bits x 64 4 else 0,
           node := if job then bits x 72 8 else 0, part := if job then bits x 80 16 else 0, final := job && bit x 96,
           group := if red then bits x 0 16 else 0, chunk := if red then bits x 16 32 else 0,
           contrib := if red then bits x 48 12 else 0, ifmt := if red then bits x 60 4 else 0,
           nelem := if red then bits x 64 16 else 0, rop := if red then bits x 80 4 else 0,
           ctype := if t = .ctrl then bits x 0 8 else 0, srcSw := if t = .ctrl then bits x 8 5 else 0,
           fromSw := decide (t = .ctrl) && bit x 13,
           payload := slice bs (8 * t.hlen) (bits h 64 15) }

/-! ### Control payloads -/

/-- BIST payload (R643). -/
def BistMsg.bytes (m : BistMsg) : Bytes :=
  leBytes 1 m.op ++ leBytes 1 m.sw ++ leBytes 1 m.toSw ++ leBytes 1 m.pass ++ leBytes 4 0 ++ leBytes 8 m.tick ++ leBytes 32 m.detail

/-- JOB_CANCEL payload as bytes carry it (R418). -/
def cancelOf (bs : Bytes) : CancelMsg :=
  { workId := le bs 0 8, op := le bs 8 1, sw := le bs 9 1, replyFeid := le bs 10 2, toSw := le bs 12 1 }

/-- TICK_MARKER payload (R133). -/
def Marker.bytes (m : Marker) : Bytes :=
  leBytes 16 (m.tick + m.master * 2 ^ 64 + m.depth * 2 ^ 69 + m.holdover.toNat * 2 ^ 74 + m.extAligned.toNat * 2 ^ 75
    + m.handoverIn * 2 ^ 76 + m.corr * 2 ^ 96)

/-- BEACON payload (R134). -/
def Beacon.bytes (b : Beacon) : Bytes :=
  leBytes 8 b.tick ++ leBytes 1 b.switchId ++ leBytes 1 b.svcLevel ++ leBytes 1 b.campion ++ leBytes 1 b.tickState
    ++ leBytes 1 b.depth ++ leBytes 1 b.flags ++ leBytes 2 b.domId ++ leBytes 8 b.serial ++ padTo 32 b.meas ++ leBytes 8 0

/-- DYING payload, bytes 10 to 25 of the flit (R114). -/
def Dying.bytes (d : Dying) : Bytes :=
  leBytes 1 d.reason ++ leBytes 1 d.srcKind ++ leBytes 2 d.srcId ++ leBytes 8 d.tick ++ leBytes 2 d.portsLeft ++ leBytes 2 0

/-- RECOVERY payload: 16 bytes for FENCE and EXPEL, 24 for RECOVER (R508). -/
def RecoveryMsg.bytes (m : RecoveryMsg) : Bytes :=
  let head := leBytes 1 m.op ++ leBytes 1 m.comp ++ leBytes 2 m.reason ++ leBytes 8 m.tick ++ leBytes 1 m.sw ++ leBytes 1 m.kind
    ++ leBytes 2 m.id
  if m.op = 3 then padTo 24 (head ++ leBytes 1 m.phase ++ leBytes 4 m.targets) else head

/-! ### Flits -/

/-- The 80-bit flit header (R82). -/
def Flit.header (f : Flit) : Nat :=
  f.ftype + f.cls * 2 ^ 4 + f.sh.toNat * 2 ^ 7 + f.seq * 2 ^ 8 + f.ack * 2 ^ 20 + f.ackValid.toNat * 2 ^ 32 + f.nak.toNat * 2 ^ 33
    + f.craSel * 2 ^ 34 + f.craCnt * 2 ^ 38 + f.crbSel * 2 ^ 46 + f.crbCnt * 2 ^ 50 + f.sop * 2 ^ 58 + f.lcmd * 2 ^ 66
    + f.lmask * 2 ^ 70

/-- One step of the CRC-32 of the IEEE 802.3 frame check sequence over a byte (R83), in the reflected form of the standard. -/
def crcByte (crc : Nat) (b : Byte) : Nat :=
  (List.range 8).foldl (fun c _ => if c % 2 = 1 then (c / 2) ^^^ 0xEDB88320 else c / 2) (crc ^^^ b.toNat)

/-- CRC-32 with the polynomial 0x04C1_1DB7 (R83). -/
def crc32 (bs : Bytes) : Nat := (bs.foldl crcByte 0xFFFFFFFF) ^^^ 0xFFFFFFFF

/-- The 256 bytes of a flit (R82). -/
def Flit.bytes (f : Flit) : Bytes :=
  let body := leBytes 10 f.header ++ padTo 242 f.payload
  body ++ leBytes 4 (crc32 body)

end Sys2Proof

namespace Sys2Proof.Machine

/-! ### Home Map entry (R141) -/

namespace HMap
def base (e : Nat) : Nat := bits e 0 25
def last (e : Nat) : Nat := bits e 25 25
def state (e : Nat) : Nat := bits e 50 2
def stripe (e : Nat) : Bool := bit e 52
def igran (e : Nat) : Nat := bits e 53 4
def planes (e : Nat) : Nat := bits e 64 32
def home (e : Nat) : Nat := bits e 96 12
def next (e : Nat) : Nat := bits e 108 12
def group (e : Nat) : Nat := bits e 120 10
def comp (e : Nat) : Nat := bits e 130 6
def epoch (e : Nat) : Nat := bits e 136 16
def transTick (e : Nat) : Nat := bits e 152 64
/-- The entry covers a DA, in STATE STABLE or TRANSITION. -/
def covers (e da : Nat) : Bool := (state e = 1 || state e = 2) && base e ≤ da / 2 ^ 21 && da / 2 ^ 21 ≤ last e
/-- The tray that serves the range: NEXT_FEID while in TRANSITION (R491). -/
def tray (e : Nat) : Nat := if state e = 2 then next e else home e
end HMap

/-! ### Stripe group entry (R468) -/

namespace SG
def k (e : Nat) : Nat := bits e 0 4
def gstate (e : Nat) : Nat := bits e 4 3
def quad (e : Nat) : Nat := bits e 7 2
def gbase (e : Nat) : Nat := bits e 16 46
def member (e m : Nat) : Nat := bits e (64 + 12 * m) 12
def mstate (e m : Nat) : Nat := bits e (256 + 2 * m) 2
def spare (e i : Nat) : Nat := bits e (288 + 12 * i) 12
def spareValid (e i : Nat) : Bool := bit e (312 + i)
def cursor (e : Nat) : Nat := bits e 320 32
def stripes (e : Nat) : Nat := bits e 352 32
def mask (e : Nat) : Nat := bits e 384 16
def setGstate (e v : Nat) : Nat := setBits e 4 3 v
def setMember (e m v : Nat) : Nat := setBits e (64 + 12 * m) 12 v
def setMstate (e m v : Nat) : Nat := setBits e (256 + 2 * m) 2 v
def setCursor (e v : Nat) : Nat := setBits e 320 32 v
def setStripes (e v : Nat) : Nat := setBits e 352 32 v
def setMask (e v : Nat) : Nat := setBits e 384 16 v
def clearSpare (e i : Nat) : Nat := setBit e (312 + i) false
/-- Members holding Q, P and data unit j of stripe s (R471). -/
def qMember (e s : Nat) : Nat := k e + 1 - s % (k e + 2)
def pMember (e s : Nat) : Nat := (qMember e s + (k e + 1)) % (k e + 2)
def dMember (e s j : Nat) : Nat := (qMember e s + 1 + j) % (k e + 2)
/-- The member that holds a unit: data units 0 to K − 1, then P, then Q. -/
def memberOf (e s u : Nat) : Nat := if u < k e then dMember e s u else if u = k e then pMember e s else qMember e s
end SG

/-! ### Region entry (R194) -/

namespace Region
def base (e : Nat) : Nat := bits e 0 25
def size (e : Nat) : Nat := bits e 25 5
def state (e : Nat) : Nat := bits e 30 2
def rd (e : Nat) : Bool := bit e 32
def wr (e : Nat) : Bool := bit e 33
def at' (e : Nat) : Bool := bit e 34
def comp (e : Nat) : Nat := bits e 36 6
def rkey (e : Nat) : Nat := bits e 48 32
def restSlot (e : Nat) : Nat := bits e 80 8
def restEnc (e : Nat) : Bool := bit e 88
def restMac (e : Nat) : Bool := bit e 89
/-- The VALID region holds a DA. -/
def holds (e da : Nat) : Bool := state e = 1 && base e ≤ da / 2 ^ 21 && da / 2 ^ 21 < base e + 2 ^ size e
end Region

/-- The (i + 1)-th lowest set bit of a mask of switches. -/
def nthMember (mask i : Nat) : Nat := (members 32 mask).getD i 0xFF

/-- Home plane of a tier P DA (R144): entry, data members of its stripe group, DA. -/
def homePlane (e k da : Nat) : Nat :=
  let off := da - HMap.base e * 2 ^ 21
  let unit := if HMap.stripe e then k * 4096 else 4096 * 2 ^ HMap.igran e
  nthMember (HMap.planes e) ((off / unit) % popCount 32 (HMap.planes e))

end Sys2Proof.Machine
end

