-- ==== Sys2Proof/Config.lean ====
section
/-! DEFINITION. What an implementation fixes and the spec leaves open: constants without a body, of which no proof
can know a value. Cryptographic functions of outside standards, library arithmetic the spec bounds but does not fix,
factory and strapped values, and fresh random values stand here. -/

namespace Sys2Proof.Config

/-- SHAKE256 (FIPS 202): input, length of the output in bytes. Uninterpreted (log 8). -/
opaque shake256 : Bytes → Nat → Bytes

/-- ML-DSA-65 verification (FIPS 204): public key, message, signature. Uninterpreted (log 8). -/
opaque mldsaVerify : Bytes → Bytes → Bytes → Bool

/-- ML-DSA-65 signature by the key pair of a seed. Uninterpreted (log 8). -/
opaque mldsaSign : Nat → Bytes → Bytes

/-- ML-DSA-65 public key of the key pair of a seed. Uninterpreted (log 8). -/
opaque mldsaPublic : Nat → Bytes

/-- Certificate of a public key by the key pair of a seed, whose format the spec does not give. Uninterpreted (log 8). -/
opaque certificate : Nat → Bytes → Bytes

/-- Secrets, digests and image measurements that fuses and the factory flash hold (R528, R529, R531, R554), by the model's own numbers: free
(log 11). -/
opaque secret : Nat → Nat

/-- The envelope and body whose measurement is a digest, as the flash of a manager holds it (R58 phase 2, R533): free (log 136). -/
opaque heldImage : Bytes → Bytes

/-- ML-KEM-768 encapsulation key of a session, from the session's seed (FIPS 203). Uninterpreted (log 8). -/
opaque mlkemEk : Nat → Bytes

/-- ML-KEM-768 decapsulation: session seed, ciphertext; the shared secret. Uninterpreted (log 8). -/
opaque mlkemDecap : Nat → Bytes → Bytes

/-- AES-256-GCM: key, nonce number, authenticated data, plaintext; ciphertext followed by the 16-byte tag. Uninterpreted (log 8). -/
opaque gcmSeal : Bytes → Nat → Bytes → Bytes → Bytes

/-- AES-256-GCM: key, nonce number, authenticated data, ciphertext with tag; the plaintext where the tag is right. Uninterpreted (log 8). -/
opaque gcmOpen : Bytes → Nat → Bytes → Bytes → Option Bytes

/-- AES-256-XTS over one 256-byte unit: decrypt?, key, tweak, unit. Uninterpreted (log 8). -/
opaque xts : Bool → Bytes → Nat → Bytes → Bytes

/-- KMAC256 with the customization of R550: key, unit DA, ciphertext; the 8-byte MAC. Uninterpreted (log 8). -/
opaque restMac : Bytes → Nat → Bytes → Bytes

/-- A certificate chains to the key whose digest is given, and binds the public key returned (R581). Uninterpreted (log 8). -/
opaque certChain : Bytes → Bytes → Option Bytes

/-- Fresh values of the security root's random source: draw number, length in bytes (R603 Random; salts, nonces). Free (log 10). -/
opaque freeBytes : Nat → Nat → Bytes

/-- A free value, by draw number: nothing constrains it (log 10). -/
opaque freeValue : Nat → Nat

/-- Values written at manufacture, sampled from straps, read from fuses or generated once, by dictionary key (R603). Free (log 11). -/
opaque factory : Nat → Nat

/-- Set of a directory slice that a line falls into, 0 to 16,383 (R294 gives 16-way sets and not the mapping): free (log 16). -/
opaque dirSet : Nat → Nat

/-- Set of an L2 that a line falls into, 0 to 8,191 (R233 gives a size and 16 ways and not the mapping): free (log 152). -/
opaque l2Set : Nat → Nat

/-- The hash of source and destination FEID that picks among several GATEWAY ports (R71): free (log 12). -/
opaque gatewayHash : Nat → Nat → Nat

/-- Binary32 code that a vector-library function computes: library version, operator code, SUBOP, the exact values of its arguments. Free; the
vector unit's functions keep it within the bounds of R361 (log 9). -/
opaque libFn : Nat → Nat → Nat → List Int → Nat

/-- Order-dependent library reductions (REDUCE_LOCAL SUM, SOFTMAX, NORM, TOPK; R363): library version, operator code, SUBOP,
shape, operand bytes; the output bytes. Free (log 9). -/
opaque libReduce : Nat → Nat → Nat → List Nat → List Bytes → Bytes

/-- What the active library's tiler gives for an operator other than GEMM: operator code, library version and PARAMS, bound in cycles. With the
code itself the step of its grid points in units, read as at least 1 (R331); with 256 + the code, and the first unit and the units of a quantum
behind the PARAMS, the compute cycles of the quantum (R330). Free (log 9). -/
opaque libGrid : Nat → List Nat → Nat → Nat

/-- Scratch units that the tiler asks for of those that are free: operator code, parameters, first unit and units of the quantum (R255 gives
no count): free (log 154). -/
opaque libScratch : Nat → List Nat → Nat

end Sys2Proof.Config
end

