-- ==== Sys2Proof/Machine/Tab.lean ====
section
/-! DEFINITION. Sparse tables by number, kept in one canonical form: keys strictly rising, so that equal tables are equal data. -/

namespace Sys2Proof

variable {α : Type}

/-- The entry at a key. -/
def Tab.look : Tab α → Nat → Option α
  | [], _ => none
  | (j, v) :: t, k => if j = k then some v else Tab.look t k

/-- The entry at a key, or a default where none stands. -/
def Tab.getD (t : Tab α) (k : Nat) (d : α) : α := (Tab.look t k).getD d

/-- An entry stands at the key. -/
def Tab.has (t : Tab α) (k : Nat) : Bool := (Tab.look t k).isSome

/-- Enter or replace. -/
def Tab.put : Tab α → Nat → α → Tab α
  | [], k, v => [(k, v)]
  | (j, w) :: t, k, v =>
    if k < j then (k, v) :: (j, w) :: t else if j = k then (k, v) :: t else (j, w) :: Tab.put t k v

/-- Remove. -/
def Tab.del (t : Tab α) (k : Nat) : Tab α := t.filter (fun kv => kv.1 != k)

/-- Enter a value that an absent key stands for by removing the key. -/
def Tab.set [DecidableEq α] (t : Tab α) (k : Nat) (v d : α) : Tab α :=
  if v = d then Tab.del t k else Tab.put t k v

/-- Change the entry at a key, where one stands. -/
def Tab.edit (t : Tab α) (k : Nat) (f : α → α) : Tab α :=
  match Tab.look t k with
  | some v => Tab.put t k (f v)
  | none => t

/-- Change the entry at a key, a missing one standing for the default. -/
def Tab.upd (t : Tab α) (k : Nat) (d : α) (f : α → α) : Tab α := Tab.put t k (f (Tab.getD t k d))

/-- The keys, rising. -/
def Tab.keys (t : Tab α) : List Nat := t.map Prod.fst

/-- The entries in the order of their keys. -/
def Tab.vals (t : Tab α) : List α := t.map Prod.snd

/-- Keep the entries that satisfy a test. -/
def Tab.keep (t : Tab α) (p : Nat → α → Bool) : Tab α := t.filter (fun kv => p kv.1 kv.2)

/-- Change every entry. -/
def Tab.mapV {β : Type} (t : Tab α) (f : Nat → α → β) : Tab β := t.map (fun kv => (kv.1, f kv.1 kv.2))

/-- The least key that satisfies a test. -/
def Tab.findKey (t : Tab α) (p : Nat → α → Bool) : Option Nat := (t.find? (fun kv => p kv.1 kv.2)).map Prod.fst

/-- How many entries satisfy a test. -/
def Tab.count (t : Tab α) (p : Nat → α → Bool) : Nat := (t.filter (fun kv => p kv.1 kv.2)).length

end Sys2Proof
end

