-- ==== Sys2Proof/Machine/DictTable.lean ====
section
/-! DEFINITION. The object dictionary's entries as the tables of the spec list them (R600, R617, R620 and each chapter's own table):
sub-index, type, access codes, default and reset class, and the key under which the model keeps each value. -/

namespace Sys2Proof.Machine

/-- Access codes of an interface column (R13); `no` is the dash. -/
inductive Access where
  | ro | rw | wo | rc | rwl | no
  deriving DecidableEq, Repr

/-- Reset classes (R15). -/
inductive RClass where
  | p | f | w | s
  deriving DecidableEq, Repr

/-- Kinds of types (R12, R601): unsigned or signed numbers, BOOL, BITS32, OCTETS, STRING. -/
inductive EKind where
  | num | bool | flags | octets | text
  deriving DecidableEq, Repr

/-- One dictionary entry: sub-index, size in bytes, type, columns M, H and S, default (R602; `factory` where R603 gives it in words,
log 11), reset class, and the key of the selector that picks among its instances (0: none). -/
structure Entry where
  sub : Nat
  size : Nat
  kind : EKind
  m : Access
  h : Access
  s : Access
  dflt : Nat
  factory : Bool
  rst : RClass
  sel : Nat
  deriving DecidableEq, Repr

/-- A short writing of a table row whose default is a value. -/
def ent (sub size : Nat) (kind : EKind) (m h s : Access) (dflt : Nat) (rst : RClass) (sel : Nat := 0) : Entry :=
  ⟨sub, size, kind, m, h, s, dflt, false, rst, sel⟩

/-- A table row whose default is given in words (R603). -/
def entF (sub size : Nat) (kind : EKind) (m h s : Access) (rst : RClass) : Entry := ⟨sub, size, kind, m, h, s, 0, true, rst, 0⟩

namespace Dict
open Access RClass EKind

/-- Entries of index 0x1000. -/
def rows1000 : List Entry := [
  ent 0x00 1 num ro ro ro 0x10 p,
  ent 0x01 16 text ro ro ro 0x646C6F666F736E6557 p,
  ent 0x02 16 text ro ro ro 0x395354207265736D75726854 p,
  ent 0x03 16 text ro ro ro 0x434C2D3836372D395354 p,
  entF 0x04 8 num ro ro ro p,
  entF 0x05 2 num ro ro ro p,
  entF 0x06 1 num ro ro ro p,
  entF 0x07 10 octets ro ro no p,
  entF 0x08 4 num ro ro ro p,
  entF 0x09 4 num ro ro ro p,
  ent 0x0A 4 num ro ro ro 0 w,
  ent 0x0B 4 num ro ro ro 0 w,
  ent 0x0C 2 num ro ro ro 1 p,
  ent 0x0D 1 bool rw rw ro 0 f,
  ent 0x0E 4 num rc rc rc 0 s,
  ent 0x0F 4 num rc rc rc 0 s,
  ent 0x10 16 octets ro ro no 0 s]

/-- Entries of index 0x1100. -/
def rows1100 : List Entry := [
  ent 0x00 1 num ro ro ro 0xE p,
  entF 0x01 6 octets ro ro ro p,
  ent 0x02 1 num rwl rwl no 0 f,
  ent 0x03 12 octets rwl rwl no 0 f,
  ent 0x04 33 octets rwl rwl no 0 f,
  ent 0x05 2 num rwl rwl no 0x1E47 f,
  ent 0x06 32 octets rwl rwl no 0 f,
  entF 0x07 1952 octets ro ro no p,
  ent 0x08 8192 octets rwl rwl no 0 f,
  ent 0x09 1 num ro ro no 0 w,
  ent 0x0A 4 num rc rc rc 0 s,
  ent 0x0B 1 num ro ro ro 0 w,
  ent 0x0C 4 num rc rc rc 0 s,
  entF 0x0D 1 num ro ro ro p,
  ent 0x0E 1 num rw rw no 0x1C f]

/-- Entries of index 0x1200. -/
def rows1200 : List Entry := [
  ent 0x00 1 num ro ro ro 0x18 p,
  ent 0x01 8 num rw rw no 0 f,
  ent 0x02 2 num rw rw no 0x40 f,
  ent 0x03 2 num ro ro no 0 w,
  ent 0x04 2 num rw rw no 0 w,
  ent 0x05 1 num ro ro no 0 w,
  ent 0x06 4 num rc rc no 0 s,
  ent 0x07 4 flags ro ro ro 0 w,
  ent 0x08 8 num rc rc no 0 s,
  ent 0x11 8 num rw rw no 0 f,
  ent 0x12 2 num rw rw no 0x40 f,
  ent 0x13 2 num ro ro no 0 w,
  ent 0x14 2 num rw rw no 0 w,
  ent 0x15 1 num ro ro no 0 w,
  ent 0x16 4 num rc rc no 0 s,
  ent 0x17 4 flags ro ro ro 0 w,
  ent 0x18 8 num rc rc no 0 s,
  ent 0x20 8 num rw rw no 0 f,
  ent 0x21 1 num rwl ro no 0 f,
  ent 0x22 4 num rwl no no 0 f,
  ent 0x23 4 num rc rc no 0 s,
  ent 0x24 8 num rw rw no 0 f,
  ent 0x25 1 num rwl ro no 0 f,
  ent 0x26 4 num rwl no no 0 f,
  ent 0x27 4 num rc rc no 0 s]

/-- Entries of index 0x2100+b. -/
def rows2100 : List Entry := [
  ent 0x00 1 num ro ro ro 0x17 p,
  ent 0x01 1 num rwl ro ro 0 f,
  ent 0x02 1 num rwl ro ro 0 f,
  ent 0x03 4 flags ro ro ro 0 w,
  ent 0x04 8 octets rwl ro no 0x1820203020203008 f,
  ent 0x05 1 bool rw ro no 1 f,
  ent 0x06 4 flags ro ro no 0 w,
  ent 0x07 4 num rw ro no 0x3D090 f,
  ent 0x10 8 num rc rc no 0 s,
  ent 0x11 8 num rc rc no 0 s,
  ent 0x12 8 num rc rc no 0 s,
  ent 0x13 8 num rc rc no 0 s,
  ent 0x14 8 num rc rc no 0 s,
  ent 0x15 8 num rc rc no 0 s,
  ent 0x16 8 num rc rc no 0 s,
  ent 0x17 8 num rc rc no 0 s,
  ent 0x18 4 num rc rc rc 0 s,
  ent 0x19 4 num rc rc rc 0 s,
  ent 0x1A 4 num rc rc rc 0 s,
  ent 0x1B 4 num rc rc rc 0 s,
  ent 0x1C 4 num rc rc rc 0 s,
  ent 0x1D 4 num rc rc rc 0 s,
  ent 0x1E 4 num rc rc rc 0 s,
  ent 0x1F 4 num rc rc rc 0 s]

/-- Entries of index 0x2200+p. -/
def rows2200 : List Entry := [
  ent 0x00 1 num ro ro ro 0x18 p,
  ent 0x01 1 num ro ro ro 0 w,
  ent 0x02 1 num ro ro ro 0 w,
  ent 0x03 4 flags ro ro no 0 w,
  ent 0x04 1 bool rw ro no 1 f,
  ent 0x05 8 num rc rc no 0 s,
  ent 0x06 8 num rc rc no 0 s,
  ent 0x07 8 num rc rc no 0 s,
  ent 0x08 8 num rc rc no 0 s,
  ent 0x09 4 num rc rc rc 0 s,
  ent 0x0A 4 num rc rc no 0 s,
  ent 0x0B 4 num rc rc no 0 s,
  ent 0x0C 8 num rc rc no 0 s,
  ent 0x0D 4 num rc rc rc 0 s,
  ent 0x0E 4 num rc rc rc 0 s,
  ent 0x0F 4 num rc rc rc 0 s,
  ent 0x10 4 num rc rc no 0 s,
  ent 0x11 4 num rc rc rc 0 s,
  ent 0x12 16 octets ro ro no 0 s,
  ent 0x13 8 num rc rc no 0 s,
  ent 0x14 2 num ro ro no 0 w,
  ent 0x20 1 num rwl ro ro 0 f,
  ent 0x21 2 num rwl ro no 0xFFFF f,
  ent 0x22 2 num rwl ro no 0xFFFF f,
  ent 0x23 2 num ro ro no 0xFFFF w]

/-- Entries of index 0x3000. -/
def rows3000a : List Entry := [
  ent 0x00 1 num ro ro ro 0x29 p,
  ent 0x01 4 num ro ro ro 0x30000 p,
  ent 0x02 8 octets rw ro no 0xFCFDFF00FEFF0103 f,
  ent 0x03 4 num rwl ro no 0x800 p,
  ent 0x04 4 num rwl ro no 0x1000 p,
  ent 0x05 8 octets rw ro no 0x101020402040000 f,
  ent 0x06 1 bool rw ro no 1 f,
  ent 0x07 2 num rw ro no 0x3E8 f,
  ent 0x08 2 num rw ro no 0x100 f,
  ent 0x09 2 num rw ro no 8 f,
  ent 0x0A 2 num rw rw no 0 w,
  ent 0x0B 4 num ro ro no 0 w,
  ent 0x0C 8 num rc rc no 0 s,
  ent 0x0D 4 num rc rc rc 0 s,
  ent 0x10 4 num ro ro ro 0 w,
  ent 0x11 4 num ro ro ro 0 w,
  ent 0x12 4 num ro ro ro 0 w,
  ent 0x13 4 num ro ro ro 0 w,
  ent 0x14 4 num rc rc no 0 s,
  ent 0x15 4 num rc rc no 0 s,
  ent 0x16 4 num rc rc no 0 s,
  ent 0x17 4 num rc rc no 0 s,
  ent 0x18 8 num rc rc no 0 s,
  ent 0x19 8 num rc rc no 0 s,
  ent 0x1A 8 num rc rc no 0 s,
  ent 0x1B 8 num rc rc no 0 s,
  ent 0x1C 4 num ro ro no 0 w,
  ent 0x1D 4 num ro ro no 0 w,
  ent 0x1E 4 num ro ro no 0 w,
  ent 0x1F 4 num ro ro no 0 w]

/-- Entries of index 0x3000. -/
def rows3000b : List Entry := [
  ent 0x20 4 num rc rc rc 0 s,
  ent 0x21 4 num rc rc rc 0 s,
  ent 0x22 4 num rc rc rc 0 s,
  ent 0x23 4 num rc rc rc 0 s,
  ent 0x24 4 num rc rc no 0 s,
  ent 0x25 4 num rc rc no 0 s,
  ent 0x26 4 num rc rc no 0 s,
  ent 0x27 4 num rc rc no 0 s,
  ent 0x28 2 num ro ro no 0 w,
  ent 0x29 2 num ro ro no 0 w,
  ent 0x2A 2 num ro ro no 0 w,
  ent 0x2B 2 num ro ro no 0 w]

/-- Entries of index 0x3000. -/
def rows3000 : List Entry := rows3000a ++ rows3000b

/-- Entries of index 0x3100. -/
def rows3100 : List Entry := [
  ent 0x00 1 num ro ro ro 0x11 p,
  ent 0x01 2 num ro ro ro 0x1000 p,
  ent 0x02 2 num rw rw no 0 w,
  ent 0x03 52 octets rw ro no 0 f 0x310002,
  ent 0x04 4 num rw ro no 0x4000 f,
  ent 0x05 4 num ro ro no 0x8000 p,
  ent 0x10 8 num rc rc no 0 s,
  ent 0x11 8 num rc rc no 0 s,
  ent 0x12 8 num rc rc no 0 s,
  ent 0x13 8 num rc rc no 0 s,
  ent 0x14 4 num rc rc no 0 s,
  ent 0x15 4 num rc rc no 0 s,
  ent 0x16 4 num rc rc no 0 s,
  ent 0x17 4 num rc rc no 0 s,
  ent 0x18 4 num ro ro no 0 w,
  ent 0x19 4 num ro ro no 0 w,
  ent 0x1A 4 num ro ro no 0 w,
  ent 0x1B 4 num ro ro no 0 w]

/-- Entries of index 0x3300. -/
def rows3300 : List Entry := [
  ent 0x00 1 num ro ro ro 0x1A p,
  ent 0x01 1 bool rw ro no 1 f,
  ent 0x02 4 num rw ro no 0x400 f,
  ent 0x10 4 num rc rc no 0 s,
  ent 0x11 4 num rc rc no 0 s,
  ent 0x12 4 num rc rc no 0 s,
  ent 0x13 4 num rc rc no 0 s,
  ent 0x14 4 num rc rc rc 0 s,
  ent 0x15 4 num rc rc rc 0 s,
  ent 0x16 4 num rc rc rc 0 s,
  ent 0x17 4 num rc rc rc 0 s,
  ent 0x18 4 num rc rc no 0 s,
  ent 0x19 4 num rc rc no 0 s,
  ent 0x1A 4 num rc rc no 0 s,
  ent 0x1B 4 num rc rc no 0 s,
  ent 0x1C 4 num rc rc rc 0 s,
  ent 0x1D 4 num rc rc rc 0 s,
  ent 0x1E 4 num rc rc rc 0 s,
  ent 0x1F 4 num rc rc rc 0 s,
  ent 0x20 4 num rc rc no 0 s,
  ent 0x21 4 num rc rc no 0 s,
  ent 0x22 4 num rc rc no 0 s,
  ent 0x23 4 num rc rc no 0 s,
  ent 0x24 24 octets ro ro no 0 w,
  ent 0x25 24 octets ro ro no 0 w,
  ent 0x26 24 octets ro ro no 0 w,
  ent 0x27 24 octets ro ro no 0 w]

/-- Entries of index 0x3400. -/
def rows3400 : List Entry := [
  ent 0x00 1 num ro ro ro 0xC p,
  ent 0x01 2 num ro ro ro 0x2000 p,
  ent 0x02 2 num rw rw no 0 w,
  ent 0x03 32 octets rw ro no 0 f 0x340002,
  ent 0x04 32 octets ro ro no 0 f 0x340002,
  ent 0x05 2 num ro ro ro 0 f,
  ent 0x06 4 num rc rc rc 0 s,
  ent 0x07 4 num rc rc no 0 s,
  ent 0x08 4 num rc rc rc 0 s,
  ent 0x09 4 num rc rc rc 0 s,
  ent 0x0A 8 num rc rc no 0 s,
  ent 0x0B 8 num rc rc no 0 s,
  ent 0x0C 1 bool rw ro no 1 f]

/-- Entries of index 0x3800. -/
def rows3800a : List Entry := [
  ent 0x00 1 num ro ro ro 0x26 p,
  ent 0x01 2 num ro ro ro 0x4000 p,
  ent 0x02 2 num rw rw no 0 w,
  ent 0x03 16 octets rw ro no 0 f 0x380002,
  ent 0x04 16 octets ro ro no 0 f 0x380002,
  ent 0x05 2 num ro ro ro 0 f,
  ent 0x06 2 num rw ro no 0x100 f,
  ent 0x07 2 num rw ro no 0x400 f,
  ent 0x08 1 num ro ro ro 0x10 p,
  ent 0x09 1 num ro ro ro 0x40 p,
  ent 0x0A 2 num rw ro no 0x14 f,
  ent 0x0B 1 num rw ro no 3 f,
  ent 0x0C 4 num rc rc rc 0 s,
  ent 0x0D 4 num rc rc rc 0 s,
  ent 0x0E 4 num rc rc no 0 s,
  ent 0x10 8 num rc rc no 0 s,
  ent 0x11 8 num rc rc no 0 s,
  ent 0x12 8 num rc rc no 0 s,
  ent 0x13 8 num rc rc no 0 s,
  ent 0x14 8 num rc rc no 0 s,
  ent 0x15 8 num rc rc no 0 s,
  ent 0x16 8 num rc rc no 0 s,
  ent 0x17 8 num rc rc no 0 s,
  ent 0x18 4 num rc rc no 0 s,
  ent 0x19 4 num rc rc no 0 s,
  ent 0x1A 4 num rc rc no 0 s,
  ent 0x1B 4 num rc rc no 0 s,
  ent 0x1C 4 num rc rc rc 0 s,
  ent 0x1D 4 num rc rc rc 0 s,
  ent 0x1E 4 num rc rc rc 0 s]

/-- Entries of index 0x3800. -/
def rows3800b : List Entry := [
  ent 0x1F 4 num rc rc rc 0 s,
  ent 0x20 4 num ro ro no 0 w,
  ent 0x21 4 num ro ro no 0 w,
  ent 0x22 4 num ro ro no 0 w,
  ent 0x23 4 num ro ro no 0 w,
  ent 0x24 8 num rc rc no 0 s,
  ent 0x25 8 num rc rc no 0 s,
  ent 0x26 8 num rc rc no 0 s,
  ent 0x27 8 num rc rc no 0 s]

/-- Entries of index 0x3800. -/
def rows3800 : List Entry := rows3800a ++ rows3800b

/-- Entries of index 0x4000. -/
def rows4000 : List Entry := [
  ent 0x00 1 num ro ro ro 0x21 p,
  ent 0x01 2 num rw ro no 0x278D f,
  ent 0x02 2 num ro ro ro 0x100 p,
  ent 0x03 2 num rw ro no 0x80 f,
  ent 0x04 4 num rw ro no 0x400 f,
  ent 0x05 1 num ro ro no 8 p,
  ent 0x06 2 num ro ro ro 0 w,
  ent 0x07 4 flags ro ro no 0 w,
  ent 0x08 1 num wo no no 0 w,
  ent 0x09 4 num rc rc rc 0 s,
  ent 0x10 8 num rc rc no 0 s,
  ent 0x11 8 num rc rc no 0 s,
  ent 0x12 8 num rc rc no 0 s,
  ent 0x13 8 num rc rc no 0 s,
  ent 0x14 4 num rc rc rc 0 s,
  ent 0x15 4 num rc rc rc 0 s,
  ent 0x16 4 num rc rc rc 0 s,
  ent 0x17 4 num rc rc rc 0 s,
  ent 0x18 8 num rc rc no 0 s,
  ent 0x19 8 num rc rc no 0 s,
  ent 0x1A 8 num rc rc no 0 s,
  ent 0x1B 8 num rc rc no 0 s,
  ent 0x1C 4 num rc rc no 0 s,
  ent 0x1D 4 num rc rc no 0 s,
  ent 0x1E 4 num rc rc no 0 s,
  ent 0x1F 4 num rc rc no 0 s,
  ent 0x20 4 num rc rc no 0 s,
  ent 0x21 4 num rc rc no 0 s,
  ent 0x22 4 num rc rc no 0 s,
  ent 0x23 4 num rc rc no 0 s,
  ent 0x24 2 num ro ro ro 0 w,
  ent 0x25 2 num ro ro ro 0 w,
  ent 0x26 2 num ro ro ro 0 w,
  ent 0x27 2 num ro ro ro 0 w]

/-- Entries of index 0x4800. -/
def rows4800a : List Entry := [
  ent 0x00 1 num ro ro ro 0x3A p,
  ent 0x01 2 num ro ro ro 0x400 p,
  ent 0x02 2 num rw rw no 0 w,
  ent 0x03 64 octets rw rw no 0 f,
  ent 0x04 2 num rw rw no 0 w,
  ent 0x05 4 num rw rw no 0 f 0x480004,
  ent 0x06 1 num wo wo no 0 w,
  ent 0x07 1 num ro ro ro 0 w 0x480002,
  ent 0x08 1 num ro ro no 0 w 0x480002,
  ent 0x09 4 num ro ro no 0 w 0x480002,
  ent 0x0A 1 num ro ro no 0xFF w 0x480002,
  ent 0x0B 512 octets ro ro no 0 w 0x480002,
  ent 0x0C 512 octets ro ro no 0 w 0x480002,
  ent 0x0D 2 num rw ro no 0x48 f,
  ent 0x0E 1 num rw ro no 8 f,
  ent 0x10 8 num rc rc no 0 s,
  ent 0x11 8 num rc rc no 0 s,
  ent 0x12 8 num rc rc no 0 s,
  ent 0x13 8 num rc rc no 0 s,
  ent 0x14 4 num rc rc no 0 s,
  ent 0x15 4 num rc rc no 0 s,
  ent 0x16 4 num rc rc no 0 s,
  ent 0x17 4 num rc rc no 0 s,
  ent 0x18 8 num rc rc no 0 s,
  ent 0x19 8 num rc rc no 0 s,
  ent 0x1A 8 num rc rc no 0 s,
  ent 0x1B 8 num rc rc no 0 s,
  ent 0x1C 4 num rc rc rc 0 s,
  ent 0x1D 4 num rc rc rc 0 s,
  ent 0x1E 4 num rc rc rc 0 s]

/-- Entries of index 0x4800. -/
def rows4800b : List Entry := [
  ent 0x1F 4 num rc rc rc 0 s,
  ent 0x20 4 num rc rc rc 0 s,
  ent 0x21 4 num rc rc rc 0 s,
  ent 0x22 4 num rc rc rc 0 s,
  ent 0x23 4 num rc rc rc 0 s,
  ent 0x24 4 num rc rc no 0 s,
  ent 0x25 4 num rc rc no 0 s,
  ent 0x26 4 num rc rc no 0 s,
  ent 0x27 4 num rc rc no 0 s,
  ent 0x28 4 num ro ro no 0 w,
  ent 0x29 4 num ro ro no 0 w,
  ent 0x2A 4 num ro ro no 0 w,
  ent 0x2B 4 num ro ro no 0 w,
  ent 0x2C 2 num ro ro no 0 w,
  ent 0x2D 2 num ro ro no 0 w,
  ent 0x2E 2 num ro ro no 0 w,
  ent 0x2F 2 num ro ro no 0 w,
  ent 0x30 4 num rc rc no 0 s,
  ent 0x31 4 num rc rc no 0 s,
  ent 0x32 4 num rc rc no 0 s,
  ent 0x33 4 num rc rc no 0 s,
  ent 0x34 4 num rc rc no 0 s,
  ent 0x35 4 num rc rc no 0 s,
  ent 0x36 4 num rc rc no 0 s,
  ent 0x37 4 num rc rc no 0 s,
  ent 0x38 8 num rc rc no 0 s,
  ent 0x39 8 num rc rc no 0 s,
  ent 0x3A 8 num rc rc no 0 s,
  ent 0x3B 8 num rc rc no 0 s]

/-- Entries of index 0x4800. -/
def rows4800 : List Entry := rows4800a ++ rows4800b

/-- Entries of index 0x4A00. -/
def rows4A00 : List Entry := [
  ent 0x00 1 num ro ro ro 0x13 p,
  ent 0x01 1 num ro ro ro 0x10 p,
  ent 0x02 1 num rw rw no 0 w,
  ent 0x03 8 num rw rw no 0 f 0x4A0002,
  ent 0x04 1 num wo wo no 0 w,
  ent 0x05 1 num ro ro ro 0 w 0x4A0002,
  ent 0x06 1 num ro ro no 0 w 0x4A0002,
  ent 0x07 2 num ro ro no 0 w 0x4A0002,
  ent 0x08 4 num rw ro no 0x400 f,
  ent 0x09 1 num rw ro no 4 f,
  ent 0x0A 2 num ro ro no 0 w,
  ent 0x10 4 num rc rc no 0 s,
  ent 0x11 4 num rc rc rc 0 s,
  ent 0x12 4 num rc rc no 0 s,
  ent 0x13 4 num rc rc no 0 s,
  ent 0x14 4 num rc rc no 0 s,
  ent 0x15 4 num rc rc no 0 s,
  ent 0x16 4 num rc rc rc 0 s,
  ent 0x17 8 num rc rc no 0 s,
  ent 0x18 4 num rc rc no 0 s]

/-- Entries of index 0x4C00. -/
def rows4C00 : List Entry := [
  ent 0x00 1 num ro ro ro 0x1C p,
  ent 0x01 2 num rw ro no 0x3E8 f,
  ent 0x02 2 num ro ro no 0x100 p,
  ent 0x03 4 num ro ro no 0x40000 p,
  ent 0x04 1 bool rw ro no 1 f,
  ent 0x10 8 num rc rc no 0 s,
  ent 0x11 8 num rc rc no 0 s,
  ent 0x12 8 num rc rc no 0 s,
  ent 0x13 8 num rc rc no 0 s,
  ent 0x14 8 num rc rc no 0 s,
  ent 0x15 8 num rc rc no 0 s,
  ent 0x16 8 num rc rc no 0 s,
  ent 0x17 8 num rc rc no 0 s,
  ent 0x18 4 num rc rc rc 0 s,
  ent 0x19 4 num rc rc rc 0 s,
  ent 0x1A 4 num rc rc rc 0 s,
  ent 0x1B 4 num rc rc rc 0 s,
  ent 0x1C 8 num rc rc no 0 s,
  ent 0x1D 8 num rc rc no 0 s,
  ent 0x1E 8 num rc rc no 0 s,
  ent 0x1F 8 num rc rc no 0 s,
  ent 0x20 8 num rc rc no 0 s,
  ent 0x21 8 num rc rc no 0 s,
  ent 0x22 8 num rc rc no 0 s,
  ent 0x23 8 num rc rc no 0 s,
  ent 0x24 4 num rc rc no 0 s,
  ent 0x25 4 num rc rc no 0 s,
  ent 0x26 4 num rc rc no 0 s,
  ent 0x27 4 num rc rc no 0 s]

/-- Entries of index 0x4E00. -/
def rows4E00 : List Entry := [
  ent 0x00 1 num ro ro ro 0x1B p,
  ent 0x01 2 num ro ro ro 0x1000 p,
  ent 0x02 2 num ro ro no 0x7D p,
  ent 0x03 4 num rc rc no 0 s,
  ent 0x10 8 num rc rc no 0 s,
  ent 0x11 8 num rc rc no 0 s,
  ent 0x12 8 num rc rc no 0 s,
  ent 0x13 8 num rc rc no 0 s,
  ent 0x14 8 num rc rc no 0 s,
  ent 0x15 8 num rc rc no 0 s,
  ent 0x16 8 num rc rc no 0 s,
  ent 0x17 8 num rc rc no 0 s,
  ent 0x18 4 num rc rc rc 0 s,
  ent 0x19 4 num rc rc rc 0 s,
  ent 0x1A 4 num rc rc rc 0 s,
  ent 0x1B 4 num rc rc rc 0 s,
  ent 0x1C 8 num rc rc no 0 s,
  ent 0x1D 8 num rc rc no 0 s,
  ent 0x1E 8 num rc rc no 0 s,
  ent 0x1F 8 num rc rc no 0 s,
  ent 0x20 8 num rc rc no 0 s,
  ent 0x21 8 num rc rc no 0 s,
  ent 0x22 8 num rc rc no 0 s,
  ent 0x23 8 num rc rc no 0 s,
  ent 0x24 4 num rc rc no 0 s,
  ent 0x25 4 num rc rc no 0 s,
  ent 0x26 4 num rc rc no 0 s,
  ent 0x27 4 num rc rc no 0 s]

/-- Entries of index 0x5000+s. -/
def rows5000 : List Entry := [
  ent 0x00 1 num ro ro ro 0xA p,
  ent 0x01 1 num ro ro ro 0 w,
  ent 0x02 4 num ro ro ro 0 w,
  ent 0x03 8 num rc rc no 0 s,
  ent 0x04 4 num rc rc rc 0 s,
  ent 0x05 8 num ro ro no 0 s,
  ent 0x06 4 num rw ro no 0x1000000 f,
  ent 0x07 4 num rc rc no 0 s,
  ent 0x08 8 num rc rc no 0 s,
  ent 0x09 8 num rc rc no 0 s,
  ent 0x0A 1 bool ro ro no 0 w]

/-- Entries of index 0x5100. -/
def rows5100 : List Entry := [
  ent 0x00 1 num ro ro ro 0xA p,
  ent 0x01 8 num rwl ro no 0 p,
  ent 0x02 4 num rwl ro no 0 p,
  ent 0x03 4 num ro ro ro 0 w,
  ent 0x04 1 num rw rw no 0 w,
  ent 0x05 4 num rw ro no 0 f 0x510004,
  ent 0x06 4 num ro ro no 0 w 0x510004,
  ent 0x07 4 num rc rc no 0 s 0x510004,
  ent 0x08 4 num rc rc no 0 s 0x510004,
  ent 0x09 8 num rc rc no 0 s,
  ent 0x0A 4 num rc rc no 0 s]

/-- Entries of index 0x5200. -/
def rows5200 : List Entry := [
  ent 0x00 1 num ro ro ro 0x1D p,
  ent 0x01 4 num ro ro ro 0x40000 p,
  ent 0x02 2 num ro ro ro 0x4000 p,
  ent 0x03 1 num ro ro ro 4 p,
  ent 0x04 16 octets ro ro ro 0 w,
  ent 0x05 4 num rc rc rc 0 s,
  ent 0x10 2 num ro ro ro 0 s,
  ent 0x11 2 num ro ro ro 0 s,
  ent 0x12 2 num ro ro ro 0 s,
  ent 0x13 2 num ro ro ro 0 s,
  ent 0x14 4 num rc rc rc 0 s,
  ent 0x15 4 num rc rc rc 0 s,
  ent 0x16 4 num rc rc rc 0 s,
  ent 0x17 4 num rc rc rc 0 s,
  ent 0x18 4 num rc rc no 0 s,
  ent 0x19 4 num rc rc no 0 s,
  ent 0x1A 4 num rc rc no 0 s,
  ent 0x1B 4 num rc rc no 0 s,
  ent 0x1C 8 num rc rc no 0 s,
  ent 0x1D 8 num rc rc no 0 s,
  ent 0x1E 8 num rc rc no 0 s,
  ent 0x1F 8 num rc rc no 0 s,
  ent 0x20 4 num rc rc no 0 s,
  ent 0x21 4 num rc rc no 0 s,
  ent 0x22 4 num rc rc no 0 s,
  ent 0x23 4 num rc rc no 0 s,
  ent 0x24 4 num rc rc rc 0 s,
  ent 0x25 4 num rc rc rc 0 s,
  ent 0x26 4 num rc rc rc 0 s,
  ent 0x27 4 num rc rc rc 0 s]

/-- Entries of index 0x5300. -/
def rows5300 : List Entry := [
  ent 0x00 1 num ro ro ro 0xA p,
  ent 0x01 32 octets rw ro no 0 f,
  ent 0x02 2 num ro ro no 0x100 p,
  ent 0x10 8 num rc rc no 0 s,
  ent 0x11 8 num rc rc no 0 s,
  ent 0x12 8 num rc rc no 0 s,
  ent 0x13 8 num rc rc no 0 s,
  ent 0x14 4 num rc rc rc 0 s,
  ent 0x15 4 num rc rc rc 0 s,
  ent 0x16 4 num rc rc rc 0 s,
  ent 0x17 4 num rc rc rc 0 s]

/-- Entries of index 0x5400. -/
def rows5400 : List Entry := [
  ent 0x00 1 num ro ro ro 0x14 p,
  ent 0x01 1 num rw rw no 0 w,
  ent 0x02 16 octets rw ro no 0 f 0x540001,
  ent 0x03 4 num rw ro no 0x7D0 f,
  ent 0x04 1 num wo wo no 0 w,
  ent 0x05 4 num ro ro no 0 w,
  ent 0x06 4 num ro ro no 0 w,
  ent 0x07 8 num rw rw no 0 f,
  ent 0x08 2 num ro ro no 0 w,
  ent 0x09 2 num rw rw no 0 w,
  ent 0x0A 8 num rw rw no 0 f,
  ent 0x0B 2 num ro ro no 0 w,
  ent 0x0C 2 num rw rw no 0 w,
  ent 0x0D 16 octets no wo no 0 w,
  ent 0x0E 4 num rc rc no 0 s,
  ent 0x0F 4 num rc rc rc 0 s,
  ent 0x10 4 num rc rc no 0 s,
  ent 0x11 8 num rc rc no 0 s,
  ent 0x12 8 num rc rc no 0 s,
  ent 0x13 8 num rc rc no 0 s,
  ent 0x14 4 num rc rc no 0 s]

/-- Entries of index 0x5600. -/
def rows5600 : List Entry := [
  ent 0x00 1 num ro ro ro 0x17 p,
  ent 0x01 2 num ro ro ro 0x400 p,
  ent 0x02 2 num rw rw no 0 w,
  ent 0x03 64 octets rw ro no 0 f 0x560002,
  ent 0x04 64 octets ro ro no 0 f 0x560002,
  ent 0x05 1 num wo no no 0 w,
  ent 0x06 1 num rw no no 0 w,
  ent 0x07 4 num rw ro no 0xFA0 f,
  ent 0x09 1 num wo wo no 0 w,
  ent 0x0A 1 num rw rw no 0 w,
  ent 0x0B 8 num ro ro no 0 s 0x56000A,
  ent 0x10 8 num rc rc no 0 s,
  ent 0x11 8 num rc rc no 0 s,
  ent 0x12 4 num rc rc rc 0 s,
  ent 0x13 4 num rc rc rc 0 s,
  ent 0x14 4 num rc rc rc 0 s,
  ent 0x15 4 num rc rc no 0 s,
  ent 0x16 4 num rc rc no 0 s,
  ent 0x17 4 num rc rc rc 0 s,
  ent 0x18 4 num rc rc no 0 s,
  ent 0x19 4 num rc rc no 0 s,
  ent 0x1A 4 num rc rc rc 0 s,
  ent 0x1B 4 num rc rc rc 0 s,
  ent 0x1C 8 num rc rc no 0 s]

/-- Entries of index 0x6000. -/
def rows6000 : List Entry := [
  ent 0x00 1 num ro ro ro 0x1D p,
  entF 0x01 8192 octets ro ro no p,
  ent 0x02 8192 octets ro ro no 0 w,
  ent 0x03 1152 octets ro ro ro 0 w,
  ent 0x04 32 octets ro ro ro 0 w,
  ent 0x05 32 octets rw rw no 0 w,
  ent 0x06 4800 octets ro ro no 0 w,
  ent 0x07 1 num rw rw no 0xFF w,
  entF 0x08 64 octets ro ro ro p,
  ent 0x09 1 num wo no no 0 w,
  ent 0x0A 2 num rwl ro no 0xFFFF f,
  ent 0x0B 1 num ro ro no 0 w,
  ent 0x0C 1 num rw rw no 0 w,
  ent 0x0D 1 num rw ro no 0xFF f 0x60000C,
  ent 0x0E 1 num rw ro no 0 f 0x60000C,
  ent 0x0F 4 octets ro ro no 0 s 0x60000C,
  ent 0x10 1 num wo no no 0 w,
  ent 0x11 1 num rw rw no 0 w,
  ent 0x12 32 octets rwl ro no 0 f 0x600011,
  ent 0x13 1 num rw ro no 0xFF f 0x600011,
  ent 0x14 1 bool rw ro no 0 f 0x600011,
  ent 0x15 4 num rc rc rc 0 s,
  ent 0x16 4 num rc rc rc 0 s,
  ent 0x17 4 num rc rc rc 0 s,
  entF 0x18 32 octets ro no no w,
  ent 0x19 5325 octets wo no no 0 w,
  ent 0x1A 4 flags ro ro ro 0 w,
  ent 0x1B 32 octets rwl no no 0 p,
  ent 0x1C 4 num rc rc no 0 s,
  ent 0x1D 4 num rc rc no 0 s]

/-- Entries of index 0x7000. -/
def rows7000 : List Entry := [
  ent 0x00 1 num ro ro ro 0xE p,
  ent 0x01 8 num rw rw no 0 f,
  ent 0x02 2 num ro ro no 0 w,
  ent 0x03 2 num rw rw no 0 w,
  ent 0x04 1 num rw rw no 0x1F f,
  ent 0x05 8 num rw rw no 0 f,
  ent 0x06 2 num ro ro no 0 w,
  ent 0x07 2 num rw rw no 0 w,
  ent 0x08 1 num rw rw no 0x1F f,
  ent 0x09 4 num rw rw no 0 w,
  ent 0x0A 64 octets ro ro no 0 w,
  ent 0x0B 20 octets ro ro no 0 s,
  ent 0x0C 4 num rc rc rc 0 s,
  ent 0x0D 4 num rc rc rc 0 s,
  ent 0x0E 64 octets ro ro ro 0 s]

/-- Entries of index 0x7010. -/
def rows7010 : List Entry := [
  ent 0x00 1 num ro ro ro 4 p,
  ent 0x01 1 num ro ro ro 0 w,
  ent 0x02 4 flags ro ro ro 0 w,
  ent 0x03 4 flags ro ro ro 0 w,
  ent 0x04 1 num ro ro ro 0 w]

/-- Entries of index 0x7020. -/
def rows7020 : List Entry := [
  ent 0x00 1 num ro ro ro 0x11 p,
  ent 0x01 1 bool rw ro no 1 f,
  ent 0x02 2 num rw ro no 0xC8 f,
  ent 0x03 1 num rw ro no 2 f,
  ent 0x04 1 num rw ro no 0x1D f,
  ent 0x05 1 num rw ro no 5 f,
  ent 0x06 2 num rw ro no 0x3E8 f,
  ent 0x07 1 num rw ro no 0x14 f,
  ent 0x08 2 num rw rw no 0 w,
  ent 0x09 2 num ro ro ro 0x3E8 w 0x702008,
  ent 0x0A 1 num ro ro ro 0 w 0x702008,
  ent 0x0B 4 num rc rc rc 0 s,
  ent 0x0C 4 num rc rc no 0 s,
  ent 0x0D 1 bool ro ro ro 0 w,
  ent 0x0E 4 num rc rc rc 0 s,
  ent 0x0F 2 num wo wo no 0 w,
  ent 0x10 2 num ro ro no 0 w,
  ent 0x11 2 num ro ro ro 0 w]

/-- Entries of index 0x7030. -/
def rows7030 : List Entry := [
  ent 0x00 1 num ro ro ro 7 p,
  ent 0x01 8 octets ro ro ro 0 s,
  ent 0x02 1 num rw rw no 0 w,
  ent 0x03 2 num ro ro no 0 s 0x703002,
  ent 0x04 8 num ro ro no 0 s 0x703002,
  ent 0x05 4 num rc rc rc 0 s,
  ent 0x06 4 num rc rc no 0 s,
  ent 0x07 4 num rc rc no 0 s]

/-- Entries of index 0x8000. -/
def rows8000 : List Entry := [
  ent 0x00 1 num ro ro ro 0x14 p,
  ent 0x01 2 num rwl ro ro 0 f,
  ent 0x02 1 num rwl ro ro 0xFF f,
  ent 0x03 4 flags rwl ro ro 0 f,
  ent 0x04 1 num rw ro no 0xFF f,
  ent 0x05 1 num ro ro ro 0xFF w,
  entF 0x06 1 num ro ro ro p,
  ent 0x07 1 num ro ro no 0xFF w,
  ent 0x08 8 num ro ro no 0 w,
  ent 0x09 1 num ro ro ro 0 w,
  ent 0x0A 2 num ro ro no 0xFFFF w,
  ent 0x0B 1 num ro ro no 0 w,
  ent 0x0C 4 num ro ro no 0 w,
  ent 0x0D 1 num rw ro no 0 f,
  ent 0x0E 8 num rw ro no 0 f,
  ent 0x0F 1 num rw ro no 0 f,
  ent 0x10 2 num rwl ro no 0xFFFF f,
  ent 0x11 2 num rwl ro no 0xFFFF f,
  ent 0x12 4 num rc rc no 0 s,
  ent 0x13 4 num rc rc no 0 s,
  ent 0x14 4 num rc rc no 0 s]

/-- Entries of index 0x8100. -/
def rows8100 : List Entry := [
  ent 0x00 1 num ro ro ro 0x14 p,
  ent 0x01 1 num ro ro ro 0x40 p,
  ent 0x02 1 num rw rw no 0 w,
  ent 0x03 64 octets rw ro no 0 f 0x810002,
  ent 0x04 64 octets ro ro no 0 f 0x810002,
  ent 0x05 512 octets rw ro no 0 f 0x810002,
  ent 0x06 512 octets ro ro no 0 f 0x810002,
  ent 0x07 48 octets rw ro no 0 f 0x810002,
  ent 0x08 48 octets ro ro no 0 f 0x810002,
  ent 0x09 1 num wo wo no 0 w,
  ent 0x0A 2 num rw ro no 0x28 f,
  ent 0x0B 1 num ro ro ro 0 w,
  ent 0x0C 1 num ro ro no 0 w,
  ent 0x0D 8 num ro ro ro 0 f,
  ent 0x0E 8 num ro ro no 0 f,
  ent 0x0F 32 octets ro ro no 0 w,
  ent 0x10 4 num rc rc no 0 s,
  ent 0x11 4 num rc rc rc 0 s,
  ent 0x12 1 num ro ro no 0 w 0x810002,
  ent 0x13 4 num ro ro no 0 w 0x810002,
  ent 0x14 8 num rc rc no 0 s 0x810002]

/-- Entries of index 0x8200. -/
def rows8200 : List Entry := [
  ent 0x00 1 num ro ro ro 0xD p,
  ent 0x01 1 num rw rw no 0 w,
  ent 0x02 8 num ro ro no 0 s 0x820001,
  ent 0x03 8 num ro ro no 0 s 0x820001,
  ent 0x04 8 num ro ro no 0 s 0x820001,
  ent 0x05 8 num ro ro no 0 s 0x820001,
  ent 0x06 8 num ro ro no 0 s 0x820001,
  ent 0x07 8 num ro ro no 0 s 0x820001,
  ent 0x08 32 octets rw rw no 0 w,
  ent 0x09 1 num wo wo no 0 w,
  ent 0x0A 3469 octets ro ro no 0 s 0x820001,
  ent 0x0B 8 num ro ro no 0 s 0x820001,
  ent 0x0C 1 num ro ro ro 0x14 p,
  ent 0x0D 4 num rc rc no 0 s]

/-- Entries of index 0x9000. -/
def rows9000 : List Entry := [
  ent 0x00 1 num ro ro ro 0x1F p,
  ent 0x01 4 num ro ro ro 0 w,
  ent 0x02 4 num ro ro ro 0 w,
  ent 0x03 12 octets ro ro ro 0 w,
  ent 0x04 2 num rw ro no 0xABE f,
  ent 0x05 1 num ro ro ro 0 w,
  ent 0x06 4 num rc rc rc 0 s,
  ent 0x07 4 num rc rc rc 0 s,
  ent 0x08 4 num rc rc rc 0 s,
  ent 0x09 5 octets ro ro ro 0 w,
  ent 0x0A 1 num rw ro no 0x5F f,
  ent 0x0B 1 num ro ro ro 0x6E p,
  ent 0x0C 1 num rw ro no 0x5A f,
  ent 0x0D 1 num ro ro ro 0x64 p,
  ent 0x0E 120 octets ro ro no 0 w,
  ent 0x0F 12 octets ro ro no 0 w,
  ent 0x10 8 num rc rc no 0 s,
  ent 0x11 2 num rw ro no 0x10 f,
  ent 0x12 2 num rw ro no 0x400 f,
  ent 0x13 4 num rw ro no 0x10000 f,
  ent 0x14 4 num rw ro no 0x4000 f,
  ent 0x15 2 num rw ro no 0xC8 f,
  ent 0x16 4 num rw ro no 0x400 f,
  ent 0x17 4 octets rw ro no 0x4040404 f,
  ent 0x18 4 flags rw ro ro 0 f,
  ent 0x19 8 num rc rc no 0 s,
  ent 0x1A 4 flags ro ro ro 0 w,
  ent 0x1B 1 num rw ro no 0 f,
  ent 0x1C 4 num rc rc rc 0 s,
  ent 0x1D 1 num wo no no 0 w,
  ent 0x1E 1 num ro ro ro 1 p,
  entF 0x1F 4 flags ro ro ro p]

/-- Entries of index 0xF000. -/
def rowsF000 : List Entry := [
  ent 0x00 1 num ro ro ro 5 p,
  ent 0x01 1 num wo wo no 0 w,
  ent 0x02 1 num ro ro ro 0 w,
  ent 0x03 32 octets ro ro ro 0 w,
  ent 0x04 4 num rc rc no 0 s,
  ent 0x05 8 num ro ro no 0 w]

/-- The entries of an index (R600, R620); an index outside the list has none. -/
def rows (idx : Nat) : List Entry :=
  if idx = 0x1000 then rows1000
  else if idx = 0x1100 then rows1100
  else if idx = 0x1200 then rows1200
  else if 0x2100 ≤ idx ∧ idx < 0x2160 then rows2100
  else if 0x2200 ≤ idx ∧ idx < 0x2380 then rows2200
  else if idx = 0x3000 then rows3000
  else if idx = 0x3100 then rows3100
  else if idx = 0x3300 then rows3300
  else if idx = 0x3400 then rows3400
  else if idx = 0x3800 then rows3800
  else if idx = 0x4000 then rows4000
  else if idx = 0x4800 then rows4800
  else if idx = 0x4A00 then rows4A00
  else if idx = 0x4C00 then rows4C00
  else if idx = 0x4E00 then rows4E00
  else if 0x5000 ≤ idx ∧ idx < 0x500C then rows5000
  else if idx = 0x5100 then rows5100
  else if idx = 0x5200 then rows5200
  else if idx = 0x5300 then rows5300
  else if idx = 0x5400 then rows5400
  else if idx = 0x5600 then rows5600
  else if idx = 0x6000 then rows6000
  else if idx = 0x7000 then rows7000
  else if idx = 0x7010 then rows7010
  else if idx = 0x7020 then rows7020
  else if idx = 0x7030 then rows7030
  else if idx = 0x8000 then rows8000
  else if idx = 0x8100 then rows8100
  else if idx = 0x8200 then rows8200
  else if idx = 0x9000 then rows9000
  else if idx = 0xF000 then rowsF000
  else []

end Dict

/-! Keys: selector value, index and sub-index of an entry in one number. -/

namespace Reg

/-- The key of an entry: instance (0 where no selector applies), index, sub-index. -/
def key (sel idx sub : Nat) : Nat := sel * 0x1000000 + idx * 256 + sub

/-- SVC_LEVEL, 0x7010:01 (R35). -/
def svcLevel : Nat := 0x701001
/-- SVC_QUAD_LEVEL, 0x7010:02 (R35). -/
def svcQuadLevel : Nat := 0x701002
/-- SVC_STACKS, 0x7010:03 (R35). -/
def svcStacks : Nat := 0x701003
/-- SVC_TILES, 0x7010:04 (R35). -/
def svcTiles : Nat := 0x701004
/-- DOM_ID, 0x8000:01 (R76). -/
def domId : Nat := 0x800001
/-- SWITCH_ID, 0x8000:02 (R76). -/
def switchId : Nat := 0x800002
/-- PLANE_SET, 0x8000:03 (R76). -/
def planeSet : Nat := 0x800003
/-- MASTER_CFG, 0x8000:04 (R76). -/
def masterCfg : Nat := 0x800004
/-- MASTER_CUR, 0x8000:05 (R76). -/
def masterCur : Nat := 0x800005
/-- MGMT_ROLE, 0x8000:06 (R76). -/
def mgmtRole : Nat := 0x800006
/-- MANAGER_CUR, 0x8000:07 (R76). -/
def managerCur : Nat := 0x800007
/-- TICK_COUNT, 0x8000:08 (R76). -/
def tickCount : Nat := 0x800008
/-- TICK_STATE, 0x8000:09 (R76). -/
def tickState : Nat := 0x800009
/-- TICK_PARENT, 0x8000:0A (R76). -/
def tickParent : Nat := 0x80000A
/-- TICK_DEPTH, 0x8000:0B (R76). -/
def tickDepth : Nat := 0x80000B
/-- TICK_OFFSET, 0x8000:0C (R76). -/
def tickOffset : Nat := 0x80000C
/-- TICK_IN_MODE, 0x8000:0D (R76). -/
def tickInMode : Nat := 0x80000D
/-- TICK_IN_COUNT, 0x8000:0E (R76). -/
def tickInCount : Nat := 0x80000E
/-- TICK_OUT_MODE, 0x8000:0F (R76). -/
def tickOutMode : Nat := 0x80000F
/-- HOST_FEID_HA, 0x8000:10 (R76). -/
def hostFeidHa : Nat := 0x800010
/-- HOST_FEID_HB, 0x8000:11 (R76). -/
def hostFeidHb : Nat := 0x800011
/-- MASTER_CHANGES, 0x8000:12 (R76). -/
def masterChanges : Nat := 0x800012
/-- TICK_ALIGN_FAULTS, 0x8000:13 (R76). -/
def tickAlignFaults : Nat := 0x800013
/-- HOLDOVER_TICKS, 0x8000:14 (R76). -/
def holdoverTicks : Nat := 0x800014
/-- PORT_ROLE, 0x2200+p:20 (R77). -/
def portRole (p : Nat) : Nat := 0x220020 + p * 256
/-- PORT_EXPECT_FEID, 0x2200+p:21 (R77). -/
def portExpectFeid (p : Nat) : Nat := 0x220021 + p * 256
/-- PORT_GW_DOMAIN, 0x2200+p:22 (R77). -/
def portGwDomain (p : Nat) : Nat := 0x220022 + p * 256
/-- PORT_PEER, 0x2200+p:23 (R77). -/
def portPeer (p : Nat) : Nat := 0x220023 + p * 256
/-- PB_MODE, 0x2100+b:01 (R117). -/
def pbMode (b : Nat) : Nat := 0x210001 + b * 256
/-- PB_CHANNEL, 0x2100+b:02 (R117). -/
def pbChannel (b : Nat) : Nat := 0x210002 + b * 256
/-- PB_LANE_OK, 0x2100+b:03 (R117). -/
def pbLaneOk (b : Nat) : Nat := 0x210003 + b * 256
/-- PB_CRED_DED, 0x2100+b:04 (R117). -/
def pbCredDed (b : Nat) : Nat := 0x210004 + b * 256
/-- PB_AUTO_RESTORE, 0x2100+b:05 (R117). -/
def pbAutoRestore (b : Nat) : Nat := 0x210005 + b * 256
/-- PB_POLARITY, 0x2100+b:06 (R117). -/
def pbPolarity (b : Nat) : Nat := 0x210006 + b * 256
/-- PB_SER_LIMIT, 0x2100+b:07 (R117). -/
def pbSerLimit (b : Nat) : Nat := 0x210007 + b * 256
/-- PB_FEC_CORR, 0x2100+b:10–17 (R117). -/
def pbFecCorr (b j : Nat) : Nat := 0x210010 + b * 256 + j
/-- PB_FEC_UNCORR, 0x2100+b:18–1F (R117). -/
def pbFecUncorr (b j : Nat) : Nat := 0x210018 + b * 256 + j
/-- PORT_STATE, 0x2200+p:01 (R118). -/
def portState (p : Nat) : Nat := 0x220001 + p * 256
/-- PORT_WIDTH, 0x2200+p:02 (R118). -/
def portWidth (p : Nat) : Nat := 0x220002 + p * 256
/-- PORT_LANES, 0x2200+p:03 (R118). -/
def portLanes (p : Nat) : Nat := 0x220003 + p * 256
/-- PORT_ENABLE, 0x2200+p:04 (R118). -/
def portEnable (p : Nat) : Nat := 0x220004 + p * 256
/-- FLITS_TX, 0x2200+p:05 (R118). -/
def flitsTx (p : Nat) : Nat := 0x220005 + p * 256
/-- FLITS_RX, 0x2200+p:06 (R118). -/
def flitsRx (p : Nat) : Nat := 0x220006 + p * 256
/-- BYTES_TX, 0x2200+p:07 (R118). -/
def bytesTx (p : Nat) : Nat := 0x220007 + p * 256
/-- BYTES_RX, 0x2200+p:08 (R118). -/
def bytesRx (p : Nat) : Nat := 0x220008 + p * 256
/-- CRC_ERRORS, 0x2200+p:09 (R118). -/
def crcErrors (p : Nat) : Nat := 0x220009 + p * 256
/-- NAK_SENT, 0x2200+p:0A (R118). -/
def nakSent (p : Nat) : Nat := 0x22000A + p * 256
/-- NAK_RCVD, 0x2200+p:0B (R118). -/
def nakRcvd (p : Nat) : Nat := 0x22000B + p * 256
/-- REPLAY_FLITS, 0x2200+p:0C (R118). -/
def replayFlits (p : Nat) : Nat := 0x22000C + p * 256
/-- RETRY_TIMEOUTS, 0x2200+p:0D (R118). -/
def retryTimeouts (p : Nat) : Nat := 0x22000D + p * 256
/-- DEGRADES, 0x2200+p:0E (R118). -/
def degrades (p : Nat) : Nat := 0x22000E + p * 256
/-- RETRAINS, 0x2200+p:0F (R118). -/
def retrains (p : Nat) : Nat := 0x22000F + p * 256
/-- FLITS_DISCARDED, 0x2200+p:10 (R118). -/
def flitsDiscarded (p : Nat) : Nat := 0x220010 + p * 256
/-- DYING_RCVD, 0x2200+p:11 (R118). -/
def dyingRcvd (p : Nat) : Nat := 0x220011 + p * 256
/-- LAST_DYING, 0x2200+p:12 (R118). -/
def lastDying (p : Nat) : Nat := 0x220012 + p * 256
/-- CREDIT_STALL, 0x2200+p:13 (R118). -/
def creditStall (p : Nat) : Nat := 0x220013 + p * 256
/-- RTT_NS, 0x2200+p:14 (R118). -/
def rttNs (p : Nat) : Nat := 0x220014 + p * 256
/-- HMAP_SIZE, 0x3400:01 (R153). -/
def hmapSize : Nat := 0x340001
/-- HMAP_SELECT, 0x3400:02 (R153). -/
def hmapSelect : Nat := 0x340002
/-- HMAP_STAGE, 0x3400:03, by its selector (R153). -/
def hmapStage (i : Nat) : Nat := 0x340003 + i * 0x1000000
/-- HMAP_ACTIVE, 0x3400:04, by its selector (R153). -/
def hmapActive (i : Nat) : Nat := 0x340004 + i * 0x1000000
/-- HMAP_VALID, 0x3400:05 (R153). -/
def hmapValid : Nat := 0x340005
/-- UNROUTABLE, 0x3400:06 (R153). -/
def unroutable : Nat := 0x340006
/-- WRONG_PLANE, 0x3400:07 (R153). -/
def wrongPlane : Nat := 0x340007
/-- FRAMING_DROPS, 0x3400:08 (R153). -/
def framingDrops : Nat := 0x340008
/-- TAG_FAILS, 0x3400:09 (R153). -/
def tagFails : Nat := 0x340009
/-- CUT_THROUGH, 0x3400:0A (R153). -/
def cutThrough : Nat := 0x34000A
/-- STORE_FORWARD, 0x3400:0B (R153). -/
def storeForward : Nat := 0x34000B
/-- CT_ENABLE, 0x3400:0C (R153). -/
def ctEnable : Nat := 0x34000C
/-- CELLS_PER_QUAD, 0x3000:01 (R189). -/
def cellsPerQuad : Nat := 0x300001
/-- DT_EXP, 0x3000:02 (R189). -/
def dtExp : Nat := 0x300002
/-- RSV_CLS0, 0x3000:03 (R189). -/
def rsvCls0 : Nat := 0x300003
/-- RSV_CLS1, 0x3000:04 (R189). -/
def rsvCls1 : Nat := 0x300004
/-- DRR_WEIGHT, 0x3000:05 (R189). -/
def drrWeight : Nat := 0x300005
/-- HOT_ENABLE, 0x3000:06 (R189). -/
def hotEnable : Nat := 0x300006
/-- HOT_WINDOW_NS, 0x3000:07 (R189). -/
def hotWindowNs : Nat := 0x300007
/-- HOT_THRESH, 0x3000:08 (R189). -/
def hotThresh : Nat := 0x300008
/-- HOT_SRC_MIN, 0x3000:09 (R189). -/
def hotSrcMin : Nat := 0x300009
/-- VOQ_SELECT, 0x3000:0A (R189). -/
def voqSelect : Nat := 0x30000A
/-- VOQ_DEPTH, 0x3000:0B (R189). -/
def voqDepth : Nat := 0x30000B
/-- CELL_ECC_CORR, 0x3000:0C (R189). -/
def cellEccCorr : Nat := 0x30000C
/-- CELL_ECC_UNCORR, 0x3000:0D (R189). -/
def cellEccUncorr : Nat := 0x30000D
/-- CELLS_USED_Qn, 0x3000:10+n (R189). -/
def cellsUsed (n : Nat) : Nat := 0x300010 + n
/-- USED_HIGH_Qn, 0x3000:14+n (R189). -/
def usedHigh (n : Nat) : Nat := 0x300014 + n
/-- ADMIT_WAIT_Qn, 0x3000:18+n (R189). -/
def admitWait (n : Nat) : Nat := 0x300018 + n
/-- RSV_USED_Qn, 0x3000:1C+n (R189). -/
def rsvUsed (n : Nat) : Nat := 0x30001C + n
/-- FLUSHED_Qn, 0x3000:20+n (R189). -/
def flushed (n : Nat) : Nat := 0x300020 + n
/-- HOT_LINES_Qn, 0x3000:24+n (R189). -/
def hotLines (n : Nat) : Nat := 0x300024 + n
/-- THROTTLED_Qn, 0x3000:28+n (R189). -/
def throttled (n : Nat) : Nat := 0x300028 + n
/-- MC_GROUPS, 0x3100:01 (R191). -/
def mcGroups : Nat := 0x310001
/-- MC_SELECT, 0x3100:02 (R191). -/
def mcSelect : Nat := 0x310002
/-- MC_MEMBERS, 0x3100:03, by its selector (R191). -/
def mcMembers (i : Nat) : Nat := 0x310003 + i * 0x1000000
/-- MC_CELL_CAP, 0x3100:04 (R191). -/
def mcCellCap : Nat := 0x310004
/-- MC_DESC_CAP, 0x3100:05 (R191). -/
def mcDescCap : Nat := 0x310005
/-- MC_ADMITTED_Qn, 0x3100:10+n (R191). -/
def mcAdmitted (n : Nat) : Nat := 0x310010 + n
/-- MC_SKIPPED_Qn, 0x3100:14+n (R191). -/
def mcSkipped (n : Nat) : Nat := 0x310014 + n
/-- MC_DESC_USED_Qn, 0x3100:18+n (R191). -/
def mcDescUsed (n : Nat) : Nat := 0x310018 + n
/-- TEASEL_ENABLE, 0x3300:01 (R192). -/
def teaselEnable : Nat := 0x330001
/-- TEASEL_PERIOD, 0x3300:02 (R192). -/
def teaselPeriod : Nat := 0x330002
/-- AUDITS_Qn, 0x3300:10+n (R192). -/
def audits (n : Nat) : Nat := 0x330010 + n
/-- RECLAIMED_Qn, 0x3300:14+n (R192). -/
def reclaimed (n : Nat) : Nat := 0x330014 + n
/-- FREECOUNT_FIX_Qn, 0x3300:18+n (R192). -/
def freecountFix (n : Nat) : Nat := 0x330018 + n
/-- DOUBLE_OWNED_Qn, 0x3300:1C+n (R192). -/
def doubleOwned (n : Nat) : Nat := 0x33001C + n
/-- REF_FIXED_Qn, 0x3300:20+n (R192). -/
def refFixed (n : Nat) : Nat := 0x330020 + n
/-- TALLY_Qn, 0x3300:24+n (R192). -/
def tally (n : Nat) : Nat := 0x330024 + n
/-- REGION_CAP, 0x3800:01 (R225). -/
def regionCap : Nat := 0x380001
/-- REGION_SELECT, 0x3800:02 (R225). -/
def regionSelect : Nat := 0x380002
/-- REGION_STAGE, 0x3800:03, by its selector (R225). -/
def regionStage (i : Nat) : Nat := 0x380003 + i * 0x1000000
/-- REGION_ACTIVE, 0x3800:04, by its selector (R225). -/
def regionActive (i : Nat) : Nat := 0x380004 + i * 0x1000000
/-- REGION_VALID, 0x3800:05 (R225). -/
def regionValid : Nat := 0x380005
/-- COMB_WINDOW_NS, 0x3800:06 (R225). -/
def combWindowNs : Nat := 0x380006
/-- COMB_MAX_OPS, 0x3800:07 (R225). -/
def combMaxOps : Nat := 0x380007
/-- DEDUP_LIVE_TICKS, 0x3800:08 (R225). -/
def dedupLiveTicks : Nat := 0x380008
/-- DEDUP_HOLD_TICKS, 0x3800:09 (R225). -/
def dedupHoldTicks : Nat := 0x380009
/-- REQ_RETRY_US, 0x3800:0A (R225). -/
def reqRetryUs : Nat := 0x38000A
/-- REQ_RETRY_MAX, 0x3800:0B (R225). -/
def reqRetryMax : Nat := 0x38000B
/-- KEY_FAILS, 0x3800:0C (R225). -/
def keyFails : Nat := 0x38000C
/-- RIGHTS_FAILS, 0x3800:0D (R225). -/
def rightsFails : Nat := 0x38000D
/-- REGION_MISS, 0x3800:0E (R225). -/
def regionMiss : Nat := 0x38000E
/-- ATOMICS_Qn, 0x3800:10+n (R225). -/
def atomics (n : Nat) : Nat := 0x380010 + n
/-- MERGE_RMW_Qn, 0x3800:14+n (R225). -/
def mergeRmw (n : Nat) : Nat := 0x380014 + n
/-- DEDUP_HITS_Qn, 0x3800:18+n (R225). -/
def dedupHits (n : Nat) : Nat := 0x380018 + n
/-- STALE_Qn, 0x3800:1C+n (R225). -/
def stale (n : Nat) : Nat := 0x38001C + n
/-- DEDUP_USED_Qn, 0x3800:20+n (R225). -/
def dedupUsed (n : Nat) : Nat := 0x380020 + n
/-- DEDUP_WAIT_Qn, 0x3800:24+n (R225). -/
def dedupWait (n : Nat) : Nat := 0x380024 + n
/-- HBM_STATE, 0x5000+s:01 (R258). -/
def hbmState (s : Nat) : Nat := 0x500001 + s * 256
/-- HBM_TEMP, 0x5000+s:02 (R258). -/
def hbmTemp (s : Nat) : Nat := 0x500002 + s * 256
/-- HBM_ECC_CORR, 0x5000+s:03 (R258). -/
def hbmEccCorr (s : Nat) : Nat := 0x500003 + s * 256
/-- HBM_ECC_UNCORR, 0x5000+s:04 (R258). -/
def hbmEccUncorr (s : Nat) : Nat := 0x500004 + s * 256
/-- HBM_UE_LAST, 0x5000+s:05 (R258). -/
def hbmUeLast (s : Nat) : Nat := 0x500005 + s * 256
/-- HBM_SCRUB_TICKS, 0x5000+s:06 (R258). -/
def hbmScrubTicks (s : Nat) : Nat := 0x500006 + s * 256
/-- HBM_SCRUB_PASSES, 0x5000+s:07 (R258). -/
def hbmScrubPasses (s : Nat) : Nat := 0x500007 + s * 256
/-- HBM_BYTES_RD, 0x5000+s:08 (R258). -/
def hbmBytesRd (s : Nat) : Nat := 0x500008 + s * 256
/-- HBM_BYTES_WR, 0x5000+s:09 (R258). -/
def hbmBytesWr (s : Nat) : Nat := 0x500009 + s * 256
/-- HBM_SYSAREA, 0x5000+s:0A (R258). -/
def hbmSysarea (s : Nat) : Nat := 0x50000A + s * 256
/-- STAGE_BASE, 0x5100:01 (R259). -/
def stageBase : Nat := 0x510001
/-- STAGE_SLOTS, 0x5100:02 (R259). -/
def stageSlots : Nat := 0x510002
/-- STAGE_FREE, 0x5100:03 (R259). -/
def stageFree : Nat := 0x510003
/-- STAGE_SELECT, 0x5100:04 (R259). -/
def stageSelect : Nat := 0x510004
/-- STAGE_FLOOR, 0x5100:05, by its selector (R259). -/
def stageFloor (i : Nat) : Nat := 0x510005 + i * 0x1000000
/-- STAGE_HELD, 0x5100:06, by its selector (R259). -/
def stageHeld (i : Nat) : Nat := 0x510006 + i * 0x1000000
/-- STAGE_EVICTED, 0x5100:07, by its selector (R259). -/
def stageEvicted (i : Nat) : Nat := 0x510007 + i * 0x1000000
/-- STAGE_LATE, 0x5100:08, by its selector (R259). -/
def stageLate (i : Nat) : Nat := 0x510008 + i * 0x1000000
/-- STAGE_FILL_BYTES, 0x5100:09 (R259). -/
def stageFillBytes : Nat := 0x510009
/-- STAGE_WAITS, 0x5100:0A (R259). -/
def stageWaits : Nat := 0x51000A
/-- BAR2_BASE_HA, 0x1200:20 (R260). -/
def bar2BaseHa : Nat := 0x120020
/-- BAR2_COMP_HA, 0x1200:21 (R260). -/
def bar2CompHa : Nat := 0x120021
/-- BAR2_RKEY_HA, 0x1200:22 (R260). -/
def bar2RkeyHa : Nat := 0x120022
/-- BAR2_FAILS_HA, 0x1200:23 (R260). -/
def bar2FailsHa : Nat := 0x120023
/-- BAR2_BASE_HB, 0x1200:24 (R260). -/
def bar2BaseHb : Nat := 0x120024
/-- BAR2_COMP_HB, 0x1200:25 (R260). -/
def bar2CompHb : Nat := 0x120025
/-- BAR2_RKEY_HB, 0x1200:26 (R260). -/
def bar2RkeyHb : Nat := 0x120026
/-- BAR2_FAILS_HB, 0x1200:27 (R260). -/
def bar2FailsHb : Nat := 0x120027
/-- CTX_SELECT, 0x5400:01 (R290). -/
def ctxSelect : Nat := 0x540001
/-- CTX_ENTRY, 0x5400:02, by its selector (R290). -/
def ctxEntry (i : Nat) : Nat := 0x540002 + i * 0x1000000
/-- FAULT_TIMEOUT_US, 0x5400:03 (R290). -/
def faultTimeoutUs : Nat := 0x540003
/-- INVAL_REQ, 0x5400:04 (R290). -/
def invalReq : Nat := 0x540004
/-- INVAL_DONE, 0x5400:05 (R290). -/
def invalDone : Nat := 0x540005
/-- INVAL_DRAINED, 0x5400:06 (R290). -/
def invalDrained : Nat := 0x540006
/-- FLOG_BASE_HA, 0x5400:07 (R290). -/
def flogBaseHa : Nat := 0x540007
/-- FLOG_PROD_HA, 0x5400:08 (R290). -/
def flogProdHa : Nat := 0x540008
/-- FLOG_CONS_HA, 0x5400:09 (R290). -/
def flogConsHa : Nat := 0x540009
/-- FLOG_BASE_HB, 0x5400:0A (R290). -/
def flogBaseHb : Nat := 0x54000A
/-- FLOG_PROD_HB, 0x5400:0B (R290). -/
def flogProdHb : Nat := 0x54000B
/-- FLOG_CONS_HB, 0x5400:0C (R290). -/
def flogConsHb : Nat := 0x54000C
/-- FAULT_RESP, 0x5400:0D (R290). -/
def faultResp : Nat := 0x54000D
/-- FAULTS_RAISED, 0x5400:0E (R290). -/
def faultsRaised : Nat := 0x54000E
/-- FAULT_TIMEOUTS, 0x5400:0F (R290). -/
def faultTimeouts : Nat := 0x54000F
/-- RESP_DISCARDED, 0x5400:10 (R290). -/
def respDiscarded : Nat := 0x540010
/-- WALKS, 0x5400:11 (R290). -/
def walks : Nat := 0x540011
/-- WALK_STALL_NS, 0x5400:12 (R290). -/
def walkStallNs : Nat := 0x540012
/-- UTLB_MISSES, 0x5400:13 (R290). -/
def utlbMisses : Nat := 0x540013
/-- LOG_FULL_WAITS, 0x5400:14 (R290). -/
def logFullWaits : Nat := 0x540014
/-- DIR_ENTRIES, 0x5200:01 (R314). -/
def dirEntries : Nat := 0x520001
/-- LOST_CAP, 0x5200:02 (R314). -/
def lostCap : Nat := 0x520002
/-- WD_TICKS, 0x5200:03 (R314). -/
def wdTicks : Nat := 0x520003
/-- DEAD_AGENTS, 0x5200:04 (R314). -/
def deadAgents : Nat := 0x520004
/-- AGENT_DEATHS, 0x5200:05 (R314). -/
def agentDeaths : Nat := 0x520005
/-- LOST_USED_Qn, 0x5200:10+n (R314). -/
def lostUsed (n : Nat) : Nat := 0x520010 + n
/-- LINE_LOST_Qn, 0x5200:14+n (R314). -/
def lineLost (n : Nat) : Nat := 0x520014 + n
/-- REVIVED_Qn, 0x5200:18+n (R314). -/
def revived (n : Nat) : Nat := 0x520018 + n
/-- BACK_INVAL_Qn, 0x5200:1C+n (R314). -/
def backInval (n : Nat) : Nat := 0x52001C + n
/-- WB_CROSS_Qn, 0x5200:20+n (R314). -/
def wbCross (n : Nat) : Nat := 0x520020 + n
/-- LOST_OVERFLOW_Qn, 0x5200:24+n (R314). -/
def lostOverflow (n : Nat) : Nat := 0x520024 + n
/-- MM_GRAIN, 0x5300:01 (R315). -/
def mmGrain : Nat := 0x530001
/-- INVQ_DEPTH, 0x5300:02 (R315). -/
def invqDepth : Nat := 0x530002
/-- ACQ_WAITS_Qn, 0x5300:10+n (R315). -/
def acqWaits (n : Nat) : Nat := 0x530010 + n
/-- ACQ_TIMEOUTS_Qn, 0x5300:14+n (R315). -/
def acqTimeouts (n : Nat) : Nat := 0x530014 + n
/-- QUANTUM_BUDGET, 0x4000:01 (R348). -/
def quantumBudget : Nat := 0x400001
/-- JOB_RECORDS, 0x4000:02 (R348). -/
def jobRecords : Nat := 0x400002
/-- COMP_JOB_MAX, 0x4000:03 (R348). -/
def compJobMax : Nat := 0x400003
/-- HALVE_RESTORE, 0x4000:04 (R348). -/
def halveRestore : Nat := 0x400004
/-- MAX_HALVINGS, 0x4000:05 (R348). -/
def maxHalvings : Nat := 0x400005
/-- LIB_VERSION_CUR, 0x4000:06 (R348). -/
def libVersionCur : Nat := 0x400006
/-- LIB_BANKS, 0x4000:07 (R348). -/
def libBanks : Nat := 0x400007
/-- LIB_ACTIVATE, 0x4000:08 (R348). -/
def libActivate : Nat := 0x400008
/-- LIB_REJECTS, 0x4000:09 (R348). -/
def libRejects : Nat := 0x400009
/-- JOBS_ADMITTED_Qn, 0x4000:10+n (R348). -/
def jobsAdmitted (n : Nat) : Nat := 0x400010 + n
/-- JOBS_FAILED_Qn, 0x4000:14+n (R348). -/
def jobsFailed (n : Nat) : Nat := 0x400014 + n
/-- QUANTA_DONE_Qn, 0x4000:18+n (R348). -/
def quantaDone (n : Nat) : Nat := 0x400018 + n
/-- LATE_TICKS_Qn, 0x4000:1C+n (R348). -/
def lateTicks (n : Nat) : Nat := 0x40001C + n
/-- HALVINGS_Qn, 0x4000:20+n (R348). -/
def halvings (n : Nat) : Nat := 0x400020 + n
/-- JOBS_RESIDENT_Qn, 0x4000:24+n (R348). -/
def jobsResident (n : Nat) : Nat := 0x400024 + n
/-- GROUP_CAP, 0x4800:01 (R397). -/
def groupCap : Nat := 0x480001
/-- GROUP_SELECT, 0x4800:02 (R397). -/
def groupSelect : Nat := 0x480002
/-- GROUP_STAGE, 0x4800:03 (R397). -/
def groupStage : Nat := 0x480003
/-- CONTRIB_SELECT, 0x4800:04 (R397). -/
def contribSelect : Nat := 0x480004
/-- CONTRIB_STAGE, 0x4800:05, by its selector (R397). -/
def contribStage (i : Nat) : Nat := 0x480005 + i * 0x1000000
/-- GROUP_CMD, 0x4800:06 (R397). -/
def groupCmd : Nat := 0x480006
/-- GROUP_STATE, 0x4800:07, by its selector (R397). -/
def groupState (i : Nat) : Nat := 0x480007 + i * 0x1000000
/-- GROUP_REFUSAL, 0x4800:08, by its selector (R397). -/
def groupRefusal (i : Nat) : Nat := 0x480008 + i * 0x1000000
/-- GROUP_LOW, 0x4800:09, by its selector (R397). -/
def groupLow (i : Nat) : Nat := 0x480009 + i * 0x1000000
/-- GROUP_QUAD, 0x4800:0A, by its selector (R397). -/
def groupQuad (i : Nat) : Nat := 0x48000A + i * 0x1000000
/-- GROUP_EXCLUDED, 0x4800:0B, by its selector (R397). -/
def groupExcluded (i : Nat) : Nat := 0x48000B + i * 0x1000000
/-- GROUP_SUBST, 0x4800:0C, by its selector (R397). -/
def groupSubst (i : Nat) : Nat := 0x48000C + i * 0x1000000
/-- GF_MIN_LANES, 0x4800:0D (R397). -/
def gfMinLanes : Nat := 0x48000D
/-- RESULT_RETRIES, 0x4800:0E (R397). -/
def resultRetries : Nat := 0x48000E
/-- CONTRIBS_Qn, 0x4800:10+n (R397). -/
def contribs (n : Nat) : Nat := 0x480010 + n
/-- DROPS_Qn, 0x4800:14+n (R397). -/
def drops (n : Nat) : Nat := 0x480014 + n
/-- CHUNKS_DONE_Qn, 0x4800:18+n (R397). -/
def chunksDone (n : Nat) : Nat := 0x480018 + n
/-- CHUNKS_FAILED_Qn, 0x4800:1C+n (R397). -/
def chunksFailed (n : Nat) : Nat := 0x48001C + n
/-- EXCLUSIONS_Qn, 0x4800:20+n (R397). -/
def exclusions (n : Nat) : Nat := 0x480020 + n
/-- STALLS_Qn, 0x4800:24+n (R397). -/
def stalls (n : Nat) : Nat := 0x480024 + n
/-- SLOTS_USED_Qn, 0x4800:28+n (R397). -/
def slotsUsed (n : Nat) : Nat := 0x480028 + n
/-- JOURNAL_USED_Qn, 0x4800:2C+n (R397). -/
def journalUsed (n : Nat) : Nat := 0x48002C + n
/-- RESENDS_Qn, 0x4800:30+n (R397). -/
def resends (n : Nat) : Nat := 0x480030 + n
/-- SATURATED_Qn, 0x4800:34+n (R397). -/
def saturated (n : Nat) : Nat := 0x480034 + n
/-- GF_BYTES_Qn, 0x4800:38+n (R397). -/
def gfBytes (n : Nat) : Nat := 0x480038 + n
/-- PLAN_CAP, 0x4A00:01 (R424). -/
def planCap : Nat := 0x4A0001
/-- PLAN_SELECT, 0x4A00:02 (R424). -/
def planSelect : Nat := 0x4A0002
/-- PLAN_BASE, 0x4A00:03, by its selector (R424). -/
def planBase (i : Nat) : Nat := 0x4A0003 + i * 0x1000000
/-- PLAN_CMD, 0x4A00:04 (R424). -/
def planCmd : Nat := 0x4A0004
/-- PLAN_STATE, 0x4A00:05, by its selector (R424). -/
def planState (i : Nat) : Nat := 0x4A0005 + i * 0x1000000
/-- PLAN_REFUSAL, 0x4A00:06, by its selector (R424). -/
def planRefusal (i : Nat) : Nat := 0x4A0006 + i * 0x1000000
/-- PLAN_RECORDS, 0x4A00:07, by its selector (R424). -/
def planRecords (i : Nat) : Nat := 0x4A0007 + i * 0x1000000
/-- CLAIM_HOLD_TICKS, 0x4A00:08 (R424). -/
def claimHoldTicks : Nat := 0x4A0008
/-- CLAIM_WAIT_TICKS, 0x4A00:09 (R424). -/
def claimWaitTicks : Nat := 0x4A0009
/-- CLAIMS_USED, 0x4A00:0A (R424). -/
def claimsUsed : Nat := 0x4A000A
/-- SHADOW_NODES, 0x4A00:10 (R424). -/
def shadowNodes : Nat := 0x4A0010
/-- HANDBACKS, 0x4A00:11 (R424). -/
def handbacks : Nat := 0x4A0011
/-- DEADLINE_WAITS, 0x4A00:12 (R424). -/
def deadlineWaits : Nat := 0x4A0012
/-- BACKUP_GRANTS, 0x4A00:13 (R424). -/
def backupGrants : Nat := 0x4A0013
/-- BACKUP_DENIES, 0x4A00:14 (R424). -/
def backupDenies : Nat := 0x4A0014
/-- CANCELS_SENT, 0x4A00:15 (R424). -/
def cancelsSent : Nat := 0x4A0015
/-- CLAIM_TIMEOUTS, 0x4A00:16 (R424). -/
def claimTimeouts : Nat := 0x4A0016
/-- ATTEND_PAGES, 0x4A00:17 (R424). -/
def attendPages : Nat := 0x4A0017
/-- CONTRIB_RETRIES, 0x4A00:18 (R424). -/
def contribRetries : Nat := 0x4A0018
/-- TIER_P_LAT_NS, 0x4C00:01 (R444). -/
def tierPLatNs : Nat := 0x4C0001
/-- LOOKAHEAD_MAX, 0x4C00:02 (R444). -/
def lookaheadMax : Nat := 0x4C0002
/-- LANDING_BYTES, 0x4C00:03 (R444). -/
def landingBytes : Nat := 0x4C0003
/-- SPEC_ENABLE, 0x4C00:04 (R444). -/
def specEnable : Nat := 0x4C0004
/-- GATHER_INDICES_Qn, 0x4C00:10+n (R444). -/
def gatherIndices (n : Nat) : Nat := 0x4C0010 + n
/-- GATHER_BYTES_Qn, 0x4C00:14+n (R444). -/
def gatherBytes (n : Nat) : Nat := 0x4C0014 + n
/-- ELEM_FAILS_Qn, 0x4C00:18+n (R444). -/
def elemFails (n : Nat) : Nat := 0x4C0018 + n
/-- FILTER_ROWS_IN_Qn, 0x4C00:1C+n (R444). -/
def filterRowsIn (n : Nat) : Nat := 0x4C001C + n
/-- FILTER_ROWS_OUT_Qn, 0x4C00:20+n (R444). -/
def filterRowsOut (n : Nat) : Nat := 0x4C0020 + n
/-- ENGINE_LATE_Qn, 0x4C00:24+n (R444). -/
def engineLate (n : Nat) : Nat := 0x4C0024 + n
/-- BLOCK_RAW_BYTES, 0x4E00:01 (R467). -/
def blockRawBytes : Nat := 0x4E0001
/-- RAW_THRESH_PCT, 0x4E00:02 (R467). -/
def rawThreshPct : Nat := 0x4E0002
/-- TABLE_BUF_WAITS, 0x4E00:03 (R467). -/
def tableBufWaits : Nat := 0x4E0003
/-- BLOCKS_EXPANDED_Qn, 0x4E00:10+n (R467). -/
def blocksExpanded (n : Nat) : Nat := 0x4E0010 + n
/-- EXPAND_STALL_Qn, 0x4E00:14+n (R467). -/
def expandStall (n : Nat) : Nat := 0x4E0014 + n
/-- EXPAND_FAILS_Qn, 0x4E00:18+n (R467). -/
def expandFails (n : Nat) : Nat := 0x4E0018 + n
/-- COMPRESS_RAW_Qn, 0x4E00:1C+n (R467). -/
def compressRaw (n : Nat) : Nat := 0x4E001C + n
/-- COMPRESS_STORED_Qn, 0x4E00:20+n (R467). -/
def compressStored (n : Nat) : Nat := 0x4E0020 + n
/-- RAW_FALLBACKS_Qn, 0x4E00:24+n (R467). -/
def rawFallbacks (n : Nat) : Nat := 0x4E0024 + n
/-- SG_CAP, 0x5600:01 (R496). -/
def sgCap : Nat := 0x560001
/-- SG_SELECT, 0x5600:02 (R496). -/
def sgSelect : Nat := 0x560002
/-- SG_STAGE, 0x5600:03, by its selector (R496). -/
def sgStage (i : Nat) : Nat := 0x560003 + i * 0x1000000
/-- SG_ACTIVE, 0x5600:04, by its selector (R496). -/
def sgActive (i : Nat) : Nat := 0x560004 + i * 0x1000000
/-- SG_CMD, 0x5600:05 (R496). -/
def sgCmd : Nat := 0x560005
/-- SG_MEMBER, 0x5600:06 (R496). -/
def sgMember : Nat := 0x560006
/-- REBUILD_MBPS, 0x5600:07 (R496). -/
def rebuildMbps : Nat := 0x560007
/-- STEP_FENCE_REQ, 0x5600:09 (R496). -/
def stepFenceReq : Nat := 0x560009
/-- STEP_SELECT, 0x5600:0A (R496). -/
def stepSelect : Nat := 0x56000A
/-- STEP_FENCE_DONE, 0x5600:0B, by its selector (R496). -/
def stepFenceDone (i : Nat) : Nat := 0x56000B + i * 0x1000000
/-- DEGRADED_READS, 0x5600:10 (R496). -/
def degradedReads : Nat := 0x560010
/-- DEGRADED_WRITES, 0x5600:11 (R496). -/
def degradedWrites : Nat := 0x560011
/-- HOME_LOST, 0x5600:12 (R496). -/
def homeLost : Nat := 0x560012
/-- DATA_LOST, 0x5600:13 (R496). -/
def dataLost : Nat := 0x560013
/-- MEMBER_FAILS, 0x5600:14 (R496). -/
def memberFails : Nat := 0x560014
/-- REBUILDS_DONE, 0x5600:15 (R496). -/
def rebuildsDone : Nat := 0x560015
/-- REBUILD_RESTARTS, 0x5600:16 (R496). -/
def rebuildRestarts : Nat := 0x560016
/-- GROUPS_LOST, 0x5600:17 (R496). -/
def groupsLost : Nat := 0x560017
/-- UNIT_REPAIRS, 0x5600:18 (R496). -/
def unitRepairs : Nat := 0x560018
/-- PARITY_FIXES, 0x5600:19 (R496). -/
def parityFixes : Nat := 0x560019
/-- EPOCH_DISPUTES, 0x5600:1A (R496). -/
def epochDisputes : Nat := 0x56001A
/-- TRANS_REVERTS, 0x5600:1B (R496). -/
def transReverts : Nat := 0x56001B
/-- REBUILD_BYTES, 0x5600:1C (R496). -/
def rebuildBytes : Nat := 0x56001C
/-- EVLOG_BASE_HA, 0x7000:01 (R525). -/
def evlogBaseHa : Nat := 0x700001
/-- EVLOG_PROD_HA, 0x7000:02 (R525). -/
def evlogProdHa : Nat := 0x700002
/-- EVLOG_CONS_HA, 0x7000:03 (R525). -/
def evlogConsHa : Nat := 0x700003
/-- EVLOG_MASK_HA, 0x7000:04 (R525). -/
def evlogMaskHa : Nat := 0x700004
/-- EVLOG_BASE_HB, 0x7000:05 (R525). -/
def evlogBaseHb : Nat := 0x700005
/-- EVLOG_PROD_HB, 0x7000:06 (R525). -/
def evlogProdHb : Nat := 0x700006
/-- EVLOG_CONS_HB, 0x7000:07 (R525). -/
def evlogConsHb : Nat := 0x700007
/-- EVLOG_MASK_HB, 0x7000:08 (R525). -/
def evlogMaskHb : Nat := 0x700008
/-- LOG_SELECT, 0x7000:09 (R525). -/
def logSelect : Nat := 0x700009
/-- LOG_RECORD, 0x7000:0A (R525). -/
def logRecord : Nat := 0x70000A
/-- LOG_NEXT_SEQ, 0x7000:0B (R525). -/
def logNextSeq : Nat := 0x70000B
/-- RECORDS_DROPPED, 0x7000:0C (R525). -/
def recordsDropped : Nat := 0x70000C
/-- FAULTS_WRITTEN, 0x7000:0D (R525). -/
def faultsWritten : Nat := 0x70000D
/-- LAST_FAULT, 0x7000:0E (R525). -/
def lastFault : Nat := 0x70000E
/-- HEALTH_ENABLE, 0x7020:01 (R526). -/
def healthEnable : Nat := 0x702001
/-- EXPEL_THRESH, 0x7020:02 (R526). -/
def expelThresh : Nat := 0x702002
/-- EXPEL_BUDGET, 0x7020:03 (R526). -/
def expelBudget : Nat := 0x702003
/-- EXPEL_WINDOW_LOG2, 0x7020:04 (R526). -/
def expelWindowLog2 : Nat := 0x702004
/-- SYSTEMIC_PCT, 0x7020:05 (R526). -/
def systemicPct : Nat := 0x702005
/-- SYSTEMIC_TICKS, 0x7020:06 (R526). -/
def systemicTicks : Nat := 0x702006
/-- PROVISIONAL_LOG2, 0x7020:07 (R526). -/
def provisionalLog2 : Nat := 0x702007
/-- HEALTH_SELECT, 0x7020:08 (R526). -/
def healthSelect : Nat := 0x702008
/-- HEALTH_SCORE, 0x7020:09, by its selector (R526). -/
def healthScore (i : Nat) : Nat := 0x702009 + i * 0x1000000
/-- HEALTH_STATE, 0x7020:0A, by its selector (R526). -/
def healthState (i : Nat) : Nat := 0x70200A + i * 0x1000000
/-- EXPULSIONS, 0x7020:0B (R526). -/
def expulsions : Nat := 0x70200B
/-- EXPEL_DEFERRALS, 0x7020:0C (R526). -/
def expelDeferrals : Nat := 0x70200C
/-- SYSTEMIC, 0x7020:0D (R526). -/
def systemic : Nat := 0x70200D
/-- SYSTEMIC_EPISODES, 0x7020:0E (R526). -/
def systemicEpisodes : Nat := 0x70200E
/-- READMIT, 0x7020:0F (R526). -/
def readmit : Nat := 0x70200F
/-- MONITORED, 0x7020:10 (R526). -/
def monitored : Nat := 0x702010
/-- BELOW_NOW, 0x7020:11 (R526). -/
def belowNow : Nat := 0x702011
/-- FENCED, 0x7030:01 (R527). -/
def fenced : Nat := 0x703001
/-- FENCE_SELECT, 0x7030:02 (R527). -/
def fenceSelect : Nat := 0x703002
/-- FENCE_REASON, 0x7030:03, by its selector (R527). -/
def fenceReason (i : Nat) : Nat := 0x703003 + i * 0x1000000
/-- FENCE_TICK, 0x7030:04, by its selector (R527). -/
def fenceTick (i : Nat) : Nat := 0x703004 + i * 0x1000000
/-- FENCES, 0x7030:05 (R527). -/
def fences : Nat := 0x703005
/-- AGENT_RESETS, 0x7030:06 (R527). -/
def agentResets : Nat := 0x703006
/-- QUANTA_REASSIGNED, 0x7030:07 (R527). -/
def quantaReassigned : Nat := 0x703007
/-- DEVICE_CERT, 0x6000:01 (R557). -/
def deviceCert : Nat := 0x600001
/-- ALIAS_CERT, 0x6000:02 (R557). -/
def aliasCert : Nat := 0x600002
/-- MEAS_LIST, 0x6000:03 (R557). -/
def measList : Nat := 0x600003
/-- MEAS_DIGEST, 0x6000:04 (R557). -/
def measDigest : Nat := 0x600004
/-- REPORT_NONCE, 0x6000:05 (R557). -/
def reportNonce : Nat := 0x600005
/-- REPORT, 0x6000:06 (R557). -/
def report : Nat := 0x600006
/-- REPORT_COMP, 0x6000:07 (R557). -/
def reportComp : Nat := 0x600007
/-- AR_COUNTERS, 0x6000:08 (R557). -/
def arCounters : Nat := 0x600008
/-- SVN_COMMIT, 0x6000:09 (R557). -/
def svnCommit : Nat := 0x600009
/-- KDS_FEID, 0x6000:0A (R557). -/
def kdsFeid : Nat := 0x60000A
/-- KDS_SESSIONS, 0x6000:0B (R557). -/
def kdsSessions : Nat := 0x60000B
/-- SLOT_SELECT, 0x6000:0C (R557). -/
def slotSelect : Nat := 0x60000C
/-- SLOT_COMP, 0x6000:0D, by its selector (R557). -/
def slotComp (i : Nat) : Nat := 0x60000D + i * 0x1000000
/-- SLOT_PURPOSE, 0x6000:0E, by its selector (R557). -/
def slotPurpose (i : Nat) : Nat := 0x60000E + i * 0x1000000
/-- SLOT_STATE, 0x6000:0F, by its selector (R557). -/
def slotState (i : Nat) : Nat := 0x60000F + i * 0x1000000
/-- SLOT_CMD, 0x6000:10 (R557). -/
def slotCmd : Nat := 0x600010
/-- COMP_SELECT, 0x6000:11 (R557). -/
def keyCompSelect : Nat := 0x600011
/-- TENANT_PK_HASH, 0x6000:12, by its selector (R557). -/
def tenantPkHash (i : Nat) : Nat := 0x600012 + i * 0x1000000
/-- LINK_SLOT, 0x6000:13, by its selector (R557). -/
def linkSlot (i : Nat) : Nat := 0x600013 + i * 0x1000000
/-- REQUIRE_ENC, 0x6000:14, by its selector (R557). -/
def requireEnc (i : Nat) : Nat := 0x600014 + i * 0x1000000
/-- RETIRED_DROPS, 0x6000:15 (R557). -/
def retiredDrops : Nat := 0x600015
/-- KDS_AUTH_FAILS, 0x6000:16 (R557). -/
def kdsAuthFails : Nat := 0x600016
/-- REST_MAC_FAILS, 0x6000:17 (R557). -/
def restMacFails : Nat := 0x600017
/-- DEBUG_CHALLENGE, 0x6000:18 (R557). -/
def debugChallenge : Nat := 0x600018
/-- DEBUG_TOKEN, 0x6000:19 (R557). -/
def debugToken : Nat := 0x600019
/-- DEBUG_STATE, 0x6000:1A (R557). -/
def debugState : Nat := 0x60001A
/-- OWNER_DEBUG_HASH, 0x6000:1B (R557). -/
def ownerDebugHash : Nat := 0x60001B
/-- KEYS_LOADED, 0x6000:1C (R557). -/
def keysLoaded : Nat := 0x60001C
/-- ZEROIZES, 0x6000:1D (R557). -/
def zeroizes : Nat := 0x60001D
/-- COMP_CAP, 0x8100:01 (R575). -/
def compCap : Nat := 0x810001
/-- COMP_SELECT, 0x8100:02 (R575). -/
def compSelect : Nat := 0x810002
/-- COMP_STAGE, 0x8100:03, by its selector (R575). -/
def compStage (i : Nat) : Nat := 0x810003 + i * 0x1000000
/-- COMP_ACTIVE, 0x8100:04, by its selector (R575). -/
def compActive (i : Nat) : Nat := 0x810004 + i * 0x1000000
/-- MEMBERS_STAGE, 0x8100:05, by its selector (R575). -/
def membersStage (i : Nat) : Nat := 0x810005 + i * 0x1000000
/-- MEMBERS_ACTIVE, 0x8100:06, by its selector (R575). -/
def membersActive (i : Nat) : Nat := 0x810006 + i * 0x1000000
/-- GW_STAGE, 0x8100:07, by its selector (R575). -/
def gwStage (i : Nat) : Nat := 0x810007 + i * 0x1000000
/-- GW_ACTIVE, 0x8100:08, by its selector (R575). -/
def gwActive (i : Nat) : Nat := 0x810008 + i * 0x1000000
/-- COMMIT_CMD, 0x8100:09 (R575). -/
def commitCmd : Nat := 0x810009
/-- COMMIT_LEAD, 0x8100:0A (R575). -/
def commitLead : Nat := 0x81000A
/-- COMMIT_STATE, 0x8100:0B (R575). -/
def commitState : Nat := 0x81000B
/-- COMMIT_REASON, 0x8100:0C (R575). -/
def commitReason : Nat := 0x81000C
/-- COMMIT_SEQ, 0x8100:0D (R575). -/
def commitSeq : Nat := 0x81000D
/-- COMMIT_TICK, 0x8100:0E (R575). -/
def commitTick : Nat := 0x81000E
/-- STAGE_DIGEST, 0x8100:0F (R575). -/
def stageDigest : Nat := 0x81000F
/-- COMMITS, 0x8100:10 (R575). -/
def commits : Nat := 0x810010
/-- COMMIT_ABORTS, 0x8100:11 (R575). -/
def commitAborts : Nat := 0x810011
/-- TILES_HELD, 0x8100:12, by its selector (R575). -/
def tilesHeld (i : Nat) : Nat := 0x810012 + i * 0x1000000
/-- TIERH_HELD, 0x8100:13, by its selector (R575). -/
def tierhHeld (i : Nat) : Nat := 0x810013 + i * 0x1000000
/-- CLASS_WAITS, 0x8100:14, by its selector (R575). -/
def classWaits (i : Nat) : Nat := 0x810014 + i * 0x1000000
/-- MTR_SELECT, 0x8200:01 (R576). -/
def mtrSelect : Nat := 0x820001
/-- TILE_TICKS, 0x8200:02, by its selector (R576). -/
def tileTicks (i : Nat) : Nat := 0x820002 + i * 0x1000000
/-- ENGINE_TICKS, 0x8200:03, by its selector (R576). -/
def engineTicks (i : Nat) : Nat := 0x820003 + i * 0x1000000
/-- TIERH_TICKS, 0x8200:04, by its selector (R576). -/
def tierhTicks (i : Nat) : Nat := 0x820004 + i * 0x1000000
/-- FABRIC_IN, 0x8200:05, by its selector (R576). -/
def fabricIn (i : Nat) : Nat := 0x820005 + i * 0x1000000
/-- FABRIC_OUT, 0x8200:06, by its selector (R576). -/
def fabricOut (i : Nat) : Nat := 0x820006 + i * 0x1000000
/-- REDUCED_ELEMS, 0x8200:07, by its selector (R576). -/
def reducedElems (i : Nat) : Nat := 0x820007 + i * 0x1000000
/-- REPORT_NONCE, 0x8200:08 (R576). -/
def usageNonce : Nat := 0x820008
/-- REPORT_CMD, 0x8200:09 (R576). -/
def reportCmd : Nat := 0x820009
/-- LAST_REPORT, 0x8200:0A, by its selector (R576). -/
def lastReport (i : Nat) : Nat := 0x82000A + i * 0x1000000
/-- REPORT_SEQ, 0x8200:0B, by its selector (R576). -/
def reportSeq (i : Nat) : Nat := 0x82000B + i * 0x1000000
/-- REPORT_PERIOD_LOG2, 0x8200:0C (R576). -/
def reportPeriodLog2 : Nat := 0x82000C
/-- REPORTS_SIGNED, 0x8200:0D (R576). -/
def reportsSigned : Nat := 0x82000D
/-- MGMT_MAC, 0x1100:01 (R598). -/
def mgmtMac : Nat := 0x110001
/-- MGMT_PHY_MODE, 0x1100:02 (R598). -/
def mgmtPhyMode : Nat := 0x110002
/-- MGMT_IPV4, 0x1100:03 (R598). -/
def mgmtIpv4 : Nat := 0x110003
/-- MGMT_IPV6, 0x1100:04 (R598). -/
def mgmtIpv6 : Nat := 0x110004
/-- CMP_UDP_PORT, 0x1100:05 (R598). -/
def cmpUdpPort : Nat := 0x110005
/-- MGMT_CA_HASH, 0x1100:06 (R598). -/
def mgmtCaHash : Nat := 0x110006
/-- MGMT_PUBKEY, 0x1100:07 (R598). -/
def mgmtPubkey : Nat := 0x110007
/-- MGMT_CERT, 0x1100:08 (R598). -/
def mgmtCert : Nat := 0x110008
/-- CMP_SESSIONS, 0x1100:09 (R598). -/
def cmpSessions : Nat := 0x110009
/-- CMP_AUTH_FAILS, 0x1100:0A (R598). -/
def cmpAuthFails : Nat := 0x11000A
/-- CAMPION_STATE, 0x1100:0B (R598). -/
def campionState : Nat := 0x11000B
/-- CAMPION_RESTARTS, 0x1100:0C (R598). -/
def campionRestarts : Nat := 0x11000C
/-- SMBUS_ADDR, 0x1100:0D (R598). -/
def smbusAddr : Nat := 0x11000D
/-- SMBUS_ALERT_MASK, 0x1100:0E (R598). -/
def smbusAlertMask : Nat := 0x11000E
/-- RXRING_BASE, 0x1200:01+0x10h (R599). -/
def rxringBase (n : Nat) : Nat := 0x120001 + n * 16
/-- RXRING_SLOTS, 0x1200:02+0x10h (R599). -/
def rxringSlots (n : Nat) : Nat := 0x120002 + n * 16
/-- RXRING_PROD, 0x1200:03+0x10h (R599). -/
def rxringProd (n : Nat) : Nat := 0x120003 + n * 16
/-- RXRING_CONS, 0x1200:04+0x10h (R599). -/
def rxringCons (n : Nat) : Nat := 0x120004 + n * 16
/-- SEND_BUSY, 0x1200:05+0x10h (R599). -/
def sendBusy (n : Nat) : Nat := 0x120005 + n * 16
/-- SEND_DROPS, 0x1200:06+0x10h (R599). -/
def sendDrops (n : Nat) : Nat := 0x120006 + n * 16
/-- HOST_LINK, 0x1200:07+0x10h (R599). -/
def hostLink (n : Nat) : Nat := 0x120007 + n * 16
/-- HOST_PACKETS, 0x1200:08+0x10h (R599). -/
def hostPackets (n : Nat) : Nat := 0x120008 + n * 16
/-- VENDOR_NAME, 0x1000:01 (R617). -/
def vendorName : Nat := 0x100001
/-- PRODUCT_NAME, 0x1000:02 (R617). -/
def productName : Nat := 0x100002
/-- PART_NUMBER, 0x1000:03 (R617). -/
def partNumber : Nat := 0x100003
/-- SERIAL_NUMBER, 0x1000:04 (R617). -/
def serialNumber : Nat := 0x100004
/-- STEPPING, 0x1000:05 (R617). -/
def stepping : Nat := 0x100005
/-- MODULE_REV, 0x1000:06 (R617). -/
def moduleRev : Nat := 0x100006
/-- DIE_STEPPINGS, 0x1000:07 (R617). -/
def dieSteppings : Nat := 0x100007
/-- JTAG_IDCODE, 0x1000:08 (R617). -/
def jtagIdcode : Nat := 0x100008
/-- BOOTROM_VERSION, 0x1000:09 (R617). -/
def bootromVersion : Nat := 0x100009
/-- CAMPION_FW_VERSION, 0x1000:0A (R617). -/
def campionFwVersion : Nat := 0x10000A
/-- SERDES_FW_VERSION, 0x1000:0B (R617). -/
def serdesFwVersion : Nat := 0x10000B
/-- DICT_VERSION, 0x1000:0C (R617). -/
def dictVersion : Nat := 0x10000C
/-- CFG_LOCK, 0x1000:0D (R617). -/
def cfgLock : Nat := 0x10000D
/-- LOCKED_WRITES, 0x1000:0E (R617). -/
def lockedWrites : Nat := 0x10000E
/-- REJECTED_WRITES, 0x1000:0F (R617). -/
def rejectedWrites : Nat := 0x10000F
/-- LAST_REJECT, 0x1000:10 (R617). -/
def lastReject : Nat := 0x100010
/-- VIN_MV, 0x9000:01 (R646). -/
def vinMv : Nat := 0x900001
/-- IIN_MA, 0x9000:02 (R646). -/
def iinMa : Nat := 0x900002
/-- PKG_POWER, 0x9000:03 (R646). -/
def pkgPower : Nat := 0x900003
/-- POWER_CAP_W, 0x9000:04 (R646). -/
def powerCapW : Nat := 0x900004
/-- SUPPLY_STATE, 0x9000:05 (R646). -/
def supplyState : Nat := 0x900005
/-- DIPS_A, 0x9000:06 (R646). -/
def dipsA : Nat := 0x900006
/-- DIPS_B, 0x9000:07 (R646). -/
def dipsB : Nat := 0x900007
/-- OVERVOLTS, 0x9000:08 (R646). -/
def overvolts : Nat := 0x900008
/-- DIE_TEMP, 0x9000:09 (R646). -/
def dieTemp : Nat := 0x900009
/-- DIE_THROTTLE_C, 0x9000:0A (R646). -/
def dieThrottleC : Nat := 0x90000A
/-- DIE_TRIP_C, 0x9000:0B (R646). -/
def dieTripC : Nat := 0x90000B
/-- HBM_THROTTLE_C, 0x9000:0C (R646). -/
def hbmThrottleC : Nat := 0x90000C
/-- HBM_TRIP_C, 0x9000:0D (R646). -/
def hbmTripC : Nat := 0x90000D
/-- TILE_DUTY, 0x9000:0E (R646). -/
def tileDuty : Nat := 0x90000E
/-- HBM_SHARE, 0x9000:0F (R646). -/
def hbmShare : Nat := 0x90000F
/-- THROTTLE_TICKS, 0x9000:10 (R646). -/
def throttleTicks : Nat := 0x900010
/-- TILE_IDLE_NAP, 0x9000:11 (R646). -/
def tileIdleNap : Nat := 0x900011
/-- TILE_IDLE_SLEEP, 0x9000:12 (R646). -/
def tileIdleSleep : Nat := 0x900012
/-- TILE_IDLE_DORMANT, 0x9000:13 (R646). -/
def tileIdleDormant : Nat := 0x900013
/-- HBM_IDLE_SLEEP, 0x9000:14 (R646). -/
def hbmIdleSleep : Nat := 0x900014
/-- PB_IDLE_NAP, 0x9000:15 (R646). -/
def pbIdleNap : Nat := 0x900015
/-- PB_IDLE_SLEEP, 0x9000:16 (R646). -/
def pbIdleSleep : Nat := 0x900016
/-- QUAD_DEPTH_LIMIT, 0x9000:17 (R646). -/
def quadDepthLimit : Nat := 0x900017
/-- QUAD_OFF, 0x9000:18 (R646). -/
def quadOff : Nat := 0x900018
/-- WAKE_DELAY_NS, 0x9000:19 (R646). -/
def wakeDelayNs : Nat := 0x900019
/-- REFCLK_STATE, 0x9000:1A (R646). -/
def refclkState : Nat := 0x90001A
/-- REFCLK_PREF, 0x9000:1B (R646). -/
def refclkPref : Nat := 0x90001B
/-- REFCLK_SWITCHES, 0x9000:1C (R646). -/
def refclkSwitches : Nat := 0x90001C
/-- RESET_CMD, 0x9000:1D (R646). -/
def resetCmd : Nat := 0x90001D
/-- RESET_CAUSE, 0x9000:1E (R646). -/
def resetCause : Nat := 0x90001E
/-- STRAPS, 0x9000:1F (R646). -/
def straps : Nat := 0x90001F
/-- BIST_CMD, 0xF000:01 (R647). -/
def bistCmd : Nat := 0xF00001
/-- BIST_STATE, 0xF000:02 (R647). -/
def bistState : Nat := 0xF00002
/-- BIST_RESULT, 0xF000:03 (R647). -/
def bistResult : Nat := 0xF00003
/-- BIST_RUNS, 0xF000:04 (R647). -/
def bistRuns : Nat := 0xF00004
/-- BIST_LAST_TICK, 0xF000:05 (R647). -/
def bistLastTick : Nat := 0xF00005

end Reg

/-- The instance, index and sub-index of a key. -/
def keySel (k : Nat) : Nat := k / 0x1000000
/-- The index of a key. -/
def keyIdx (k : Nat) : Nat := k / 256 % 0x10000
/-- The sub-index of a key. -/
def keySub (k : Nat) : Nat := k % 256

/-- The table row of an entry, where the dictionary has it (R600). -/
def entryOf (idx sub : Nat) : Option Entry := (Dict.rows idx).find? (fun e => e.sub = sub)

/-- The row of a key. -/
def rowOf (k : Nat) : Option Entry := entryOf (keyIdx k) (keySub k)

/-- The straps as 0x9000:1F shows them: bits [7:6] and [31:12] read 0 (R644, log 11). -/
def straps : Nat := Config.factory 0x90001F % 64 + Config.factory 0x90001F / 256 % 16 * 256

/-- A default given in words (R603): MGMT_ROLE, SMBUS_ADDR, MODULE_REV and STRAPS follow the straps (R644), the rest is written at
manufacture, generated or random. -/
def wordDefault (k size : Nat) : Nat :=
  if k = 0x90001F then straps
  else if k = 0x800006 then straps % 2
  else if k = 0x11000D then 0x40 + straps / 2 % 8
  else if k = 0x100006 then straps / 256
  else Config.factory k % 256 ^ size

/-- The default of a key: the table's value, or the one R603 gives for its word (log 11). -/
def regDefault (k : Nat) : Nat :=
  match rowOf k with
  | some e => if e.factory then wordDefault k e.size else e.dflt
  | none => 0

end Sys2Proof.Machine
end

