-- ==== Sys2Proof/Machine/State.lean ====
section
/-! DEFINITION. The state of the block: the queue of waiting commands, the fuses, the tier H bytes, the object dictionary's values, and
the state outside the dictionary that the rules of each chapter name. All of it is plain data. -/

namespace Sys2Proof.Machine

/-- Why the machine stops with a fault. -/
inductive Fault where
  /-- Raised by OVERVOLTAGE above 90 V: R654 leaves the module beyond its absolute limits with no behavior stated. Safe: the model stops
  where the hardware's behavior is not given. -/
  | beyondAbsoluteLimits
  deriving DecidableEq, Repr

/-- Why a command has no meaning. -/
inductive Refusal where
  /-- Raised by `exec` for a command whose meaning is not yet written, by its mnemonic. Safe. -/
  | notModelled (mnemonic : String)
  deriving DecidableEq, Repr

/-- What the block sends to the outside (log 7). -/
inductive Out where
  /-- A flit in a slot of a port, on a lane of its block (R80, R82). -/
  | flit (port lane : Nat) (f : Flit)
  /-- A TRAIN flit: its header (R86), what it announces, and its timestamp in steps of 0.25 ns, a free value (R62, R84, R102; its payload has
  no layout in the rules: log 139). -/
  | train (port lane : Nat) (f : Flit) (t : TrainInfo) (stamp : Nat)
  /-- The 100 ns pulse on TICK_OUT (R69). -/
  | tickOut
  /-- An MSI-X message of a host (R594). -/
  | msix (h : HostId) (vec : Nat)
  /-- A write to host memory (R278, R514, R593). -/
  | hostWrite (h : HostId) (addr : Nat) (data : Bytes)
  /-- A PCIe completion of a BAR2 or window access: 0 successful, 1 Unsupported Request, 4 Completer Abort (R252, R253). -/
  | completion (h : HostId) (status : Nat) (data : Bytes)
  /-- A message of a CMP session or handshake (R582). -/
  | cmp (session : Nat) (m : SessMsg)
  /-- SMBus answer: status and data (R595). -/
  | smbus (status : Nat) (data : Bytes)
  /-- UART console answer (R597). -/
  | console (status : Nat) (data : Bytes)
  /-- A granted directory request: agent, line, the state granted, data (R296). -/
  | grant (agent : Nat) (line : Nat) (st : Nat) (data : Bytes)
  /-- A failed agent or L2 request: agent (0xFFFF for none), line, status. -/
  | refuse (agent : Nat) (line : Nat) (status : Nat)
  /-- A snoop to an owner (R302). -/
  | snoop (agent : Nat) (line : Nat) (keepShared : Bool)
  /-- A posted invalidation (R299). -/
  | invalidate (agent : Nat) (line : Nat)
  /-- Data an L2 read returns to its source (R296, R312). -/
  | l2data (off : Nat) (data : Bytes)
  /-- A value an agent's or console's read, or a generated report, returns. -/
  | report (data : Bytes)
  deriving DecidableEq, Repr

/-! ### Domain and tick -/

/-- The latest beacon of a switch and the tick in which it arrived (R49 to R52). -/
structure BeaconRec where
  beacon : Beacon
  arrived : Nat
  deriving DecidableEq, Repr

/-- The last marker of a plane port: the marker, its arrival in ps after the own edge of its tick, its arrival tick (R61, R63). -/
structure MarkerRec where
  marker : Marker
  arrivalPs : Int
  arrived : Nat
  deriving DecidableEq, Repr

/-- A module that announces this switch's own ID: tick of its first beacon, arrival tick of its last (R43). -/
structure Rival where
  first : Nat
  last : Nat
  deriving DecidableEq, Repr

/-- Domain, election and tick state outside the dictionary. -/
structure DomState where
  /-- Domain ID acted on and beaconed (R37, R611). -/
  domId : Nat := 0
  /-- Switch ID acted on (R37, R611). -/
  swId : Nat := 0xFF
  /-- Plane set acted on (R37, R611). -/
  planeSet : Nat := 0
  /-- Tick of this switch's first beacon (R43). -/
  firstBeacon : Option Nat := none
  /-- Latest beacon of each switch ID (R49 to R52). -/
  beacons : Tab BeaconRec := []
  /-- Beacons already forwarded: switch ID, serial number and tick; two modules under one ID are two switches (R43, R49). -/
  seenBeacons : List (Nat × Nat × Nat) := []
  /-- Switches whose self-test result, as sent to the manager, was a failure and that have not passed since (R58 phase 3). -/
  testFailed : Nat := 0
  /-- Phase 2 to 5 that this manager last had repeated in a recovery, 0 for none (R59), and the workers it has sent images to in phase 2
  (R58). -/
  led : Nat := 0
  imaged : Nat := 0
  /-- TICK_IN mode in force: 0x8000:0D as it stood at the last tick edge (R67, R611). -/
  tickInMode : Nat := 0
  /-- Modules announcing the own switch ID, by serial number (R43). -/
  rivals : Tab Rival := []
  /-- Last marker of each plane port (R61, R63). -/
  markers : Tab MarkerRec := []
  /-- Delay of each plane link in ps (R62). -/
  linkDelay : Tab Nat := []
  /-- Last shift of the edge, in ps per tick (R64, R66). -/
  freqCorr : Int := 0
  /-- Ticks for which the configured master has stayed a candidate, and the switch they count for (R54). -/
  candStreak : Nat := 0
  candOf : Nat := 0xFF
  /-- The master before the present one: a registry change it had announced may still arrive (R55). -/
  prevMaster : Nat := 0xFF
  /-- Tick last counted in 0x8000:13 (R65). -/
  faultTick : Option Nat := none
  /-- Announced handover tick (R54, R61). -/
  handoverAt : Option Nat := none
  /-- Start-up phase, 1 to 5 (R58). -/
  phase : Nat := 1
  /-- ENDPOINT ports admitted: LOCKED was reached (R58 phase 5). -/
  admitted : Bool := false
  /-- Restarted since the switch last passed phase 3 (R59). -/
  restarted : Bool := true
  /-- Consecutive ticks without a master (R59). -/
  noMaster : Nat := 0
  /-- 0x8000:0E was loaded at formation (R68). -/
  formed : Bool := false
  /-- The master's tick is within 10 ns of TICK_IN (R68). -/
  extAligned : Bool := false
  /-- Switches declared lost and not heard since (R503). -/
  lostSwitches : Nat := 0
  /-- Control notices already forwarded: CTYPE and identifying fields (R56, R508, R418). -/
  seenNotices : List (List Nat) := []
  deriving DecidableEq, Repr

/-! ### Ports -/

/-- The bytes of one class not yet taken from a port's receive FIFO, and its framing position (R85, R94, R123). -/
structure RxClass where
  /-- Flits held, oldest first: payload bytes still in the FIFO, and the SH mark of its credit (R98). -/
  flits : List (Nat × Bool) := []
  /-- Bytes of the packet in progress seen so far, at most its first 17. -/
  hdr : Bytes := []
  /-- Bytes the packet in progress still needs; 0 at a packet boundary. -/
  need : Nat := 0
  /-- Bytes of the packet in progress received. -/
  got : Nat := 0
  /-- Discarding up to the next flit with a valid SOP (R123). -/
  resync : Bool := false
  /-- The packet in progress is discarded (R132, R137). -/
  drop : Bool := false
  deriving DecidableEq, Repr

/-- A cell in egress staging: its bytes, whether the packet begins or ends in it, and whether the flit carrying it is to be sent with a
bad CRC (R172). -/
structure StagedCell where
  bytes : Bytes
  sop : Bool
  eop : Bool
  bad : Bool := false
  /-- 1 + slot × 256 + generation that its packet passed check 2 under; 0 without (R551). -/
  key : Nat := 0
  deriving DecidableEq, Repr

/-- One sample of the link inputs of R116: a tick with its counts. -/
structure LinkSample where
  tick : Nat
  sent : Nat := 0
  resent : Nat := 0
  timeouts : Nat := 0
  uncorr : Nat := 0
  deriving DecidableEq, Repr

/-- The last NAK acted on: its ACK, or 4,096 where that is not valid, and the port's time and the tick in which it came (R92). -/
structure NakMark where
  ack : Nat
  clock : Nat
  tick : Nat
  deriving DecidableEq, Repr

/-- Per-port state outside the dictionary. -/
structure Port where
  /-- Width at the end of training (R116). -/
  trainedWidth : Nat := 0
  /-- Failed lanes, those that did not pass EQUALIZE among them (R103, R106). -/
  failed : Nat := 0
  /-- Active transmit and receive lane sets (R107 to R110). -/
  txLanes : Nat := 0
  rxLanes : Nat := 0
  /-- Target set of the DEGRADE_REQ or RESTORE_REQ this side sends (R108, R112). -/
  laneReq : Option Nat := none
  /-- The request in progress is a restore (R112). -/
  restoring : Bool := false
  /-- Lane set to switch to at the next slot round, and whether the replay follows (R109, R110, R112). -/
  switchDue : Option Nat := none
  switchReplay : Bool := false
  /-- The ALIGN round in progress carries SWITCH (R109). -/
  switching : Bool := false
  /-- This side has switched for the peer's request, and the peer's own SWITCH is still to come (R109). -/
  switchSent : Bool := false
  /-- A lane was repaired while an exchange was open or the port in RETRAIN: the restore is asked for when that ends (R112). -/
  restoreDue : Bool := false
  /-- Credit allocation of the training under way or completed last, 0x2100+b:04 as it stood when that training began (R96). -/
  alloc : List Nat := []
  /-- Next flit slot (R80), and the time its slots have taken, in fs (R79). -/
  slot : Nat := 0
  clock : Nat := 0
  /-- ALIGN flits still to be sent in the round in progress (R81). -/
  alignLeft : Nat := 0
  /-- Next DATA sequence number to send and to accept (R87, R89). -/
  txSeq : Nat := 0
  rxSeq : Nat := 0
  /-- A DATA flit was accepted since entering ACTIVE (R90). -/
  ackValid : Bool := false
  /-- A replay is requested (R92). -/
  nak : Bool := false
  /-- The last NAK acted on, ignored when repeated within 2 µs (R92). -/
  lastNak : Option NakMark := none
  /-- Unacknowledged DATA flits, oldest first (R88). -/
  replay : List Flit := []
  /-- Flits of the replay buffer still to be resent, oldest first; new DATA waits for it (R92). -/
  resend : List Flit := []
  /-- Consecutive retry expiries without ACK advance (R92). -/
  expiries : Nat := 0
  /-- Credits held for each of the nine pools (R94 to R99). -/
  credits : List Nat := []
  /-- Counter values last taken from the peer (R99). -/
  crSeen : List Nat := []
  /-- Cumulative credits returned to the peer (R98). -/
  crRet : List Nat := []
  /-- Which counters the next flit carries (R98). -/
  crNext : Nat := 0
  /-- Receive streams by class (R85). -/
  rx : Tab RxClass := []
  /-- Staged cells by class (R164). -/
  staged : Tab (List StagedCell) := []
  /-- Packet in progress at the crossbar by class: the ingress quadrant and the packet's number in its queues (R166). -/
  inProgress : Tab (Nat × Nat) := []
  /-- Switch-generated packets that wait for the egress, by class, and the cells of the one being staged that have found no room yet (R164,
  log 18). -/
  txq : Tab (List Packet) := []
  txRest : Tab (List StagedCell) := []
  /-- Deficits of CLS2 to CLS7 and the round-robin position (R167). -/
  deficit : Tab Nat := []
  drr : Nat := 2
  /-- Link packet counters by class, sent and received (R547). -/
  txCtr : Tab Nat := []
  rxCtr : Tab Nat := []
  /-- What the peer announced in TRAIN (R102). -/
  peer : Option TrainInfo := none
  /-- Port number the peer's ALIGN flits announce (R84, R546). -/
  peerPort : Nat := 0
  /-- Bytes of the packet in progress at the crossbar not yet granted, by class (R166). -/
  egress : Tab Bytes := []
  /-- Own link salt (R546). -/
  salt : Bytes := []
  /-- In DETECT after a DYING, ignoring signal (R115). -/
  dyingHold : Bool := false
  /-- DYING flits still to be sent, and their payload (R114). -/
  dyingLeft : Nat := 0
  dying : Option Dying := none
  /-- Only IDLE is sent after the own DYING (R114). -/
  closing : Bool := false
  /-- Held down by an expulsion (R519), or by its quadrant's level (R31). -/
  expelled : Bool := false
  /-- Samples of the last 2^10 ticks (R116), newest first. -/
  samples : List LinkSample := []
  /-- Ticks of RETRAIN entries in the last 2^20 (R116), newest first. -/
  retrains : List Nat := []
  /-- Corrected symbol rate of the worst lane over 1 ms, per 10^9 (R116). -/
  serWorst : Nat := 0
  deriving DecidableEq, Repr

/-! ### Switch core -/

/-- A set of cells as intervals (first, length), rising and disjoint. -/
abbrev Cells := List (Nat × Nat)

/-- A packet admitted into a quadrant's buffer and standing on a queue (R156, R157). -/
structure QEnt where
  /-- Number of the entry within the quadrant. -/
  id : Nat
  pkt : Packet
  src : Ingress
  /-- Cells held; empty for a reference to a multicast descriptor. -/
  cells : Cells := []
  /-- Length in cells (R154). -/
  n : Nat := 0
  /-- Pool: 0 shared, 1 the CLS0 reserve, 2 the CLS1 reserve (R160). -/
  pool : Nat := 0
  /-- Multicast descriptor (R175). -/
  desc : Option Nat := none
  /-- Leaves cut-through (R147). -/
  cut : Bool := false
  /-- A contribution of a job of this switch: the unit of its quantum (R375). -/
  unit : Option Nat := none
  /-- Cells already granted to egress or to the unit (R166, R169). -/
  granted : Nat := 0
  /-- Home Map entry bound at admission: number and active value (R142); 0 where none. -/
  hmapNo : Nat := 0
  hmap : Nat := 0
  /-- Region entry bound at check 6 (R196); 0 where none. -/
  region : Nat := 0
  /-- Tick of admission. -/
  tick : Nat := 0
  deriving DecidableEq, Repr

/-- A multicast descriptor (R175). -/
structure Desc where
  pkt : Packet
  cells : Cells
  n : Nat
  pool : Nat
  ref : Nat
  deriving DecidableEq, Repr

/-- A tracked line of the hot-line detector (R178): stores in the window, stores by source port, hot mark, last use. -/
structure HotLine where
  line : Nat
  count : Nat := 0
  bySrc : Tab Nat := []
  hot : Bool := false
  offenders : List Nat := []
  used : Nat := 0
  deriving DecidableEq, Repr

/-- One quadrant's switch core slice. -/
structure Core where
  /-- Free list and free counter (R157, R158, R188). -/
  free : Cells := [(0, 196608)]
  freeCnt : Nat := 196608
  /-- Cells drawn from the CLS0 and CLS1 reserves (R160). -/
  rsv0Used : Nat := 0
  rsv1Used : Nat := 0
  /-- Reserves in force (R190). -/
  rsv0 : Nat := 0x800
  rsv1 : Nat := 0x1000
  /-- Multicast cells (R174). -/
  mcCells : Nat := 0
  /-- VOQs by port × 8 + class, unit queues by 4096 + unit × 8 + class (R156). -/
  queues : Tab (List QEnt) := []
  /-- Number of the next entry or descriptor. -/
  nextId : Nat := 1
  descs : Tab Desc := []
  /-- Round-robin position of the ingress side (R166). -/
  rr : Nat := 0
  /-- Cells sent over each bridge in the previous core cycle, by egress quadrant (R164). -/
  bridge : Tab Nat := []
  /-- Tracked lines (R178), and the use counter that orders them. -/
  hot : List HotLine := []
  hotUse : Nat := 0
  /-- Offending ports with their interval P in core cycles (R180). -/
  withheld : Tab Nat := []
  /-- Teasel: audit running, next audit is a baseline, due tick, previous orphans, cells seen and descriptors touched (R182 to R186). -/
  auditing : Bool := false
  baseline : Bool := true
  auditDue : Nat := 0
  /-- An audit fell due while one ran (R182). -/
  auditWaits : Bool := false
  /-- Cells the last audit found under two owners other than FREE (R187). -/
  shared : Cells := []
  prevOrphans : Cells := []
  seen : Cells := []
  touched : List Nat := []
  deriving DecidableEq, Repr

/-- A packet in a receive FIFO or send slot that passed checks 1 to 6 and is not yet admitted (R100, R161), with the region entry bound at
check 6 (R196). -/
structure Waiting where
  pkt : Packet
  region : Nat := 0
  deriving DecidableEq, Repr

/-! ### Home functions -/

/-- A request outstanding at a tray (R126, R662). `role` says which unit or phase it serves: a stripe unit number for a member access,
100 for the whole of a SINGLE range, 200 + unit for the write-back of a repair. -/
structure TraySub where
  port : Nat
  feid : Nat
  src : Nat
  reqEpoch : Nat
  tag : Nat
  write : Bool
  addr : Nat
  len : Nat
  data : Bytes := []
  cls : Nat := 2
  comp : Nat := 0
  hmapNo : Nat := 0
  epoch : Nat := 0
  op : Nat := 0
  role : Nat := 100
  tries : Nat := 0
  /-- A requester's own request, forwarded: the home does not send it again (R220). -/
  fwd : Bool := false
  /-- Stripe group it serves, and the device addresses of the operation that sent it: first byte and length (R476, R489, R492). -/
  grp : Option Nat := none
  da : Nat := 0
  span : Nat := 0
  /-- Nothing further of its request is sent (R488). -/
  stopped : Bool := false
  deriving DecidableEq, Repr

/-- What a home operation does. -/
inductive OpKind where
  | read | write | posted | merge
  /-- A rebuild step and a resync step of one stripe (R481, R493). -/
  | rebuild | resync
  deriving DecidableEq, Repr

/-- A request the home has taken, or a closed merge record, in take order (R193, R211, R473). -/
structure HomeOp where
  id : Nat
  kind : OpKind
  pkt : Packet
  /-- A tier H request, at its window offset. -/
  tierH : Bool := false
  /-- Home Map entry bound: number and value (R142). -/
  hmapNo : Nat := 0
  hmap : Nat := 0
  /-- Region entry bound (R196), and the generation of its REST_KSLOT (R550). -/
  region : Nat := 0
  restGen : Nat := 0
  /-- Stripe group, stripe, data unit, offset in the unit, length (R471). -/
  grp : Option Nat := none
  stripe : Nat := 0
  unit : Nat := 0
  off : Nat := 0
  len : Nat := 0
  /-- Lines or stripe lines held (R202, R473). -/
  keys : List Nat := []
  started : Bool := false
  /-- 1 reading, 2 writing (R474, R218), 3 written and to be answered, 4 answered with repairs outstanding (R479). -/
  phase : Nat := 1
  /-- Bytes read from stripe units, and units that answered ERR_ECC (R479). -/
  got : Tab Bytes := []
  ecc : List Nat := []
  /-- Bytes to write. -/
  data : Bytes := []
  /-- Atomics of a merge record in join order, and their prior values once applied (R213). -/
  atoms : List Packet := []
  priors : List Bytes := []
  /-- Status of the write of a merge record (R214). -/
  status : Nat := 0
  /-- Tick in which the request was taken (R494). -/
  tick : Nat := 0
  /-- A request of a unit of this switch: the home originates it and answers no packet (R227). -/
  own : Bool := false
  /-- The staging slot that a fill READ serves (R244). -/
  fill : Option Nat := none
  deriving DecidableEq, Repr

/-- An open merge record (R211). -/
structure MergeRec where
  atoms : List Packet
  hmapNo : Nat := 0
  hmap : Nat := 0
  region : Nat := 0
  tierH : Bool := false
  tick : Nat := 0
  /-- Generation of its region's REST_KSLOT (R550). -/
  restGen : Nat := 0
  deriving DecidableEq, Repr

/-- A dedup record (R215): state 0 PENDING, 1 LIVE, 2 STALE. -/
structure Dedup where
  da : Nat
  aop : Nat
  awidth : Nat
  asigned : Bool
  payload : Bytes
  state : Nat := 0
  /-- The tick T of the application. -/
  tick : Nat := 0
  prior : Bytes := []
  /-- The merge record's write completed, with this status. -/
  written : Bool := false
  status : Nat := 0
  /-- Retries attached, to receive copies of the RESP (R216). -/
  attached : List Packet := []
  deriving DecidableEq, Repr

/-- Stripes gained by a commit and not yet verified (R493): the Home Map entry before it (0 for none), and the stripes verified since. -/
structure Unverified where
  old : Nat
  done : List Nat := []
  deriving DecidableEq, Repr

/-- One quadrant's home functions. -/
structure Home where
  /-- Open merge records by line (R211). -/
  merges : Tab MergeRec := []
  /-- Dedup records by triple: SRC_FEID × 2^24 + REQ_EPOCH × 2^16 + TAG (R215). -/
  dedup : Tab Dedup := []
  /-- The dedup store was emptied and no request taken since (R219). -/
  staleArmed : Bool := true
  /-- First tick at which atomics are applied again (R219). -/
  staleUntil : Option Nat := none
  /-- Requests and closed records in take order. -/
  ops : List HomeOp := []
  subs : List TraySub := []
  nextOp : Nat := 1
  nextTag : Nat := 0
  /-- Round-robin position over the ingress quadrants (R169). -/
  rr : Nat := 0
  deriving DecidableEq, Repr

/-- A request for the quadrant's L2 from its home function or BAR2 that HREAD, HWRITE or HATOM serves (R200, R252). -/
structure L2Req where
  /-- 0 read, 1 write, 2 merge record. -/
  kind : Nat
  off : Nat
  len : Nat
  data : Bytes := []
  /-- The home operation it serves, 0 for a BAR2 access. -/
  op : Nat := 0
  host : Option HostId := none
  /-- Number of a BAR2 access, in the order PCIe delivers them (R253). -/
  seq : Nat := 0
  /-- Bytes served so far, line by line (R202), and what they were; the next line is at its slice. -/
  done : Nat := 0
  got : Bytes := []
  asked : Bool := false
  deriving DecidableEq, Repr

/-- Stripe group state outside the active entry. -/
structure GroupRt where
  /-- Spare assigned to each member being rebuilt (R480). -/
  spareOf : Tab Nat := []
  unverified : List Unverified := []
  /-- A restart waits for the next edge (R485). -/
  restart : Bool := false
  /-- Tick of the last failure of a member, or of a step of the rebuild: what follows waits for a later edge (R480, R481, R485). -/
  held : Option Nat := none
  deriving DecidableEq, Repr

/-- A step fence of a composition (R494): the fence tick, once the edge has passed. -/
structure StepFence where
  tick : Option Nat := none
  deriving DecidableEq, Repr

/-! ### Memory tiers -/

/-- A staging slot that is not FREE (R243). State 1 FILLING, 2 READY, 3 FAILED. -/
structure StageSlot where
  state : Nat := 1
  comp : Nat
  /-- 2 MiB unit of tier P. -/
  unit : Nat
  deadline : Nat
  /-- Blocks of 4 KiB whose READ returned OK, and whose READ was sent once more (R244), as masks. -/
  filled : Nat := 0
  retried : Nat := 0
  /-- The fill READ at the unit's home: its block and the home's operation; its answer, a status and bytes, not yet taken (R244). -/
  read : Option (Nat × Nat) := none
  answer : Option (Nat × Bytes) := none
  status : Nat := 0
  lastUse : Nat := 0
  /-- Units whose quanta pin it (R248). -/
  pins : List Nat := []
  /-- The first pinned use has ended (R247). -/
  used : Bool := false
  /-- To be refilled once no quantum pins it (R243). -/
  refresh : Bool := false
  /-- Out of the pool until a fundamental reset: its stack failed (R502). -/
  gone : Bool := false
  deriving DecidableEq, Repr

/-- A staging request (R242, R249): its units, what was reported, and the job (quadrant × 2^16 + record) or plan (2^20 + slot) it
serves. -/
structure StageReq where
  comp : Nat
  reqId : Nat
  first : Nat
  count : Nat
  deadline : Nat
  owner : Nat
  late : Bool := false
  complete : Bool := false
  deriving DecidableEq, Repr

/-- A scratch unit of 64 KiB (R255): the composition that last held it, the unit (tile or engine) whose quantum holds it now, and its
contents, the free value of a number, or none where it is zeroed (R256). -/
structure ScratchUnit where
  comp : Nat
  holder : Option Nat := none
  fill : Option Nat := none
  deriving DecidableEq, Repr

/-- State of the memory tiers outside the dictionary. -/
structure Tiers where
  slots : Tab StageSlot := []
  reqs : List StageReq := []
  /-- Units that wait for an evictable slot, oldest first: composition, unit, deadline (R247). -/
  waits : List (Nat × Nat × Nat) := []
  /-- Pool in force (R241). -/
  poolBase : Nat := 0
  poolSlots : Nat := 0
  /-- Sectors by window offset ÷ 64: uncorrectable ones (R236), and those whose bits in the stack hold a correctable error (R235). -/
  bad : List Nat := []
  soft : List Nat := []
  /-- Lines the L2 holds, with whether the L2 has changed them since (R233), and lines whose dirty copy in the L2 is lost and not yet
  reported (R234). -/
  l2c : Tab Bool := []
  l2err : List Nat := []
  /-- Next sector of each stack's scrubber; a write was taken between the scrubber's read and its write-back (R238). -/
  scrubPos : Tab Nat := []
  scrubCut : Bool := false
  /-- Number of the last BAR2 access (R253). -/
  bar2Seq : Nat := 0
  /-- Stacks being brought out of SLEEP (R240). -/
  waking : Nat := 0
  /-- Scratch units that a composition has held, by tile × 32 + unit (R226, R255). -/
  scratch : Tab ScratchUnit := []
  deriving DecidableEq, Repr

/-! ### Translation -/

/-- A TLB entry (R270): context, page number (VA ÷ 512 MiB, or ÷ 16 GiB for a big page), rights (bit 0 R, 1 W, 2 A), TARGET, RKEY. -/
structure TlbEnt where
  ctx : Nat
  big : Bool
  page : Nat
  rights : Nat
  target : Nat
  rkey : Nat
  deriving DecidableEq, Repr

/-- An access that waits on a walk or a fault (R273, R276): the unit that makes it (tile, or 128 + 8 × quadrant + engine), the VA, the
right it needs (0 R, 1 W, 2 A). -/
structure XAccess where
  unit : Nat
  va : Nat
  kind : Nat
  deriving DecidableEq, Repr

/-- A page walk of a quadrant (R273). -/
structure PageWalk where
  ctx : Nat
  /-- VA[45:29]. -/
  page : Nat
  accs : List XAccess
  /-- It runs; its result is to be discarded (R285). -/
  running : Bool := false
  stale : Bool := false
  deriving DecidableEq, Repr

/-- An outstanding page fault (R276 to R284). `id` is 0 while its record waits for log room. -/
structure PageFault where
  id : Nat := 0
  host : HostId
  q : Nat
  ctx : Nat
  page : Nat
  reason : Nat
  access : Nat
  agent : Nat
  va : Nat
  pte : Nat
  tick : Nat
  workId : Nat
  comp : Nat
  attempt : Nat
  accs : List XAccess
  /-- It found its host's log full and is counted (R278). -/
  waited : Bool := false
  deriving DecidableEq, Repr

/-- State of translation outside the dictionary. -/
structure Trans where
  /-- Micro-TLBs by tile and quadrant TLBs by quadrant, most recently used first (R270). -/
  micro : Tab (List TlbEnt) := []
  quad : Tab (List TlbEnt) := []
  /-- Walks by quadrant: the first 16 run (R273). -/
  walks : Tab (List PageWalk) := []
  faults : List PageFault := []
  /-- Next FAULT_ID less 1, of HA and HB (R277). -/
  idA : Nat := 0
  idB : Nat := 0
  /-- Invalidation requests to be served at the next edge, and those whose old accesses are still to finish: each with the units that
  then had accesses under way on a removed translation (R285, R286). -/
  inval : List Nat := []
  draining : List (List Nat) := []
  /-- Contexts whose VALID was cleared, until the edge (R264). -/
  cleared : List Nat := []
  deriving DecidableEq, Repr

/-! ### Coherence -/

/-- A directory entry (R294): 1 S, 2 E, 3 M, and its agent vector. -/
structure DirEnt where
  st : Nat
  agents : Nat
  deriving DecidableEq, Repr

/-- An agent's copy of a line (R291, R293): 1 S, 2 E, 3 M, its context tag, its 128 bytes. -/
structure Copy where
  st : Nat
  ctx : Nat
  data : Bytes
  deriving DecidableEq, Repr

/-- What an agent does to a line it asks for in M: bytes that it writes at a place of the line, and an atomic that it executes there (R296, R298). -/
structure L1Op where
  off : Nat := 0
  data : Bytes := []
  atomic : Option L1Atomic := none
  deriving DecidableEq, Repr

/-- A request that waits in the slice for a snoop or for held acknowledgments (R296, R299); an eviction that waits on its owner, which may
keep the line in S. -/
inductive DirReq where
  | gets (agent line ctx : Nat)
  | getm (agent line ctx : Nat) (op : L1Op)
  | wfull (agent line ctx : Nat) (data : Bytes)
  | hread (src : HSource) (off len : Nat)
  | hwrite (src : HSource) (off : Nat) (data : Bytes)
  | hatom (src : HSource) (off aop awidth : Nat) (asigned : Bool) (operand : Bytes)
  | evict (line : Nat) (keep : Bool)
  deriving DecidableEq, Repr

/-- A snoop outstanding to an owner, with the request that waits on it (R302). -/
structure Snoop where
  agent : Nat
  line : Nat
  req : DirReq
  deriving DecidableEq, Repr

/-- An acquire-wait that a tile is in (R309): its location, condition, the tick it began in and its timeout in ticks, 1 to 16. -/
structure AcqWait where
  off : Nat
  cond : Nat
  width : Nat
  value : Nat
  since : Nat
  ticks : Nat
  deriving DecidableEq, Repr

/-- State of coherence outside the dictionary. -/
structure Coh where
  /-- Directory by line: window offset ÷ 128. -/
  dir : Tab DirEnt := []
  /-- Lines in LOST (R294). -/
  lost : List Nat := []
  /-- Copies by agent × 2^33 + line. -/
  copies : Tab Copy := []
  /-- Invalidation queues by agent, oldest first; acknowledgments held beyond 256 (R299). -/
  invq : Tab (List Nat) := []
  held : Tab (List Nat) := []
  /-- Posted invalidations not yet acknowledged: agent, line (R299). -/
  posted : List (Nat × Nat) := []
  snoops : List Snoop := []
  /-- Requests that wait for held acknowledgments of a line (R299). -/
  blocked : List DirReq := []
  /-- NO_DATA responses to be discarded: agent, line (R302). -/
  noData : List (Nat × Nat) := []
  /-- Tick of the last heartbeat, by agent × 4 + slice (R303). -/
  beats : Tab Nat := []
  /-- MM_GRAIN in force, by unit: the granularity of its context at its last kernel boundary (R311, R432). -/
  grain : Tab Nat := []
  /-- Acquire-waits by tile (R309). -/
  waits : Tab AcqWait := []
  deriving DecidableEq, Repr

/-! ### Jobs -/

/-- A run of units of a node's grid: the first of them and how many; of a GEMM, a block of row bands and the column bands side by side (R331). -/
structure Run where
  first : Nat
  count : Nat
  wide : Nat := 1
  deriving DecidableEq, Repr

/-- A READ or WRITE of tier P that a unit, or a scheduler for a hand-back, has made through the home of its unit of tier P: the request's quadrant and operation there, the gather
element ahead of whose position it was read (R340), and the status and bytes that have come back (R227, R308, R433). -/
structure TrayAccess where
  write : Bool := false
  da : Nat
  len : Nat
  quad : Nat
  op : Nat
  index : Option Nat := none
  /-- Sent a second time, after ERR_HOME_LOST (R433). -/
  again : Bool := false
  answer : Option (Nat × Bytes) := none
  deriving DecidableEq, Repr

/-- A node of a resident job (R319, R329): 0 waiting, 1 started, 2 complete, 3 failed. -/
structure NodeRt where
  st : Nat := 0
  /-- Runs of units of its grid not yet given to a quantum, or to be given out again (R330, R504); none before its first quantum starts. -/
  left : Option (List Run) := none
  /-- Units completed. -/
  done : Nat := 0
  /-- Waits past a deadline under WAIT (R413). -/
  late : Bool := false
  /-- The shadow record of each operand that was replaced, and whether the choice is made: a node keeps its choice (R401, R414). -/
  shadows : Tab Nat := []
  chosen : Bool := false
  /-- Bytes of the result stream not yet sent, by part: offset in the part and bytes (R321, R440, R464). -/
  stream : Tab (List (Nat × Bytes)) := []
  /-- Rows kept so far (R440), or the offsets of the blocks produced and the length in 16-byte units (R463). -/
  kept : Nat := 0
  idx : List Nat := []
  units : Nat := 0
  /-- It waits for the table buffer, and the wait has been counted (R464). -/
  tableWait : Bool := false
  /-- It is being handed back, and the READs of its input in tier P (R415). -/
  back : Bool := false
  trays : List TrayAccess := []
  deriving DecidableEq, Repr

/-- A resident job (R318 to R325). -/
structure Job where
  pkt : Packet
  reply : Nat
  admitTick : Nat
  /-- Its place in the order of admission (R332). -/
  seq : Nat := 0
  /-- Library bank, 1 A or 2 B (R347). -/
  bank : Nat
  halvings : Nat
  /-- Overrun streak with the tick it was last advanced, and the tick of the last late slot or change (R335). -/
  streak : Nat := 0
  streakTick : Nat := 0
  calm : Nat := 0
  lateTicks : Nat := 0
  quanta : Nat := 0
  parkUs : Nat := 0
  /-- Ticks its TIMEOUT_TICKS was held (R625). -/
  heldTicks : Nat := 0
  nodes : List NodeRt := []
  /-- Ending: status and first failed node, once the job has failed or been ended (R337). -/
  ending : Option (Nat × Nat) := none
  /-- Shadowed nodes and operands replaced (R416). -/
  shadowNodes : Nat := 0
  shadowOps : Nat := 0
  /-- Backup arbitration (R419): 0 none, 1 notified, 2 claim sent, 3 granted; the primary's switch; the tick of the CLAIM. -/
  backup : Nat := 0
  primarySw : Nat := 0
  claimTick : Nat := 0
  /-- The first output was produced (R420), and packets held until the answer to CLAIM (R419). -/
  output : Bool := false
  held : List Packet := []
  deriving DecidableEq, Repr

/-- A contribution not yet accepted by Yarrow (R404, R405): the packet and how often it was sent again. -/
structure Contribution where
  pkt : Packet
  tries : Nat := 0
  /-- Answered with ERR_QUOTA: to be sent again (R405). -/
  waits : Bool := false
  /-- It stands in the YARROW queue of the quadrant that holds its group (R375). -/
  queued : Bool := false
  deriving DecidableEq, Repr

/-- A running or parked quantum (R316, R329, R425). -/
structure Quantum where
  quad : Nat
  job : Nat
  node : Nat
  /-- Its run of units: the first, how many, and the column bands of a GEMM's block (R331). -/
  first : Nat
  count : Nat
  wide : Nat := 1
  /-- Tick of its slot, compute cycles of the slot used before it, modeled cycles (R333). -/
  slot : Nat
  before : Nat := 0
  cycles : Nat := 0
  late : Bool := false
  parked : Bool := false
  parkTick : Nat := 0
  committed : Bool := false
  /-- Status of a failed access of the gather element at the engine's position (R434). -/
  failing : Nat := 0
  /-- Contributions sent and not yet accepted (R404). -/
  contribs : List Contribution := []
  /-- Engine: next index or row, landing buffers' tile, failing element statuses, speculative buffers by index (R340, R427). -/
  pos : Nat := 0
  landing : Option Nat := none
  spec : Tab Bytes := []
  /-- Pieces of the node's result stream it has made: offset, bytes (R321). -/
  out : List (Nat × Bytes) := []
  /-- What a gather or filter quantum has placed in its VA outputs and its end delivers: VA, bytes (R257). -/
  stores : List (Nat × Bytes) := []
  /-- Rows a filter quantum has kept (R440). -/
  kept : Nat := 0
  /-- Slots of the staging pool that it pinned at its start (R248). -/
  pinned : List Nat := []
  /-- Attempts of page faults by page (R282): a page of 16 GiB has the number 2^17 + VA[45:34], and a page of 512 MiB in it counts on from it. -/
  attempts : Tab Nat := []
  /-- Translations that accesses still under way have obtained (R286), and whether any access has used one of its context. -/
  xlat : List TlbEnt := []
  translated : Bool := false
  /-- It was parked at the edge that ended its slot, which is no overrun (R336). -/
  excused : Bool := false
  /-- Its accesses of tier P, and whether its work is done and it waits only for its writes of tier P (R308). -/
  trays : List TrayAccess := []
  worked : Bool := false
  /-- Blocks that its expander has decoded: operand, block (R459). -/
  drawn : List (Nat × Nat) := []
  /-- Sectors of its stores of TILE granularity that are still to be written, in order: window offset and bytes (R311). -/
  sectors : List (Nat × Bytes) := []
  deriving DecidableEq, Repr

/-- A slot of slice plans (R399, R401): 0 EMPTY, 1 ACTIVE, 2 REFUSED. -/
structure Plan where
  state : Nat := 0
  comp : Nat := 0
  recs : List Nat := []
  refusal : Nat := 0
  /-- An accepted plan, its composition and records, and an UNLOAD, that wait for the edge (R401). -/
  next : Option (Nat × List Nat) := none
  unload : Bool := false
  /-- Tick in which they were accepted. -/
  since : Nat := 0
  /-- A LOAD whose plan Campion has still to read (R400). -/
  loading : Bool := false
  deriving DecidableEq, Repr

/-- A claim table entry (R420): key, 1 WAITING, 2 LOCAL, 3 REMOTE, the backup's switch, the tick it was decided. -/
structure Claim where
  comp : Nat
  reply : Nat
  work : Nat
  st : Nat
  peer : Nat
  tick : Nat
  deriving DecidableEq, Repr

/-- A library bank (R344 to R347): 0 EMPTY, 1 VERIFIED, 2 ACTIVE, 3 DRAINING. -/
structure LibBank where
  state : Nat := 0
  version : Nat := 0
  opMask : Nat := 0
  svn : Nat := 0
  digest : Bytes := []
  /-- The verified image, its envelope and body, as the system areas hold it (R231, R344). -/
  body : Bytes := []
  deriving DecidableEq, Repr

/-- A tick slot given to a unit (R332, R333): its tick, the compute cycles used in it, the job it was given for. -/
structure TickSlot where
  tick : Nat
  used : Nat := 0
  job : Nat
  deriving DecidableEq, Repr

/-- State of jobs outside the dictionary. -/
structure Jobs where
  /-- Job records by quadrant × 256 + record. -/
  recs : Tab Job := []
  /-- Running quanta by unit: tile t, or 128 + 8 × quadrant + engine. -/
  running : Tab Quantum := []
  /-- Tick slots by unit (R332). -/
  slots : Tab TickSlot := []
  /-- Composition at which the rotation of each quadrant stands, for tiles and for engines (R332, R425). -/
  rot : Tab Nat := []
  /-- Job and node, job × 256 + node, that hold each quadrant's 128 KiB table buffer (R464). -/
  tableBuf : Tab Nat := []
  plans : Tab Plan := []
  claims : List Claim := []
  bankA : LibBank := {}
  bankB : LibBank := {}
  /-- Jobs admitted so far (R332). -/
  admitted : Nat := 0
  /-- Bank to activate at the next edge, and the tick of the write (R347). -/
  activate : Option Nat := none
  activateTick : Nat := 0
  /-- JOB_CANCEL notices already forwarded (R418). -/
  seen : List (Nat × Nat × Nat) := []
  deriving DecidableEq, Repr

/-! ### Yarrow -/

/-- A 384-bit slot (R364, R383): the exact sum in units of 2^−149 (or of 1), or the extreme value seen, and its flags. -/
structure Slot where
  acc : Int := 0
  any : Bool := false
  nan : Bool := false
  pinf : Bool := false
  ninf : Bool := false
  deriving DecidableEq, Repr

/-- A chunk that is OPEN 1, ROUNDING 2 or FAILED 3 (R382). -/
structure Chunk where
  phase : Nat := 1
  /-- Contributor bitmap. -/
  bits : Nat := 0
  slots : List Slot
  /-- Tick in which its timer started, and whether it was restarted (R385). -/
  opened : Nat
  restarted : Bool := false
  /-- The record and the slots come from the group's reservation (R382). -/
  reserved : Bool := true
  /-- Indices whose exclusion or substitution a READMIT ended after the chunk had opened: it still holds for this chunk (R378). -/
  excl : Nat := 0
  subs : Nat := 0
  /-- It has been found to wait for a journal entry (R390). -/
  waited : Bool := false
  deriving DecidableEq, Repr

/-- An instance of a reduction group on this switch (R373 to R393): 1 reserved, 2 ACTIVE, 5 FAILED. -/
structure Inst where
  desc : Nat
  contribs : List Nat
  quad : Nat
  state : Nat := 1
  /-- Activation tick (R376). -/
  active : Option Nat := none
  /-- Tick of an announced REMOVE (R378). -/
  removeAt : Option Nat := none
  /-- Announced READMITs: tick, index (R378). -/
  readmits : List (Nat × Nat) := []
  low : Nat := 0
  /-- Chunks above LOW that are COMPLETE (R380). -/
  complete : List Nat := []
  chunks : Tab Chunk := []
  /-- Excluded and substituted indices (R385). -/
  excluded : Nat := 0
  subst : Nat := 0
  /-- Chunks whose journal entry was lost (R393). -/
  lostChunks : List Nat := []
  deriving DecidableEq, Repr

/-- A destination of a journaled result (R390): its FEID, its acknowledgment bit, the timed resends to it so far (R392). -/
structure JDest where
  feid : Nat
  acked : Bool := false
  tries : Nat := 0
  deriving DecidableEq, Repr

/-- A journal entry: the result and its destinations (R390). -/
structure JEnt where
  group : Nat
  chunk : Nat
  pkt : Packet
  dests : List JDest
  deriving DecidableEq, Repr

/-- What the domain's registry holds of a group (R376): descriptor, entries, the switches that have accepted, the tick by which all must
answer, the switch that took the command. Phase 1 registering, 2 active, 3 removing. -/
structure RegEnt where
  desc : Nat
  contribs : List Nat
  phase : Nat := 1
  accepted : Nat := 0
  deadline : Nat := 0
  taker : Nat := 0
  tick : Nat := 0
  deriving DecidableEq, Repr

/-- What this switch shows of a group command it took (R376, R378): 1 PENDING, 2 ACTIVE, 3 REFUSED, 4 REMOVING; the last refusal reason;
whether the outcome is still to come. -/
structure GroupShow where
  state : Nat := 0
  refusal : Nat := 0
  asked : Bool := false
  /-- Tick in which the command was taken (R376). -/
  since : Nat := 0
  deriving DecidableEq, Repr

/-- State of the four Yarrow units and the group registry. -/
structure Yarrow where
  insts : Tab Inst := []
  journals : Tab (List JEnt) := []
  registry : Tab RegEnt := []
  /-- REGISTER parts received so far, by their sender × 65,536 + group: part number and body (R376). -/
  parts : Tab (List (Nat × Bytes)) := []
  shows : Tab GroupShow := []
  /-- REGISTRY packets forwarded in this tick and the one before: tick, then what identifies them (R56). -/
  seen : List (List Nat) := []
  deriving DecidableEq, Repr

/-! ### Faults, logs and health -/

/-- A record of a source log (R510): the fields of the layout, and to which hosts it was delivered (R513). -/
structure LogRec where
  seq : Nat
  code : Nat
  severity : Nat
  srcLog : Nat
  tick : Nat
  unit : Nat := 0xFFFF
  status : Nat := 0
  comp : Nat := 0xFF
  addr : Nat := 0
  workId : Nat := 0
  feid : Nat := 0xFFFF
  swId : Nat := 0
  lostBefore : Nat := 0
  detail : Bytes := []
  doneHA : Bool := false
  doneHB : Bool := false
  deriving DecidableEq, Repr

/-- A source log (R512): records by ring slot, next SEQ, records dropped since the last one (R513). -/
structure SrcLog where
  recs : Tab LogRec := []
  nextSeq : Nat := 1
  dropped : Nat := 0
  deriving DecidableEq, Repr

/-- A monitored item (R515 to R523). State codes are those of R517. -/
structure Health where
  score : Nat := 1000
  state : Nat := 0
  deriving DecidableEq, Repr

/-- Health and fencing state outside the dictionary. -/
structure HealthState where
  /-- Items: ports p, endpoint peers 0x1000 + FEID, switch peers 0x2000 + switch ID (R526). -/
  items : Tab Health := []
  /-- Ticks of expulsions (R520). -/
  expulsions : List Nat := []
  /-- Ticks of peer crossings outside the provisional period (R521). -/
  crossings : List Nat := []
  /-- Tick at which the provisional period ends (R522). -/
  provisionalEnd : Nat := 0
  /-- The provisional period is over. -/
  matured : Bool := false
  /-- Agents' failed self-tests (R506). -/
  failedTests : Tab Nat := []
  /-- Quadrant dies declared failed (R505), and the control die. -/
  deadDies : Nat := 0
  controlDead : Bool := false
  /-- Units that failed self-test, numbered as in 0xF000:03 (R642, R647). -/
  failedUnits : Nat := 0
  /-- Agents that failed self-test three times, out until a warm reset (R506). -/
  agentsOut : Nat := 0
  /-- Dead agents reset and under self-test (R506). -/
  resetting : Nat := 0
  /-- Tick of a dead agent's declaration, then of its reset: what follows waits for a later edge (R506). -/
  agentAt : Tab Nat := []
  /-- Quadrants that have reached SL-F since the last reset (R33). -/
  everUp : Nat := 0
  deriving DecidableEq, Repr

/-! ### Identity and keys -/

/-- A generation of a key slot (R538): number, state 1 LIVE, 2 RETIRING, 3 PENDING, key material, tick of the LOAD. -/
structure KeyGen where
  num : Nat
  state : Nat
  key : Bytes := []
  loaded : Nat := 0
  /-- Tick in which a RETIRE was taken that waits for its edge (R551). -/
  asked : Option Nat := none
  /-- Tick t that E0 starts (R551). -/
  e0 : Nat := 0
  deriving DecidableEq, Repr

/-- A key slot outside its dictionary entries (R537, R538). -/
structure KeySlot where
  gens : List KeyGen := []
  /-- Last number issued, 0 for none. -/
  last : Nat := 0
  lastLoad : Option Nat := none
  deriving DecidableEq, Repr


/-- A key delivery session (R541 to R545): 1 after HELLO, 2 after FINISH. -/
structure KdsSession where
  comp : Nat
  tenant : Nat
  state : Nat := 1
  helloBody : Bytes := []
  offerBody : Bytes := []
  /-- Seed number of the session's ML-KEM key pair. -/
  kem : Nat := 0
  keyTs : Bytes := []
  keySt : Bytes := []
  /-- Last counter accepted, and the next to send (R543, R544). -/
  accepted : List Nat := []
  sendCtr : Nat := 1
  /-- Tick of the last message (R545). -/
  last : Nat := 0
  deriving DecidableEq, Repr

/-- A measurement entry (R533): SVN and digest. -/
structure Meas where
  svn : Nat := 0
  digest : Bytes := []
  deriving DecidableEq, Repr

/-- An image being assembled from IMAGE packets (R535): total length, ranges received, and their bytes by offset. -/
structure Assembly where
  total : Nat
  got : Cells := []
  parts : Tab Bytes := []
  deriving DecidableEq, Repr

/-- State of the security root outside the dictionary. -/
structure Security where
  sessions : Tab KdsSession := []
  nextSession : Nat := 1
  /-- KDS is refused until the next power-on (R555). -/
  refuseKds : Bool := false
  /-- Debug unlocks in force: scopes and the tick at which each ends; those that wait for the warm reset (R555). -/
  unlocks : List (Nat × Nat) := []
  debugPending : List (Nat × Nat) := []
  /-- Debug tokens rejected (R554). -/
  tokenRejects : Nat := 0
  /-- Seed of the attestation key of this boot (R534). -/
  attSeed : Nat := 0
  assembly : Tab Assembly := []
  /-- Measurement entries by layer (R533). -/
  meas : Tab Meas := []
  /-- Images rejected (R531). -/
  imageRejects : Nat := 0
  deriving DecidableEq, Repr

/-! ### Commit and metering -/

/-- Commit state outside the dictionary (R566 to R569). -/
structure CommitState where
  /-- Staged parts are frozen since this tick, for this SEQ. -/
  frozen : Option Nat := none
  seq : Nat := 0
  changed : Nat := 0
  /-- The switch whose PREPARE was taken last: its ANNOUNCE counts whoever is master when it arrives (R55). -/
  leader : Nat := 0xFF
  /-- Announced commit tick and its SEQ and CHANGED. -/
  announced : Option (Nat × Nat × Nat) := none
  /-- This switch took the COMMIT and waits for the master. -/
  taker : Bool := false
  /-- The master's sequence in progress: tick of PREPARE, switches that are READY, OR of their CHANGED. -/
  lead : Option Nat := none
  ready : Nat := 0
  union : Nat := 0
  /-- The master's history: SEQ and CHANGED, newest first, at most 1,024 (R569). -/
  history : List (Nat × Nat) := []
  /-- Sequence taken from DIRTY, and a RESYNC that waits for its edge (R569). -/
  dirty : Option Nat := none
  resync : Bool := false
  /-- COMMIT packets forwarded in this tick and the one before: tick, then what identifies them (R56). -/
  seen : List (List Nat) := []
  deriving DecidableEq, Repr

/-- Metering state outside the dictionary (R572 to R574). -/
structure Meter where
  /-- Units that held a quantum of a composition in the current tick: composition to a mask of units. -/
  held : Tab Nat := []
  /-- END_TICK of the last report by composition, absent before the first one since a power-on or fundamental reset. -/
  lastEnd : Tab Nat := []
  /-- FLAGS bits 1 to 3 gathered since the last report. -/
  flags : Tab Nat := []
  deriving DecidableEq, Repr
/-! ### Management -/

/-- A CMP session slot (R582 to R586): 1 after HELLO, 2 after FINISH. -/
structure CmpSession where
  state : Nat := 0
  helloBody : Bytes := []
  offerBody : Bytes := []
  /-- Number of the session's ML-KEM key pair. -/
  kem : Nat := 0
  keyCs : Bytes := []
  keySc : Bytes := []
  /-- Counters accepted, highest first (R583), and the next to send. -/
  accepted : List Nat := []
  sendCtr : Nat := 1
  /-- Answers of the last 64 REQ_IDs (R585): REQ_ID, status, data. -/
  cache : List (Nat × Nat × Bytes) := []
  /-- Severity mask of SUBSCRIBE (R586). -/
  mask : Nat := 0
  /-- Tick of the last message (R584). -/
  last : Nat := 0
  deriving DecidableEq, Repr

/-- A send slot (R591). -/
structure SendSlot where
  bytes : Bytes := []
  busy : Bool := false
  deriving DecidableEq, Repr

/-- One host port's state outside the dictionary (R587 to R594). -/
structure HostPort where
  /-- Link in L0 and Bus Master Enable set. -/
  up : Bool := false
  width : Nat := 0
  gen : Nat := 0
  slots : Tab SendSlot := []
  /-- Busy slots by class, in the order in which their packets were taken (R591). -/
  taken : Tab (List Nat) := []
  mbAddr : Nat := 0
  mbOffset : Nat := 0
  mbLen : Nat := 0
  /-- MB_STATUS: 0 IDLE, 1 BUSY, 2 DONE in bits [1:0]; the access status in bits [15:8]. -/
  mbStatus : Nat := 0
  mbData : Bytes := []
  /-- MSI-X mask and pending bits of the four vectors (R594). -/
  mask : Nat := 15
  pend : Nat := 0
  /-- Vectors 0, 1 and 2 may send: CONS was written since the last message (R514, R279, R593). -/
  armed0 : Bool := true
  armed1 : Bool := true
  armed2 : Bool := true
  deriving DecidableEq, Repr

/-- A multi-part write in progress on an entry (R580). -/
structure PartWrite where
  accessor : Nat
  data : Bytes
  deriving DecidableEq, Repr

/-- An accessor's snapshot (R606). -/
structure Snapshot where
  key : Nat
  data : Bytes
  deriving DecidableEq, Repr

/-- Management state outside the dictionary. -/
structure Mgmt where
  cmp : Tab CmpSession := []
  snaps : Tab Snapshot := []
  parts : Tab PartWrite := []
  /-- ALERT_N is driven low (R595). -/
  alertLow : Bool := false
  /-- Entry selected over SMBus, its offset, the status of the last selection (R595). -/
  smbus : Option EntryRef := none
  smbusStatus : Nat := 0
  /-- Ticks of Campion restarts in the last 2^20 (R578). -/
  restarts : List Nat := []
  /-- The management port and SMBus run: MGMT_CLK present (R637). -/
  clkLost : Bool := false
  deriving DecidableEq, Repr


/-! ### Power, clocks and reset -/

/-- A boot that waits for the rise of MOD_RESET_N or a fabric reference (R638, R641): the cause of R640, failed units, stacks not trained when
the levels are evaluated, quadrants that fail attestation. -/
structure BootWait where
  cause : Nat
  failed : Nat := 0
  untrained : Nat := 0
  attest : Nat := 0
  /-- Stack states that a warm reset keeps; empty where the stacks train. -/
  keeps : List Nat := []
  deriving DecidableEq, Repr

/-- Power, clock and reset state outside the dictionary. -/
structure PowerState where
  /-- The module is powered and past its boot ROM (R641). -/
  on : Bool := false
  /-- The module is powered and its boot has not come past its wait (R641). -/
  boot : Option BootWait := none
  /-- Class of the dip in progress: 1 A, 2 B, 3 C (R624). -/
  dip : Option Nat := none
  /-- The input is above 60 V (R624). -/
  overV : Bool := false
  /-- The tiles are suspended in NAP for a Class B dip since this tick (R625). -/
  suspended : Option Nat := none
  /-- An orderly stop has been decided (R626). -/
  stopping : Bool := false
  /-- A commanded reset waits for its start, by its cause of R640: 3 fundamental, 4 to 6 warm (R639). -/
  reset : Option Nat := none
  /-- MOD_RESET_N is low (R638). -/
  resetLow : Bool := false
  /-- Rung of a domain below ACTIVE: 1 DOZE, 2 NAP, 3 SLEEP, 4 DORMANT, 5 OFF; by domain × 1,024 + unit, domain 0 tile, 1 Yarrow unit,
  2 port block, 3 stack, 4 quadrant (R627, R628). -/
  rungs : Tab Nat := []
  /-- Tick at which each domain was last used (R628). -/
  used : Tab Nat := []
  /-- The level of MOD_PWR_OK: high from the charged store until an orderly stop is decided (R655). -/
  pwrOk : Bool := false
  /-- A tile duty or a stack share is below 16 (R632). -/
  throttled : Bool := false
  /-- Stacks that still train (R641). -/
  training : Nat := 0
  /-- A commanded self-test runs, for the manager's RUN from this switch where 32 and below (R642, R643). -/
  bistFor : Nat := 0xFF
  /-- The manager's record of the other switches' self-tests: switch to the RESULT's PASS and DETAIL (R643). -/
  bistSeen : Tab (Nat × Nat) := []
  /-- References present, bit 0 A and bit 1 B; the one the control die runs from (R636). -/
  refs : Nat := 3
  running : Nat := 0
  /-- PCIe references lost, bit 0 HA and bit 1 HB (R637). -/
  pcieLost : Nat := 0
  deriving DecidableEq, Repr
/-! ### The whole -/

/-- Everything of the block but the queue, the fuses and the tier H bytes. -/
structure Dev where
  /-- Values of the dictionary that differ from their defaults, by key. -/
  regs : Tab Nat := []
  /-- Copies of the per-accessor entries that differ from their defaults, by accessor × 2^48 + key (R607). -/
  copies : Tab Nat := []
  /-- Messages, flits and signals sent so far, oldest first (log 7). -/
  out : List Out := []
  /-- Number of the next free value (the model's own, log 10). -/
  freeCtr : Nat := 0
  dom : DomState := {}
  ports : Tab Port := []
  cores : Tab Core := []
  /-- Packets not yet admitted: by ingress (port, 384 HA, 385 HB) × 8 + class, oldest first (R161). -/
  waiting : Tab (List Waiting) := []
  /-- Next class of each block's arbiter among CLS2 to CLS7, and next ingress quadrant of each VOQ and unit queue (R166, R169). -/
  arbCls : Tab Nat := []
  /-- The packet that crosses to a unit, or has crossed and waits for it to be consumed, by the unit's queue number: ingress quadrant and the
  packet's number in its queues (R164, R169). -/
  crossing : Tab (Nat × Nat) := []
  /-- Core cycle of the last CLS2 packet admitted from an ingress under withholding, counted from tick 0 (R180). -/
  paced : Tab Nat := []
  /-- Multicast results that wait for room in their quadrant's buffer, oldest first (R174, R177). -/
  mcHeld : List (Nat × Packet) := []
  arbQuad : Tab Nat := []
  /-- Class allowance left, by (composition × 8 + class) × 4 + quadrant; an absent one is whole (R564). -/
  allowance : Tab Int := []
  homes : Tab Home := []
  /-- L2 requests of each quadrant, oldest first (R234). -/
  l2 : Tab (List L2Req) := []
  groups : Tab GroupRt := []
  stepFences : Tab StepFence := []
  /-- Bytes that rebuild and resync have written beyond what their rate allows up to this tick (R483). -/
  backDebt : Nat := 0
  logs : Tab SrcLog := []
  health : HealthState := {}
  power : PowerState := {}
  mgmt : Mgmt := {}
  hostA : HostPort := {}
  hostB : HostPort := {}
  keys : Tab KeySlot := []
  sec : Security := {}
  commit : CommitState := {}
  meter : Meter := {}
  tiers : Tiers := {}
  trans : Trans := {}
  coh : Coh := {}
  jobs : Jobs := {}
  yar : Yarrow := {}
  deriving DecidableEq, Repr

/-- What no reset clears: fuses (R532, R614) and the installed images (R531). -/
structure Fuses where
  /-- How far each anti-rollback counter stands above its value at manufacture (R531, R532). -/
  counters : Tab Nat := []
  /-- OWNER_DEBUG_HASH, once programmed (R555, R614). -/
  ownerHash : Option Nat := none
  /-- Images installed since manufacture, by IMG_TYPE (R531, R535). -/
  installed : Tab LibBank := []
  deriving DecidableEq, Repr

/-- Tier H bytes by window offset: rising, no entry equal to 0, which an unlisted byte reads as (R641, log 13). -/
abbrev Memory := List Host.Cell

/-- The state of the block. -/
structure State where
  /-- Commands that wait, first in, first out. -/
  pending : List Instr := []
  fuses : Fuses := {}
  mem : Memory := []
  dev : Dev := {}
  deriving DecidableEq, Repr

/-- The block before its input power has risen: every dictionary entry at its default (R603), the queue empty, nothing in service;
POWER_ON brings it to service (R641, log 1). -/
def State.reset : State := {}

end Sys2Proof.Machine
end

