-- ==== Sys2Proof/Machine/Ops.lean ====
section
/-! DEFINITION. The named operations over the state that every family uses: dictionary values and counters, the parts of the device,
tier H memory, ports and routes, and the wrappers by which a meaning acts on one part of the state. -/

namespace Sys2Proof.Machine

/-! ### Meanings over parts of the state -/

/-- What a command answers. -/
abbrev Ans := Host.Outcome State Fault Refusal

/-- A meaning that acts on the device alone. -/
def onDev (f : Dev → Dev) (s : State) : Ans := .next { s with dev := f s.dev }

/-- A meaning that acts on the device and the tier H bytes. -/
def onMem (f : Memory → Dev → Memory × Dev) (s : State) : Ans :=
  let r := f s.mem s.dev
  .next { s with mem := r.1, dev := r.2 }

/-- A meaning that acts on the device and reads the fuses and the tier H bytes. -/
def onDevWith (f : Fuses → Memory → Dev → Dev) (s : State) : Ans := .next { s with dev := f s.fuses s.mem s.dev }

/-- A meaning that acts on the device and the fuses. -/
def onFuses (f : Fuses → Dev → Fuses × Dev) (s : State) : Ans :=
  let r := f s.fuses s.dev
  .next { s with fuses := r.1, dev := r.2 }

/-- A meaning that acts on all but the queue. -/
def onAll (f : Fuses → Memory → Dev → Fuses × Memory × Dev) (s : State) : Ans :=
  let r := f s.fuses s.mem s.dev
  .next { s with fuses := r.1, mem := r.2.1, dev := r.2.2 }

/-! ### Tier H memory -/

/-- The byte at a window offset; an unlisted one reads 0 (log 13). -/
def Memory.byte : Memory → Nat → Byte
  | [], _ => 0
  | (a, b) :: m, k => if a = k then b else Memory.byte m k

/-- Enter a byte at its place. -/
def Memory.enter : Memory → Nat → Byte → Memory
  | [], k, v => [(k, v)]
  | (a, b) :: m, k, v =>
    if k < a then (k, v) :: (a, b) :: m else if a = k then (k, v) :: m else (a, b) :: Memory.enter m k v

/-- Write one byte, keeping the canonical form: a zero byte is unlisted. -/
def Memory.setByte (m : Memory) (k : Nat) (v : Byte) : Memory :=
  if v = 0 then m.filter (fun c => c.1 != k) else m.enter k v

/-- `n` bytes from an offset. -/
def Memory.read (m : Memory) : Nat → Nat → Bytes
  | _, 0 => []
  | a, n + 1 => m.byte a :: Memory.read m (a + 1) n

/-- Write a byte string at an offset. -/
def Memory.write (m : Memory) : Nat → Bytes → Memory
  | _, [] => m
  | a, b :: bs => Memory.write (m.setByte a b) (a + 1) bs

/-- Zero a range. -/
def Memory.zero (m : Memory) (a n : Nat) : Memory := m.filter (fun c => !(a ≤ c.1 && c.1 < a + n))

/-- The canonical form: addresses strictly rising, no listed byte 0. -/
def Memory.wf : Memory → Bool
  | [] => true
  | [(_, b)] => b != 0
  | (a, b) :: (c, d) :: m => b != 0 && a < c && Memory.wf ((c, d) :: m)

/-! ### Dictionary values -/

namespace Dev

/-- The value of an entry. -/
def reg (d : Dev) (k : Nat) : Nat := (Tab.look d.regs k).getD (regDefault k)

/-- Give an entry a value; a default is unlisted. -/
def setReg (d : Dev) (k v : Nat) : Dev := { d with regs := Tab.set d.regs k v (regDefault k) }

/-- An entry read as a truth value. -/
def flag (d : Dev) (k : Nat) : Bool := d.reg k != 0

/-- Count: an RC entry holds at its largest value, any other wraps (R615). -/
def bump (d : Dev) (k : Nat) (n : Nat := 1) : Dev :=
  match rowOf k with
  | none => d
  | some e =>
    let top := 256 ^ e.size
    let v := d.reg k + n
    d.setReg k (if e.m = .rc then min v (top - 1) else v % top)

/-- Instances of a selected entry that hold a value other than the default: instance and value. -/
def instances (d : Dev) (k0 : Nat) : List (Nat × Nat) :=
  (d.regs.filter (fun kv => kv.1 % 0x1000000 = k0)).map (fun kv => (keySel kv.1, kv.2))

/-- The current tick number (R60). -/
def tick (d : Dev) : Nat := d.reg Reg.tickCount

/-- Record something sent. -/
def emit (d : Dev) (o : Out) : Dev := { d with out := d.out ++ [o] }

/-- Record a list of things sent. -/
def emits (d : Dev) (os : List Out) : Dev := { d with out := d.out ++ os }

/-- The next free value (log 10). -/
def fresh (d : Dev) : Nat × Dev := (Config.freeValue d.freeCtr, { d with freeCtr := d.freeCtr + 1 })

/-- Fresh random bytes (log 10). -/
def freshBytes (d : Dev) (n : Nat) : Bytes × Dev := (Config.freeBytes d.freeCtr n, { d with freeCtr := d.freeCtr + 1 })

/-! ### Parts -/

def port (d : Dev) (p : Nat) : Port := Tab.getD d.ports p {}
def modPort (d : Dev) (p : Nat) (f : Port → Port) : Dev := { d with ports := Tab.upd d.ports p {} f }
def core (d : Dev) (q : Nat) : Core := Tab.getD d.cores q {}
def modCore (d : Dev) (q : Nat) (f : Core → Core) : Dev := { d with cores := Tab.upd d.cores q {} f }
def home (d : Dev) (q : Nat) : Home := Tab.getD d.homes q {}
def modHome (d : Dev) (q : Nat) (f : Home → Home) : Dev := { d with homes := Tab.upd d.homes q {} f }
def group (d : Dev) (g : Nat) : GroupRt := Tab.getD d.groups g {}
def modGroup (d : Dev) (g : Nat) (f : GroupRt → GroupRt) : Dev := { d with groups := Tab.upd d.groups g {} f }
def modDom (d : Dev) (f : DomState → DomState) : Dev := { d with dom := f d.dom }
def modHealth (d : Dev) (f : HealthState → HealthState) : Dev := { d with health := f d.health }

def setPower (d : Dev) (p : PowerState) : Dev := { d with power := p }

/-- Fold a change over a list. -/
def each {α : Type} (d : Dev) (l : List α) (f : Dev → α → Dev) : Dev := l.foldl f d

/-! ### The own switch -/

/-- The own switch ID where it is valid: assigned, in the plane set, and not lost to a rival (R38, R43). -/
def ownId (d : Dev) : Option Nat :=
  let i := d.dom.swId
  let serial := d.reg Reg.serialNumber
  let beaten := d.dom.firstBeacon.any (fun mine => d.dom.rivals.any (fun r =>
    d.tick ≤ r.2.last + 4 && (r.2.first < mine || (r.2.first = mine && r.1 < serial))))
  if i < 32 && bit d.dom.planeSet i && !beaten then some i else none

/-- The switch ID carried in records and messages. -/
def swIdOr (d : Dev) : Nat := d.dom.swId

/-- The switch is the master (R48, R51). -/
def isMaster (d : Dev) : Bool := d.ownId = some (d.reg Reg.masterCur)

/-- The switch acts as manager (R57). -/
def isManager (d : Dev) : Bool := d.dom.swId = d.reg Reg.managerCur && d.reg Reg.managerCur != 0xFF

/-! ### Ports -/

/-- The quadrant of a port (R2). -/
def quadOf (p : Nat) : Nat := p / 96

/-- The port exists in its block's mode (R3). -/
def portExists (d : Dev) (p : Nat) : Bool :=
  p < 384 && (match d.reg (Reg.pbMode (p / 4)) with
    | 0 => p % 4 = 0
    | 1 => p % 2 = 0
    | _ => true)

/-- Lanes of the block that belong to the port, as a mask (R3). -/
def portLaneMask (d : Dev) (p : Nat) : Nat :=
  match d.reg (Reg.pbMode (p / 4)) with
  | 0 => 0xFF
  | 1 => if p % 4 = 0 then 0x0F else 0xF0
  | _ => 3 <<< (2 * (p % 4))

/-- Ports present in a block. -/
def portsOfBlock (d : Dev) (b : Nat) : List Nat :=
  match d.reg (Reg.pbMode b) with
  | 0 => [4 * b]
  | 1 => [4 * b, 4 * b + 2]
  | _ => [4 * b, 4 * b + 1, 4 * b + 2, 4 * b + 3]

/-- Ports of a block by a given mode (R105). -/
def portsAbsent (d : Dev) (b : Nat) : List Nat := (List.range 4).map (4 * b + ·) |>.filter (fun p => !(d.portsOfBlock b).contains p)

/-- The ports whose state entry reads a code other than DISABLED. -/
def liveStates (d : Dev) : List (Nat × Nat) :=
  d.regs.filterMap (fun kv =>
    if 0x220000 ≤ kv.1 ∧ kv.1 < 0x238000 ∧ kv.1 % 256 = 1 then some (kv.1 / 256 - 0x2200, kv.2) else none)

/-- The ACTIVE ports, rising. -/
def activePorts (d : Dev) : List Nat := (d.liveStates.filter (fun x => x.2 = 6)).map Prod.fst

def portState (d : Dev) (p : Nat) : Nat := d.reg (Reg.portState p)
def isActive (d : Dev) (p : Nat) : Bool := d.portState p = 6
def role (d : Dev) (p : Nat) : Nat := d.reg (Reg.portRole p)

/-- A control packet of a switch on an ENDPOINT or GATEWAY port is discarded and counted (R132). -/
def ctrlDrop (d : Dev) (p : Nat) : Dev := if d.isActive p && (d.role p = 0 || d.role p = 2) then d.bump Reg.framingDrops else d

/-- ACTIVE plane ports. -/
def planePorts (d : Dev) : List Nat := d.activePorts.filter (fun p => d.role p = 1)

/-- ACTIVE ENDPOINT ports. -/
def endpointPorts (d : Dev) : List Nat := d.activePorts.filter (fun p => d.role p = 0)

/-- The ACTIVE ENDPOINT port of an FEID (R140). -/
def portOfFeid (d : Dev) (f : Nat) : Option Nat :=
  d.endpointPorts.find? (fun p => d.reg (Reg.portExpectFeid p) = f)

/-- Hand a switch-generated packet to a port's egress, in its class stream (log 18). -/
def sendPort (d : Dev) (p : Nat) (pk : Packet) : Dev :=
  d.modPort p (fun P => { P with txq := Tab.upd P.txq pk.cls [] (· ++ [pk]) })

/-- A control packet of this switch (R131). -/
def ctrl (d : Dev) (ctype cls : Nat) (payload : Bytes) : Packet :=
  { ptype := .ctrl, cls := cls, ctype := ctype, srcSw := d.dom.swId % 32, fromSw := true, payload := payload }

/-- Send a packet on every plane port but one (R49, R56). -/
def flood (d : Dev) (except : Option Nat) (pk : Packet) : Dev :=
  d.each (d.planePorts.filter (fun p => some p != except)) (fun d p => d.sendPort p pk)

/-! ### Levels and units -/

/-- Level of a quadrant, 0 NONE to 3 SL-C (R30, R35). -/
def level (d : Dev) (q : Nat) : Nat := bits (d.reg Reg.svcQuadLevel) (2 * q) 2

/-- Working stacks of a quadrant, rising (R2). -/
def workingStacks (d : Dev) (q : Nat) : List Nat :=
  [3 * q, 3 * q + 1, 3 * q + 2].filter (fun s => bit (d.reg Reg.svcStacks) s)

/-- Campion runs (R33, R578). -/
def campionUp (d : Dev) : Bool := d.power.on && d.reg Reg.campionState = 0

/-! ### Compositions -/

/-- The composition is fenced (R507). -/
def fenced (d : Dev) (c : Nat) : Bool := bit (d.reg Reg.fenced) c

/-- The FEID belongs to the composition (R560). -/
def isMember (d : Dev) (c feid : Nat) : Bool := bit (d.reg (Reg.membersActive c)) feid

/-- Active Home Map entries: number and value. -/
def hmapActive (d : Dev) : List (Nat × Nat) := d.instances 0x340004

/-- Active region entries. -/
def regionsActive (d : Dev) : List (Nat × Nat) := d.instances 0x380004

/-- The active Home Map entry that covers a DA (R145). -/
def hmapFor (d : Dev) (da : Nat) : Option (Nat × Nat) := d.hmapActive.find? (fun e => HMap.covers e.2 da)

/-- The active stripe group entry. -/
def sg (d : Dev) (g : Nat) : Nat := d.reg (Reg.sgActive g)
def setSg (d : Dev) (g v : Nat) : Dev := d.setReg (Reg.sgActive g) v

end Dev

/-- The run of units that a quantum was given. -/
def Quantum.cut (x : Quantum) : Run := { first := x.first, count := x.count, wide := x.wide }

end Sys2Proof.Machine
end

