-- ==== Sys2Proof/Machine/Flags.lean ====
section
/-! DEFINITION. Everything that signals: event and fault records and their logs (R510 to R513), ALERT_N (R595), CMP EVENTs (R586),
MSI-X vectors (R594), and the completion statuses (R16). -/

namespace Sys2Proof.Machine

/-! ### Completion status (R16) -/

namespace St
def ok : Nat := 0x00
def key : Nat := 0x01
def rights : Nat := 0x02
def unmapped : Nat := 0x03
def homeLost : Nat := 0x04
def dataLost : Nat := 0x05
def ecc : Nat := 0x06
def lineLost : Nat := 0x07
def atomicStale : Nat := 0x08
def expandOver : Nat := 0x09
def expandUnder : Nat := 0x0A
def deadline : Nat := 0x0B
def keyRetired : Nat := 0x0C
def timeout : Nat := 0x0D
def fenced : Nat := 0x0E
def quota : Nat := 0x0F
def badDesc : Nat := 0x10
def cancelled : Nat := 0x11
def pageFault : Nat := 0x12
end St

/-! ### Event codes (R511, R556, R645) -/

namespace Ev
def laneFailed : Nat := 0x0001
def portDown : Nat := 0x0002
def portHeld : Nat := 0x0003
def dyingRcvd : Nat := 0x0004
def cellUe : Nat := 0x0010
def teaselReclaim : Nat := 0x0011
def teaselDouble : Nat := 0x0012
def hbmUe : Nat := 0x0020
def hbmFailed : Nat := 0x0021
def sysareaMoved : Nat := 0x0022
def agentDead : Nat := 0x0030
def lineLost : Nat := 0x0031
def lostOverflow : Nat := 0x0032
def agentRejoined : Nat := 0x0033
def memberFailed : Nat := 0x0040
def rebuildDone : Nat := 0x0041
def groupLost : Nat := 0x0042
def dataLost : Nat := 0x0043
def epochDispute : Nat := 0x0044
def transRevert : Nat := 0x0045
def stepFence : Nat := 0x0046
def svcChange : Nat := 0x0050
def dieFailed : Nat := 0x0051
def compFenced : Nat := 0x0052
def compUnfenced : Nat := 0x0053
def masterChange : Nat := 0x0060
def switchIdConflict : Nat := 0x0061
def managerConflict : Nat := 0x0062
def healthBelow : Nat := 0x0070
def expelled : Nat := 0x0071
def expelDeferred : Nat := 0x0072
def systemicOn : Nat := 0x0073
def systemicOff : Nat := 0x0074
def expelNotice : Nat := 0x0075
def libReject : Nat := 0x0080
def hostDiscard : Nat := 0x0090
def bar2Fail : Nat := 0x0091
def imageReject : Nat := 0x0100
def dieAttestFail : Nat := 0x0101
def svnCommit : Nat := 0x0102
def kdsAuthFail : Nat := 0x0103
def keyLoaded : Nat := 0x0104
def keyRetired : Nat := 0x0105
def keyZeroized : Nat := 0x0106
def restMacFail : Nat := 0x0107
def debugUnlock : Nat := 0x0108
def debugTokenReject : Nat := 0x0109
def dipA : Nat := 0x0200
def dipB : Nat := 0x0201
def supplyStop : Nat := 0x0202
def overvoltageStop : Nat := 0x0203
def throttleOn : Nat := 0x0204
def throttleOff : Nat := 0x0205
def thermalTrip : Nat := 0x0206
def refclkSwitch : Nat := 0x0207
def refclkLost : Nat := 0x0208
def reset : Nat := 0x0209
def bistFail : Nat := 0x020A
def quadOff : Nat := 0x020B
end Ev

/-- Severity of a code (R511 and the tables of chapters 18 and 22): 0 INFO, 1 WARN, 2 FAULT, 3 FENCE, 4 DEVICE. -/
def evSeverity (code : Nat) : Nat :=
  if [0x33, 0x41, 0x46, 0x53, 0x60, 0x74, 0x75, 0x102, 0x104, 0x105, 0x106, 0x200, 0x205, 0x209, 0x20B].contains code then 0
  else if [0x01, 0x03, 0x11, 0x12, 0x44, 0x45, 0x61, 0x62, 0x70, 0x72, 0x80, 0x90, 0x91, 0x100, 0x103, 0x108, 0x109, 0x201, 0x204,
    0x207].contains code then 1
  else if [0x42, 0x52].contains code then 3
  else if [0x21, 0x50, 0x51, 0x101, 0x202, 0x203, 0x206, 0x208].contains code then 4
  else 2

/-- The 64 bytes of a record (R510). -/
def LogRec.bytes (r : LogRec) : Bytes :=
  leBytes 4 r.seq ++ leBytes 2 r.code ++ leBytes 1 r.severity ++ leBytes 1 r.srcLog ++ leBytes 8 r.tick ++ leBytes 2 r.unit
    ++ leBytes 1 r.status ++ leBytes 1 r.comp ++ leBytes 4 0 ++ leBytes 8 r.addr ++ leBytes 8 r.workId ++ leBytes 2 r.feid
    ++ leBytes 1 r.swId ++ leBytes 1 0 ++ leBytes 4 r.lostBefore ++ padTo 16 r.detail

/-- What an event's writer supplies: the fields of R510 that depend on the event. -/
structure Event where
  code : Nat
  unit : Nat := 0xFFFF
  status : Nat := 0
  comp : Nat := 0xFF
  addr : Nat := 0
  workId : Nat := 0
  feid : Nat := 0xFFFF
  detail : Bytes := []
  deriving DecidableEq, Repr

namespace Dev

def log (d : Dev) (l : Nat) : SrcLog := Tab.getD d.logs l {}
def modLog (d : Dev) (l : Nat) (f : SrcLog → SrcLog) : Dev := { d with logs := Tab.upd d.logs l {} f }

def host (d : Dev) : HostId → HostPort
  | .ha => d.hostA
  | .hb => d.hostB
def modHost (d : Dev) (h : HostId) (f : HostPort → HostPort) : Dev :=
  match h with
  | .ha => { d with hostA := f d.hostA }
  | .hb => { d with hostB := f d.hostB }
def modMgmt (d : Dev) (f : Mgmt → Mgmt) : Dev := { d with mgmt := f d.mgmt }

/-- An MSI-X message: sent, or pending while the vector is masked (R594). -/
def msix (d : Dev) (h : HostId) (v : Nat) : Dev :=
  if bit (d.host h).mask v then d.modHost h (fun H => { H with pend := setBit H.pend v true }) else d.emit (.msix h v)

/-! ### System areas (R230, R231) -/

/-- The stack that holds a quadrant's system contents: its lowest-numbered working one (R231). -/
def sysStack (d : Dev) (q : Nat) : Option Nat := (d.workingStacks q).head?

/-- Window offset of a part of a quadrant's system area (R231). -/
def sysAddr (d : Dev) (q : Nat) (part : Nat × Nat) : Option Nat := (d.sysStack q).map (fun s => SysArea.start s + part.1)

/-! ### Records -/

/-- Base and mask of a host's event log (R514). -/
def evlogBase (d : Dev) : HostId → Nat
  | .ha => d.reg Reg.evlogBaseHa
  | .hb => d.reg Reg.evlogBaseHb
def evlogMask (d : Dev) : HostId → Nat
  | .ha => d.reg Reg.evlogMaskHa
  | .hb => d.reg Reg.evlogMaskHb

/-- A record still to be copied into a host's log: the log has a base and takes its severity (R513). -/
def recWaitsFor (d : Dev) (r : LogRec) (h : HostId) : Bool :=
  d.evlogBase h != 0 && bit (d.evlogMask h) r.severity && !(match h with | .ha => r.doneHA | .hb => r.doneHB)

/-- A record is waiting (R513). -/
def recWaiting (d : Dev) (r : LogRec) : Bool := d.recWaitsFor r .ha || d.recWaitsFor r .hb

/-- Capacity of a source log in records of 64 bytes (R512). -/
def logCap (l : Nat) : Nat := if l = 4 then 4096 else SysArea.records.2 / 64

/-- Where a new record goes: the next unused slot, else that of the oldest record that is not waiting (R513). -/
def logSlot (d : Dev) (l : Nat) : Option Nat :=
  let L := d.log l
  if L.recs.length < logCap l then some L.recs.length
  else (minBy (fun kv : Nat × LogRec => kv.2.seq) (L.recs.filter (fun kv => !d.recWaiting kv.2))).map Prod.fst

/-- The source log of an event on a quadrant, or on the control die (`q` 4): a quadrant with no working stack has none (R512). -/
def logOf (d : Dev) (q : Nat) : Nat := if q < 4 && !(d.workingStacks q).isEmpty then q else 4

/-- The header of a CMP message, its authenticated data (R582). -/
def cmpHeader (op status session len counter : Nat) : Bytes :=
  leBytes 1 1 ++ leBytes 1 op ++ leBytes 2 session ++ leBytes 2 len ++ leBytes 1 status ++ leBytes 1 0 ++ leBytes 8 counter

/-- The next message of a session to its client: the body sealed under K_SC, with the counter as nonce (R582, R583). -/
def cmpMsg (x : CmpSession) (s op status : Nat) (body : Bytes) : SessMsg :=
  { op := op, status := status, session := s, counter := x.sendCtr,
    body := Config.gcmSeal x.keySc (x.sendCtr * 2 ^ 32) (cmpHeader op status s body.length x.sendCtr) body }

/-- Send a message of a CMP session: its counter advances (R583). -/
def cmpSend (d : Dev) (s op status : Nat) (body : Bytes) : Dev :=
  match Tab.look d.mgmt.cmp s with
  | none => d
  | some x => (d.emit (.cmp s (cmpMsg x s op status body))).modMgmt (fun M =>
      { M with cmp := Tab.edit M.cmp s (fun y => { y with sendCtr := y.sendCtr + 1 }) })

/-- Write a record of an event that occurs on quadrant `q`, or on the control die for 4 (R510 to R513, R586, R595). -/
def event (d : Dev) (q : Nat) (e : Event) : Dev :=
  let l := d.logOf q
  let L := d.log l
  let sev := evSeverity e.code
  match d.logSlot l with
  | none => (d.modLog l (fun L => { L with dropped := L.dropped + 1 })).bump Reg.recordsDropped
  | some slot =>
    let r : LogRec :=
      { seq := L.nextSeq, code := e.code, severity := sev, srcLog := l, tick := d.tick, unit := e.unit, status := e.status,
        comp := e.comp, addr := e.addr, workId := e.workId, feid := e.feid, swId := d.dom.swId, lostBefore := L.dropped,
        detail := e.detail }
    let d := d.modLog l (fun L => { recs := Tab.put L.recs slot r, nextSeq := (L.nextSeq + 1) % 2 ^ 32, dropped := 0 })
    let d := d.setReg Reg.logNextSeq (setBits (d.reg Reg.logNextSeq) (32 * l) 32 ((L.nextSeq + 1) % 2 ^ 32))
    let d := if 2 ≤ sev then (d.bump Reg.faultsWritten).setReg Reg.lastFault (leNat r.bytes) else d
    let d := if bit (d.reg Reg.smbusAlertMask) sev then d.modMgmt (fun m => { m with alertLow := true }) else d
    if d.campionUp then
      d.each (d.mgmt.cmp.filter (fun s => s.2.state = 2 && bit s.2.mask sev)) (fun d s => d.cmpSend s.1 9 0 r.bytes)
    else d

end Dev

end Sys2Proof.Machine
end

