-- ==== Sys2Proof/Machine/JobDesc.lean ====
section
/-! DEFINITION. The fields of a JOB_POST payload (R317 to R320), of a group descriptor (R373) and of a staging descriptor (R242), and the
payloads of JOB_CANCEL (R418) and REGISTRY (R376). -/

namespace Sys2Proof.Machine

/-! ### Job descriptor (R318), by payload -/

namespace JD
def version (p : Bytes) : Nat := le p 0 1
def nnodes (p : Bytes) : Nat := le p 1 1
def ctx (p : Bytes) : Nat := le p 2 1
def flags (p : Bytes) : Nat := le p 3 1
def notice (p : Bytes) : Bool := bit (flags p) 0
def backup (p : Bytes) : Bool := bit (flags p) 1
def replyFeid (p : Bytes) : Nat := le p 4 2
def tileMax (p : Bytes) : Nat := le p 6 1
def qshift (p : Bytes) : Nat := le p 7 1
def nstage (p : Bytes) : Nat := le p 8 1
def policy (p : Bytes) : Nat := le p 9 1
def libMin (p : Bytes) : Nat := le p 10 2
def timeout (p : Bytes) : Nat := le p 12 4
def notBefore (p : Bytes) : Nat := le p 16 8
def inlineOff (p : Bytes) : Nat := le p 24 2
def inlineLen (p : Bytes) : Nat := le p 26 2
def priority (p : Bytes) : Nat := le p 28 1
def user (p : Bytes) : Bytes := slice p 96 32

/-! ### Node records (R319) and operand descriptors (R320) -/

def nodeOff (i : Nat) : Nat := 128 + 128 * i
def opcode (p : Bytes) (i : Nat) : Nat := le p (nodeOff i) 1
def subop (p : Bytes) (i : Nat) : Nat := le p (nodeOff i + 1) 1
def nflags (p : Bytes) (i : Nat) : Nat := le p (nodeOff i + 2) 1
def nopnd (p : Bytes) (i : Nat) : Nat := le p (nodeOff i + 3) 1
def deps (p : Bytes) (i : Nat) : Nat := le p (nodeOff i + 8) 8
def param (p : Bytes) (i k : Nat) : Nat := le p (nodeOff i + 16 + 4 * k) 4
def opndOff (i k : Nat) : Nat := nodeOff i + 32 + 16 * k
def addr (p : Bytes) (i k : Nat) : Nat := le p (opndOff i k) 8
def kind (p : Bytes) (i k : Nat) : Nat := le p (opndOff i k + 8) 1
def fmt (p : Bytes) (i k : Nat) : Nat := le p (opndOff i k + 9) 1
def oflags (p : Bytes) (i k : Nat) : Nat := le p (opndOff i k + 10) 1
def coded (p : Bytes) (i k : Nat) : Bool := bit (oflags p i k) 0
def olen (p : Bytes) (i k : Nat) : Nat := le p (opndOff i k + 12) 4

/-- The operands of a node that are marked STAGED (R245). -/
def stagedOpnds (p : Bytes) (i : Nat) : List Nat := (List.range (nopnd p i)).filter (fun k => kind p i k = 2)

/-- The least and the most bytes that an operand is stored in: LEN, or for a CODED operand, whose LEN is raw, its index table and its blocks, of 9
to 4,104 bytes from 16 to 16 (R320, R446 to R448, R463; log 181). -/
def leastLen (p : Bytes) (i k : Nat) : Nat :=
  let n := (olen p i k + 4095) / 4096
  if !coded p i k then olen p i k else if n = 0 then 0 else 16 * ((n + 3) / 4) + 16 * (n - 1) + 9
def mostLen (p : Bytes) (i k : Nat) : Nat :=
  let n := (olen p i k + 4095) / 4096
  if coded p i k then 16 * ((n + 3) / 4) + 4112 * n else olen p i k

/-- The 2 MiB units of tier P that `n` bytes of a STAGED operand touch; those that it touches whatever its coded length. -/
def unitsOver (p : Bytes) (i k n : Nat) : List Nat :=
  let a := addr p i k / 2 ^ 21
  let b := (addr p i k + max 1 n - 1) / 2 ^ 21
  (List.range (b + 1 - a)).map (a + ·)
def stagedUnits (p : Bytes) (i k : Nat) : List Nat := unitsOver p i k (leastLen p i k)

/-- Offset of staging descriptor `i`. -/
def stageOff (p : Bytes) (i : Nat) : Nat := nodeOff (nnodes p) + 32 * i
end JD

/-! ### Staging descriptor (R242) -/

namespace SD
def srcDa (d : Bytes) : Nat := le d 0 8
def npages (d : Bytes) : Nat := le d 8 2
def refresh (d : Bytes) : Bool := bit (le d 10 1) 0
def deadline (d : Bytes) : Nat := le d 16 8
def reqId (d : Bytes) : Nat := le d 24 8
/-- The descriptor obeys R242. -/
def ok (d : Bytes) : Bool :=
  srcDa d % 2 ^ 21 = 0 && srcDa d < 2 ^ 46 && 1 ≤ npages d && npages d ≤ 4096 && le d 10 1 < 2 && le d 11 5 = 0
    && isTierP (srcDa d + npages d * 2 ^ 21 - 1)
end SD

/-! ### Group descriptor (R373), as one number -/

namespace GD
def id (g : Nat) : Nat := bits g 0 16
def comp (g : Nat) : Nat := bits g 16 8
def policy (g : Nat) : Nat := bits g 24 2
def destMode (g : Nat) : Nat := bits g 26 2
def gflagsHigh (g : Nat) : Nat := bits g 28 4
def planes (g : Nat) : Nat := bits g 32 32
def ncontrib (g : Nat) : Nat := bits g 64 16
def ifmt (g : Nat) : Nat := bits g 80 8
def ofmt (g : Nat) : Nat := bits g 88 8
def rop (g : Nat) : Nat := bits g 96 8
def hint (g : Nat) : Nat := bits g 104 8
def elems (g : Nat) : Nat := bits g 112 16
def timeout (g : Nat) : Nat := bits g 128 16
def minOpen (g : Nat) : Nat := bits g 144 8
def pad (g : Nat) : Nat := bits g 152 8
def dest (g : Nat) : Nat := bits g 160 16
def run (g : Nat) : Nat := bits g 176 16
def ackUs (g : Nat) : Nat := bits g 192 16
def rest (g : Nat) : Nat := g >>> 208
end GD

end Sys2Proof.Machine

namespace Sys2Proof
open Machine

/-- JOB_CANCEL payload (R418). -/
def CancelMsg.bytes (m : CancelMsg) : Bytes :=
  leBytes 8 m.workId ++ leBytes 1 m.op ++ leBytes 1 m.sw ++ leBytes 2 m.replyFeid ++ leBytes 1 m.toSw ++ leBytes 3 0

/-- REGISTRY payload (R376). -/
def RegistryMsg.bytes (m : RegistryMsg) : Bytes :=
  leBytes 1 m.op ++ leBytes 1 m.reason ++ leBytes 2 m.groupId ++ leBytes 2 m.part ++ leBytes 2 m.nparts ++ leBytes 8 m.tick ++ m.body

end Sys2Proof
end

