-- ==== Sys2Proof/Machine/Cells.lean ====
section
/-! DEFINITION. Sets of buffer cells as rising, disjoint intervals (R157). -/

namespace Sys2Proof.Machine.Cells

/-- How many cells a set holds. -/
def count (c : Cells) : Nat := c.foldl (fun n i => n + i.2) 0

/-- The first `n` cells, and the rest. -/
def take : Nat → Cells → Cells × Cells
  | _, [] => ([], [])
  | n, (s, l) :: r =>
    if n = 0 then ([], (s, l) :: r)
    else if l ≤ n then ((s, l) :: (take (n - l) r).1, (take (n - l) r).2)
    else ([(s, n)], (s + n, l - n) :: r)

/-- A set without one interval. -/
def cut (s l : Nat) : Cells → Cells
  | [] => []
  | (a, m) :: r =>
    (if a < s then [(a, min m (s - a))] else [])
      ++ (if s + l < a + m then [(max a (s + l), a + m - max a (s + l))] else []) ++ cut s l r

/-- A set with one interval, joined to its neighbours. -/
def add1 (s l : Nat) : Cells → Cells
  | [] => [(s, l)]
  | (a, m) :: r =>
    if s + l < a then (s, l) :: (a, m) :: r
    else if a + m < s then (a, m) :: add1 s l r
    else add1 (min s a) (max (s + l) (a + m) - min s a) r

def diff (a b : Cells) : Cells := b.foldl (fun a i => cut i.1 i.2 a) a
def inter (a b : Cells) : Cells := diff a (diff a b)
def union (a b : Cells) : Cells := b.foldl (fun a i => if i.2 = 0 then a else add1 i.1 i.2 a) a

end Sys2Proof.Machine.Cells
end

