-- ==== Sys2Proof/Machine/Buffer.lean ====
section
/-! DEFINITION. The ingress buffers (R154 to R162, R170 to R176): queues and their lengths, the admission tests, taking and returning
cells, multicast descriptors, flushing. -/

namespace Sys2Proof

/-- Number of an ingress: the port, 384 for HA, 385 for HB. -/
def Ingress.num : Ingress → Nat
  | .port p => p
  | .host .ha => 384
  | .host .hb => 385

end Sys2Proof

namespace Sys2Proof.Machine

/-! ### Queue numbers (R156) -/

/-- The VOQ of a port and class. -/
def voqKey (p cls : Nat) : Nat := p * 8 + cls
/-- Unit queues: units 0 to 3 HOME, 4 to 7 TIERH, 8 to 11 YARROW, 12 to 15 SCHED, 16 HOST_A, 17 HOST_B. -/
def unitKey (u cls : Nat) : Nat := 4096 + u * 8 + cls
/-- The unit of a queue number. -/
def unitOf (k : Nat) : Nat := (k - 4096) / 8
namespace Core

/-- Entries of a queue, oldest first. -/
def queue (c : Core) (k : Nat) : List QEnt := Tab.getD c.queues k []

/-- Length of a queue in cells (R158). -/
def qLen (c : Core) (k : Nat) : Nat := (c.queue k).foldl (fun n e => n + e.n) 0

/-- F: free cells of the shared pool (R159, R188). -/
def freeShared (c : Core) : Nat := c.freeCnt - (c.rsv0 - c.rsv0Used) - (c.rsv1 - c.rsv1Used)

/-- Cells not FREE. -/
def used (c : Core) : Nat := 196608 - c.freeCnt

/-- Free cells of a class's reserve: CLS0 and CLS1 alone have one (R160). -/
def rsvFree (c : Core) (cls : Nat) : Nat :=
  match cls with
  | 0 => c.rsv0 - c.rsv0Used
  | 1 => c.rsv1 - c.rsv1Used
  | _ => 0

/-- Mark cells as seen by a running audit (R184). -/
def sight (c : Core) (cells : Cells) : Core := if c.auditing then { c with seen := Cells.union c.seen cells } else c

/-- Take `n` cells from a pool: 0 shared, 1 and 2 the reserves. -/
def alloc (c : Core) (n pool : Nat) : Cells × Core :=
  let t := Cells.take n c.free
  let c := { c with free := t.2, freeCnt := c.freeCnt - n }
  let c := match pool with
    | 1 => { c with rsv0Used := c.rsv0Used + n }
    | 2 => { c with rsv1Used := c.rsv1Used + n }
    | _ => c
  (t.1, c.sight t.1)

/-- Cells that a packet on a queue or a descriptor holds. -/
def owned (c : Core) : Cells :=
  let w := c.queues.foldl (fun w kv => kv.2.foldl (fun w e => Cells.union w e.cells) w) []
  c.descs.foldl (fun w kv => Cells.union w kv.2.cells) w

/-- Return the cells of an owner that is gone to the free list and to their pool (R158, R160). Cells that an audit found under two owners
return with the last of them (R187). -/
def giveBack (c : Core) (cells : Cells) (n pool : Nat) : Core :=
  let twice := if c.shared.isEmpty then [] else Cells.inter cells c.shared
  let kept := if twice.isEmpty then [] else Cells.inter twice c.owned
  let cells := Cells.diff cells kept
  let c := { c with free := Cells.union c.free cells, freeCnt := c.freeCnt + (n - Cells.count kept),
                    shared := if twice.isEmpty then c.shared else Cells.diff c.shared (Cells.diff twice kept) }
  let c := match pool with
    | 1 => { c with rsv0Used := c.rsv0Used - n }
    | 2 => { c with rsv1Used := c.rsv1Used - n }
    | _ => c
  c.sight cells

/-- One reference of a multicast packet ends: REF − 1, and at 0 the cells and the descriptor are freed (R175, R176). Answers the
cells freed. -/
def unref (c : Core) (id : Nat) : Nat × Core :=
  match Tab.look c.descs id with
  | none => (0, c)
  | some s =>
    let c := if c.auditing then { c with touched := id :: c.touched } else c
    if s.ref ≤ 1 then
      let c := { c with descs := Tab.del c.descs id, mcCells := c.mcCells - s.n }
      (s.n, c.giveBack s.cells s.n s.pool)
    else (0, { c with descs := Tab.put c.descs id { s with ref := s.ref - 1 } })

/-- An entry leaves: its cells, or its reference, are released. Answers the cells freed. -/
def release (c : Core) (e : QEnt) : Nat × Core :=
  match e.desc with
  | some id => c.unref id
  | none => (e.n, c.giveBack e.cells e.n e.pool)

/-- Take an entry off a queue and release it. -/
def dequeue (c : Core) (k : Nat) (e : QEnt) : Nat × Core :=
  let c := { c with queues := Tab.set c.queues k (removeFirst (fun x => x.id = e.id) (c.queue k)) [] }
  c.release e

/-- Enqueue. -/
def enqueue (c : Core) (k : Nat) (e : QEnt) : Core :=
  { c with queues := Tab.upd c.queues k [] (· ++ [e]), nextId := c.nextId + 1 }

/-- Flush a queue: one entry after the other leaves it and is released. Answers the cells freed. -/
def flush (c : Core) (k : Nat) : Nat × Core :=
  (c.queue k).foldl (fun (n, c) e => let r := c.dequeue k e; (n + r.1, r.2)) (0, c)

end Core

/-! ### Admission tests -/

/-- The exponent k of a class as a signed byte (R159, R162). -/
def dtExp (d : Dev) (cls : Nat) : Int := toInt 8 (bits (d.reg Reg.dtExp) (8 * cls) 8)

/-- L + n ≤ 2^k × F, or an empty queue and n ≤ F (R159). -/
def underThreshold (k : Int) (len n f : Nat) : Bool :=
  (if 0 ≤ k then decide (len + n ≤ 2 ^ k.toNat * f) else decide ((len + n) * 2 ^ (-k).toNat ≤ f)) || (len == 0 && decide (n ≤ f))

/-- The pool a packet of `n` cells is admitted from: shared under R159, else its reserve under R160. -/
def poolFor (d : Dev) (q k cls n : Nat) : Option Nat :=
  let c := d.core q
  if underThreshold (dtExp d cls) (c.qLen k) n c.freeShared then some 0
  else if cls < 2 && decide (n ≤ c.rsvFree cls) then some (cls + 1)
  else none

namespace Dev

/-- Change a core and keep USED_HIGH at the highest use (R189). -/
def coreUsed (d : Dev) (q : Nat) (c : Core) : Dev :=
  let d := d.modCore q (fun _ => c)
  d.setReg (Reg.usedHigh q) (max (d.reg (Reg.usedHigh q)) c.used)

/-- Flush the VOQs of a port in all four quadrants, counting the freed cells (R170). -/
def flushPort (d : Dev) (p : Nat) : Dev :=
  d.each (List.range 4) (fun d q =>
    let r := (List.range 8).foldl (fun (n, c) cls => let r := Core.flush c (voqKey p cls); (n + r.1, r.2)) (0, d.core q)
    if r.1 = 0 ∧ r.2 = d.core q then d else (d.modCore q (fun _ => r.2)).bump (Reg.flushed q) r.1)

/-- Flush the queues of a unit in all four quadrants, and drop its proposals (R501, R587). -/
def flushUnit (d : Dev) (u : Nat) : Dev :=
  let d := { d with crossing := Tab.keep d.crossing (fun k _ => unitOf k != u) }
  d.each (List.range 4) (fun d q =>
    let r := (List.range 8).foldl (fun (n, c) cls => let r := Core.flush c (unitKey u cls); (n + r.1, r.2)) (0, d.core q)
    if r.1 = 0 ∧ r.2 = d.core q then d else (d.modCore q (fun _ => r.2)).bump (Reg.flushed q) r.1)

/-- Classes in the order of an arbiter, block or 96 + unit: CLS0, CLS1, then CLS2 to CLS7 in round robin (R166, R169). -/
def classTurn (d : Dev) (b : Nat) : List Nat :=
  let s := Tab.getD d.arbCls b 0
  [0, 1] ++ (List.range 6).map (fun i => 2 + (s + i) % 6)

/-- Quadrants in the rotation of a queue's arbiter; a failed die's queues are out of it (R166, R169, R501). -/
def quadTurn (d : Dev) (k : Nat) : List Nat :=
  let s := Tab.getD d.arbQuad k 0
  ([0, 1, 2, 3].map (fun i => (s + i) % 4)).filter (fun q => !bit d.health.deadDies q)

/-- The rotations move on past a packet of a class that an arbiter started from a quadrant. -/
def turnPast (d : Dev) (b k cls q : Nat) : Dev :=
  { d with arbQuad := Tab.put d.arbQuad k ((q + 1) % 4), arbCls := if cls < 2 then d.arbCls else Tab.put d.arbCls b ((cls - 2 + 1) % 6) }

/-- The packet of a unit's queue that crosses to the unit or has crossed: the one begun, or the head packet of the next ingress quadrant in
rotation, which its first granted cell begins; one without cells has none to wait for (R166, R169). Answers the quadrant and the entry. -/
def unitTurn (d : Dev) (k : Nat) : Option (Nat × QEnt) :=
  let begun := (Tab.look d.crossing k).bind (fun x =>
    (((d.core x.1).queue k).find? (fun (e : QEnt) => decide (e.id = x.2))).map (fun e => (x.1, e)))
  begun.orElse (fun _ => (d.quadTurn k).findSome? (fun q => (((d.core q).queue k).head?).map (fun e => (q, e))))

/-- The next packet of a unit that passes a test, all of whose cells have crossed; its classes in the order of a port block's arbiter (R166,
R169). Answers the ingress quadrant, queue and entry. -/
def unitHead (d : Dev) (u : Nat) (p : QEnt → Bool) : Option (Nat × Nat × QEnt) :=
  (d.classTurn (96 + u)).findSome? (fun cls =>
    match d.unitTurn (unitKey u cls) with
    | some (q, e) => if e.n ≤ e.granted && p e then some (q, unitKey u cls, e) else none
    | none => none)

/-- The unit consumes a packet that has crossed to it: its cells return (R158). -/
def consume (d : Dev) (q k : Nat) (e : QEnt) : Dev :=
  let d := (d.modCore q (fun c => (c.dequeue k e).2)).turnPast (96 + unitOf k) k (k % 8) q
  { d with crossing := Tab.del d.crossing k }

end Dev

end Sys2Proof.Machine
end

