-- ==== Sys2Proof/Machine/LinkCrypto.lean ====
section
/-! DEFINITION. Keys in use on links (R537 to R539, R546 to R548): generations, hop keys, nonces, and the sealing of a packet at egress. -/

namespace Sys2Proof.Machine

namespace Dev

/-- The record of a generation of a slot. -/
def keyGen (d : Dev) (slot gen : Nat) : Option KeyGen := (Tab.getD d.keys slot {}).gens.find? (fun g => g.num = gen)

/-- The generation is LIVE (R539). -/
def liveGen (d : Dev) (slot gen : Nat) : Bool := (d.keyGen slot gen).any (fun g => g.state = 1)

/-- The generation still holds key material usable for traffic admitted before: LIVE or RETIRING (R552). -/
def usableGen (d : Dev) (slot gen : Nat) : Bool := (d.keyGen slot gen).any (fun g => g.state = 1 || g.state = 2)

/-- Newest LIVE generation of a slot. -/
def newestLive (d : Dev) (slot : Nat) : Option Nat :=
  (((Tab.getD d.keys slot {}).gens.filter (fun g => g.state = 1)).getLast?).map (·.num)

/-- The slot serves a composition as a LINK slot (R539, R548). Purpose 0 is LINK. -/
def linkSlotOf (d : Dev) (slot comp : Nat) : Bool := d.reg (Reg.slotComp slot) = comp && d.reg (Reg.slotPurpose slot) = 0

/-- Own side of a port has the lower salt; between two switches that side gives the port number (R546). -/
def lowerSalt (P : Port) : Bool := decide (leNat P.salt < (P.peer.map (·.salt)).getD 0)

/-- K_hop of a port for a generation (R546). Between switches the side with the lower salt stands as the switch. -/
def hopKey (d : Dev) (p slot gen : Nat) : Bytes :=
  let P := d.port p
  let peer := leBytes 16 ((P.peer.map (·.salt)).getD 0)
  let key := ((d.keyGen slot gen).map (·.key)).getD []
  let first := d.role p = 0 || lowerSalt P
  let num := if d.role p = 0 || lowerSalt P then p else P.peerPort
  Config.shake256 (key ++ (if first then P.salt ++ peer else peer ++ P.salt) ++ leBytes 2 num ++ leBytes 1 gen) 32

/-- The GCM nonce of the next packet of a class under a hop key (R547). -/
def nonce (P : Port) (cls count : Nat) : Nat :=
  leNat (leBytes 1 cls ++ leBytes 1 (if lowerSalt P then 0 else 1) ++ leBytes 2 0 ++ leBytes 8 count)

/-- Key of a port's packet counters: slot, generation, class. -/
def ctrKey (slot gen cls : Nat) : Nat := (slot * 256 + gen) * 8 + cls

/-- The bytes of a packet as it leaves a port: sealed under the egress hop key where ENC is 1, with a failing tag where asked (R149,
R548). None where its generation is gone (R552). -/
def sealPkt (d : Dev) (p : Nat) (pk : Packet) (badTag : Bool) : Option Bytes × Dev :=
  if !pk.enc then (some (pk.bytes pk.payload), d)
  else if !d.usableGen pk.kslot pk.kgen then (none, d)
  else
    let P := d.port p
    let k := ctrKey pk.kslot pk.kgen pk.cls
    let n := Tab.getD P.txCtr k 0
    let good := Config.gcmSeal (d.hopKey p pk.kslot pk.kgen) (nonce P pk.cls n) pk.headerBytes pk.payload
    let bytes := if badTag then good.take (good.length - 1) ++ [255 - good.getLastD 0] else good
    (some (pk.bytes bytes), d.modPort p (fun P => { P with txCtr := Tab.put P.txCtr k (n + 1) }))

/-- A packet received under a hop key counts in the receiver's count (R547). -/
def countRx (d : Dev) (src : Ingress) (pk : Packet) : Dev :=
  match src with
  | .port p =>
    if pk.enc then d.modPort p (fun P => { P with rxCtr := Tab.upd P.rxCtr (ctrKey pk.kslot pk.kgen pk.cls) 0 (· + 1) }) else d
  | .host _ => d

end Dev

end Sys2Proof.Machine
end

