-- ==== Sys2Proof/Machine/Link.lean ====
section
/-! DEFINITION. The link layer of a port (R80 to R113): lane groups, framing of received bytes, acknowledgment, replay and credits, lane
degrade and restore, the flit scheduler, and training up to ADMIT. What follows from a port leaving ACTIVE stands in PortDown. -/

namespace Sys2Proof.Machine

/-! ### Lane groups -/

/-- Aligned groups of lanes of a width, lower lanes first. -/
def groupsOf (w : Nat) : List Nat := (List.range (8 / w)).map (fun i => (2 ^ w - 1) <<< (w * i))

/-- The largest aligned group of at most `top` lanes inside a lane set, lower lanes first (R103, R107). -/
def largestGroup (top set : Nat) : Option Nat :=
  ([8, 4, 2, 1].filter (· ≤ top)).findSome? (fun w => (groupsOf w).find? (fun g => g &&& set = g))

/-- How many lanes a set holds. -/
def laneCount (m : Nat) : Nat := popCount 8 m

namespace Dev

/-- Note a link input of R116 in the current tick. -/
def sample (d : Dev) (p : Nat) (f : LinkSample → LinkSample) : Dev :=
  let t := d.tick
  d.modPort p (fun P =>
    match P.samples with
    | s :: r => if s.tick = t then { P with samples := f s :: r } else { P with samples := f { tick := t } :: P.samples }
    | [] => { P with samples := [f { tick := t }] })

/-- Report the active lanes of a port (R118). -/
def showLanes (d : Dev) (p lanes : Nat) : Dev :=
  (d.setReg (Reg.portLanes p) lanes).setReg (Reg.portWidth p) (laneCount lanes)

/-- Forget a lane exchange in progress (R109). -/
def noExchange (P : Port) : Port :=
  { P with laneReq := none, restoring := false, switchDue := none, switchReplay := false, switching := false, switchSent := false,
           restoreDue := false, alignLeft := 0 }

/-- RETRAIN entry (R92, R107). An exchange that it cuts short leaves both directions on one lane set, the largest group inside both (R107;
log 140); where that set is narrower, it is a width reduction (R118). A restore cut short is asked for again (R112). -/
def enterRetrain (d : Dev) (p : Nat) : Dev :=
  let t := d.tick
  let was := d.reg (Reg.portWidth p)
  let d := (d.setReg (Reg.portState p) 7).bump (Reg.retrains p)
  let d := d.modPort p (fun P =>
    let set := (largestGroup 8 (P.txLanes &&& P.rxLanes)).getD 0
    { noExchange P with expiries := 0, retrains := t :: P.retrains, lastNak := none, txLanes := set, rxLanes := set,
                        restoreDue := P.restoreDue || (P.restoring && P.laneReq.isSome) })
  let d := if laneCount (d.port p).rxLanes < was then d.bump (Reg.degrades p) else d
  d.showLanes p (d.port p).rxLanes

/-- Dedicated pools of a port's classes and its shared pool, in flits (R94, R95). -/
def ownAllocation (d : Dev) (p : Nat) : List Nat :=
  let v := d.reg (Reg.pbCredDed (p / 4))
  let n := (d.portsOfBlock (p / 4)).length
  let ded := (List.range 8).map (fun c => bits v (8 * c) 8 / n)
  ded ++ [1024 / n - ded.foldl (· + ·) 0]

/-- The allocation of the training under way (R96). -/
def trainAlloc (d : Dev) (p : Nat) : List Nat := if (d.port p).alloc.isEmpty then d.ownAllocation p else (d.port p).alloc

/-- Entry to ACTIVE after full training: numbering, acknowledgment and credits start afresh (R87, R90, R99). Which moment is the end of
training, at which slots restart at 0 (R80), the rules do not say: DESIGN CHOICE, the entry to ACTIVE (log 175). -/
def enterActive (d : Dev) (p : Nat) : Dev :=
  let d := d.setReg (Reg.portState p) 6
  let d := d.modPort p (fun P =>
    { noExchange P with txSeq := 0, rxSeq := 0, ackValid := false, nak := false, lastNak := none, replay := [], resend := [], expiries := 0,
                        credits := (P.peer.map (·.credits)).getD [], crSeen := List.replicate 9 0, crRet := List.replicate 9 0, crNext := 0,
                        rx := [], slot := 0, trainedWidth := laneCount P.rxLanes })
  d.showLanes p (d.port p).rxLanes

end Dev

/-! ### Framing of received bytes (R85, R119, R123, R132, R137) -/

/-- The parser's position in a flit: the class stream, whether the rest is fill, packets that count in FRAMING_DROPS, packet bytes the FIFO
keeps of this flit, bytes of a discarded header that it holds from earlier flits. -/
structure Parse where
  rx : RxClass
  fill : Bool := false
  drops : Nat := 0
  bytes : Nat := 0
  back : Nat := 0
  deriving DecidableEq, Repr

/-- The header of the packet in progress, `n` bytes, is discarded: what this flit brought of it is not kept, and the rest leaves the FIFO. -/
def Parse.forget (s : Parse) (n : Nat) : Parse := { s with drops := s.drops + 1, bytes := s.bytes - n, back := s.back + (n - s.bytes) }

/-- Length of a packet from its first 10 bytes, where it can be framed: a known PTYPE with its type's HLEN (R121, R123). -/
def frameLen (hdr : Bytes) : Option Nat :=
  let h := le hdr 0 10
  match ptypeOf (bits h 0 8) with
  | some t => if bits h 12 3 = t.hlen then some (8 * t.hlen + bits h 64 15 + (if bit h 11 then 16 else 0)) else none
  | none => none

/-- CTRL types an endpoint may send (R132). -/
def endpointCtype (c : Nat) : Bool := c = 0x05 || c = 0x06

/-- Take one byte of a class stream; `outsider` marks an ENDPOINT or GATEWAY port. Whether bytes of a packet dropped at framing count in
BYTES_RX ("packet bytes accepted", R118) is open: DESIGN CHOICE, those the same flit brought do not, those of an earlier flit have been
counted and stay so (log 141). -/
def parseByte (outsider : Bool) (s : Parse) (b : Byte) : Parse :=
  if s.fill || s.rx.resync then s
  else if s.rx.got = 0 && b = 0 then { s with fill := true }
  else
    let hdr := if s.rx.hdr.length < 17 then s.rx.hdr ++ [b] else s.rx.hdr
    let got := s.rx.got + 1
    let s := { s with bytes := s.bytes + (!s.rx.drop).toNat }
    if got = 10 then
      match frameLen hdr with
      | none => { s with rx := { s.rx with hdr := [], got := 0, need := 0, resync := true } : Parse }.forget 10
      | some n =>
        let cls7 := outsider && bits (le hdr 0 2) 8 3 = 7
        let s := { s with rx := { s.rx with hdr := hdr, got := got, need := n, drop := cls7 } }
        if cls7 then s.forget 10 else s
    else
      let bad := got = 17 && outsider && le hdr 0 1 = 0x0B && !endpointCtype (le hdr 16 1) && !s.rx.drop
      let s := if bad then { s with rx := { s.rx with drop := true } : Parse }.forget 17 else s
      if 10 < got && got = s.rx.need then { s with rx := { s.rx with hdr := [], got := 0, need := 0, drop := false } }
      else { s with rx := { s.rx with hdr := hdr, got := got } }

/-- Take the payload of an accepted DATA flit into its class stream. A stream that resyncs resumes at a valid SOP. -/
def parseFlit (outsider : Bool) (rx : RxClass) (f : Flit) : Parse :=
  if rx.resync then
    if f.sop = 0xFF then { rx := rx }
    else (f.payload.drop f.sop).foldl (parseByte outsider) { rx := { rx with resync := false, hdr := [], got := 0, need := 0 } }
  else f.payload.foldl (parseByte outsider) { rx := rx }

/-- Bytes leave the receive FIFO: the flits emptied, by their SH marks (R98). -/
def drainFlits : Nat → List (Nat × Bool) → List Bool × List (Nat × Bool)
  | _, [] => ([], [])
  | n, (b, sh) :: r =>
    if b ≤ n then
      let t := drainFlits (n - b) r
      (sh :: t.1, t.2)
    else ([], (b - n, sh) :: r)

/-- Return credits of a class's flits to their pools (R98). -/
def returnCredits (cls : Nat) (marks : List Bool) (ret : List Nat) : List Nat :=
  marks.foldl (fun r sh => let i := if sh then 8 else cls; setAt r i (r.getD i 0 + 1)) ret

namespace Dev

/-- Bytes of a class leave a port's receive FIFO, oldest first (R98). -/
def drainFifo (d : Dev) (p cls n : Nat) : Dev :=
  d.modPort p (fun P =>
    let rx := Tab.getD P.rx cls {}
    let t := drainFlits n rx.flits
    { P with rx := Tab.set P.rx cls { rx with flits := t.2 } {}, crRet := returnCredits cls t.1 P.crRet })

/-- The bytes of a packet leave a port's receive FIFO, to the buffer or to discard (R98, R100). -/
def leaveFifo (d : Dev) (src : Ingress) (pk : Packet) : Dev :=
  match src with
  | .host _ => d
  | .port p => d.drainFifo p pk.stream pk.wireLen

/-- A control packet of a switch, of a class and with a payload of `n` bytes, has been taken from a PLANE port: its bytes leave the receive
FIFO (R98, R131). -/
def ctrlTaken (d : Dev) (p cls n : Nat) : Dev := if d.isActive p && d.role p = 1 then d.drainFifo p cls (24 + n) else d

/-! ### Acknowledgment, replay, credits (R86 to R99) -/

/-- A DATA or NAK-raising flit asks for replay: one episode per request (R92). -/
def requestReplay (d : Dev) (p : Nat) : Dev :=
  if (d.port p).nak then d else (d.modPort p (fun P => { P with nak := true })).bump (Reg.nakSent p)

/-- Apply a credit counter of a header (R99). -/
def takeCredit (P : Port) (sel cnt : Nat) : Port :=
  if sel ≤ 8 then
    { P with credits := setAt P.credits sel (P.credits.getD sel 0 + (cnt + 256 - P.crSeen.getD sel 0 % 256) % 256),
             crSeen := setAt P.crSeen sel cnt }
  else P

/-- How many replay entries an ACK covers: those up to its number (R88, R92). -/
def ackCount (P : Port) (ack : Nat) : Nat :=
  match P.replay with
  | [] => 0
  | f :: _ => let n := (ack + 4096 - f.seq) % 4096 + 1; if n ≤ P.replay.length then n else 0

/-- What a slot of a port lasts, in fs: on one lane 9.677 ns (R79). -/
def slotFs (lanes : Nat) : Nat := 9677000 / max 1 (laneCount lanes)

/-- A NAK with this ACK has been acted on in the last 2 µs: the time of the port's slots tells it within a tick (R92; log 43). -/
def nakStands (d : Dev) (P : Port) (a : Nat) : Bool :=
  P.lastNak.any (fun m => m.ack = a && decide (d.tick ≤ m.tick + 1) && decide (P.clock < m.clock + 2000000000))

/-- Apply ACK, NAK and credits of a flit whose CRC checks (R86, R92, R99). A NAK before any DATA was accepted carries no valid ACK: it asks
for all that is unacknowledged. -/
def applyHeader (d : Dev) (p : Nat) (f : Flit) : Dev :=
  let P := d.port p
  let a := if f.ackValid then f.ack else 4096
  let n := if f.ackValid then ackCount P f.ack else 0
  let left := P.replay.drop n
  let P := { P with replay := left, resend := P.resend.filter (fun g => left.any (fun h => h.seq = g.seq)),
                    expiries := if 0 < n then 0 else P.expiries, lastNak := if 0 < n then none else P.lastNak }
  let P := takeCredit (takeCredit P f.craSel f.craCnt) f.crbSel f.crbCnt
  let fresh := f.nak && !d.nakStands P a
  let P := if fresh then { P with resend := P.replay, lastNak := some { ack := a, clock := P.clock, tick := d.tick } } else P
  let d := d.modPort p (fun _ => P)
  if fresh then d.bump (Reg.nakRcvd p) else d

/-- Whether R132 and R137 apply to a port: role ENDPOINT or GATEWAY. -/
def outsider (d : Dev) (p : Nat) : Bool := d.role p = 0 || d.role p = 2

/-- Accept the payload of a DATA flit in sequence (R85, R89). -/
def acceptData (d : Dev) (p : Nat) (f : Flit) : Dev :=
  let P := d.port p
  let r := parseFlit (d.outsider p) (Tab.getD P.rx f.cls {}) f
  let gone := drainFlits r.back r.rx.flits.reverse
  let held := { r.rx with flits := gone.2.reverse ++ (if r.bytes = 0 then [] else [(r.bytes, f.sh)]) }
  let back := gone.1 ++ (if r.bytes = 0 then [f.sh] else [])
  let P := { P with rxSeq := (P.rxSeq + 1) % 4096, ackValid := true, nak := false, rx := Tab.set P.rx f.cls held {},
                    crRet := returnCredits f.cls back P.crRet }
  let d := d.modPort p (fun _ => P)
  let d := (d.bump (Reg.flitsRx p)).bump (Reg.bytesRx p) r.bytes
  if r.drops = 0 then d else d.bump Reg.framingDrops r.drops

/-- The CRC checks and FTYPE is not reserved (R84). -/
def goodFlit (f : Flit) : Bool := f.crcOk && f.ftype < 5

/-- States in which a port exchanges flits: PARAM, ADMIT, ACTIVE, HELD (R102). -/
def exchanges (d : Dev) (p : Nat) : Bool := [4, 5, 6, 8].contains (d.portState p)

/-- A flit is discarded for its CRC or a reserved FTYPE (R84, R118). -/
def badFlit (d : Dev) (p : Nat) : Dev := if d.exchanges p then d.bump (Reg.crcErrors p) else d

/-- A DATA flit arrives at an ACTIVE port (R89, R92, R108). -/
def dataFlit (d : Dev) (p : Nat) (f : Flit) : Dev :=
  if !d.isActive p then (if f.crcOk && f.ftype = 1 then d else d.badFlit p)
  else if !f.crcOk || f.ftype != 1 then (d.bump (Reg.crcErrors p)).requestReplay p
  else
    let d := d.applyHeader p f
    let P := d.port p
    if P.laneReq.isSome && !P.restoring then d
    else if f.seq = P.rxSeq then d.acceptData p f
    else
      let back := (P.rxSeq + 4096 - f.seq) % 4096
      if 1 ≤ back && back ≤ 2048 then d else d.requestReplay p

/-- A flit that is not DATA: its header fields alone count (R86, R92). -/
def plainFlit (d : Dev) (p : Nat) (f : Flit) : Dev :=
  if !goodFlit f then d.badFlit p else if d.isActive p then d.applyHeader p f else d

/-- An ALIGN flit of a deskewed round: its header fields count, and it announces the peer's port number (R81, R84). -/
def alignFlitIn (d : Dev) (p : Nat) (f : Flit) : Dev :=
  let d := d.plainFlit p f
  if d.isActive p && goodFlit f then d.modPort p (fun P => { P with peerPort := le f.payload 2 2 }) else d

/-- The link retry timer expires (R91, R92). -/
def retryTimeout (d : Dev) (p : Nat) : Dev :=
  let P := d.port p
  if !d.isActive p || P.replay.isEmpty then d
  else
    let d := (d.bump (Reg.retryTimeouts p)).sample p (fun s => { s with timeouts := s.timeouts + 1 })
    if 3 ≤ P.expiries then d.enterRetrain p
    else d.modPort p (fun P => { P with resend := P.replay, expiries := P.expiries + 1 })

/-! ### Lane degrade and restore (R106 to R113) -/

/-- Lanes of a port that are not marked failed. -/
def soundLanes (d : Dev) (p failed : Nat) : Nat := d.portLaneMask p - (d.portLaneMask p &&& failed)

/-- Ask the peer for the largest aligned group of at most half a lane set, without failed lanes; RETRAIN where there is none (R107, R108). It
starts the degrade anew where an exchange is open (R113). -/
def askDegrade (d : Dev) (p set : Nat) : Dev :=
  match largestGroup (laneCount set / 2) (d.soundLanes p (d.port p).failed) with
  | none => d.enterRetrain p
  | some g => (d.requestReplay p).modPort p (fun P => { P with laneReq := some g, restoring := false, switchSent := false })

/-- A repaired lane is asked back: now, or once the exchange that is open or the RETRAIN has ended (R112). -/
def tryRestore (d : Dev) (p : Nat) : Dev :=
  let P := d.port p
  if !P.restoreDue || !d.isActive p || P.laneReq.isSome || P.switchSent || P.switchDue.isSome || P.switching then d
  else
    let d := d.modPort p (fun P => { P with restoreDue := false })
    match largestGroup 8 (d.soundLanes p P.failed) with
    | some g => if laneCount P.rxLanes < laneCount g then d.modPort p (fun P => { P with laneReq := some g, restoring := true }) else d
    | none => d

/-- A receive lane of the port, by its number in the block, is declared failed. One outside the lane set ends a request to take it back. -/
def laneFailed (d : Dev) (p lane : Nat) : Dev :=
  let P := d.port p
  if !d.isActive p || !bit (d.portLaneMask p) lane then d
  else
    let b := p / 4
    let failed := P.failed ||| (1 <<< lane)
    let d := d.setReg (Reg.pbLaneOk b) (setBit (d.reg (Reg.pbLaneOk b)) lane false)
    let d := d.event (quadOf p) { code := Ev.laneFailed, unit := 8 * b + lane }
    let d := d.modPort p (fun P => { P with failed := failed })
    if bit P.rxLanes lane then d.askDegrade p P.rxLanes
    else if P.restoring && P.laneReq.any (fun m => bit m lane) then d.modPort p (fun P => { P with laneReq := none, restoring := false })
    else d

/-- Switch the transmit direction from the next slot round: one ALIGN round with SWITCH on the target set, then only the target set; a
degrade resends from the last ACK + 1 (R109, R110). -/
def switchTx (d : Dev) (p target : Nat) (replay : Bool) : Dev :=
  d.modPort p (fun P => { P with switchDue := some target, switchReplay := replay, switchSent := true })

/-- The set this side transmits on, or switches to at its next round. -/
def txSet (P : Port) : Nat := P.switchDue.getD P.txLanes

/-- A flit with LCMD DEGRADE_REQ arrives (R109). Where this side asks for a degrade too, the target lies inside both LMASKs; a repeat that
arrives after the switch, which the set now in use lies within, asks for nothing more. An own restore gives way (R113). Both sides asking
for sets without a common group is no case of the rules: DESIGN CHOICE, RETRAIN, as R107 has it where a port has no group (log 175). -/
def degradeReq (d : Dev) (p : Nat) (f : Flit) : Dev :=
  if !goodFlit f then d.badFlit p
  else if !d.isActive p then d
  else
    let d := d.applyHeader p f
    let P := d.port p
    let ask := f.lmask &&& d.portLaneMask p
    if largestGroup 8 ask = none || txSet P &&& ask = txSet P then d
    else
      match largestGroup 8 (if P.restoring then ask else ask &&& P.laneReq.getD 0xFF) with
      | some g =>
        let d := if P.restoring then d.modPort p (fun P => { P with laneReq := none, restoring := false, restoreDue := true }) else d
        d.switchTx p g true
      | none => d.enterRetrain p

/-- A flit with LCMD RESTORE_REQ arrives: as for a degrade, with no replay (R112). A side that asks for a degrade does not restore (R113). -/
def restoreReq (d : Dev) (p : Nat) (f : Flit) : Dev :=
  if !goodFlit f then d.badFlit p
  else if !d.isActive p then d
  else
    let d := d.applyHeader p f
    let P := d.port p
    let ask := f.lmask &&& d.portLaneMask p
    if P.laneReq.isSome && !P.restoring then d
    else
      match largestGroup 8 (ask &&& P.laneReq.getD 0xFF) with
      | some g => if txSet P = g then d else d.switchTx p g false
      | none => d

/-- An ALIGN round with SWITCH completes deskew: the receiver moves (R110). Where it answers this side's request, lying inside the set asked
for, this side switches its own transmit direction in the same way; one that answers an earlier request leaves the later one standing
(R109). A set that holds a lane failed since starts the degrade again, from that set (R113). -/
def laneSwitch (d : Dev) (p mask : Nat) : Dev :=
  if !d.isActive p || mask = 0 then d
  else
    let P := d.port p
    let answers := P.laneReq.any (fun m => decide (m &&& mask = mask))
    let d := if laneCount mask < laneCount P.rxLanes then d.bump (Reg.degrades p) else d
    let d := d.modPort p (fun P => { P with rxLanes := mask, laneReq := if answers then none else P.laneReq,
                                            restoring := P.restoring && !answers })
    let d := if answers && txSet P != mask then d.switchTx p mask !P.restoring else d
    let d := (d.modPort p (fun P => { P with switchSent := false })).showLanes p mask
    if mask &&& P.failed = 0 || (d.port p).laneReq.isSome then d.tryRestore p else d.askDegrade p mask

/-- A failed lane counts as repaired (R112). -/
def laneRepaired (d : Dev) (p lane : Nat) : Dev :=
  let P := d.port p
  if !bit P.failed lane then d
  else
    let b := p / 4
    let failed := setBit P.failed lane false
    let d := d.setReg (Reg.pbLaneOk b) (setBit (d.reg (Reg.pbLaneOk b)) lane true)
    let due := (d.isActive p || d.portState p = 7) && d.flag (Reg.pbAutoRestore b)
    (d.modPort p (fun P => { P with failed := failed, restoreDue := P.restoreDue || due })).tryRestore p

/-! ### The flit scheduler (R80, R81, R88, R97, R114, R167) -/

/-- The bytes of a switch-generated packet as staged cells. It carries ENC 0 unless a key was given it. -/
def cellsOf (bs : Bytes) : List StagedCell :=
  let n := ceilDiv bs.length 256
  (List.range n).map (fun i => { bytes := (bs.drop (256 * i)).take 256, sop := i = 0, eop := i + 1 = n })

/-- Bytes for one flit from staged cells: payload, SOP offset, cells left, whether a failing buffer cell is carried (R172). None while
the packet in progress has too few bytes staged. How many packets a sender puts in one DATA flit before the rest is fill the rules do not
say: DESIGN CHOICE, as many as are staged and fit (R85, log 175). -/
def gather : Nat → Bytes → Nat → Bool → List StagedCell → Option (Bytes × Nat × List StagedCell × Bool)
  | 0, acc, sop, bad, cells => if acc.isEmpty then none else some (acc, sop, cells, bad)
  | _ + 1, acc, sop, bad, [] => if acc.isEmpty then none else some (acc, sop, [], bad)
  | fuel + 1, acc, sop, bad, c :: r =>
    if 242 ≤ acc.length then some (acc, sop, c :: r, bad)
    else
      let room := 242 - acc.length
      let sop := if c.sop && sop = 0xFF then acc.length else sop
      if c.bytes.length ≤ room then
        if c.eop || !r.isEmpty || c.bytes.length = room then gather fuel (acc ++ c.bytes) sop (bad || c.bad) r
        else none
      else some (acc ++ c.bytes.take room, sop, { c with bytes := c.bytes.drop room, sop := false } :: r, bad || c.bad)

/-- No packet of the class is half staged. -/
def betweenPackets (P : Port) (cls : Nat) : Bool :=
  (((Tab.getD P.staged cls []).getLast?).map (·.eop)).getD true && !(Tab.has P.inProgress cls)

/-- Cells of the switch-generated packet in progress move into the egress staging, which holds 4 cells of a class (R164). -/
def fillStage (P : Port) (cls : Nat) : Port :=
  let room := 4 - (Tab.getD P.staged cls []).length
  let rest := Tab.getD P.txRest cls []
  { P with staged := Tab.set P.staged cls (Tab.getD P.staged cls [] ++ rest.take room) [], txRest := Tab.set P.txRest cls (rest.drop room) [] }

/-- Stage a class's waiting switch-generated packets, between packets of its stream and as far as there is room (R164, log 18). One whose
generation is gone is dropped (R552). -/
def stageTxq (d : Dev) (p cls : Nat) : Dev :=
  let waits := Tab.getD (d.port p).txq cls []
  let d := if Tab.has (d.port p).txRest cls then d.modPort p (fun P => fillStage P cls) else d
  d.each waits (fun d pk =>
    let P := d.port p
    if Tab.has P.txRest cls || 4 ≤ (Tab.getD P.staged cls []).length || !betweenPackets P cls then d
    else
      let d := d.modPort p (fun P => { P with txq := Tab.set P.txq cls ((Tab.getD P.txq cls []).drop 1) [] })
      match d.sealPkt p pk false with
      | (none, d) => d.bump Reg.retiredDrops
      | (some bs, d) => d.modPort p (fun P => fillStage { P with txRest := Tab.put P.txRest cls (cellsOf bs) } cls))

/-- A class can fill a DATA flit now: bytes staged and a credit held (R97, R167). -/
def classReady (P : Port) (cls : Nat) : Bool :=
  (0 < P.credits.getD cls 0 || (cls != 0 && 0 < P.credits.getD 8 0))
    && (gather 8 [] 0xFF false (Tab.getD P.staged cls [])).isSome

/-- The class of the next DATA flit: CLS0, CLS1, then CLS2 to CLS7 by deficit round robin, weight 0 last; a class with nothing staged keeps
no deficit (R167). Two points are open and DESIGN CHOICEs: a class with bytes staged that cannot send keeps its deficit and gains a new
quantum at its next turn; of ready classes of weight 0 the first from the round-robin position is served, without a rotation among them
(log 176). -/
def pickClass (d : Dev) (P : Port) : Option (Nat × Tab Nat × Nat) :=
  if classReady P 0 then some (0, P.deficit, P.drr)
  else if classReady P 1 then some (1, P.deficit, P.drr)
  else
    let weight := fun c => bits (d.reg Reg.drrWeight) (8 * c) 8
    let order := (List.range 6).map (fun i => 2 + (P.drr - 2 + i) % 6)
    let ready := order.filter (classReady P)
    let deficit := Tab.keep P.deficit (fun c _ => Tab.has P.staged c)
    match ready.filter (fun c => weight c != 0) with
    | [] => ready.head?.map (fun c => (c, deficit, P.drr))
    | c :: rest =>
      if c = P.drr && 242 ≤ Tab.getD deficit c 0 then some (c, Tab.put deficit c (Tab.getD deficit c 0 - 242), c)
      else
        let n := if c = P.drr then rest.headD c else c
        some (n, Tab.put deficit n (Tab.getD deficit n 0 + weight n * 2048 - 242), n)

/-- Acknowledgment, credit and lane-command fields of the next flit (R82, R90, R98, R108, R112); a SWITCH round keeps its command (R109). Before
any DATA flit is accepted ACK_VALID is 0, and what ACK then reads is open: DESIGN CHOICE, 0xFFF, the number before the first (R92, log 142). -/
def stamp (P : Port) (f : Flit) : Flit :=
  let a := P.crNext % 9
  let b := (P.crNext + 1) % 9
  { f with ack := (P.rxSeq + 4095) % 4096, ackValid := P.ackValid, nak := P.nak,
           craSel := a, craCnt := P.crRet.getD a 0 % 256, crbSel := b, crbCnt := P.crRet.getD b 0 % 256,
           lcmd := match P.laneReq with | some _ => if f.lcmd = 3 then 3 else if P.restoring then 2 else 1 | none => f.lcmd,
           lmask := match P.laneReq with | some m => if f.lcmd = 3 then f.lmask else m | none => f.lmask }

/-- The lane of slot k on a set of L lanes: the (k mod L)-th, in ascending order (R80). -/
def laneAt (lanes k : Nat) : Nat := (members 8 lanes).getD (k % max 1 (laneCount lanes)) 0

/-- A slot of the port is over: its number, its time, the counters the next flit carries (R80, R98), and one flit more sent (R116). -/
def passSlot (d : Dev) (p lanes : Nat) : Dev :=
  (d.modPort p (fun P => { P with slot := P.slot + 1, clock := P.clock + slotFs lanes, crNext := (P.crNext + 2) % 9 })).sample p
    (fun s => { s with sent := s.sent + 1 })

/-- Send a flit in the port's slot on one of a set of lanes. -/
def putOn (d : Dev) (p lanes : Nat) (f : Flit) : Dev :=
  let P := d.port p
  (d.passSlot p lanes).emit (.flit p (laneAt lanes P.slot) (stamp P f))

/-- Send a flit in the port's slot. -/
def putFlit (d : Dev) (p : Nat) (f : Flit) : Dev := d.putOn p (d.port p).txLanes f

/-- An ALIGN flit: the lane, the lane count and the port number; SWITCH in a round that carries it (R81, R84, R109). -/
def alignFlit (P : Port) (p : Nat) : Flit :=
  let f : Flit := { ftype := 2, payload := leBytes 1 (laneAt P.txLanes P.slot) ++ leBytes 1 (laneCount P.txLanes) ++ leBytes 2 p }
  if P.switching then { f with lcmd := 3, lmask := P.txLanes } else f

/-- What starts with a slot round: a due SWITCH, whose ALIGN round is on the target set with the round number kept, or the ALIGN round of
every 4,096 rounds (R81, R109). -/
def beginRound (P : Port) : Port :=
  let lanes := max 1 (laneCount P.txLanes)
  if P.alignLeft != 0 || P.slot % lanes != 0 then P
  else
    match P.switchDue with
    | some m =>
      { P with txLanes := m, slot := P.slot / lanes * laneCount m, alignLeft := laneCount m, switching := true, switchDue := none,
               resend := if P.switchReplay then P.replay else P.resend }
    | none => if (P.slot / lanes) % 4096 = 4095 then { P with alignLeft := lanes } else P

/-- Some class has a DATA flit staged and no credit for it (R101). -/
def creditless (P : Port) : Bool :=
  (List.range 8).any (fun c => P.credits.getD c 0 = 0 && (c = 0 || P.credits.getD 8 0 = 0)
    && (gather 8 [] 0xFF false (Tab.getD P.staged c [])).isSome)

/-- Core cycles that have passed at the start of slot k of a port with L lanes: 2,048 bits at the message rate of R79, at 1.5 GHz. -/
def slotCycles (lanes k : Nat) : Nat := k * 1671168 / (115136 * max 1 lanes)

/-- The core cycles of this slot count where DATA waits without credit (R101; log 143). -/
def countStall (d : Dev) (p : Nat) : Dev :=
  let P := d.port p
  let l := laneCount P.txLanes
  if creditless P then d.bump (Reg.creditStall p) (slotCycles l (P.slot + 1) - slotCycles l P.slot) else d

/-- What this side announces in PARAM: role, domain and switch ID, lane set, credit allocations, link salt (R42, R99, R102, R546); a switch
has no FEID to announce. -/
def ownTrain (d : Dev) (p : Nat) : TrainInfo :=
  { role := d.role p, domId := d.dom.domId, switchId := d.dom.swId, feid := 0xFFFF, laneSet := (d.port p).rxLanes,
    credits := d.trainAlloc p, salt := leNat (d.port p).salt, malformed := false }

/-- Send a TRAIN flit in PARAM, with the header every flit carries (R84, R86, R102). -/
def sendTrain (d : Dev) (p : Nat) : Dev :=
  let r := d.fresh
  let P := d.port p
  (r.2.passSlot p P.txLanes).emit (.train p (laneAt P.txLanes P.slot) (stamp P { ftype := 4 }) (d.ownTrain p) r.1)

/-- Fill the slot with new DATA, where a class may send (R88, R97). -/
def newData (d : Dev) (p : Nat) : Dev :=
  let P := d.port p
  match if P.replay.length < 512 then d.pickClass P else none with
  | none => d.putFlit p {}
  | some (cls, deficit, drr) =>
    match gather 8 [] 0xFF false (Tab.getD P.staged cls []) with
    | none => d.putFlit p {}
    | some (bs, sop, rest, bad) =>
      let ded := 0 < P.credits.getD cls 0
      let pool := if ded then cls else 8
      let f : Flit := { ftype := 1, cls := cls, sh := !ded, seq := P.txSeq, sop := sop, payload := padTo 242 bs, crcOk := !bad }
      let d := d.modPort p (fun P =>
        { P with txSeq := (P.txSeq + 1) % 4096, replay := P.replay ++ [f], credits := setAt P.credits pool (P.credits.getD pool 0 - 1),
                 staged := Tab.set P.staged cls rest [], deficit := deficit, drr := drr })
      ((d.bump (Reg.flitsTx p)).bump (Reg.bytesTx p) bs.length).putFlit p f

/-- A DYING flit of the notice the port sends (R114). -/
def dyingFlit (P : Port) : Flit := { ftype := 3, payload := (P.dying.map (·.bytes)).getD [] }

/-- A slot of an ACTIVE port: ALIGN, a resend, or new DATA (R80, R81, R92, R97). -/
def activeSlot (d : Dev) (p : Nat) : Dev :=
  let d := d.each (List.range 8) (fun d cls => d.stageTxq p cls)
  let d := (d.countStall p).modPort p beginRound
  let P := d.port p
  if 0 < P.alignLeft then
    ((d.putFlit p (alignFlit P p)).modPort p (fun P =>
      { P with alignLeft := P.alignLeft - 1, switching := P.switching && decide (1 < P.alignLeft) })).tryRestore p
  else
    match P.resend with
    | f :: r =>
      let d := d.modPort p (fun P => { P with resend := r })
      let d := (d.bump (Reg.replayFlits p)).sample p (fun s => { s with resent := s.resent + 1 })
      d.putFlit p f
    | [] => d.newData p

/-- The port's next flit slot. A DISABLED port, and one in DETECT of a quadrant at NONE, is in electrical idle (R31, R102). -/
def flitSlot (d : Dev) (p : Nat) : Dev :=
  let P := d.port p
  let st := d.portState p
  if st = 0 || (st = 1 && d.level (quadOf p) = 0) then d
  else if 0 < P.dyingLeft then
    (d.modPort p (fun P => { P with dyingLeft := P.dyingLeft - 1 })).putOn p (d.portLaneMask p) (dyingFlit P)
  else if P.closing then d.putOn p (d.portLaneMask p) {}
  else if st = 4 then d.sendTrain p
  else if st = 5 || st = 8 then d.putFlit p {}
  else if st = 6 then d.activeSlot p
  else d

end Dev

/-! ### Training up to PARAM (R102, R103) -/

namespace Dev

/-- A port in DETECT sees signal: training begins, with the allocation of 0x2100+b:04 as it then stands (R96), unless a DYING holds it (R115) its quadrant has no level (R31), its block failed self-test (R642)
or no fabric reference is there (R636). -/
def signalDetected (d : Dev) (p : Nat) : Dev :=
  if d.portState p = 1 && !(d.port p).dyingHold && d.level (quadOf p) != 0 && d.portExists p
      && !bit d.health.failedUnits (p / 4) && d.power.refs != 0 then
    let a := d.ownAllocation p
    (d.modPort p (fun P => { P with alloc := a })).setReg (Reg.portState p) 2
  else d

/-- The trained lanes of a port are shown, and their polarities kept (R117): of none, where the port is not trained. -/
def showTrained (d : Dev) (p ok : Nat) : Dev :=
  let b := p / 4
  let mine := d.portLaneMask p
  let lanes := d.reg (Reg.pbLaneOk b)
  let pol := d.reg (Reg.pbPolarity b)
  let drop := (mine - (mine &&& ok)) * 0x101
  (d.setReg (Reg.pbLaneOk b) ((lanes - (lanes &&& mine)) ||| (ok &&& mine))).setReg (Reg.pbPolarity b) (pol - (pol &&& drop))

/-- A port that is in no trained state is in DETECT or DISABLED, with no lane trained (R102, R117). -/
def untrained (d : Dev) (p nx : Nat) : Dev := (d.showTrained p 0).setReg (Reg.portState p) nx

/-- Per-lane link training ends; lanes that fail stay out of the lane set (R103). -/
def equalizeDone (d : Dev) (p passed : Nat) : Dev :=
  if d.portState p != 2 then d
  else
    let mine := d.portLaneMask p
    let ok := passed &&& mine
    match largestGroup 8 ok with
    | none => d.untrained p 1
    | some g =>
      let d := (d.showTrained p ok).modPort p (fun P => { P with failed := mine - ok, txLanes := g, rxLanes := g })
      d.setReg (Reg.portState p) 3

/-- FEC lock, deskew and polarity correction complete; a fresh salt goes into the exchange (R102, R546). -/
def lockDone (d : Dev) (p polarity : Nat) : Dev :=
  if d.portState p != 3 then d
  else
    let b := p / 4
    let lanes := d.portLaneMask p * 0x101
    let shown := d.reg (Reg.pbPolarity b)
    let d := d.setReg (Reg.pbPolarity b) ((shown - (shown &&& lanes)) ||| (polarity &&& lanes))
    let r := d.freshBytes 16
    (r.2.modPort p (fun P => { P with salt := r.1, peer := none, txCtr := [], rxCtr := [] })).setReg (Reg.portState p) 4

/-- A TRAIN flit arrives in PARAM (R102). -/
def trainFlit (d : Dev) (p : Nat) (t : TrainInfo) : Dev :=
  if d.portState p = 4 then d.modPort p (fun P => { P with peer := some t }) else d

/-- The limit of EQUALIZE, LOCK or PARAM expires (R102). -/
def trainingTimeout (d : Dev) (p : Nat) : Dev :=
  let s := d.portState p
  if s = 2 || s = 3 || s = 4 then d.untrained p 1 else d

/-- Fast retrain completes: sequence and replay state are kept (R102). Whether the lane sets and the marks of failed lanes survive it the rule
does not say: DESIGN CHOICE, they are kept (log 140). -/
def retrainDone (d : Dev) (p : Nat) : Dev :=
  if d.portState p = 7 then ((d.setReg (Reg.portState p) 6).modPort p (fun P => { P with resend := P.replay })).tryRestore p else d

end Dev

/-! ### Meanings -/

/-- DATA_FLIT (R89). -/
def execDataFlit (port : Nat) (f : Flit) (s : State) : Ans := onDev (fun d => d.dataFlit port f) s
/-- IDLE_FLIT (R86). -/
def execIdleFlit (port : Nat) (f : Flit) (s : State) : Ans := onDev (fun d => d.plainFlit port f) s
/-- ALIGN_FLIT (R81): skew beyond 64 ns leaves the round without deskew and its flit unread. -/
def execAlignFlit (port _lane skewNs : Nat) (f : Flit) (s : State) : Ans :=
  onDev (fun d => if skewNs ≤ 64 then d.alignFlitIn port f else d) s
/-- TRAIN_FLIT (R102). -/
def execTrainFlit (port : Nat) (t : TrainInfo) (s : State) : Ans := onDev (fun d => d.trainFlit port t) s
/-- LINK_RETRY_TIMEOUT (R92). -/
def execLinkRetryTimeout (port : Nat) (s : State) : Ans := onDev (fun d => d.retryTimeout port) s
/-- LANE_FAILED (R106 to R108). -/
def execLaneFailed (port lane : Nat) (s : State) : Ans := onDev (fun d => d.laneFailed port lane) s
/-- DEGRADE_REQ (R109). -/
def execDegradeReq (port : Nat) (f : Flit) (s : State) : Ans := onDev (fun d => d.degradeReq port f) s
/-- LANE_SWITCH (R110). -/
def execLaneSwitch (port mask : Nat) (s : State) : Ans := onDev (fun d => d.laneSwitch port mask) s
/-- LANE_REPAIRED (R112). -/
def execLaneRepaired (port lane : Nat) (s : State) : Ans := onDev (fun d => d.laneRepaired port lane) s
/-- RESTORE_REQ (R112). -/
def execRestoreReq (port : Nat) (f : Flit) (s : State) : Ans := onDev (fun d => d.restoreReq port f) s
/-- SIGNAL_DETECTED (R102). -/
def execSignalDetected (port : Nat) (s : State) : Ans := onDev (fun d => d.signalDetected port) s
/-- EQUALIZE_DONE (R103). -/
def execEqualizeDone (port passMask : Nat) (s : State) : Ans := onDev (fun d => d.equalizeDone port passMask) s
/-- LOCK_DONE (R102). -/
def execLockDone (port polarity : Nat) (s : State) : Ans := onDev (fun d => d.lockDone port polarity) s
/-- TRAINING_TIMEOUT (R102). -/
def execTrainingTimeout (port : Nat) (s : State) : Ans := onDev (fun d => d.trainingTimeout port) s
/-- FLIT_SLOT (R167). -/
def execFlitSlot (port : Nat) (s : State) : Ans := onDev (fun d => d.flitSlot port) s

end Sys2Proof.Machine
end

