-- ==== Sys2Proof/Machine/Teasel.lean ====
section
/-! DEFINITION. The background watchers of a quadrant's buffer and lines: Teasel's audit (R182 to R188) and the hot-line detector
(R178 to R181). -/

namespace Sys2Proof.Machine

/-! ### Teasel -/

/-- What an audit gathers while it walks the owners (R184): the free list, cells claimed, cells found under two owners, and the tally of
QUEUED, MCAST, YSTAGE and JSTAGE cells. -/
structure Walk where
  free : Cells
  owned : Cells := []
  double : Nat := 0
  shared : Cells := []
  queued : Nat := 0
  mcast : Nat := 0
  ystage : Nat := 0
  jstage : Nat := 0
  deriving DecidableEq, Repr

/-- Claim an owner's cells of kind 0 QUEUED, 1 MCAST, 2 YSTAGE, 3 JSTAGE (R184, R187). -/
def Walk.claim (w : Walk) (kind : Nat) (cells : Cells) : Walk :=
  let onFree := Cells.inter cells w.free
  let both := Cells.inter cells w.owned
  let twice := Cells.count both
  let n := Cells.count cells - twice
  let w := { w with free := Cells.diff w.free onFree, owned := Cells.union w.owned cells,
                    double := w.double + Cells.count onFree + twice, shared := Cells.union w.shared both }
  match kind with
  | 0 => { w with queued := w.queued + n }
  | 1 => { w with mcast := w.mcast + n }
  | 2 => { w with ystage := w.ystage + n }
  | _ => { w with jstage := w.jstage + n }

/-- Category of the unicast packets of a queue (R157). -/
def queueKind (k : Nat) : Nat :=
  if k < 4096 then 0 else if 8 ≤ unitOf k && unitOf k < 12 then 2 else if 12 ≤ unitOf k && unitOf k < 16 then 3 else 0

/-- Walk every queue and every descriptor. -/
def walk (c : Core) : Walk :=
  let w := c.queues.foldl (fun w kv => kv.2.foldl (fun w e => if e.desc.isSome then w else w.claim (queueKind kv.1) e.cells) w)
    { free := c.free : Walk }
  c.descs.foldl (fun w kv => w.claim 1 kv.2.cells) w

/-- References to a descriptor that stand on the queues. -/
def refsTo (c : Core) (id : Nat) : Nat :=
  c.queues.foldl (fun n kv => n + (kv.2.filter (fun e => e.desc = some id)).length) 0

/-- Correct the REF of one descriptor, freeing it at 0 (R184). Answers whether it was corrected. -/
def fixRef (c : Core) (id : Nat) : Bool × Core :=
  match Tab.look c.descs id with
  | none => (false, c)
  | some s =>
    let n := refsTo c id
    if c.touched.contains id || n = s.ref then (false, c)
    else if n = 0 then
      (true, { c with descs := Tab.del c.descs id, mcCells := c.mcCells - s.n }.giveBack s.cells s.n s.pool)
    else (true, { c with descs := Tab.put c.descs id { s with ref := n } })

namespace Dev

/-- The next time an audit falls due: whole periods after the last, past a tick (R182). -/
def dueAfter (due period t : Nat) : Nat := due + period * ((t - due) / max 1 period + 1)

/-- The audit period elapses: an audit starts, or waits for the end of the running one (R182). -/
def auditStart (d : Dev) (q : Nat) : Dev :=
  if q < 4 && d.flag Reg.teaselEnable && decide ((d.core q).auditDue ≤ d.tick) then
    d.modCore q (fun c =>
      let c := { c with auditDue := dueAfter c.auditDue (d.reg Reg.teaselPeriod) d.tick }
      if c.auditing then { c with auditWaits := true } else { c with auditing := true, seen := [], touched := [] })
  else d

/-- The audit of a quadrant is over: one that waited starts (R182). -/
def auditEnds (c : Core) (orphans : Cells) : Core :=
  { c with auditing := c.auditWaits, auditWaits := false, prevOrphans := orphans, seen := [], touched := [] }

/-- An audit completes (R184 to R188). A baseline audit records the orphans and the tally and changes nothing else. -/
def auditDone (d : Dev) (q : Nat) : Dev :=
  let c := d.core q
  if !c.auditing then d
  else
    let w := walk c
    let all : Cells := [(0, 196608)]
    let orphans := Cells.diff (Cells.diff (Cells.diff all w.free) w.owned) c.seen
    let tally := leNat (leBytes 4 (Cells.count w.free) ++ leBytes 4 w.queued ++ leBytes 4 w.mcast ++ leBytes 4 w.ystage
      ++ leBytes 4 w.jstage ++ leBytes 4 (Cells.count orphans))
    let d := (d.setReg (Reg.tally q) tally).bump (Reg.audits q)
    let d := if w.double = 0 then d else (d.bump (Reg.doubleOwned q) w.double).event q { code := Ev.teaselDouble }
    if c.baseline then
      d.modCore q (fun c => { auditEnds c orphans with baseline := false, shared := w.shared })
    else
      let c := { c with free := w.free, freeCnt := c.freeCnt - (Cells.count c.free - Cells.count w.free) }
      let r := (Tab.keys c.descs).foldl (fun (n, c) id => let r := fixRef c id; (n + r.1.toNat, r.2)) (0, c)
      let c := r.2
      let back := Cells.inter orphans c.prevOrphans
      let n := Cells.count back
      let c := { auditEnds { c with free := Cells.union c.free back, freeCnt := c.freeCnt + n } orphans with shared := w.shared }
      let len := Cells.count c.free
      let d := if r.1 = 0 then d else d.bump (Reg.refFixed q) r.1
      let d := if n = 0 then d else (d.bump (Reg.reclaimed q) n).event q { code := Ev.teaselReclaim }
      let d := if len = c.freeCnt then d else d.bump (Reg.freecountFix q)
      d.modCore q (fun _ => { c with freeCnt := len })

/-! ### Hot lines -/

/-- Count a store taken by the home functions of a quadrant (R178). -/
def noteStore (d : Dev) (q line src : Nat) : Dev :=
  if !d.flag Reg.hotEnable then d
  else
    d.modCore q (fun c =>
      let u := c.hotUse + 1
      let hit := fun (h : HotLine) => { h with count := h.count + 1, bySrc := Tab.upd h.bySrc src 0 (· + 1), used := u }
      if c.hot.any (fun h => h.line = line) then
        { c with hotUse := u, hot := c.hot.map (fun h => if h.line = line then hit h else h) }
      else if c.hot.length < 64 then { c with hotUse := u, hot := c.hot ++ [hit { line := line }] }
      else
        match minBy (fun h : HotLine => h.used) (c.hot.filter (fun h => !h.hot)) with
        | none => c
        | some old => { c with hotUse := u, hot := c.hot.map (fun h => if h.line = old.line then hit { line := line } else h) })

/-- Interval P of a line with N offenders, in core cycles, rounded up (R180). -/
def holdCycles (d : Dev) (n : Nat) : Nat := ceilDiv (d.reg Reg.hotWindowNs * n * 3) (2 * d.reg Reg.hotThresh)

/-- A window ends: lines turn hot or cold, offenders are named anew, and the intervals recomputed (R179 to R181). -/
def hotWindowEnd (d : Dev) (q : Nat) : Dev :=
  if 4 ≤ q || !d.flag Reg.hotEnable then d
  else
    let th := d.reg Reg.hotThresh
    let c := d.core q
    let lines := c.hot.map (fun h =>
      if th ≤ h.count then
        { h with hot := true, offenders := (h.bySrc.filter (fun s => d.reg Reg.hotSrcMin ≤ s.2)).map Prod.fst, count := 0, bySrc := [] }
      else if h.hot && decide (2 * h.count < th) then { h with hot := false, offenders := [], count := 0, bySrc := [] }
      else { h with count := 0, bySrc := [] })
    let declared := (c.hot.filter (fun h => !h.hot && decide (th ≤ h.count))).length
    let held := lines.foldl (fun t h => h.offenders.foldl (fun t p =>
      Tab.upd t p 0 (max (d.holdCycles h.offenders.length))) t) ([] : Tab Nat)
    let d := d.modCore q (fun c => { c with hot := lines, withheld := held })
    if declared = 0 then d else d.bump (Reg.hotLines q) declared

/-- An ingress is under withholding by a hot line of some quadrant (R180). -/
def isWithheld (d : Dev) (ing : Nat) : Bool := (List.range 4).any (fun q => Tab.has (d.core q).withheld ing)

/-- The interval P of an ingress: the longest of all quadrants' hot lines, in core cycles (R180). -/
def holdOf (d : Dev) (ing : Nat) : Nat := (List.range 4).foldl (fun n q => max n (Tab.getD (d.core q).withheld ing 0)) 0

/-- HOT_ENABLE written 0: detector and withholding are empty (R181, R189). -/
def hotOff (d : Dev) : Dev :=
  { d.each [0, 1, 2, 3] (fun d q => d.modCore q (fun c => { c with hot := [], hotUse := 0, withheld := [] })) with paced := [] }

/-- TEASEL_ENABLE written from 0 to 1: the next audit of each quadrant is a baseline (R185). -/
def teaselOn (d : Dev) : Dev := d.each [0, 1, 2, 3] (fun d q => d.modCore q (fun c => { c with baseline := true }))

end Dev

/-- TEASEL_AUDIT_START (R182). -/
def execTeaselAuditStart (q : Nat) (s : State) : Ans := onDev (fun d => d.auditStart q) s
/-- TEASEL_AUDIT_DONE (R184). -/
def execTeaselAuditDone (q : Nat) (s : State) : Ans := onDev (fun d => d.auditDone q) s
/-- HOT_WINDOW_END (R179). -/
def execHotWindowEnd (q : Nat) (s : State) : Ans := onDev (fun d => d.hotWindowEnd q) s

end Sys2Proof.Machine
end

