-- ==== Sys2Proof/Machine/Router.lean ====
section
/-! DEFINITION. What happens to a packet at ingress: the checks of R151, routing (R139 to R145), answers of failed packets (R152), the
class allowance (R564), cut-through (R147) and admission into the buffer (R154 to R162, R173 to R175). -/

namespace Sys2Proof.Machine

/-! ### Field rules (R119 to R131) -/

/-- Classes a type may travel in (R121). -/
def classOk (p : Packet) : Bool :=
  match p.ptype with
  | .read | .write => p.cls = 2 || p.cls = 7
  | .writePosted => p.cls = 2
  | .atomic => p.cls = 3
  | .resp | .reduceResult => p.cls = 1
  | .msg => p.cls = 5 || p.cls = 6
  | .jobPost | .jobResult => p.cls = 5
  | .reduceContrib => p.cls = 4
  | .ctrl => p.cls = if p.ctype = 5 then 1 else 5

/-- The bytes `da` to `da + n − 1` lie in one 4 KiB block (R125). -/
def oneBlock (da n : Nat) : Bool := 0 < n && da % 4096 + n ≤ 4096

/-- Operand bytes of an AWIDTH. -/
def awBytes (w : Nat) : Nat := 4 * 2 ^ w

/-- Check 1 of R151: the class of the stream that carried the packet (R120), the class, lengths and fields of its type (R121 to R131); of CTRL
the two types that an endpoint or host may send (R131, R132). Whether to pass on a RESP, JOB_RESULT or REDUCE_RESULT of another agent with a
reserved STATUS would be to emit that code (R17) is open: DESIGN CHOICE, it is not, no rule of check 1 looks at STATUS, and the packet is
forwarded as it came (log 148). -/
def fieldsOk (p : Packet) : Bool :=
  let len := p.payload.length
  let mem := p.dst = 0 && !p.mc && p.da < 2 ^ 46
  let plain := p.aop = 0 && p.awidth = 0
  p.stream = p.cls && classOk p && (!p.mc || p.ptype = .msg || p.ptype = .reduceResult) &&
  match p.ptype with
  | .read => mem && plain && len = 0 && 1 ≤ p.rlen && p.rlen ≤ 4096 && oneBlock p.da p.rlen
  | .write | .writePosted => mem && plain && p.rlen = 0 && 1 ≤ len && len ≤ 4096 && oneBlock p.da len
  | .atomic =>
    mem && p.rlen = 0 && p.da % awBytes p.awidth = 0 &&
      (if p.aop = 4 then (p.awidth = 1 || p.awidth = 2) && len = 2 * awBytes p.awidth
       else 1 ≤ p.aop && p.aop ≤ 3 && p.awidth ≤ 1 && len = awBytes p.awidth)
  | .resp => len ≤ 4096
  | .msg => len ≤ 16384
  | .jobPost => 128 ≤ len && len ≤ 16384 && (p.quad ≤ 3 || p.quad = 15) && p.node = 0
  | .jobResult => len ≤ 16384 && (p.quad ≤ 3 || p.quad = 15) && (p.node ≤ 63 || p.node = 255)
  | .reduceContrib => 2 ≤ len && len ≤ 16384 && 1 ≤ p.nelem && p.nelem ≤ 8192
  | .reduceResult => 2 ≤ len && len ≤ 16384 && 1 ≤ p.nelem && p.nelem ≤ 8192 && p.contrib = 0
  | .ctrl => (p.ctype = 5 || p.ctype = 6) && len = 16

/-! ### Compositions, quotas, tiles -/

namespace Dev

/-- TILE_QUOTA, TIERH_QUOTA and CLASS_WEIGHT of the active record (R559). -/
def tileQuota (d : Dev) (c : Nat) : Nat := bits (d.reg (Reg.compActive c)) 16 8
def tierhQuota (d : Dev) (c : Nat) : Nat := bits (d.reg (Reg.compActive c)) 32 32
def classWeight (d : Dev) (c cls : Nat) : Nat := bits (d.reg (Reg.compActive c)) (64 + 8 * cls) 8

/-- Composition of the job a quantum belongs to. -/
def compOf (d : Dev) (x : Quantum) : Nat := ((Tab.look d.jobs.recs (x.quad * 256 + x.job)).map (·.pkt.comp)).getD 0x100

/-- Tiles whose running or parked quanta belong to a composition, across the switch (R562). -/
def tilesOf (d : Dev) (c : Nat) : Nat := Tab.count d.jobs.running (fun u x => u < 120 && d.compOf x = c)

/-- Working tiles of a quadrant (R30): not failed in self-test (R642), not dead or out (R506). -/
def workingTiles (d : Dev) (q : Nat) : List Nat :=
  (List.range 30).map (30 * q + ·) |>.filter (fun t => !bit d.health.failedUnits (96 + t) && !bit (d.reg Reg.deadAgents) t)

/-- Free tile quota of a composition at a quadrant's scheduler: no more than its unheld quota and the quadrant's free working tiles
(R139; DEDUCED, log 27). -/
def freeQuota (d : Dev) (c q : Nat) : Nat :=
  min (d.tileQuota c - d.tilesOf c) ((d.workingTiles q).filter (fun t => !Tab.has d.jobs.running t)).length

/-- Scheduler for QUAD = 0xF: most free tile quota, the lowest quadrant of equals, among quadrants at SL-C (R139, R32). -/
def anySched (d : Dev) (c : Nat) : Option Nat :=
  minBy (fun q => 1000 - d.freeQuota c q) ([0, 1, 2, 3].filter (fun q => d.level q = 3))

/-! ### Answers -/

/-- Count a packet that leaves (R572); CTRL packets are no composition's. -/
def countOut (d : Dev) (pk : Packet) : Dev := if pk.ptype = .ctrl then d else d.bump (Reg.fabricOut pk.comp) pk.wireLen

/-- A host whose FEID entry equals the FEID and whose port is up (R140, R593). -/
def hostOfFeid (d : Dev) (f : Nat) : Option HostId :=
  if f = 0xFFFF then none
  else if d.reg Reg.hostFeidHa = f && d.hostA.up && d.flag (Reg.rxringBase 0) then some .ha
  else if d.reg Reg.hostFeidHb = f && d.hostB.up && d.flag (Reg.rxringBase 1) then some .hb
  else none

/-- Unit number of a host's queue. -/
def hostUnit : HostId → Nat
  | .ha => 16
  | .hb => 17

/-- Put a switch-generated packet on a host's queue; it holds no buffer cell (log 18), and counts when the ring takes it. -/
def toHost (d : Dev) (h : HostId) (pk : Packet) : Dev :=
  d.modCore 0 (fun c => c.enqueue (unitKey (hostUnit h) pk.cls)
    { id := c.nextId, pkt := { pk with enc := false }, src := .host h, tick := d.tick })

/-- Send a switch-generated packet by FEID routing (R140). -/
def sendFeid (d : Dev) (pk : Packet) : Dev :=
  match d.portOfFeid pk.dst, d.hostOfFeid pk.dst with
  | some p, _ => (d.countOut pk).sendPort p pk
  | none, some h => d.toHost h pk
  | none, none => d.bump Reg.unroutable

/-- Give a switch-generated packet with a payload the newest LIVE generation of its composition's LINK_SLOT, or discard it (R548). -/
def sendKeyed (d : Dev) (pk : Packet) : Dev :=
  if pk.payload.isEmpty || (d.portOfFeid pk.dst).isNone then d.sendFeid pk
  else
    let slot := d.reg (Reg.linkSlot pk.comp)
    match if d.linkSlotOf slot pk.comp then d.newestLive slot else none with
    | some g => d.sendFeid { pk with enc := true, kslot := slot, kgen := g }
    | none => d.bump Reg.retiredDrops

/-- A switch-generated RESP to a request (R127): with data it uses the request's key (R548). -/
def respTo (d : Dev) (r : Packet) (status : Nat) (data : Bytes) : Packet :=
  { ptype := .resp, cls := 1, dst := r.src, comp := r.comp, tag := r.tag, reqEpoch := r.reqEpoch, status := status, swgen := true,
    swId := d.dom.swId % 32, payload := data, enc := r.enc && !data.isEmpty, kslot := r.kslot, kgen := r.kgen }

/-- The JOB_RESULT of a refused JOB_POST (R152). -/
def refusalOf (r : Packet) (status quad : Nat) : Packet :=
  { ptype := .jobResult, cls := 5, dst := r.src, comp := r.comp, tag := r.tag, reqEpoch := r.reqEpoch, status := status,
    workId := r.workId, quad := quad, node := 0xFF, final := true }

/-- Answer a failed packet (R152): a request draws an answer, any other type is discarded and counted. An answer to a packet that came
in on a GATEWAY port leaves by that port (log 26). -/
def failPacket (d : Dev) (src : Ingress) (p : Packet) (status : Nat) : Dev :=
  if !p.ptype.isRequest then d.bump Reg.unroutable
  else
    let a := if p.ptype = .jobPost then refusalOf p status 15 else d.respTo p status []
    match src with
    | .port n => if d.role n = 2 then (d.countOut a).sendPort n a else d.sendFeid a
    | .host _ => d.sendFeid a

/-! ### Routing -/

/-- Data members of the stripe group an entry names. -/
def hmapK (d : Dev) (e : Nat) : Nat := SG.k (d.sg (HMap.group e))

/-- The ENDPOINT port of an FEID, ACTIVE or not. -/
def homePort (d : Dev) (f : Nat) : Option Nat :=
  (List.range 384).find? (fun p => d.reg (Reg.portExpectFeid p) = f && d.role p = 0 && d.portExists p)

/-- Quadrant whose home function serves an entry (R156, R470); Q0's where no port of this switch is its tray's (DESIGN CHOICE, log 151). -/
def homeQuad (d : Dev) (e : Nat) : Nat :=
  if HMap.stripe e then SG.quad (d.sg (HMap.group e)) else ((d.homePort (HMap.tray e)).map quadOf).getD 0

/-- The stack that holds a window offset, and the quadrant that owns the stack (R228). -/
def stackAt (off : Nat) : Nat := off / 0xC00000000
def quadAt (off : Nat) : Nat := stackAt off / 3

/-- The offset in the stack, the pseudo-channel and the channel of a window offset (R228). -/
def stackOff (off : Nat) : Nat := off % 0xC00000000
def pseudoChannel (off : Nat) : Nat := bits (stackOff off) 8 6 ^^^ bits (stackOff off) 14 6
def channelOf (off : Nat) : Nat := pseudoChannel off / 2

/-- The DA lies in this switch's window. -/
def inWindow (d : Dev) (da : Nat) : Bool :=
  match d.ownId with
  | some i => windowBase i ≤ da && da < windowBase i + windowSize
  | none => false

/-- Offset of a DA in this switch's window. -/
def windowOff (d : Dev) (da : Nat) : Nat := da - windowBase d.dom.swId

/-- A MSG to the key service with ENC = 0 (R542). -/
def isKds (d : Dev) (p : Packet) : Bool :=
  p.ptype = .msg && !p.enc && !p.mc && d.reg Reg.kdsFeid != 0xFFFF && p.dst = d.reg Reg.kdsFeid

end Dev

/-- Where a packet goes: queue numbers without the class (8192 for what takes it at once: the security root, or the function a CTRL
packet is for), and the Home Map entry bound (R142). -/
structure Routed where
  dests : List Nat
  hmapNo : Nat := 0
  hmap : Nat := 0
  region : Nat := 0
  deriving DecidableEq, Repr

/-- Outcome of routing or of the checks. -/
inductive Verdict where
  | go (r : Routed)
  | fail (status : Nat)
  /-- Discarded without answer or count (R70). -/
  | silent
  deriving DecidableEq, Repr

namespace Dev

/-- FEID routing (R140), the security root included (R541). -/
def routeFeid (d : Dev) (p : Packet) : Verdict :=
  if d.isKds p then .go { dests := [8192] }
  else
    match d.portOfFeid p.dst, d.hostOfFeid p.dst with
    | some q, _ => .go { dests := [voqKey q 0] }
    | none, some h => .go { dests := [unitKey (hostUnit h) 0] }
    | none, none => .fail St.unmapped

/-- The FEID of a member of a multicast group, where its port or host is in service (R173). -/
def memberFeid (d : Dev) (m : Nat) : Option Nat :=
  if m < 384 then (if d.isActive m && d.role m = 0 then some (d.reg (Reg.portExpectFeid m)) else none)
  else if m = 384 then (d.hostOfFeid (d.reg Reg.hostFeidHa)).map (fun _ => d.reg Reg.hostFeidHa)
  else (d.hostOfFeid (d.reg Reg.hostFeidHb)).map (fun _ => d.reg Reg.hostFeidHb)

/-- Members of a multicast group, and those that are targets of a packet of a composition (R173). -/
def mcTargets (d : Dev) (group comp : Nat) (ing : Option Nat) : List Nat × List Nat :=
  let all := (members 386 (d.reg (Reg.mcMembers group))).filter (fun m => some m != ing)
  (all, all.filter (fun m => (d.memberFeid m).any (d.isMember comp)))

/-- Queue of a member. -/
def memberQueue (m : Nat) : Nat := if m < 384 then voqKey m 0 else unitKey (16 + (m - 384)) 0

/-- A MSG to another domain (R71, R128, R139). -/
def foreign (d : Dev) (p : Packet) : Bool := p.ptype = .msg && p.dstDomain != 0xFFFF && p.dstDomain != d.dom.domId

/-- The packet goes to every target of a multicast group; a MSG to another domain goes to one GATEWAY port whatever its MC (R71, R128,
R173). -/
def isMulti (d : Dev) (p : Packet) : Bool := p.mc && !d.foreign p

/-- Check 5 of R151: the destination of a packet (R139 to R145, R70, R71, R74). A PLANE port carries what switches send one another, and what
any other packet gets there is open: DESIGN CHOICE, no destination exists for it (R39, log 144). -/
def route (d : Dev) (src : Ingress) (p : Packet) : Verdict :=
  let gate := match src with | .port n => decide (d.role n = 2) | .host _ => false
  let plane := match src with | .port n => decide (d.role n = 1) | .host _ => false
  if gate && p.ptype != .msg then (if p.ptype.isRequest then .fail St.unmapped else .silent)
  else if plane then .fail St.unmapped
  else
    match p.ptype with
    | .read | .write | .writePosted | .atomic =>
      if isTierP p.da then
        match d.hmapFor p.da with
        | none => .fail St.unmapped
        | some (n, e) =>
          if d.ownId = some (homePlane e (d.hmapK e) p.da) then .go { dests := [unitKey (d.homeQuad e) 0], hmapNo := n, hmap := e }
          else .fail St.unmapped
      else if d.inWindow p.da then .go { dests := [unitKey (4 + quadAt (d.windowOff p.da)) 0] }
      else .fail St.unmapped
    | .msg =>
      if !d.foreign p then
        if p.mc then .go { dests := (d.mcTargets p.dst p.comp (some src.num)).2.map memberQueue } else d.routeFeid p
      else
        let gws := d.activePorts.filter (fun g => d.role g = 2 && d.reg (Reg.portGwDomain g) = p.dstDomain)
        match gws with
        | [] => .fail St.unmapped
        | g :: _ => .go { dests := [voqKey (gws.getD (Config.gatewayHash p.src p.dst % gws.length) g) 0] }
    | .jobPost =>
      let q := if p.quad = 15 then d.anySched p.comp else if d.level p.quad = 3 then some p.quad else none
      match q with
      | some q => .go { dests := [unitKey (12 + q) 0] }
      | none => .fail St.unmapped
    | .reduceContrib =>
      match Tab.look d.yar.insts p.group with
      | some i => if i.state = 2 then .go { dests := [unitKey (8 + i.quad) 0] } else .fail St.unmapped
      | none => .fail St.unmapped
    | .reduceResult =>
      if p.mc then .go { dests := (d.mcTargets p.dst p.comp (some src.num)).2.map memberQueue } else d.routeFeid p
    | .resp | .jobResult => d.routeFeid p
    | .ctrl => if p.ctype = 6 || Tab.has d.yar.insts (leNat (p.payload.take 2)) then .go { dests := [8192] } else .fail St.unmapped

/-- A tier P request at a switch other than its home plane (R145). -/
def wrongPlane (d : Dev) (p : Packet) : Bool :=
  p.ptype.isMem && isTierP p.da &&
    (match d.hmapFor p.da with
     | some (_, e) => d.ownId != some (homePlane e (d.hmapK e) p.da)
     | none => false)

/-! ### Regions -/

/-- The VALID region of a composition that holds a DA (R197). -/
def regionFor (d : Dev) (comp da : Nat) : Option Nat :=
  (d.regionsActive.find? (fun r => Region.holds r.2 da && Region.comp r.2 = comp)).map Prod.snd

/-- The DA lies in the MAC area of a region that keeps MACs (R550). -/
def inMacArea (r da : Nat) : Bool :=
  Region.restMac r && decide (Region.base r * 2 ^ 21 + 2 ^ (Region.size r + 21) / 32 * 31 ≤ da)

/-- The right a request needs (R197): 0 R, 1 W, 2 A. -/
def rightOk (r kind : Nat) : Bool :=
  match kind with
  | 0 => Region.rd r
  | 1 => Region.wr r
  | _ => Region.at' r

/-- Check 6 of R151 (R197, R198): the region entry, or the status. -/
def regionCheck (d : Dev) (comp da rkey kind : Nat) : Except Nat Nat × Dev :=
  match d.regionFor comp da with
  | none => (.error St.unmapped, d.bump Reg.regionMiss)
  | some r =>
    if Region.rkey r != rkey then (.error St.key, d.bump Reg.keyFails)
    else if !rightOk r kind || inMacArea r da then (.error St.rights, d.bump Reg.rightsFails)
    else (.ok r, d)

/-- Right a request type needs. -/
def rightOf : PType → Nat
  | .read => 0
  | .atomic => 2
  | _ => 1

/-! ### The checks of R151 -/

/-- Check 3: slot, membership, REQUIRE_ENC (R539, R542, R560). -/
def rightsOk (d : Dev) (src : Ingress) (p : Packet) : Bool :=
  (!p.enc || d.linkSlotOf p.kslot p.comp)
    && (match src with
        | .port n => if d.role n = 2 then bit (d.reg (Reg.gwActive p.comp)) n else d.isMember p.comp p.src
        | .host _ => d.isMember p.comp p.src)
    && (p.enc || d.isKds p || !d.flag (Reg.requireEnc p.comp))

/-- A host's packet of CLS7, which only switches send (R121, R137): a breach of a field rule, as R137's discard is for ENDPOINT and GATEWAY
ports. -/
def hostCls7 (src : Ingress) (p : Packet) : Bool := p.cls = 7 && (match src with | .host _ => true | .port _ => false)

/-- Checks 1 to 6, in order; the first that fails decides (R151). -/
def checks (d : Dev) (src : Ingress) (p : Packet) : Verdict × Dev :=
  if !fieldsOk p || hostCls7 src p then (.fail St.badDesc, d)
  else if p.enc && !d.liveGen p.kslot p.kgen then (.fail St.keyRetired, d.bump Reg.retiredDrops)
  else if !d.rightsOk src p then (.fail St.rights, d)
  else if d.fenced p.comp then (.fail St.fenced, d)
  else
    match d.route src p with
    | .go r =>
      if p.ptype.isMem then
        match d.regionCheck p.comp p.da p.rkey (rightOf p.ptype) with
        | (.ok e, d) => (.go { r with region := e }, d)
        | (.error s, d) => (.fail s, d)
      else (.go r, d)
    | v => (v, if d.wrongPlane p then d.bump Reg.wrongPlane else d)

/-! ### Admission -/

/-- Quadrant whose buffer takes a packet: the port's, or for a host the one that owns what the packet is addressed to (R22, R154). The host
ports belong to no quadrant, so which link takes a packet from one host to another is open: DESIGN CHOICE, Q0's to HOST_A and Q1's to
HOST_B (log 145). -/
def ingressQuad (src : Ingress) (dest : Nat) : Nat :=
  match src with
  | .port p => quadOf p
  | .host _ => if dest < 4096 then quadOf (dest / 8) else unitOf dest % 4

/-- Allowance of a composition and class per tick, 0 for none (R564). -/
def allowanceOf (d : Dev) (c cls : Nat) : Nat := if cls < 2 then 0 else d.classWeight c cls * 368

def allowKey (c cls q : Nat) : Nat := (c * 8 + cls) * 4 + q

/-- The allowance left admits a packet (R564). -/
def allowed (d : Dev) (c cls q : Nat) : Bool :=
  d.allowanceOf c cls = 0 || decide (1 ≤ Tab.getD d.allowance (allowKey c cls q) (d.allowanceOf c cls : Int))

/-- Admission takes its cells from the allowance (R564). -/
def takeAllowance (d : Dev) (c cls q n : Nat) : Dev :=
  if d.allowanceOf c cls = 0 then d
  else { d with allowance := Tab.upd d.allowance (allowKey c cls q) (d.allowanceOf c cls : Int) (· - n) }

/-- A copy to a queue may leave cut-through (R147). -/
def cutOk (d : Dev) (src : Ingress) (q cls dest : Nat) : Bool :=
  match src with
  | .host _ => false
  | .port i =>
    let e := dest / 8
    dest < 4096 && d.flag Reg.ctEnable && (d.core q).qLen (dest + cls) = 0 && d.reg (Reg.portWidth e) ≤ d.reg (Reg.portWidth i)
      && (0 < (d.port e).credits.getD cls 0 || (cls != 0 && 0 < (d.port e).credits.getD 8 0))

/-- Types that leave the switch again: those that FEID routing, multicast or a GATEWAY port takes (R139, R140). -/
def forwards (p : Packet) : Bool :=
  match p.ptype with
  | .resp | .msg | .jobResult | .reduceResult => true
  | _ => false

/-- The packet is routed by FEID routing or multicast, and so may leave cut-through (R147). -/
def cutType (d : Dev) (p : Packet) : Bool := forwards p && !d.foreign p

/-- SRC_DOMAIN as a GATEWAY port sends it (R128). -/
def outPkt (d : Dev) (p : Packet) (dest : Nat) : Packet :=
  if p.ptype = .msg && dest < 4096 && d.role (dest / 8) = 2 then { p with srcDomain := d.dom.domId } else p

/-- The source is done with the packet: its FIFO bytes, or its send slot (R100, R591). -/
def sourceDone (d : Dev) (src : Ingress) (p : Packet) : Dev :=
  match src with
  | .port _ => d.leaveFifo src p
  | .host h =>
    match Tab.getD (d.host h).taken p.cls [] with
    | [] => d
    | s :: r =>
      let n := match h with | .ha => 0 | .hb => 1
      let d := d.modHost h (fun H => { H with taken := Tab.set H.taken p.cls r [], slots := Tab.del H.slots s })
      d.setReg (Reg.sendBusy n) (setBit (d.reg (Reg.sendBusy n)) s false)

/-- Count copies by the way they leave (R147). -/
def countCut (d : Dev) (cut store : Nat) : Dev :=
  let d := if cut = 0 then d else d.bump Reg.cutThrough cut
  if store = 0 then d else d.bump Reg.storeForward store

/-- Admit a unicast packet, where there is room (R155 to R162). STORE_FORWARD counts packets "forwarded" (R153); whether one that a unit of the
switch takes is forwarded is open: DESIGN CHOICE, it is not, and is counted in neither entry (R147, log 146). -/
def admitOne (d : Dev) (src : Ingress) (p : Packet) (r : Routed) (dest : Nat) : Option Dev :=
  let q := ingressQuad src dest
  let n := p.cells
  let k := dest + p.cls
  match if d.allowed p.comp p.cls q then poolFor d q k p.cls n else none with
  | none => none
  | some pool =>
    let cut := d.cutType p && d.cutOk src q p.cls dest
    let c := d.core q
    let a := c.alloc n pool
    let e : QEnt := { id := c.nextId, pkt := d.outPkt p dest, src := src, cells := a.1, n := n, pool := pool, cut := cut,
                      hmapNo := r.hmapNo, hmap := r.hmap, region := r.region, tick := d.tick }
    let d := (d.coreUsed q (a.2.enqueue k e)).takeAllowance p.comp p.cls q n
    let d := if forwards p then d.countCut cut.toNat (!cut).toNat else d
    some ((d.bump (Reg.fabricIn p.comp) p.wireLen).sourceDone src p)

/-- Place a multicast packet: one descriptor, one reference on each target's queue (R174, R175). Answers none where R174 does not hold. -/
def placeMulticast (d : Dev) (q : Nat) (src : Ingress) (p : Packet) (dests : List Nat) : Option Dev :=
  let n := p.cells
  let c := d.core q
  let free := c.freeShared
  let shared := dests.all (fun t => underThreshold (dtExp d p.cls) (c.qLen (t + p.cls)) n free)
  let pool := if shared then some 0 else if p.cls < 2 && n ≤ c.rsvFree p.cls then some (p.cls + 1) else none
  match if c.mcCells + n ≤ d.reg Reg.mcCellCap && c.descs.length < d.reg Reg.mcDescCap then pool else none with
  | none => none
  | some pool =>
    let a := c.alloc n pool
    let id := c.nextId
    let c := { a.2 with nextId := id + 1, mcCells := c.mcCells + n,
                        descs := Tab.put a.2.descs id { pkt := p, cells := a.1, n := n, pool := pool, ref := dests.length } }
    let cuts := dests.filter (d.cutOk src q p.cls)
    let c := dests.foldl (fun c t =>
      c.enqueue (t + p.cls) { id := c.nextId, pkt := p, src := src, n := n, desc := some id, cut := cuts.contains t, tick := d.tick }) c
    let c := if c.auditing then { c with touched := id :: c.touched } else c
    some (((d.coreUsed q c).countCut cuts.length (dests.length - cuts.length)).bump (Reg.mcAdmitted q))

/-- The targets of a multicast packet by the quadrant that takes its cells: one for a port's. A host's takes the link of each quadrant that
owns a target, as its unicasts do (R22, R138): DESIGN CHOICE, since R22 and R175 name one quadrant for one packet (log 147). -/
def mcParts (src : Ingress) (dests : List Nat) : List (Nat × List Nat) :=
  [0, 1, 2, 3].filterMap (fun q =>
    let mine := dests.filter (fun t => ingressQuad src t = q)
    if mine.isEmpty then none else some (q, mine))

/-- Admit a multicast packet in every quadrant that takes it, or in none (R173, R174). -/
def admitMany (d : Dev) (src : Ingress) (p : Packet) (dests : List Nat) : Option Dev :=
  let parts := mcParts src dests
  if parts.any (fun x => !d.allowed p.comp p.cls x.1) then none
  else
    (parts.foldl (fun (o : Option Dev) x => o.bind (fun d =>
      (d.placeMulticast x.1 src p x.2).map (fun d => d.takeAllowance p.comp p.cls x.1 p.cells))) (some d)).map (fun d =>
        (d.bump (Reg.fabricIn p.comp) p.wireLen).sourceDone src p)

/-- Count the members a multicast packet leaves out, and one with no target, in the ingress quadrant: of a host's packet the quadrant whose link
a copy to the member would take, and Q0 for the packet itself (R173, log 147). -/
def countSkipped (d : Dev) (src : Ingress) (p : Packet) : Dev :=
  let t := d.mcTargets p.dst p.comp (some src.num)
  let d := d.each (t.1.filter (fun m => !t.2.contains m)) (fun d m => d.bump (Reg.mcSkipped (ingressQuad src (memberQueue m))))
  if t.2.isEmpty then d.bump (Reg.mcSkipped (ingressQuad src (memberQueue 0))) else d

/-- The journal entry of a result takes a set of destinations (R389, R390). -/
def setDests (d : Dev) (q : Nat) (pk : Packet) (feids : List Nat) : Dev :=
  let f := fun (e : JEnt) =>
    if e.group = pk.group && e.chunk = pk.chunk then { e with dests := feids.map (fun f => { feid := f }) } else e
  { d with yar := { d.yar with journals := Tab.edit d.yar.journals q (fun l => l.map f) } }

/-- A multicast result of a Yarrow unit enters the buffer of its quadrant, where there is room (R177): its targets, which the journal records, are
those of this moment (R389). One with no target is discarded. -/
def placeResult (d : Dev) (q : Nat) (pk : Packet) : Option Dev :=
  let t := d.mcTargets pk.dst pk.comp none
  let left := t.1.length - t.2.length + (if t.2.isEmpty then 1 else 0)
  (if t.2.isEmpty then some d else d.placeMulticast q (.host .ha) pk (t.2.map memberQueue)).map (fun d =>
    let d := if t.2.isEmpty then
        let gone := fun (e : JEnt) => e.group = pk.group && e.chunk = pk.chunk
        { d with yar := { d.yar with journals := Tab.edit d.yar.journals q (fun l => l.filter (fun e => !gone e)) } }
      else d.setDests q pk (t.2.filterMap d.memberFeid)
    if left = 0 then d else d.bump (Reg.mcSkipped q) left)

/-- Admit a packet that passed the checks, or answer none where it must wait. A multicast packet with no target is discarded. -/
def admitTo (d : Dev) (src : Ingress) (p : Packet) (r : Routed) : Option Dev :=
  if d.isMulti p then
    if r.dests.isEmpty then some ((d.countSkipped src p).sourceDone src p)
    else (d.admitMany src p r.dests).map (fun d => d.countSkipped src p)
  else
    match r.dests with
    | t :: _ => if t = 8192 then some (d.sourceDone src p) else d.admitOne src p r t
    | [] => some (d.sourceDone src p)

/-- A packet with a failing tag: only copies that leave cut-through, without a wait, go on (R149). -/
def tagged (d : Dev) (src : Ingress) (p : Packet) (r : Routed) : Routed × Bool :=
  if p.tagOk || !p.enc then (r, true)
  else
    let cuts := if d.cutType p then r.dests.filter (fun t => d.cutOk src (ingressQuad src t) p.cls t) else []
    ({ r with dests := cuts }, !cuts.isEmpty)

def waitKey (src : Ingress) (cls : Nat) : Nat := src.num * 8 + cls

/-- A packet is held at its ingress port: queue it behind the class's waiters (R161). -/
def hold (d : Dev) (src : Ingress) (p : Packet) (region : Nat) : Dev :=
  { d with waiting := Tab.upd d.waiting (waitKey src p.cls) [] (· ++ [{ pkt := p, region := region }]) }

/-- The host's own FEID (R591). -/
def hostFeid (d : Dev) : HostId → Nat
  | .ha => d.reg Reg.hostFeidHa
  | .hb => d.reg Reg.hostFeidHb

/-- A host without a FEID, whose JOB_POST and MSG packets are discarded (R46). -/
def hostMute (d : Dev) : Ingress → Bool
  | .port _ => false
  | .host h => d.hostFeid h = 0xFFFF

/-- The packet passed checks 1 to 6: its tag, then admission or a wait (R149, R161). One with a failing tag never waits. -/
def passOn (d : Dev) (src : Ingress) (p : Packet) (r : Routed) : Dev :=
  let d := d.countRx src p
  let t := d.tagged src p r
  let sound := p.tagOk || !p.enc
  let d := if sound then d else d.bump Reg.tagFails
  let busy := Tab.has d.waiting (waitKey src p.cls) || (p.cls = 2 && d.isWithheld src.num)
  match if busy || !t.2 then none else d.admitTo src p t.1 with
  | some d => d
  | none => if sound then d.hold src p r.region else d.sourceDone src p

/-- A CTRL packet of an endpoint or host passed its checks: its tag, then its act (R131, R132, R149). -/
def takeCtrl (d : Dev) (src : Ingress) (p : Packet) (act : Dev → Dev) : Dev :=
  let d := (d.countRx src p).sourceDone src p
  if p.tagOk || !p.enc then act d else d.bump Reg.tagFails

/-- A packet has arrived whole: a host's has the host's FEID as its source (R46, R591), then the checks, then what passes, or an answer or a
discard (R151, R152). -/
def arrive (d : Dev) (src : Ingress) (p : Packet) (pass : Packet → Routed → Dev → Dev) : Dev :=
  let out := match src with | .port n => d.outsider n | .host _ => false
  let live := match src with | .port n => d.isActive n | .host _ => true
  let keepDomain := match src with | .port n => decide (d.role n = 2) | .host _ => false
  let p := match src with | .port _ => p | .host h => { p with src := d.hostFeid h % 4096 }
  if !live then d
  else if out && p.cls = 7 then (d.sourceDone src p).bump Reg.framingDrops
  else if (p.ptype = .jobPost || p.ptype = .msg) && d.hostMute src then
    (d.sourceDone src p).event 4 { code := Ev.hostDiscard, unit := src.num - 384, comp := p.comp }
  else
    let p := if p.ptype = .msg && !keepDomain then { p with srcDomain := 0xFFFF } else p
    match d.checks src p with
    | (.fail s, d) => (d.sourceDone src p).failPacket src p s
    | (.silent, d) => d.sourceDone src p
    | (.go r, d) => pass p r d

/-- A packet that the switch core takes in (R151, R161). -/
def ingest (d : Dev) (src : Ingress) (p : Packet) : Dev := d.arrive src p (fun p r d => d.passOn src p r)

/-- A CTRL packet of an endpoint or host (R131, R132, R151). -/
def ctrlIn (d : Dev) (src : Ingress) (p : Packet) (act : Packet → Dev → Dev) : Dev :=
  d.arrive src p (fun p _ d => d.takeCtrl src p (act p))

/-- The core cycle of a tick, counted from tick 0 (R10). -/
def coreCycle (d : Dev) (cycle : Nat) : Nat := d.tick * 7500 + cycle % 7500

/-- The interval P of an ingress has not passed since its last CLS2 packet under withholding (R180). -/
def paceHolds (d : Dev) (ing now : Nat) : Bool :=
  d.isWithheld ing && (match Tab.look d.paced ing with | some t => decide (now < t + d.holdOf ing) | none => false)

/-- A CLS2 packet under withholding has been admitted (R180). -/
def notePace (d : Dev) (ing now : Nat) : Dev := if d.isWithheld ing then { d with paced := Tab.put d.paced ing now } else d

/-- The head of a class at an ingress is routed again and retested in a core cycle of the tick (R161, R180). -/
def retest (d : Dev) (src : Ingress) (cls cycle : Nat) : Dev :=
  match Tab.look d.waiting (waitKey src cls) with
  | some (w :: rest) =>
    let p := w.pkt
    let now := d.coreCycle cycle
    let out := { d with waiting := Tab.set d.waiting (waitKey src cls) rest [] }
    match d.route src p with
    | .go r =>
      if cls = 2 && d.paceHolds src.num now then d
      else
        match out.admitTo src p { r with region := w.region } with
        | some d => if cls = 2 then d.notePace src.num now else d
        | none => d
    | .fail _ => ((if d.wrongPlane p then out.bump Reg.wrongPlane else out).sourceDone src p).failPacket src p St.unmapped
    | .silent => out.sourceDone src p
  | _ => d

end Dev

/-- WRITE (R139). -/
def execWrite (src : Ingress) (p : Packet) (s : State) : Ans := onDev (fun d => d.ingest src { p with ptype := .write }) s
/-- WRITE_POSTED (R139). -/
def execWritePosted (src : Ingress) (p : Packet) (s : State) : Ans := onDev (fun d => d.ingest src { p with ptype := .writePosted }) s
/-- READ (R139). -/
def execRead (src : Ingress) (p : Packet) (s : State) : Ans := onDev (fun d => d.ingest src { p with ptype := .read }) s
/-- ATOMIC (R139). -/
def execAtomic (src : Ingress) (p : Packet) (s : State) : Ans := onDev (fun d => d.ingest src { p with ptype := .atomic }) s
/-- MSG (R139). -/
def execMsg (src : Ingress) (p : Packet) (s : State) : Ans := onDev (fun d => d.ingest src { p with ptype := .msg }) s
/-- JOB_POST (R139). -/
def execJobPost (src : Ingress) (p : Packet) (s : State) : Ans := onDev (fun d => d.ingest src { p with ptype := .jobPost }) s
/-- JOB_RESULT (R140). -/
def execJobResult (src : Ingress) (p : Packet) (s : State) : Ans := onDev (fun d => d.ingest src { p with ptype := .jobResult }) s
/-- REDUCE_CONTRIB (R139). -/
def execReduceContrib (src : Ingress) (p : Packet) (s : State) : Ans := onDev (fun d => d.ingest src { p with ptype := .reduceContrib }) s
/-- REDUCE_RESULT (R139). -/
def execReduceResult (src : Ingress) (p : Packet) (s : State) : Ans := onDev (fun d => d.ingest src { p with ptype := .reduceResult }) s
/-- PACKET_ADMIT (R161): the head of a class at an ingress is retested. -/
def execPacketAdmit (src : Ingress) (turn : ClassTurn) (s : State) : Ans := onDev (fun d => d.retest src turn.cls turn.cycle) s

end Sys2Proof.Machine
end

