-- ==== Sys2Proof/Machine/Units.lean ====
section
/-! DEFINITION. What ends or is released in the units when a fence, a failure, a cancel or a release reaches them: staging slots (R241 to
R250), page faults (R284), quanta and jobs (R321, R322, R337 to R339, R419 to R422), and Yarrow instances (R390, R393). -/

namespace Sys2Proof.Machine

namespace Dev

def modTiers (d : Dev) (f : Tiers → Tiers) : Dev := { d with tiers := f d.tiers }
def modTrans (d : Dev) (f : Trans → Trans) : Dev := { d with trans := f d.trans }
def modJobs (d : Dev) (f : Jobs → Jobs) : Dev := { d with jobs := f d.jobs }
def modYar (d : Dev) (f : Yarrow → Yarrow) : Dev := { d with yar := f d.yar }
def modJob (d : Dev) (k : Nat) (f : Job → Job) : Dev := d.modJobs (fun J => { J with recs := Tab.edit J.recs k f })
def modNode (d : Dev) (k i : Nat) (f : NodeRt → NodeRt) : Dev :=
  d.modJob k (fun j => { j with nodes := setAt j.nodes i (f (j.nodes.getD i {})) })
def job (d : Dev) (k : Nat) : Option Job := Tab.look d.jobs.recs k

/-! ### The staging pool (R241 to R250) -/

/-- Window offset of a slot. -/
def slotAddr (d : Dev) (s : Nat) : Nat := d.tiers.poolBase + s * 2 ^ 21

/-- The slot that holds a pair (R243). -/
def slotOf (d : Dev) (comp unit : Nat) : Option (Nat × StageSlot) :=
  d.tiers.slots.find? (fun kv => kv.2.comp = comp && kv.2.unit = unit && !kv.2.gone)

/-- The slot that a STAGED operand names: that of the pair, else one whose stack has failed with the pair's copy in it (R245, R502). -/
def slotNamed (d : Dev) (comp unit : Nat) : Option (Nat × StageSlot) :=
  (d.slotOf comp unit).orElse (fun _ => d.tiers.slots.find? (fun kv => kv.2.comp = comp && kv.2.unit = unit))

/-- Slots a composition holds. -/
def slotsHeld (d : Dev) (comp : Nat) : Nat := Tab.count d.tiers.slots (fun _ s => s.comp = comp && !s.gone)

/-- Every block of a tier P unit has this switch as its home plane (R227, R244). -/
def unitHomeHere (d : Dev) (unit : Nat) : Bool :=
  match d.hmapFor (unit * 2 ^ 21) with
  | none => false
  | some (_, e) => (List.range 512).all (fun b => d.ownId = some (homePlane e (d.hmapK e) (unit * 2 ^ 21 + 4096 * b)))

/-- A fill of a slot begins (R244). The READs of a unit that no entry covers, or whose home plane is another switch, fail with ERR_UNMAPPED,
and only those of another plane count there (R145, R227). -/
def startFill (d : Dev) (s : Nat) : Dev :=
  match Tab.look d.tiers.slots s with
  | none => d
  | some x =>
    let here := d.unitHomeHere x.unit
    let x := { x with state := if here then 1 else 3, filled := 0, retried := 0, read := none, answer := none,
                      status := if here then 0 else St.unmapped, refresh := false, lastUse := d.tick }
    let d := if here || (d.hmapFor (x.unit * 2 ^ 21)).isNone then d else d.bump Reg.wrongPlane
    d.modTiers (fun T => { T with slots := Tab.put T.slots s x })

/-- A slot lies in a working stack; those of a failed one have left the pool (R502). -/
def slotInPool (d : Dev) (s : Nat) : Bool := bit (d.reg Reg.svcStacks) (stackAt (d.slotAddr s))

/-- The lowest FREE slot (R244). -/
def freeSlot (d : Dev) : Option Nat := (List.range d.tiers.poolSlots).find? (fun s => !Tab.has d.tiers.slots s && d.slotInPool s)

/-- The slot R247 evicts. -/
def evictable (d : Dev) : Option Nat :=
  (minBy (fun kv : Nat × StageSlot => kv.2.lastUse) (d.tiers.slots.filter (fun kv =>
    let x := kv.2
    (x.state = 2 || x.state = 3) && x.pins.isEmpty && !x.gone && (decide (x.deadline + 16 ≤ d.tick) || x.used)
      && decide (d.reg (Reg.stageFloor x.comp) < d.slotsHeld x.comp)))).map Prod.fst

/-- A slot becomes FREE. -/
def dropSlot (d : Dev) (s : Nat) : Dev := d.modTiers (fun T => { T with slots := Tab.del T.slots s })

/-- Give a unit a slot, a FREE or an evicted one, and begin its fill; none where it must wait. A pair that a slot holds by now uses that slot
(R243, R244, R247). -/
def giveSlot (d : Dev) (comp unit deadline : Nat) : Option Dev :=
  let fresh : StageSlot := { comp := comp, unit := unit, deadline := deadline }
  match d.slotOf comp unit with
  | some (s, x) => some (d.modTiers (fun T => { T with slots := Tab.put T.slots s { x with deadline := min x.deadline deadline } }))
  | none =>
  match d.freeSlot with
  | some s => some ((d.modTiers (fun T => { T with slots := Tab.put T.slots s fresh })).startFill s)
  | none =>
    match d.evictable with
    | some s =>
      let old := ((Tab.look d.tiers.slots s).map (·.comp)).getD 0
      let d := d.bump (Reg.stageEvicted old)
      some ((d.modTiers (fun T => { T with slots := Tab.put T.slots s fresh })).startFill s)
    | none => none

/-- A slot release: the units that wait are tested again, oldest first (R247). -/
def retestWaits (d : Dev) : Dev :=
  let ws := d.tiers.waits
  ws.foldl (fun d w =>
    match d.giveSlot w.1 w.2.1 w.2.2 with
    | some d => d
    | none => d.modTiers (fun T => { T with waits := T.waits ++ [w] })) (d.modTiers (fun T => { T with waits := [] }))

/-- Stage one unit of a request (R244). -/
def stageUnit (d : Dev) (comp unit deadline : Nat) (refresh : Bool) : Dev :=
  match d.slotOf comp unit with
  | some (s, x) =>
    let d := d.modTiers (fun T => { T with slots := Tab.put T.slots s { x with deadline := min x.deadline deadline } })
    if x.state = 3 then (d.modTiers (fun T => { T with slots := Tab.edit T.slots s (fun x => { x with deadline := deadline }) })).startFill s
    else if x.state = 2 && refresh then
      if x.pins.isEmpty then d.startFill s
      else d.modTiers (fun T => { T with slots := Tab.edit T.slots s (fun x => { x with refresh := true }) })
    else d
  | none =>
    match d.giveSlot comp unit deadline with
    | some d => d
    | none => (d.modTiers (fun T => { T with waits := T.waits ++ [(comp, unit, deadline)] })).bump Reg.stageWaits

/-- Units of a request that are READY. -/
def readyUnits (d : Dev) (r : StageReq) : Nat :=
  ((List.range r.count).filter (fun i => (d.slotOf r.comp (r.first + i)).any (fun s => s.2.state = 2))).length

/-- A staging report, LATE 1 or COMPLETE 2, with REQ_ID and the units READY (R249; the bytes are the model's, log 7). -/
def stageReport (kind : Nat) (r : StageReq) (ready : Nat) : Out := .report (leBytes 1 kind ++ leBytes 8 r.reqId ++ leBytes 2 ready)

/-- Requests all of whose units are READY report COMPLETE (R249). -/
def stageComplete (d : Dev) : Dev :=
  let now := d.tiers.reqs.filter (fun r => !r.complete && d.readyUnits r = r.count)
  (d.modTiers (fun T => { T with reqs := T.reqs.map (fun r => if now.contains r then { r with complete := true } else r) })).emits
    (now.map (fun r => stageReport 2 r r.count))

/-- Tier H measure of a composition in 2 MiB units (R563). -/
def tierhMeasure (d : Dev) (c : Nat) : Nat :=
  (d.regionsActive.filter (fun r =>
    Region.state r.2 = 1 && Region.comp r.2 = c && d.inWindow (Region.base r.2 * 2 ^ 21))).foldl (fun n r => n + 2 ^ Region.size r.2) 0
    + d.slotsHeld c

/-- New slots a list of staging descriptors would take. -/
def newSlots (d : Dev) (comp : Nat) (sds : List Bytes) : Nat :=
  ((sds.flatMap (fun s => (List.range (SD.npages s)).map (SD.srcDa s / 2 ^ 21 + ·))).eraseDups.filter (fun u =>
    (d.slotOf comp u).isNone)).length

/-- The new slots fit the composition's quota (R246). -/
def stageFits (d : Dev) (comp : Nat) (sds : List Bytes) : Bool :=
  decide (d.tierhMeasure comp + d.newSlots comp sds ≤ d.tierhQuota comp) || d.newSlots comp sds = 0

/-- Issue a staging request (R242, R244). -/
def stageRequest (d : Dev) (comp owner : Nat) (sd : Bytes) : Dev :=
  let first := SD.srcDa sd / 2 ^ 21
  let d := d.each (List.range (SD.npages sd)) (fun d i => d.stageUnit comp (first + i) (SD.deadline sd) (SD.refresh sd))
  (d.modTiers (fun T => { T with reqs := T.reqs ++
    [{ comp := comp, reqId := SD.reqId sd, first := first, count := SD.npages sd, deadline := SD.deadline sd, owner := owner }] })).stageComplete

/-- The quantum of a unit lets go of the slots that it pinned at its start; a slot that went to another pair since holds no pin of it (R247,
R248). -/
def unpin (d : Dev) (u : Nat) (slots : List Nat) : Dev :=
  let t := d.tick
  let d := d.each slots (fun d s =>
    match (Tab.look d.tiers.slots s).filter (fun x => x.pins.contains u) with
    | some x =>
      let x := { x with pins := x.pins.filter (· != u), lastUse := t, used := true }
      let d := d.modTiers (fun T => { T with slots := Tab.put T.slots s x })
      if x.pins.isEmpty && x.refresh && !x.gone then d.startFill s else d
    | none => d)
  if slots.isEmpty then d else d.retestWaits

/-! ### Page faults (R284) -/

/-- Withdraw the accesses of some units from outstanding faults; a fault left with none is withdrawn. -/
def withdrawFaults (d : Dev) (units : List Nat) : Dev :=
  d.modTrans (fun T => { T with faults := (T.faults.map (fun f =>
    { f with accs := f.accs.filter (fun a => !units.contains a.unit) })).filter (fun f => !f.accs.isEmpty) })

/-! ### Quanta -/

/-- Units that hold quanta of a job. -/
def unitsOfJob (d : Dev) (k : Nat) : List Nat :=
  (d.jobs.running.filter (fun kv => kv.2.quad * 256 + kv.2.job = k)).map Prod.fst

/-- Walks of a quadrant change; the first 16 run, and those that come to run start and count (R273, R290). -/
def setWalks (d : Dev) (q : Nat) (ws : List PageWalk) : Dev :=
  let started := ((ws.take 16).filter (fun w => !w.running)).length
  let ws := (ws.take 16).map (fun w => { w with running := true }) ++ ws.drop 16
  let d := d.modTrans (fun T => { T with walks := Tab.set T.walks q ws [] })
  if started = 0 then d else d.bump Reg.walks started

/-! ### Scratch (R255, R256) -/

/-- Scratch units 0 to 30 of a tile that no quantum holds. -/
def freeScratch (d : Dev) (t : Nat) : List Nat :=
  (List.range 31).filter (fun u => ((Tab.look d.tiers.scratch (t * 32 + u)).bind (·.holder)).isNone)

/-- A quantum of a unit takes scratch units of a tile: each is zeroed where another composition held it last (R255, R256). -/
def takeScratch (d : Dev) (t comp holder : Nat) (us : List Nat) : Dev :=
  d.modTiers (fun T => { T with scratch := us.foldl (fun S u =>
    let old := Tab.getD S (t * 32 + u) { comp := comp }
    Tab.put S (t * 32 + u) { comp := comp, holder := some holder, fill := if old.comp = comp then old.fill else none }) T.scratch })

/-- The scratch units of a quantum go back at its end, with what it left in them: unit `u` holds bytes 65,536 × `u` on of a free value
(R255, log 154). -/
def returnScratch (d : Dev) (holder : Nat) : Dev :=
  let n := d.freeCtr
  let d := d.fresh.2
  d.modTiers (fun T => { T with scratch := Tab.mapV T.scratch (fun _ (x : ScratchUnit) =>
    if x.holder = some holder then { x with holder := none, fill := some n } else x) })

/-- The scratch of a tile is zeroed (R256, R506). -/
def clearScratch (d : Dev) (t : Nat) : Dev := d.modTiers (fun T => { T with scratch := Tab.keep T.scratch (fun k _ => k / 32 != t) })

/-- Units that a STAGED operand names: those of its bytes, and for a CODED one those that have a slot among the units its stream may reach on
to (R245, R320, log 181). -/
def namedUnits (d : Dev) (comp : Nat) (p : Bytes) (i k : Nat) : List Nat :=
  let sure := JD.stagedUnits p i k
  sure ++ ((JD.unitsOver p i k (JD.mostLen p i k)).drop sure.length).filter (fun u => (d.slotNamed comp u).isSome)

/-- STAGED units of a quantum's node. -/
def quantumStaged (d : Dev) (x : Quantum) : List Nat :=
  match d.job (x.quad * 256 + x.job) with
  | none => []
  | some j => (JD.stagedOpnds j.pkt.payload x.node).flatMap (d.namedUnits j.pkt.comp j.pkt.payload x.node)

/-- A quantum's time parked enters its job's PARK_US (R322). -/
def parkDone (d : Dev) (x : Quantum) : Dev :=
  if x.parked then d.modJob (x.quad * 256 + x.job) (fun j => { j with parkUs := j.parkUs + 5 * (d.tick - x.parkTick) }) else d

/-- A quantum leaves its unit, with its accesses, its scratch and its pins. -/
def dropQuantum (d : Dev) (u : Nat) : Dev :=
  match Tab.look d.jobs.running u with
  | none => d
  | some x =>
    let d := d.parkDone x
    let d := d.modJobs (fun J => { J with running := Tab.del J.running u })
    let d := { d with coh := { d.coh with waits := Tab.del d.coh.waits u } }
    let d := d.modTrans (fun T => { T with draining := T.draining.map (fun l => l.filter (· != u)) })
    let d := d.each d.trans.walks (fun d kv => d.setWalks kv.1 ((kv.2.map (fun (w : PageWalk) =>
      { w with accs := w.accs.filter (fun a => a.unit != u) })).filter (fun w => !w.accs.isEmpty)))
    ((d.returnScratch u).withdrawFaults [u]).unpin u x.pinned

/-! ### Jobs: outputs, ending, summary -/

/-- Send a JOB_CANCEL of this switch on the plane ports (R418); like every CTRL packet a switch originates it carries COMP 0 (R548). -/
def sendCancel (d : Dev) (workId reply op toSw : Nat) : Dev :=
  let m : CancelMsg := { workId := workId, op := op, sw := d.dom.swId, replyFeid := reply, toSw := toSw }
  let id := (m.sw, m.op, m.workId)
  (d.modJobs (fun J => { J with seen := J.seen.filter (· != id) ++ [id] })).flood none (d.ctrl 0x06 5 m.bytes)

/-- The claim table entry of a job's key (R417, R420). -/
def claimOf (d : Dev) (comp reply work : Nat) : Option Claim :=
  d.jobs.claims.find? (fun c => c.comp = comp && c.reply = reply && c.work = work)

/-- Change the claim entry of a key. -/
def setClaim (d : Dev) (comp reply work : Nat) (f : Claim → Claim) : Dev :=
  d.modJobs (fun J => { J with claims := J.claims.map (fun c =>
    if c.comp = comp && c.reply = reply && c.work = work then f c else c) })

/-- A primary's output reaches the arbiter: its first one decides a WAITING key, and a REMOTE key takes the output away (R420, R421).
Answers whether the output may leave. -/
def arbitrate (d : Dev) (j : Job) : Bool × Dev :=
  if j.backup != 0 || j.output then (true, d)
  else
    match d.claimOf j.pkt.comp j.reply j.pkt.workId with
    | none => (true, d)
    | some c =>
      if c.st = 3 then (false, d)
      else if c.st = 1 then
        let d := d.setClaim c.comp c.reply c.work (fun c => { c with st := 2, tick := d.tick })
        (true, (d.sendCancel c.work c.reply 0 c.peer).bump Reg.cancelsSent)
      else (true, d)

/-- A JOB_RESULT of a job (R129). -/
def resultOf (j : Job) (quad node part status : Nat) (final : Bool) (data : Bytes) : Packet :=
  { ptype := .jobResult, cls := 5, dst := j.reply, comp := j.pkt.comp, tag := j.pkt.tag, reqEpoch := j.pkt.reqEpoch, status := status,
    workId := j.pkt.workId, quad := quad, node := node, part := part, final := final, payload := data }

/-- Hand out an output of a job: sent, held while a backup waits for its answer, or lost with the arbitration (R419 to R422). -/
def jobOutput (d : Dev) (k : Nat) (pk : Packet) : Dev :=
  match d.job k with
  | none => d
  | some j =>
    match j.backup with
    | 1 =>
      let d := d.modJob k (fun j => { j with backup := 2, claimTick := d.tick, output := true, held := [pk] })
      d.sendCancel j.pkt.workId j.reply 2 j.primarySw
    | 2 => d.modJob k (fun j => { j with held := j.held ++ [pk] })
    | _ =>
      let r := d.arbitrate j
      let d := r.2.modJob k (fun j => { j with output := true })
      if r.1 then d.sendKeyed pk
      else d.modJob k (fun j => { j with ending := some (j.ending.getD (St.cancelled, 0xFF)) })

/-- The summary payload (R322, R416). -/
def summaryBytes (d : Dev) (j : Job) (failNode : Nat) : Bytes :=
  leBytes 1 failNode ++ leBytes 1 j.halvings ++ leBytes 2 0 ++ leBytes 4 j.quanta ++ leBytes 4 j.lateTicks ++ leBytes 4 j.parkUs
    ++ leBytes 8 j.admitTick ++ leBytes 8 d.tick ++ JD.user j.pkt.payload
    ++ (if JD.policy j.pkt.payload = 1 then leBytes 8 j.shadowNodes ++ leBytes 4 j.shadowOps ++ leBytes 4 0 else [])

/-! ### Library banks (R344, R347) -/

/-- Place of a library bank in the quadrant's system area, in every quadrant alike (R231, R344): none while the quadrant has no working stack. -/
def bankAddr (d : Dev) (q b : Nat) : Option Nat := d.sysAddr q (SysArea.bank b)

def bankOf (d : Dev) (b : Nat) : LibBank := if b = 1 then d.jobs.bankA else d.jobs.bankB

/-- Put a bank, and report both (R348). -/
def setBank (d : Dev) (b : Nat) (x : LibBank) : Dev :=
  let d := d.modJobs (fun J => if b = 1 then { J with bankA := x } else { J with bankB := x })
  d.setReg Reg.libBanks (d.jobs.bankA.state + 4 * d.jobs.bankB.state)

/-- The edge after the tick of an activation has come (R347). -/
def libSwitch (d : Dev) : Dev :=
  match if d.jobs.activateTick < d.tick then d.jobs.activate else none with
  | none => d
  | some b =>
    let o := 3 - b
    let old := d.bankOf o
    let used := (Tab.vals d.jobs.recs).any (fun j => j.bank = o)
    let d := if old.state = 2 then d.setBank o { old with state := if used then 3 else 1 } else d
    let d := d.setBank b { d.bankOf b with state := 2 }
    (d.modJobs (fun J => { J with activate := none })).setReg Reg.libVersionCur (d.bankOf b).version

/-- A job record is freed: its staging requests, its table buffer, and a DRAINING bank without jobs (R347, R464). -/
def freeJob (d : Dev) (k : Nat) : Dev :=
  let d := d.modJobs (fun J => { J with recs := Tab.del J.recs k, tableBuf := Tab.keep J.tableBuf (fun _ h => h / 256 != k) })
  let d := d.modTiers (fun T => { T with reqs := T.reqs.filter (fun r => r.owner != k) })
  let used := fun b => (Tab.vals d.jobs.recs).any (fun j => j.bank = b)
  let settle := fun b (L : LibBank) => if L.state = 3 && !used b then { L with state := 1 } else L
  let d := d.modJobs (fun J => { J with bankA := settle 1 J.bankA, bankB := settle 2 J.bankB })
  d.setReg Reg.libBanks (d.jobs.bankA.state + 4 * d.jobs.bankB.state)

/-- A job with no quantum left ends with its summary, which may be the first output of a primary, and leaves as a loser's where the arbiter takes
it away (R322, R337, R420, R422). -/
def finishJob (d : Dev) (k : Nat) : Dev :=
  match d.job k with
  | none => d
  | some j =>
    let e := j.ending.getD (0, 0xFF)
    let r := d.arbitrate j
    let d := r.2
    let status := if r.1 then e.1 else St.cancelled
    let d := if status = 0 then d else d.bump (Reg.jobsFailed (k / 256))
    let pk := resultOf j (k / 256) 0xFF 0 status true (d.summaryBytes j e.2)
    if j.backup = 0 || j.backup = 3 then (d.sendKeyed pk).freeJob k
    else d.jobOutput k pk

/-- The summary of a job is held until its answer. -/
def summarized (j : Job) : Bool := j.held.any (·.final)

/-- A quantum of a job has left its unit: a job that is ending ends with its last one (R337). -/
def quantumGone (d : Dev) (k : Nat) : Dev :=
  match d.job k with
  | none => d
  | some j => if j.ending.isSome && (d.unitsOfJob k).isEmpty && !summarized j then d.finishJob k else d

/-- A job ends: no further quantum starts, its running ones finish without their parts. The first cause stays, but that of a job whose summary is
still held, and that of a backup which loses (R338, R419, R422). A cancel or a fence withdraws its page faults and ends its parked quanta, and
what a backup holds is not sent, the contributions of its quanta neither (R284, R337 to R339, R419, R422). -/
def endJob (d : Dev) (k status node : Nat) : Dev :=
  match d.job k with
  | none => d
  | some j =>
    let pull := decide (status = St.cancelled ∨ status = St.fenced)
    let waits := decide (j.backup = 1 ∨ j.backup = 2)
    let anew := summarized j || (waits && decide (status = St.cancelled))
    let d := d.modJob k (fun j => { j with ending := if j.ending.isSome && !anew then j.ending else some (status, node),
                                           held := j.held.filter (fun pk => !pk.final && !pull) })
    let d := if pull then d.modJob k (fun j => { j with backup := if j.backup = 0 then 0 else 3 }) else d
    let d :=
      if pull then
        let us := d.unitsOfJob k
        let d := d.withdrawFaults us
        let idle := fun (x : Quantum) => x.parked || (waits && !x.contribs.isEmpty)
        d.each (us.filter (fun u => (Tab.look d.jobs.running u).any idle)) (fun d u => d.dropQuantum u)
      else d
    match d.job k with
    | some j => if (d.unitsOfJob k).isEmpty && !summarized j then d.finishJob k else d
    | none => d

/-- The notice of a node that completes or fails (R322); a notice is no output of R419. -/
def noteNode (d : Dev) (k node status : Nat) : Dev :=
  match d.job k with
  | some j => if JD.notice j.pkt.payload then d.sendKeyed (resultOf j (k / 256) node 0xFFFF status false []) else d
  | none => d

/-- A node fails, and with it the job, where nothing has ended the job before (R322, R337). -/
def failNode (d : Dev) (k node status : Nat) : Dev :=
  let first := (d.job k).any (fun j => (j.nodes.getD node {}).st != 3)
  let d := d.modNode k node (fun n => { n with st := 3 })
  (if first then d.noteNode k node status else d).endJob k status node

/-- The quantum of a unit fails with a status (R337). -/
def failQuantum (d : Dev) (u status : Nat) : Dev :=
  match Tab.look d.jobs.running u with
  | none => d
  | some x => (d.dropQuantum u).failNode (x.quad * 256 + x.job) x.node status

/-! ### Yarrow (R390, R393) -/

def regEnt (d : Dev) (g : Nat) : Option RegEnt := Tab.look d.yar.registry g
def setEnt (d : Dev) (g : Nat) (e : RegEnt) : Dev := d.modYar (fun Y => { Y with registry := Tab.put Y.registry g e })
def shown (d : Dev) (g : Nat) : GroupShow := Tab.getD d.yar.shows g {}
def setShown (d : Dev) (g : Nat) (s : GroupShow) : Dev := d.modYar (fun Y => { Y with shows := Tab.set Y.shows g s {} })

/-- What tells one REGISTRY packet from another. -/
def registryId (src : Nat) (m : RegistryMsg) : List Nat := [src, m.op, m.reason, m.groupId, m.part, m.tick, leNat (m.body.take 2)]

/-- Note a REGISTRY packet as forwarded in this tick. -/
def noteRegistry (d : Dev) (src : Nat) (m : RegistryMsg) : Dev :=
  let t := d.tick
  d.modYar (fun Y => { Y with seen := Y.seen.filter (fun k => t ≤ k.headD 0 + 1) ++ [t :: registryId src m] })

/-- Send a REGISTRY packet of this switch on the plane ports. -/
def sendRegistry (d : Dev) (m : RegistryMsg) : Dev := (d.noteRegistry d.dom.swId m).flood none (d.ctrl 0x04 5 m.bytes)

/-- The outcome of a command reaches the switch that took it. -/
def outcome (d : Dev) (g state reason : Nat) : Dev :=
  let s := d.shown g
  if !s.asked then d else d.setShown g { s with state := state, refusal := if reason = 0 then s.refusal else reason, asked := false }

/-- A REMOVE is announced for a tick: a pending registration ends REFUSED with its reason (R376, R378). -/
def removeAt (d : Dev) (g tick reason : Nat) : Dev :=
  let d := d.modYar (fun Y => { Y with parts := Tab.keep Y.parts (fun k _ => k % 65536 != g),
                                       registry := Tab.edit Y.registry g (fun e => { e with phase := 3, tick := tick }),
                                       insts := Tab.edit Y.insts g (fun x => { x with removeAt := some tick }) })
  if (d.shown g).state = 1 then d.outcome g 3 reason
  else if (d.shown g).state = 0 && !(d.shown g).asked then d
  else d.setShown g { d.shown g with state := 4, asked := false }

/-- An instance failed: the master is told, or, being this switch, removes the group domain-wide as for a commanded REMOVE (R393). -/
def reportInst (d : Dev) (g : Nat) : Dev :=
  if d.isMaster then
    let t := d.tick + 4
    if (d.regEnt g).any (fun (e : RegEnt) => e.phase != 3) then (d.sendRegistry { op := 2, groupId := g, tick := t }).removeAt g t 0 else d
  else
    let m : RegistryMsg := { op := 2, reason := 7, groupId := g, tick := 0 }
    d.flood none (d.ctrl 0x04 5 m.bytes)

/-- Free the journal entries of a group. -/
def freeJournal (d : Dev) (g : Nat) : Dev :=
  d.modYar (fun Y => { Y with journals := Tab.mapV Y.journals (fun _ l => l.filter (fun e => e.group != g)) })

/-- An instance enters FAILED: its chunks are discarded and the failure is reported (R393). -/
def failInst (d : Dev) (g : Nat) : Dev :=
  match Tab.look d.yar.insts g with
  | none => d
  | some i =>
    if i.state = 5 then d
    else (d.modYar (fun Y => { Y with insts := Tab.put Y.insts g { i with state := 5, chunks := [], complete := [] } })).reportInst g

end Dev

end Sys2Proof.Machine
end

