-- ==== Sys2Proof/Machine/Fence.lean ====
section
/-! DEFINITION. Fencing of compositions (R507 to R509, R661) and RECOVERY notices (R508). -/

namespace Sys2Proof.Machine

/-- What identifies a RECOVERY packet (R508). -/
def recoveryId (m : RecoveryMsg) : List Nat := [9, m.sw, m.op, m.tick, m.comp, m.id]

namespace Dev

/-- Send a RECOVERY of this switch on every plane port, where it has a place in a domain (R508). -/
def sendRecovery (d : Dev) (m : RecoveryMsg) : Dev :=
  if d.ownId.isNone then d
  else
    let m := { m with tick := d.tick, sw := d.dom.swId }
    (d.modDom (fun D => { D with seenNotices := D.seenNotices ++ [recoveryId m] })).flood none (d.ctrl 0x09 5 m.bytes)

/-- Forward a notice not yet seen on the other plane ports (R508). Answers whether this switch acts on it. -/
def takeNotice (d : Dev) (port : Nat) (id : List Nat) (pk : Packet) : Bool × Dev :=
  if d.dom.seenNotices.contains id then (false, d)
  else (true, (d.modDom (fun D => { D with seenNotices := D.seenNotices ++ [id] })).flood (some port) pk)

/-- What a fence does to a composition's jobs, staging slots, instances and page faults (R507). -/
def fenceParts (d : Dev) (c : Nat) : Dev :=
  let d := d.each ((d.jobs.recs.filter (fun kv => kv.2.pkt.comp = c)).map Prod.fst) (fun d k => d.endJob k St.fenced 0xFF)
  let d := d.modTiers (fun T => { T with slots := Tab.keep T.slots (fun _ s => s.gone || s.comp != c),
                                         waits := T.waits.filter (fun w => w.1 != c), reqs := T.reqs.filter (fun r => r.comp != c) })
  let d := d.modTrans (fun T => { T with faults := T.faults.filter (fun f => f.comp != c) })
  let d := d.each ((d.yar.insts.filter (fun kv => GD.comp kv.2.desc = c)).map Prod.fst) (fun d g => (d.failInst g).freeJournal g)
  d.retestWaits

/-- The switch fences a composition: for a cause, from an origin switch, on own evidence or a notice (R507, R508, R661). A composition
already fenced stays so. -/
def fence (d : Dev) (c code origin : Nat) (notice : Bool) : Dev :=
  if d.fenced c then d
  else
    let t := d.tick
    let d := (((d.setReg Reg.fenced (setBit (d.reg Reg.fenced) c true)).setReg (Reg.fenceReason c) code).setReg (Reg.fenceTick c) t).bump
      Reg.fences
    let d := d.event 4 { code := Ev.compFenced, status := St.fenced, comp := c,
                         detail := leBytes 2 code ++ leBytes 1 origin ++ leBytes 1 notice.toNat }
    let d := if notice then d else d.sendRecovery { op := 1, comp := c, reason := code }
    d.fenceParts c

/-- Fence on own evidence every composition that a test picks. -/
def fenceOwn (d : Dev) (code : Nat) (p : Nat → Bool) : Dev :=
  d.each ((List.range 64).filter p) (fun d c => d.fence c code d.dom.swId false)

/-- Compositions of the active Home Map entries that satisfy a test. -/
def compsOfHmap (d : Dev) (p : Nat → Bool) : List Nat :=
  (d.hmapActive.filter (fun e => HMap.state e.2 != 0 && p e.2)).map (fun e => HMap.comp e.2)

/-- Compositions with a VALID region that overlaps a range of this switch's window. -/
def compsOfWindow (d : Dev) (off len : Nat) : List Nat :=
  let b := windowBase d.dom.swId + off
  (d.regionsActive.filter (fun r =>
    Region.state r.2 = 1 && decide (Region.base r.2 * 2 ^ 21 < b + len) && decide (b < (Region.base r.2 + 2 ^ Region.size r.2) * 2 ^ 21))).map
    (fun r => Region.comp r.2)

/-- A RECOVERY FENCE arrives on a plane port (R508). -/
def recoveryFence (d : Dev) (port : Nat) (m : RecoveryMsg) : Dev :=
  if d.ownId.isNone || d.role port != 1 || !d.isActive port || 63 < m.comp then d.ctrlDrop port
  else
    let r := d.takeNotice port (recoveryId m) { d.ctrl 0x09 5 m.bytes with srcSw := m.sw }
    if r.1 then r.2.fence m.comp m.reason m.sw true else r.2

/-- A RECOVERY EXPEL arrives: a notice only (R508, R661). -/
def recoveryExpel (d : Dev) (port : Nat) (m : RecoveryMsg) : Dev :=
  if d.ownId.isNone || d.role port != 1 || !d.isActive port then d.ctrlDrop port
  else
    let r := d.takeNotice port (recoveryId m) { d.ctrl 0x09 5 m.bytes with srcSw := m.sw }
    if r.1 then
      r.2.event 4 { code := Ev.expelNotice, unit := m.id, feid := if m.kind = 1 then m.id else 0xFFFF,
                    detail := leBytes 1 m.kind ++ leBytes 1 m.sw ++ leBytes 2 m.reason }
    else r.2

end Dev

/-- RECOVERY_FENCE (R508). -/
def execRecoveryFence (port : Nat) (m : RecoveryMsg) (s : State) : Ans := onDev (fun d => (d.ctrlTaken port 5 m.bytes.length).recoveryFence port { m with op := 1 }) s
/-- RECOVERY_EXPEL (R508). -/
def execRecoveryExpel (port : Nat) (m : RecoveryMsg) (s : State) : Ans := onDev (fun d => (d.ctrlTaken port 5 m.bytes.length).recoveryExpel port { m with op := 2 }) s

end Sys2Proof.Machine
end

