-- ==== Sys2Proof/Machine/Access.lean ====
section
/-! DEFINITION. Accessors of the object dictionary and the checks every access passes (R5, R579, R600 to R610, R613 to R619). -/

namespace Sys2Proof.Machine

-- Access statuses (R579).
namespace Acc
def done : Nat := 0
def noEntry : Nat := 1
def denied : Nat := 2
def badLength : Nat := 3
def rejected : Nat := 4
def locked : Nat := 5
def campionDown : Nat := 6
def frozen : Nat := 7
end Acc

/-- The per-accessor entries (R607). -/
def perAccessor : List Nat :=
  [0x30000A, 0x310002, 0x340002, 0x380002, 0x480002, 0x480004, 0x4A0002, 0x510004, 0x540001, 0x560002, 0x560006, 0x56000A, 0x600005,
   0x600007, 0x60000C, 0x600011, 0x700009, 0x702008, 0x703002, 0x810002, 0x820001, 0x820008]

/-- The column of an accessor (R604): M for CMP sessions and the console, H for mailboxes, S for SMBus. -/
def column (acc : Nat) (e : Entry) : Access :=
  if acc < 4 || acc = 0x30 then e.m else if acc = 0x10 || acc = 0x11 then e.h else if acc = 0x20 then e.s else .no

def Access.readable : Access → Bool
  | .no => false
  | _ => true

def Access.writable : Access → Bool
  | .rw | .wo | .rwl => true
  | _ => false

/-- The longest access of an interface (R605). -/
def accessLimit (acc : Nat) : Nat :=
  if acc < 4 then 1024 else if acc = 0x20 then 32 else if acc = 0x30 then 256 else 8192

/-- An entry is accessed by offset and length (R605). -/
def Entry.octets (e : Entry) : Bool := decide (e.kind = .octets ∨ e.kind = .text)

/-- Offset and length obey R605. -/
def lengthOk (acc : Nat) (e : Entry) (off len : Nat) : Bool :=
  len ≤ accessLimit acc && (if e.octets then 1 ≤ len && off + len ≤ e.size else off = 0 && len = e.size)

namespace Dev

/-- An entry as an accessor has it (R607). -/
def regAs (d : Dev) (acc k : Nat) : Nat :=
  if perAccessor.contains k then (Tab.look d.copies (acc * 2 ^ 48 + k)).getD (regDefault k) else d.reg k

def setAs (d : Dev) (acc k v : Nat) : Dev :=
  if perAccessor.contains k then { d with copies := Tab.set d.copies (acc * 2 ^ 48 + k) v (regDefault k) } else d.setReg k v

/-- The key an access reaches: the instance is the one the accessor's selector names (R607). -/
def keyAs (d : Dev) (acc idx sub : Nat) : Nat :=
  match entryOf idx sub with
  | some e => if e.sel = 0 then Reg.key 0 idx sub else Reg.key (d.regAs acc e.sel) idx sub
  | none => Reg.key 0 idx sub

/-- The accessor exists now (R604, R597, R637). -/
def accLive (d : Dev) (acc : Nat) : Bool :=
  d.power.on && (if acc < 4 then (Tab.look d.mgmt.cmp acc).any (fun s => s.state = 2) else if acc = 0x30 then bit (d.reg Reg.debugState) 0
    else if acc = 0x20 then !d.mgmt.clkLost else acc = 0x10 || acc = 0x11)

/-- An entry of a port that does not exist in its block's mode (R5). -/
def absentPort (d : Dev) (idx : Nat) : Bool := 0x2200 ≤ idx && idx < 0x2380 && !d.portExists (idx - 0x2200)

/-- The staged tables a commit freezes (R567). -/
def frozenEntry (d : Dev) (idx sub : Nat) : Bool :=
  d.commit.frozen.isSome && [0x810003, 0x810005, 0x810007, 0x340003, 0x380003, 0x560003].contains (idx * 256 + sub)

/-- Campion serves the entry for this accessor (R590). -/
def servedByCampion (acc idx : Nat) : Bool :=
  acc != 0x20 && !((acc = 0x10 || acc = 0x11) && [0x1200, 0x5400, 0x7000, 0x8200].contains idx)

/-- Two ranges share a byte. -/
def overlap (a n b m : Nat) : Bool := 0 < n && 0 < m && decide (a < b + m) && decide (b < a + n)

/-- A range of the window overlaps a system area (R230). -/
def sysOverlap (off len : Nat) : Bool := (List.range 12).any (fun s => overlap off len (SysArea.start s) 0x40000000)

/-- A range lies in the allocatable part of the window (R230). -/
def allocatable (off len : Nat) : Bool := decide (off + len ≤ windowSize) && !sysOverlap off len

/-- A range overlaps the staging pool in force (R241). -/
def poolOverlap (d : Dev) (off len : Nat) : Bool := overlap off len d.tiers.poolBase (d.tiers.poolSlots * 2 ^ 21)

/-- Checks 1 to 6 of R608. `hash` says that the owner debug hash is programmed (R614). -/
def accCheck (d : Dev) (hash : Bool) (acc : Nat) (write : Bool) (idx sub off len : Nat) : Nat :=
  match entryOf idx sub with
  | none => Acc.noEntry
  | some e =>
    let c := column acc e
    if !(if write then c.writable else c.readable) then Acc.denied
    else if !lengthOk acc e off len then Acc.badLength
    else if d.absentPort idx then Acc.done
    else if write && c = .rwl && (if idx = 0x6000 && sub = 0x1B then hash else d.flag Reg.cfgLock) then Acc.locked
    else if write && d.frozenEntry idx sub then Acc.frozen
    else if servedByCampion acc idx && !d.campionUp then Acc.campionDown
    else Acc.done

/-- A write completes with a status: refusals are counted and recorded (R617, R619). -/
def wrote (d : Dev) (acc idx sub status : Nat) : Dev :=
  if status = 0 then d
  else
    let d := if status = Acc.locked then d.bump Reg.lockedWrites else if status = Acc.rejected then d.bump Reg.rejectedWrites else d
    d.setReg Reg.lastReject (leNat (leBytes 2 idx ++ leBytes 1 sub ++ leBytes 1 acc ++ leBytes 1 status ++ leBytes 3 0 ++ leBytes 8 d.tick))

/-- A whole write of one entry by an accessor, in parts where the entry is longer than its longest access (R580): the checks, then its effect,
which answers a status. -/
def writeBy (d : Dev) (hash : Bool) (acc idx sub : Nat) (f : Dev → Nat × Dev) : Dev :=
  if !d.accLive acc then d
  else
    let len := min (((entryOf idx sub).map (·.size)).getD 0) (accessLimit acc)
    let st := d.accCheck hash acc true idx sub 0 len
    if st != 0 then d.wrote acc idx sub st
    else if d.absentPort idx then d
    else
      let r := f d
      r.2.wrote acc idx sub r.1

/-- The same, by the entry's key. -/
def writeKey (d : Dev) (acc k : Nat) (f : Dev → Nat × Dev) : Dev := d.writeBy false acc (keyIdx k) (keySub k) f

/-- An accessor may write an entry whole (R604, R605, R608, R614): it exists, and checks 1 to 6 pass. `hash` says that the owner debug hash is
programmed. -/
def mayWrite (d : Dev) (hash : Bool) (acc idx sub : Nat) : Bool :=
  d.accLive acc && d.accCheck hash acc true idx sub 0 (min (((entryOf idx sub).map (·.size)).getD 0) (accessLimit acc)) = 0 && !d.absentPort idx

/-- An accessor may read `len` bytes of an entry from an offset (R604, R605, R608). -/
def mayRead (d : Dev) (hash : Bool) (acc idx sub off len : Nat) : Bool :=
  d.accLive acc && d.accCheck hash acc false idx sub off len = 0 && !d.absentPort idx

/-- The same as `mayWrite` by the entry's key. -/
def mayWriteKey (d : Dev) (acc k : Nat) : Bool := d.mayWrite false acc (keyIdx k) (keySub k)

/-- An accessor ends, with its snapshot, its copies and its open multi-part writes (R604, R606, R607, R616). -/
def endAccessor (d : Dev) (acc : Nat) : Dev :=
  { d with copies := Tab.keep d.copies (fun k _ => k / 2 ^ 48 != acc),
           mgmt := { d.mgmt with snaps := Tab.del d.mgmt.snaps acc, parts := Tab.keep d.mgmt.parts (fun _ w => w.accessor != acc) } }

/-- An effect that a rule may refuse: refused, nothing changes and the status is 4 (R610). -/
def orReject (d : Dev) (r : Option Dev) : Nat × Dev :=
  match r with
  | some d => (Acc.done, d)
  | none => (Acc.rejected, d)

end Dev

end Sys2Proof.Machine
end

