-- ==== Sys2Proof/Machine/Numerics.lean ====
section
/-! DEFINITION. Number formats and arithmetic (R349 to R370): decoding, rounding, storage layout, the matrix array, the vector unit's
functions, the exact accumulator and MX scale selection. -/

namespace Sys2Proof.Machine

/-- A decoded value: (−1)^neg × m × 2^e, an infinity, or NaN. -/
inductive Num where
  | nan
  | inf (neg : Bool)
  | fin (neg : Bool) (m : Nat) (e : Int)
  deriving DecidableEq, Repr

/-! ### Element formats (R349) -/

/-- A floating-point format: exponent and mantissa bits, bias; 0 no infinity or NaN, 1 NaN at the all-ones code, 2 IEEE. -/
structure FFmt where
  eb : Nat
  mb : Nat
  bias : Int
  kind : Nat
  deriving DecidableEq, Repr

/-- The format of an FMT code from 0x00 to 0x07. -/
def ffmt : Nat → FFmt
  | 0 => ⟨2, 1, 1, 0⟩
  | 1 => ⟨2, 3, 1, 0⟩
  | 2 => ⟨3, 2, 3, 0⟩
  | 3 => ⟨4, 3, 7, 1⟩
  | 4 => ⟨5, 2, 15, 2⟩
  | 5 => ⟨8, 7, 127, 2⟩
  | 6 => ⟨5, 10, 15, 2⟩
  | _ => ⟨8, 23, 127, 2⟩

/-- Element width in bits; 0x10 stands for plain bytes, as the model's own code. -/
def fmtBits : Nat → Nat
  | 16 => 8
  | 0 => 4
  | 1 => 6
  | 2 => 6
  | 3 => 8
  | 4 => 8
  | 5 => 16
  | 6 => 16
  | _ => 32

def isMx (f : Nat) : Bool := f < 5
def isInt (f : Nat) : Bool := f = 8 || f = 9

/-- log2 of an MX element type's largest binade (R350). -/
def emaxOf : Nat → Int
  | 0 => 2
  | 1 => 2
  | 2 => 4
  | 3 => 8
  | _ => 15

/-- Value of an element code (R349). -/
def decodeF (f : FFmt) (c : Nat) : Num :=
  let m := c % 2 ^ f.mb
  let e := c / 2 ^ f.mb % 2 ^ f.eb
  let neg := bit c (f.eb + f.mb)
  let top := 2 ^ f.eb - 1
  if f.kind = 2 && e = top then (if m = 0 then .inf neg else .nan)
  else if f.kind = 1 && e = top && m = 2 ^ f.mb - 1 then .nan
  else if e = 0 then .fin neg m (1 - f.bias - f.mb)
  else .fin neg (2 ^ f.mb + m) ((e : Int) - f.bias - f.mb)

/-- Value of an element of a format, unscaled. -/
def decodeElem (fmt c : Nat) : Num :=
  if isInt fmt then
    let z := if fmt = 8 then toInt 32 c else (c : Int)
    .fin (decide (z < 0)) z.natAbs 0
  else decodeF (ffmt fmt) c

/-- Scale a value by an E8M0 byte (R350). -/
def scaleNum (v : Nat) (x : Num) : Num :=
  if v = 255 then .nan
  else match x with
    | .fin n m e => .fin n m (e + (v : Int) - 127)
    | y => y

/-! ### Rounding (R355) -/

/-- m ÷ 2^k rounded to nearest, ties to even. -/
def rneShift (m k : Nat) : Nat :=
  let q := m / 2 ^ k
  let r := m % 2 ^ k
  if k = 0 then m
  else if 2 * r < 2 ^ k then q
  else if 2 ^ k < 2 * r then q + 1
  else q + q % 2

/-- Code of the value (−1)^neg × m × 2^e rounded to a format; past the largest finite value: ∞ where the format has it, else the largest
finite value (R355, R359, R367, R370). -/
def encodeFin (f : FFmt) (neg : Bool) (m : Nat) (e : Int) : Nat :=
  let sign := if neg then 2 ^ (f.eb + f.mb) else 0
  if m = 0 then sign
  else
    let lead := e + (Nat.log2 m : Int)
    let emin := 1 - f.bias
    let q := max lead emin - f.mb
    let n := if q ≤ e then m * 2 ^ (e - q).toNat else rneShift m (q - e).toNat
    let code := (q - (emin - f.mb)).toNat * 2 ^ f.mb + n
    let lim := match f.kind with
      | 2 => (2 ^ f.eb - 1) * 2 ^ f.mb
      | 1 => 2 ^ (f.eb + f.mb) - 2
      | _ => 2 ^ (f.eb + f.mb) - 1
    sign + min code lim

/-- Canonical NaN of a format (R356). -/
def nanCode (f : FFmt) : Nat :=
  if f.kind = 1 then 2 ^ (f.eb + f.mb) - 1 else (2 ^ f.eb - 1) * 2 ^ f.mb + 2 ^ (f.mb - 1)

/-- Code of a value in a format. -/
def encodeF (f : FFmt) : Num → Nat
  | .nan => nanCode f
  | .inf neg => (if neg then 2 ^ (f.eb + f.mb) else 0) + (2 ^ f.eb - 1) * 2 ^ f.mb
  | .fin neg m e => encodeFin f neg m e

/-- A value rounded to binary32. -/
def fp32 (x : Num) : Num := decodeF (ffmt 7) (encodeF (ffmt 7) x)

/-! ### Exact arithmetic -/

/-- A finite value as an integer of units of 2^e. -/
def unitsAt (neg : Bool) (m : Nat) (e lo : Int) : Int :=
  let z : Int := (m : Int) * 2 ^ (e - lo).toNat
  if neg then -z else z

/-- The value of an integer of units; a zero takes the sign given. -/
def ofUnits (z lo : Int) (zeroNeg : Bool) : Num := if z = 0 then .fin zeroNeg 0 lo else .fin (decide (z < 0)) z.natAbs lo

namespace Num

def neg : Num → Num
  | .nan => .nan
  | .inf n => .inf (!n)
  | .fin n m e => .fin (!n) m e

def isZero : Num → Bool
  | .fin _ m _ => m = 0
  | _ => false

/-- Exact sum by the IEEE rules for special operands and signs of zero. -/
def add : Num → Num → Num
  | .nan, _ => .nan
  | _, .nan => .nan
  | .inf a, .inf b => if a = b then .inf a else .nan
  | .inf a, _ => .inf a
  | _, .inf b => .inf b
  | .fin a m e, .fin b n f =>
    let lo := min e f
    ofUnits (unitsAt a m e lo + unitsAt b n f lo) lo (a && b)

/-- Exact product. -/
def mul : Num → Num → Num
  | .nan, _ => .nan
  | _, .nan => .nan
  | .inf a, .inf b => .inf (a != b)
  | .inf a, .fin b n _ => if n = 0 then .nan else .inf (a != b)
  | .fin a m _, .inf b => if m = 0 then .nan else .inf (a != b)
  | .fin a m e, .fin b n f => .fin (a != b) (m * n) (e + f)

/-- Strict order; false where a NaN stands. -/
def lt : Num → Num → Bool
  | .nan, _ => false
  | _, .nan => false
  | .inf a, .inf b => a && !b
  | .inf a, .fin _ _ _ => a
  | .fin _ _ _, .inf b => !b
  | .fin a m e, .fin b n f =>
    let lo := min e f
    decide (unitsAt a m e lo < unitsAt b n f lo)

/-- The order of MAX and MIN: −0 lies below +0, as IEEE 754-2019 has it (R356). -/
def below (a b : Num) : Bool :=
  a.lt b || (match a, b with
    | .fin true 0 _, .fin false 0 _ => true
    | _, _ => false)

/-- Numeric equality: zeros are equal, NaN is equal to nothing. -/
def eqv : Num → Num → Bool
  | .nan, _ => false
  | _, .nan => false
  | .inf a, .inf b => a = b
  | .fin a m e, .fin b n f =>
    let lo := min e f
    decide (unitsAt a m e lo = unitsAt b n f lo)
  | _, _ => false

def isNan : Num → Bool
  | .nan => true
  | _ => false

/-- Quotient with enough bits, and a sticky one, for a correct rounding to binary32. -/
def div : Num → Num → Num
  | .nan, _ => .nan
  | _, .nan => .nan
  | .inf _, .inf _ => .nan
  | .inf a, .fin b _ _ => .inf (a != b)
  | .fin a _ _, .inf b => .fin (a != b) 0 0
  | .fin a m e, .fin b n f =>
    if n = 0 then (if m = 0 then .nan else .inf (a != b))
    else
      let k := 64 + Nat.log2 n
      let q := m * 2 ^ k / n
      .fin (a != b) (2 * q + (if m * 2 ^ k % n = 0 then 0 else 1)) (e - f - k - 1)

/-- Square root with enough bits, and a sticky one. -/
def sqrt : Num → Num
  | .nan => .nan
  | .inf n => if n then .nan else .inf false
  | .fin n m e =>
    if m = 0 then .fin n 0 e
    else if n then .nan
    else
      let m := if e % 2 = 0 then m else 2 * m
      let e := if e % 2 = 0 then e else e - 1
      let s := Nat.sqrt (m * 2 ^ 64)
      .fin false (2 * s + (if s * s = m * 2 ^ 64 then 0 else 1)) (e / 2 - 33)

/-- Round to an integer: toward minus infinity, or to nearest even. -/
def toIntegral (floor : Bool) : Num → Num
  | .fin n m e =>
    if 0 ≤ e then .fin n m e
    else
      let k := (-e).toNat
      let r := if floor then (if n && m % 2 ^ k != 0 then m / 2 ^ k + 1 else m / 2 ^ k) else rneShift m k
      .fin n r 0
  | x => x

end Num

/-! ### Storage layout (R351 to R354) -/

/-- Bytes of an operand of R rows and C columns. -/
def layoutLen (fmt rows cols : Nat) : Nat := rows * cols * fmtBits fmt / 8 + (if isMx fmt then rows * cols / 32 else 0)

/-- The element at a row and column. -/
def elemAt (fmt rows cols : Nat) (bs : Bytes) (r c : Nat) : Num :=
  let w := fmtBits fmt
  let p := r * (cols * w / 8) + c * w / 8
  let x := decodeElem fmt ((le bs p 4 >>> (c * w % 8)) % 2 ^ w)
  if isMx fmt then scaleNum (le bs (rows * cols * w / 8 + r * (cols / 32) + c / 32) 1) x else x

/-- Codes packed into a row of the element array (R353). -/
def packRow (w : Nat) (codes : List Nat) : Bytes := leBytes (codes.length * w / 8) (codes.foldr (fun c acc => c + acc * 2 ^ w) 0)

/-- log2, rounded down, of the largest magnitude in a list of finite values. -/
def leadOf (xs : List Num) : Option Int :=
  xs.foldl (fun acc x => match x with
    | .fin _ m e => if m = 0 then acc else some (match acc with | some a => max a (e + (Nat.log2 m : Int)) | none => e + (Nat.log2 m : Int))
    | _ => acc) none

/-- Scale byte and element codes of an MX block (R369, R370). -/
def encodeBlock (fmt : Nat) (xs : List Num) : Nat × List Nat :=
  let bad := xs.any (fun x => match x with | .fin _ _ _ => false | _ => true)
  if bad then (255, xs.map (fun _ => 0))
  else
    match leadOf xs with
    | none => (0, xs.map (fun _ => 0))
    | some l =>
      let x := max (-127) (min 127 (l - emaxOf fmt))
      let f := ffmt fmt
      let f := if f.kind = 2 then { f with kind := 3 } else f
      let top := if f.kind = 3 then (2 ^ f.eb - 1) * 2 ^ f.mb - 1 else 2 ^ (f.eb + f.mb) - 1
      let code := fun (y : Num) => match y with
        | .fin n m e =>
          let c := encodeFin f n m (e - x)
          let s := if n then 2 ^ (f.eb + f.mb) else 0
          s + min (c - s) top
        | _ => 0
      ((x + 127).toNat, xs.map code)

/-- Chop a list into runs. -/
def chunks {α : Type} (n : Nat) : Nat → List α → List (List α)
  | 0, _ => []
  | _, [] => []
  | k + 1, l => l.take n :: chunks n k (l.drop n)

/-- An integer code: rounded, saturated, NaN as 0 (R362, R383). Answers whether it saturated. -/
def encodeInt (fmt : Nat) (x : Num) : Nat × Bool :=
  let lo : Int := if fmt = 8 then -(2 ^ 31) else 0
  let hi : Int := if fmt = 8 then 2 ^ 31 - 1 else 2 ^ 32 - 1
  match x with
  | .nan => (0, false)
  | .inf n => (ofInt 32 (if n then lo else hi), true)
  | .fin n m e =>
    let r := match Num.toIntegral false (.fin n m e) with
      | .fin n m e => unitsAt n m e 0
      | _ => 0
    if r < lo then (ofInt 32 lo, true) else if hi < r then (ofInt 32 hi, true) else (ofInt 32 r, false)

/-- Bytes of rows of values in a format, element array then scale array (R352). -/
def encodeRows (fmt : Nat) (rows : List (List Num)) : Bytes :=
  if isInt fmt then rows.flatMap (fun r => packRow 32 (r.map (fun x => (encodeInt fmt x).1)))
  else if isMx fmt then
    let blocks := rows.map (fun r => (chunks 32 r.length r).map (encodeBlock fmt))
    blocks.flatMap (fun bs => packRow (fmtBits fmt) (bs.flatMap Prod.snd)) ++ blocks.flatMap (fun bs => bs.flatMap (fun b => leBytes 1 b.1))
  else rows.flatMap (fun r => packRow (fmtBits fmt) (r.map (encodeF (ffmt fmt))))

/-! ### The matrix array (R357 to R359) -/

/-- One output element of a GEMM: blocks in ascending K, one rounding per block. -/
def gemmElem (fa fb : Nat) (a b : Bytes) (rows cols k r c : Nat) (start : Num) : Num :=
  (List.range (k / 32)).foldl (fun acc j =>
    let s := (List.range 32).foldl (fun s i =>
      s.add ((elemAt fa rows k a r (32 * j + i)).mul (elemAt fb cols k b c (32 * j + i)))) (.fin false 0 0)
    fp32 (acc.add s)) start

/-! ### ELEMWISE (R327, R362) -/

/-- Arity of a SUBOP. -/
def elemArity (s : Nat) : Nat :=
  if [0x00, 0x01, 0x02, 0x03, 0x04, 0x05, 0x0F, 0x1A, 0x1C, 0x21, 0x22, 0x24].contains s then 2
  else if [0x1D, 0x23].contains s then 3 else 1

/-- The integer path (R362): codes of one FMT. -/
def elemInt (fmt sub x y z : Nat) : Nat :=
  let v := fun c => if fmt = 8 then toInt 32 c else (c : Int)
  match sub with
  | 0x00 => (x + y) % 2 ^ 32
  | 0x01 => (x + 2 ^ 32 - y) % 2 ^ 32
  | 0x02 => x * y % 2 ^ 32
  | 0x04 => if v x < v y then y else x
  | 0x05 => if v y < v x then y else x
  | 0x06 => (2 ^ 32 - x) % 2 ^ 32
  | 0x07 => if v x < 0 then (2 ^ 32 - x) % 2 ^ 32 else x
  | 0x21 => if x = y then 1 else 0
  | 0x22 => if v x < v y then 1 else 0
  | _ => if x != 0 then y else z

/-- SUBOPs of the integer path. -/
def intPathOk (s : Nat) : Bool := [0x00, 0x01, 0x02, 0x04, 0x05, 0x06, 0x07, 0x21, 0x22, 0x23].contains s

end Sys2Proof.Machine
end

