-- ==== Sys2Proof/Machine/Functions.lean ====
section
/-! DEFINITION. The vector unit's functions (R327, R356, R360, R361): those that are exact or correctly rounded, and the active library's, which
lie within their bounds of the function's value. The value is computed in fixed point, far beyond the precision that a bound can tell
(log 182). -/

namespace Sys2Proof.Machine

/-! ### Elementary functions in fixed point: integers in units of 2^−512 -/

namespace Fx

def prec : Nat := 512
def one : Int := 2 ^ prec

/-- A finite value in fixed point: exact for every binary32. -/
def ofNum : Num → Int
  | .fin n m e =>
    let z : Int := if 0 ≤ e + prec then (m : Int) * 2 ^ (e + prec).toNat else (m : Int) / 2 ^ (-(e + prec)).toNat
    if n then -z else z
  | _ => 0
def toNum (z : Int) : Num := .fin (decide (z < 0)) z.natAbs (-(prec : Int))

def mul (a b : Int) : Int := a * b / one
def div (a b : Int) : Int := a * one / b

/-- Sum of `n` terms, each made of the one before it. -/
def sum (next : Nat → Int → Int) : Nat → Nat → Int → Int
  | 0, _, _ => 0
  | n + 1, i, t => t + sum next n (i + 1) (next i t)

/-- The same of terms over 1, 3, 5 and so on. -/
def sumOdd (next : Nat → Int → Int) : Nat → Nat → Int → Int
  | 0, _, _ => 0
  | n + 1, i, t => t / (2 * (i : Int) + 1) + sumOdd next n (i + 1) (next i t)

/-- Inverse hyperbolic tangent of |z| ≤ 1/3, and the inverse tangent of 1/n. -/
def atanh (z : Int) : Int := let w := mul z z; sumOdd (fun _ t => mul t w) 170 0 z
def atanInv (n : Int) : Int := sumOdd (fun _ t => -(t / (n * n))) 250 0 (one / n)

def ln2 : Int := 2 * atanh (one / 3)
def pi : Int := 4 * (4 * atanInv 5 - atanInv 239)
def sqrtOf (z : Int) : Int := (Nat.sqrt (z.toNat * 2 ^ prec) : Int)

/-- The nearest multiple of a positive unit, as a count. -/
def nearest (x unit : Int) : Int := (2 * x + unit) / (2 * unit)
def clamp (z : Int) : Int := max (-2000 * one) (min (2000 * one) z)

/-- e^x, past ±2000 as there. -/
def expNum (x : Int) : Num :=
  let x := clamp x
  let k := nearest x ln2
  let r := x - k * ln2
  .fin false (sum (fun i t => mul t r / ((i : Int) + 1)) 100 0 one).natAbs (k - prec)
/-- e^x for x ≤ 0. -/
def exp (x : Int) : Int := ofNum (expNum x)

/-- Logarithm of 1 + u for 0 ≤ u ≤ 1, and of a positive value. -/
def log1p (u : Int) : Int := 2 * atanh (div u (2 * one + u))
def logNum (m : Nat) (e : Int) : Int :=
  let l := Nat.log2 m
  let x : Int := (m : Int) * one / 2 ^ l
  2 * atanh (div (x - one) (x + one)) + (e + l) * ln2

def sigmoid (x : Int) : Int := let t := exp (-x.natAbs); if 0 ≤ x then div one (one + t) else div t (one + t)
def tanh (x : Int) : Int := let t := exp (-2 * x.natAbs); let y := div (one - t) (one + t); if 0 ≤ x then y else -y
def softplus (x : Int) : Int := max x 0 + log1p (exp (-x.natAbs))

/-- The error function; ±1 past ±12. -/
def erf (x : Int) : Int :=
  if 12 * one ≤ x then one else if x ≤ -12 * one then -one
  else
    let w := mul x x
    div (2 * sumOdd (fun i t => -(mul t w) / ((i : Int) + 1)) 700 0 x) (sqrtOf pi)

/-- Sine and cosine. -/
def sinCos (x : Int) : Int × Int :=
  let k := nearest x (pi / 2)
  let r := x - k * pi / 2
  let w := mul r r
  let s := sum (fun i t => -(mul t w) / ((2 * (i : Int) + 2) * (2 * i + 3))) 60 0 r
  let c := sum (fun i t => -(mul t w) / ((2 * (i : Int) + 1) * (2 * i + 2))) 60 0 one
  match (k % 4).toNat with
  | 0 => (s, c)
  | 1 => (c, -s)
  | 2 => (-s, -c)
  | _ => (-c, s)

end Fx

/-! ### Results within a bound (R361) -/

/-- A finite value in lowest terms, and marks for the others: what a library function is told of an argument. -/
def Num.key : Num → List Int
  | .nan => [3, 0, 0]
  | .inf n => [2, if n then 1 else 0, 0]
  | .fin n m e =>
    let z := ((List.range (Nat.log2 m + 1)).find? (fun i => bit m i)).getD 0
    if m = 0 then [if n then 1 else 0, 0, 0] else [if n then 1 else 0, (m / 2 ^ z : Nat), e + z]

/-- A binary32 value is within `k` units in the last place of a finite value; an infinity stands where 2^128 would. -/
def withinUlp (k : Nat) (v c : Num) : Bool :=
  match v, (match c with | .inf n => Num.fin n 1 128 | c => c) with
  | .fin _ m e, .fin n m' e' =>
    let u := (if m = 0 then -126 else max (e + (Nat.log2 m : Int)) (-126)) - 23
    match v.add (.fin (!n) m' e') with
    | .fin _ x f => !(Num.fin false k u).lt (.fin false x f)
    | _ => false
  | _, _ => false

/-- The library's result of a function whose value is known: within the bound, else the value rounded. A zero keeps the value's sign (R356). -/
def bounded (version op sub : Nat) (args : List Num) (k : Nat) (v : Num) : Num :=
  let c := decodeF (ffmt 7) (Config.libFn version op sub (args.flatMap Num.key) % 2 ^ 32)
  match v with
  | .fin _ _ _ => if withinUlp k v c && !(v.isZero && c.isZero) then c else fp32 v
  | v => v

/-- A value without a stated result: the library's, free (log 9). -/
def freeFn (version op sub : Nat) (args : List Num) : Num :=
  decodeF (ffmt 7) (Config.libFn version op sub (args.flatMap Num.key) % 2 ^ 32)

/-! ### The library's functions (R327; their values log 182) -/

def Num.isNeg : Num → Bool
  | .fin n _ _ => n
  | .inf n => n
  | .nan => false

/-- A finite value is an integer; and an odd one. -/
def Num.integral (x : Num) : Bool := match x with | .fin _ _ _ => (x.toIntegral true).eqv x | _ => false
def Num.odd (x : Num) : Bool := match x.toIntegral true with
  | .fin _ m e => x.integral && (m * 2 ^ (min e 1).toNat) % 2 = 1
  | _ => false

/-- The power function with the special values of IEEE 754-2019: none for a negative number and a power that is no integer. -/
def powNum (x y : Num) : Num :=
  let one : Num := .fin false 1 0
  let s := x.isNeg && y.odd
  if y.isZero || x.eqv one then one
  else match x, y with
    | .fin n m e, .fin ny _ _ =>
      if m = 0 then (if ny then .inf s else .fin s 0 0)
      else if n && !y.integral then .nan
      else match Fx.expNum (Fx.mul (Fx.ofNum y) (Fx.logNum m e)) with
        | .fin _ a b => .fin s a b
        | v => v
    | .inf _, _ => if y.isNeg then .fin s 0 0 else .inf s
    | x, .inf ny =>
      let big := one.lt (if x.isNeg then x.neg else x)
      if x.eqv one.neg then one else if big != ny then .inf false else .fin false 0 0
    | _, _ => .nan

/-- Value of a library function of finite arguments, or its limit at an infinity where it has one; none where the spec states no result. -/
def fnValue (sub : Nat) (x y : Num) : Option Num :=
  let one : Num := .fin false 1 0
  let zero : Num := .fin false 0 0
  let f := fun (g : Int → Int) => some (Fx.toNum (g (Fx.ofNum x)))
  let odd := fun (v : Option Num) => if x.isZero then some x else v
  let logOver := fun (w : Int) => match x with
    | .fin n m e => if m = 0 then some (.inf true) else if n then some .nan else some (Fx.toNum (Fx.div (Fx.logNum m e) w))
    | .inf n => some (if n then .nan else .inf false)
    | .nan => some .nan
  let limits := fun (low high : Num) (g : Int → Int) => match x with
    | .inf n => some (if n then low else high)
    | _ => f g
  let times := fun (g : Int → Int) (z : Num) => match x, z with
    | .fin _ _ _, .fin _ _ _ => some ((z.mul x).mul (Fx.toNum (g (Fx.ofNum x))))
    | _, _ => none
  let expOf := fun (w : Int) => match x with
    | .inf n => if n then zero else .inf false
    | _ => Fx.expNum (Fx.mul (Fx.clamp (Fx.ofNum x)) w)
  match sub with
  | 0x08 => some (one.div x)
  | 0x0A => match x with
    | .fin n m _ => if m = 0 then some (.inf n) else if n then some .nan else f (fun v => Fx.div Fx.one (Fx.sqrtOf v))
    | .inf n => some (if n then .nan else zero)
    | .nan => some .nan
  | 0x0B => some (expOf Fx.one)
  | 0x0C => some (expOf Fx.ln2)
  | 0x0D => logOver Fx.one
  | 0x0E => logOver Fx.ln2
  | 0x0F => some (powNum x y)
  | 0x10 => odd (limits one.neg one Fx.tanh)
  | 0x11 => limits zero one Fx.sigmoid
  | 0x13 => times (fun v =>
      let c := Fx.mul v (Fx.mul v v) * 44715 / 1000000
      Fx.sigmoid (Fx.clamp (2 * Fx.mul (Fx.sqrtOf (Fx.div (2 * Fx.one) Fx.pi)) (v + c)))) one
  | 0x14 => times (fun v => (Fx.one + Fx.erf (Fx.div v (Fx.sqrtOf (2 * Fx.one)))) / 2) one
  | 0x15 => times Fx.sigmoid one
  | 0x16 => limits zero (.inf false) Fx.softplus
  | 0x17 => odd (limits one.neg one Fx.erf)
  | 0x18 => match x with | .fin _ _ _ => odd (f (fun v => (Fx.sinCos v).1)) | _ => some .nan
  | 0x19 => match x with | .fin _ _ _ => f (fun v => (Fx.sinCos v).2) | _ => some .nan
  | 0x24 => times Fx.sigmoid y
  | _ => none

/-- Its bound in units in the last place (R361); at an infinity IEEE 754 has the result itself (R356). -/
def fnUlp (sub : Nat) (x y : Num) : Nat :=
  if (match x, y with | .fin _ _ _, .fin _ _ _ => false | _, _ => true) then 0
  else if sub = 0x08 || sub = 0x0A then 1
  else if sub = 0x18 || sub = 0x19 then (if (Num.fin false (2 ^ 16) 0).lt (if x.isNeg then x.neg else x) then 4 else 2)
  else if [0x0F, 0x13, 0x14, 0x15, 0x24].contains sub then 4 else 2

/-- A function of the active library of arguments that are no NaN. -/
def libElem (version sub : Nat) (x y : Num) : Num :=
  let args := if elemArity sub = 2 then [x, y] else [x]
  match fnValue sub x y with
  | some v => bounded version 4 sub args (fnUlp sub x (if elemArity sub = 2 then y else x)) v
  | none => freeFn version 4 sub args

/-- ROPE: a pair of X rotated by the angle in Y, counted from the first axis to the second; `first` tells which of the two is computed. Where the
pair has two angles, or an operand is infinite, the spec states no result (R327, R361; log 182). -/
def ropeFn (version : Nat) (first : Bool) (x0 x1 a b : Num) : Num :=
  let args := [x0, x1, a, b, .fin false (if first then 0 else 1) 0]
  if x0.isNan || x1.isNan || a.isNan || b.isNan then .nan
  else match x0, x1, a with
    | .fin _ _ _, .fin _ _ _, .fin _ _ _ =>
      let r := Fx.sinCos (Fx.ofNum a)
      let s := Fx.toNum r.1
      let c := Fx.toNum r.2
      if a.eqv b then bounded version 4 0x1A args 4 (if first then (x0.mul c).add (x1.mul s).neg else (x0.mul s).add (x1.mul c))
      else freeFn version 4 0x1A args
    | _, _, _ => freeFn version 4 0x1A args

/-- Binary32 result of an ELEMWISE function but ROPE (R356, R360, R361). `s` and `t` stand for P1 and P2. -/
def elemFn (version sub p1 p2 : Nat) (x y z : Num) : Num :=
  let s := decodeF (ffmt 7) p1
  let t := decodeF (ffmt 7) p2
  let one : Num := .fin false 1 0
  let zero : Num := .fin false 0 0
  let any := x.isNan || (2 ≤ elemArity sub && y.isNan) || (3 ≤ elemArity sub && z.isNan)
  let pick := fun (a b : Num) => if any then .nan else if a.below b then b else a
  let least := fun (a b : Num) => if any then .nan else if b.below a then b else a
  match sub with
  | 0x00 => fp32 (x.add y)
  | 0x01 => fp32 (x.add y.neg)
  | 0x02 => fp32 (x.mul y)
  | 0x03 => fp32 (x.div y)
  | 0x04 => fp32 (pick x y)
  | 0x05 => fp32 (least x y)
  | 0x06 => fp32 x.neg
  | 0x07 => match x with
    | .fin _ m e => fp32 (.fin false m e)
    | .inf _ => .inf false
    | .nan => .nan
  | 0x09 => fp32 x.sqrt
  | 0x12 => fp32 (pick x zero)
  | 0x1B => fp32 (s.mul x)
  | 0x1D => fp32 ((x.mul y).add z)
  | 0x1E => if x.isNan || s.isNan || t.isNan then .nan else
      let a := if x.below s then s else x
      fp32 (if t.below a then t else a)
  | 0x1F => fp32 (x.toIntegral false)
  | 0x20 => fp32 x
  | 0x21 => if x.eqv y then one else zero
  | 0x22 => if x.lt y then one else zero
  | 0x23 => if any then .nan else fp32 (if x.isZero then z else y)
  | 0x25 => fp32 (x.mul x)
  | 0x26 => fp32 (x.toIntegral true)
  | 0x27 => match x with
    | .fin n m _ => if m = 0 then x else .fin n 1 0
    | .inf n => .fin n 1 0
    | .nan => .nan
  | 0x1C => if any then .nan else bounded version 4 sub [s, x, t, y] 1 ((s.mul x).add (t.mul y))
  | _ => if any then .nan else libElem version sub x y

end Sys2Proof.Machine
end

