-- ==== Sys2Proof/Machine/Galois.lean ====
section
/-! DEFINITION. Arithmetic in GF(2^8) under 0x11D (R395), and the P and Q of a stripe with their reconstruction (R472, R478). -/

namespace Sys2Proof.Machine

/-- Multiply by g = 0x02 (R395). -/
def gfDouble (a : Nat) : Nat := if a < 128 then 2 * a else (2 * a) ^^^ 0x11D

/-- Product in GF(2^8). -/
def gfMul (a b : Nat) : Nat :=
  (List.range 8).foldr (fun i acc => (gfDouble acc) ^^^ (if b.testBit i then a else 0)) 0

/-- g^i. -/
def gfPow : Nat → Nat
  | 0 => 1
  | n + 1 => gfDouble (gfPow n)

/-- a^n. -/
def gfExp (a : Nat) : Nat → Nat
  | 0 => 1
  | n + 1 => gfMul a (gfExp a n)

/-- Multiplicative inverse: a^254. -/
def gfInv (a : Nat) : Nat := gfExp a 254

/-- A string multiplied byte by byte. -/
def gfScale (c : Nat) (bs : Bytes) : Bytes := bs.map (fun b => BitVec.ofNat 8 (gfMul c b.toNat))

/-- Q term of data unit `j`. -/
def qTerm (j : Nat) (bs : Bytes) : Bytes := gfScale (gfPow j) bs

/-- Exclusive or of the data units of a table below `k`, leaving some out. -/
def sumData (k : Nat) (t : Tab Bytes) (without : List Nat) (f : Nat → Bytes → Bytes) : Bytes :=
  (List.range k).foldl (fun acc j => if without.contains j then acc else xorBytes acc (f j (Tab.getD t j []))) []

/-- P and Q of data units 0 to k − 1 (R395). -/
def parityP (k : Nat) (t : Tab Bytes) : Bytes := sumData k t [] (fun _ b => b)
def parityQ (k : Nat) (t : Tab Bytes) : Bytes := sumData k t [] qTerm

/-- Data units rebuilt from the units present (R478): unit k is P, unit k + 1 is Q. -/
def rebuildData (k : Nat) (t : Tab Bytes) : Tab Bytes :=
  match (List.range k).filter (fun j => !Tab.has t j) with
  | [] => t
  | [a] =>
    if Tab.has t k then Tab.put t a (xorBytes (Tab.getD t k []) (sumData k t [a] (fun _ b => b)))
    else Tab.put t a (gfScale (gfInv (gfPow a)) (xorBytes (Tab.getD t (k + 1) []) (sumData k t [a] qTerm)))
  | a :: b :: _ =>
    let x := xorBytes (Tab.getD t k []) (sumData k t [a, b] (fun _ y => y))
    let y := xorBytes (Tab.getD t (k + 1) []) (sumData k t [a, b] qTerm)
    let da := gfScale (gfInv (gfPow a ^^^ gfPow b)) (xorBytes (gfScale (gfPow b) x) y)
    Tab.put (Tab.put t a da) b (xorBytes x da)

/-- Every unit of a stripe from those present, at most two missing. -/
def rebuildAll (k : Nat) (t : Tab Bytes) : Tab Bytes :=
  let t := rebuildData k t
  let t := if Tab.has t k then t else Tab.put t k (parityP k t)
  if Tab.has t (k + 1) then t else Tab.put t (k + 1) (parityQ k t)

end Sys2Proof.Machine
end

