-- ==== Sys2Proof/Machine/Codec.lean ====
section
/-! DEFINITION. Fixed-table compression: the coded stream, its four tables, the expander's checks and decoding, and the compressor's fixed
rules (R445 to R456). -/

namespace Sys2Proof.Machine

/-- Raw blocks of an operand (R445). -/
def nblkOf (len : Nat) : Nat := ceilDiv len 4096

/-- Bytes of raw block `i`. -/
def rawLenOf (len i : Nat) : Nat := min 4096 (len - 4096 * i)

/-! ### Block header (R447) -/

namespace Blk
def table (b : Bytes) : Nat := le b 0 1
def param (b : Bytes) : Nat := le b 1 1
def rawLen (b : Bytes) : Nat := le b 2 2
def bodyLen (b : Bytes) : Nat := le b 4 2
def no (b : Bytes) : Nat := le b 6 2
def body (b : Bytes) : Bytes := slice b 8 (bodyLen b)
end Blk

/-- Bytes of a GRAD element, and of its mantissa in bits. -/
def gradBytes (param : Nat) : Nat := if param = 0 then 2 else 4
def gradMant (param : Nat) : Nat := if param = 0 then 7 else 23

/-- PARAM is listed for its TABLE. -/
def paramOk (table param : Nat) : Bool :=
  match table with
  | 0 => [1, 2, 4].contains param
  | 1 => param ≤ 1
  | 2 => [1, 16, 24, 32].contains param
  | _ => param = 0

/-- The granule RAW_LEN must be a multiple of. -/
def granule (table param : Nat) : Nat :=
  match table with
  | 0 | 2 => param
  | 1 => gradBytes param
  | _ => 1

/-- The agreement of index table and header (R449): block `i` of an operand of `len` raw bytes, its index entry, and the next one's. -/
def blockOk (len i idx idxNext : Nat) (b : Bytes) : Bool :=
  let n := nblkOf len
  decide (ceilDiv n 4 ≤ idx)
    && (decide (n ≤ i + 1) || decide (8 + Blk.bodyLen b ≤ 16 * (idxNext - idx)))
    && Blk.table b < 4 && paramOk (Blk.table b) (Blk.param b) && 1 ≤ Blk.bodyLen b && Blk.bodyLen b ≤ Blk.rawLen b
    && Blk.rawLen b = rawLenOf len i && Blk.no b = i % 65536
    && Blk.rawLen b % granule (Blk.table b) (Blk.param b) = 0
    && (Blk.table b != 3 || Blk.bodyLen b = Blk.rawLen b)

/-! ### Decoding (R450 to R453) -/

/-- The token loop of ZRUN, and of MXB where repeats are allowed: elements of `w` bytes, raw bytes still due. -/
def decodeRuns (w : Nat) (repeats : Bool) : Nat → Nat → Bytes → Except Nat Bytes
  | _, 0, [] => .ok []
  | _, _, [] => .error St.expandUnder
  | 0, _, _ => .error St.expandUnder
  | fuel + 1, due, c :: body =>
    let v := c.toNat
    let rep := repeats && decide (0xC0 ≤ v)
    let n := if v < 0x80 then (v + 1) * w else if rep then (v - 0xC0 + 2) * w else (v - 0x7F) * w
    let take := if v < 0x80 then 0 else if rep then w else n
    if due < n then .error St.expandOver
    else if body.length < take then .error St.expandUnder
    else
      let lit := body.take take
      let out := if v < 0x80 then List.replicate n 0 else if rep then (List.replicate (v - 0xC0 + 2) lit).flatten else lit
      match decodeRuns w repeats fuel (due - n) (body.drop take) with
      | .ok rest => .ok (out ++ rest)
      | .error e => .error e

/-- A bit field of a byte string, from its least significant bit. -/
def bitField (bs : Bytes) (pos n : Nat) : Nat := (le bs (pos / 8) 5 >>> (pos % 8)) % 2 ^ n

/-- Coded elements of a group rebuilt (R451): the mask of +0 elements, E_MAX, DW; none where a delta exceeds E_MAX. -/
def gradElems (mant dw emax mask : Nat) (field : Bytes) : Nat → Nat → Nat → Option (List Nat)
  | 0, _, _ => some []
  | n + 1, j, pos =>
    if bit mask j then (gradElems mant dw emax mask field n (j + 1) pos).map (0 :: ·)
    else
      let v := bitField field pos (mant + dw + 1)
      let delta := bits v mant dw
      if emax < delta then none
      else
        let e := bits v 0 mant + (emax - delta) * 2 ^ mant + bits v (mant + dw) 1 * 2 ^ (mant + 8)
        (gradElems mant dw emax mask field n (j + 1) (pos + mant + dw + 1)).map (e :: ·)

/-- Decode GRAD groups (R451): elements still due. -/
def decodeGrad (param : Nat) : Nat → Nat → Bytes → Except Nat Bytes
  | _, 0, body => if body.isEmpty then .ok [] else .error St.expandOver
  | 0, _, _ => .error St.expandUnder
  | fuel + 1, due, body =>
    let n := min 32 due
    if body.length < 2 then .error St.expandUnder
    else
      let emax := le body 0 1
      let h := le body 1 1
      let dw := h % 16
      let zm := bit h 4
      if 8 < dw || 32 ≤ h then .error St.badDesc
      else if zm && body.length < 6 then .error St.expandUnder
      else
        let mask := if zm then le body 2 4 else 0
        let start := if zm then 6 else 2
        let coded := n - popCount n mask
        let len := ceilDiv (coded * (gradMant param + dw + 1)) 8
        if body.length < start + len then .error St.expandUnder
        else
          match gradElems (gradMant param) dw emax mask (slice body start len) n 0 0 with
          | none => .error St.badDesc
          | some es =>
            match decodeGrad param fuel (due - n) (body.drop (start + len)) with
            | .ok rest => .ok (es.flatMap (leBytes (gradBytes param)) ++ rest)
            | .error e => .error e

/-- Decode a block that agrees with its header (R459): exactly RAW_LEN bytes, or a status. -/
def decodeBody (b : Bytes) : Except Nat Bytes :=
  let raw := Blk.rawLen b
  let body := Blk.body b
  match Blk.table b with
  | 0 => decodeRuns (Blk.param b) false (body.length + 1) raw body
  | 1 => decodeGrad (Blk.param b) (body.length + 1) (raw / gradBytes (Blk.param b)) body
  | 2 => decodeRuns (Blk.param b) true (body.length + 1) raw body
  | _ => .ok body

/-- Check and decode block `i` (R449, R459). -/
def decodeBlock (len i idx idxNext : Nat) (b : Bytes) : Except Nat Bytes :=
  if blockOk len i idx idxNext b then decodeBody b else .error St.badDesc

/-! ### The compressor (R454 to R456) -/

/-- Length of the run of equal elements at the head of a list. -/
def headRun (x : Bytes) : List Bytes → Nat
  | y :: ys => if y = x then headRun x ys + 1 else 0
  | [] => 0

/-- Literals at the head: elements up to the next zero, or where repeats are used the next two equal ones. -/
def litRun (repeats : Bool) : List Bytes → Nat
  | [] => 0
  | x :: xs => if x.all (· = 0) || (repeats && xs.head? = some x) then 0 else litRun repeats xs + 1

/-- Tokens of ZRUN and MXB (R456). -/
def encodeRuns (repeats : Bool) : Nat → List Bytes → Bytes
  | 0, _ => []
  | _, [] => []
  | fuel + 1, x :: xs =>
    let l := x :: xs
    if x.all (· = 0) then
      let n := min 128 (headRun x l)
      BitVec.ofNat 8 (n - 1) :: encodeRuns repeats fuel (l.drop n)
    else if repeats && xs.head? = some x then
      let n := min 65 (headRun x l)
      BitVec.ofNat 8 (0xC0 + n - 2) :: x ++ encodeRuns repeats fuel (l.drop n)
    else
      let n := min (if repeats then 64 else 128) (litRun repeats l)
      BitVec.ofNat 8 (0x80 + n - 1) :: (l.take n).flatten ++ encodeRuns repeats fuel (l.drop n)

/-- One GRAD group (R451, R456). -/
def gradGroup (param : Nat) (es : List Nat) : Bytes :=
  let mant := gradMant param
  let exp := fun e => bits e mant 8
  let coded := es.filter (· != 0)
  let zm := decide (coded.length < es.length)
  let emax := (coded.map exp).foldl max 0
  let far := (coded.map (fun e => emax - exp e)).foldl max 0
  let dw := if far = 0 then 0 else Nat.log2 far + 1
  let w := mant + dw + 1
  let one := fun e => bits e 0 mant + (emax - exp e) * 2 ^ mant + bits e (mant + 8) 1 * 2 ^ (mant + dw)
  let field := coded.foldr (fun e acc => one e + acc * 2 ^ w) 0
  leBytes 1 emax ++ leBytes 1 (dw + (if zm then 16 else 0))
    ++ (if zm then leBytes 4 (maskOf ((es.zipIdx.filter (fun x => x.1 = 0)).map Prod.snd)) else [])
    ++ leBytes (ceilDiv (coded.length * w) 8) field

/-- PARAM for a raw block (R454): SUBOP, FMT, operand length, block. -/
def encParam (sub fmt len i : Nat) : Nat :=
  match sub with
  | 0 => if fmt < 5 then 1 else if fmt < 7 then 2 else 4
  | 1 => if fmt = 5 then 0 else 1
  | 2 =>
    let w := fmtBits fmt
    if 4096 * i + rawLenOf len i ≤ len * (4 * w) / (4 * w + 1) then 4 * w else 1
  | _ => 0

/-- Body of a raw block under a table. -/
def encBody (sub param : Nat) (raw : Bytes) : Bytes :=
  match sub with
  | 0 => encodeRuns false (raw.length + 1) (chunks param raw.length raw)
  | 1 => (chunks 32 raw.length ((chunks (gradBytes param) raw.length raw).map leNat)).flatMap (gradGroup param)
  | 2 => encodeRuns true (raw.length + 1) (chunks param raw.length raw)
  | _ => raw

/-- Encode a raw block: its bytes, and whether it fell back to RAW (R455). A block whose length is no multiple of its unit has no coded
form the expander would take, and is emitted as RAW. -/
def encodeBlk (sub fmt len i : Nat) (raw : Bytes) : Bytes × Bool :=
  let param := encParam sub fmt len i
  let body := encBody sub param raw
  let keep := sub != 3 && raw.length % granule sub param = 0 && decide (5 * (8 + body.length) ≤ 4 * raw.length)
  let t := if keep then sub else 3
  let bd := if keep then body else raw
  (leBytes 1 t ++ leBytes 1 (if keep then param else 0) ++ leBytes 2 raw.length ++ leBytes 2 bd.length ++ leBytes 2 (i % 65536) ++ bd,
   !keep && sub != 3)

end Sys2Proof.Machine
end

