-- ==== Sys2Proof/Machine/YarrowCore.lean ====
section
/-! DEFINITION. Yarrow's slots and chunks (R364 to R370, R381 to R387), results and their destinations (R388, R389), and the journal
(R390 to R392). -/

namespace Sys2Proof.Machine

/-! ### Slots (R364 to R368, R383) -/

/-- Add one element to a slot: exact sum or extreme, and the flags. -/
def slotAdd (rop fmt : Nat) (s : Slot) (x : Num) : Slot :=
  match x with
  | .nan => { s with nan := true }
  | .inf n => if n then { s with ninf := true } else { s with pinf := true }
  | .fin n m e =>
    let z := if isInt fmt then unitsAt n m e 0 else unitsAt n m e (-149)
    let acc := match rop with
      | 0 => s.acc + z
      | 1 => if s.any then min s.acc z else z
      | _ => if s.any then max s.acc z else z
    { s with acc := acc, any := true }

/-- The value a slot stands for (R367, R383). -/
def slotNum (rop : Nat) (intg : Bool) (s : Slot) : Num :=
  let fin := ofUnits s.acc (if intg then 0 else -149) false
  if intg then fin
  else if s.nan then .nan
  else match rop with
    | 0 => if s.pinf && s.ninf then .nan else if s.pinf then .inf false else if s.ninf then .inf true else fin
    | 1 => if s.ninf then .inf true else if s.any then fin else if s.pinf then .inf false else fin
    | _ => if s.pinf then .inf false else if s.any then fin else if s.ninf then .inf true else fin

/-- Result bytes of a chunk, and how many elements saturated (R367, R369, R370, R383). -/
def roundSlots (g : Nat) (slots : List Slot) : Bytes × Nat :=
  let vals := slots.map (slotNum (GD.rop g) (isInt (GD.ifmt g)))
  let sat := if isInt (GD.ofmt g) then (vals.filter (fun x => (encodeInt (GD.ofmt g) x).2)).length else 0
  (encodeRows (GD.ofmt g) [vals], sat)

/-- The elements of a contribution added to slots. -/
def addAll (g : Nat) (slots : List Slot) (bs : Bytes) : List Slot :=
  slots.zipIdx.map (fun x => slotAdd (GD.rop g) (GD.ifmt g) x.1 (elemAt (GD.ifmt g) 1 (GD.elems g) bs 0 x.2))

/-- IN_BYTES, OUT_BYTES and MASK_BYTES of a group (R374). -/
def inBytes (g : Nat) : Nat := layoutLen (GD.ifmt g) 1 (GD.elems g)
def outBytes (g : Nat) : Nat := layoutLen (GD.ofmt g) 1 (GD.elems g)
def maskBytes (g : Nat) : Nat := ceilDiv (GD.ncontrib g) 8

/-! ### Contributor entries (R375) -/

namespace CE
def feid (e : Nat) : Nat := bits e 0 12
def backup (e : Nat) : Nat := bits e 12 12
def hasBackup (e : Nat) : Bool := bit e 24
def isLocal (e : Nat) : Bool := bit e 25
end CE

namespace Inst

/-- FEID that supplies index `i` now. -/
def feidOf (x : Inst) (i : Nat) : Nat := let e := x.contribs.getD i 0; if bit x.subst i then CE.backup e else CE.feid e

/-- All indices, as a mask. -/
def allBits (x : Inst) : Nat := 2 ^ GD.ncontrib x.desc - 1

/-- Indices a chunk still waits for. -/
def missing (x : Inst) (c : Chunk) : Nat := x.allBits - (x.allBits &&& (c.bits ||| x.excluded ||| c.excl))

/-- Index `i` is excluded, or substituted, for a chunk (R378, R385). -/
def isExcluded (x : Inst) (c : Option Chunk) (i : Nat) : Bool := bit x.excluded i || c.any (fun c => bit c.excl i)
def isSubst (x : Inst) (c : Option Chunk) (i : Nat) : Bool := bit x.subst i || c.any (fun c => bit c.subs i)

/-- Chunks whose record and slots are the quadrant's, not the group's reservation (R382). -/
def poolChunks (x : Inst) : Nat := Tab.count x.chunks (fun _ c => !c.reserved)

/-- OPEN chunks that wait for nothing more begin to round (R385, R386). -/
def settle (x : Inst) : Inst :=
  { x with chunks := Tab.mapV x.chunks (fun _ c => if c.phase = 1 && x.missing c = 0 then { c with phase := 2 } else c) }

/-- LOW moves past each run of complete chunks (R380). -/
def advance : Nat → Inst → Inst
  | 0, x => x
  | n + 1, x => if x.complete.contains x.low then advance n { x with low := x.low + 1, complete := x.complete.filter (· != x.low) } else x

/-- A chunk is COMPLETE: its slots and record are freed (R382). -/
def finish (x : Inst) (c : Nat) : Inst :=
  let x := { x with chunks := Tab.del x.chunks c, complete := x.complete ++ [c] }
  advance x.complete.length x

end Inst

namespace Dev

def inst (d : Dev) (g : Nat) : Option Inst := Tab.look d.yar.insts g
def setInst (d : Dev) (g : Nat) (x : Inst) : Dev := d.modYar (fun Y => { Y with insts := Tab.put Y.insts g x })
def journal (d : Dev) (q : Nat) : List JEnt := Tab.getD d.yar.journals q []
def setJournal (d : Dev) (q : Nat) (l : List JEnt) : Dev := d.modYar (fun Y => { Y with journals := Tab.set Y.journals q l [] })

/-- Exclude or substitute some indices of an instance under its policy, counting those newly so (R385, R386). -/
def giveUp (d : Dev) (g : Nat) (idx : List Nat) : Dev :=
  match d.inst g with
  | none => d
  | some x =>
    match GD.policy x.desc with
    | 1 =>
      let new := idx.filter (fun i => !bit x.excluded i)
      if new.isEmpty then d
      else (d.setInst g ({ x with excluded := x.excluded ||| maskOf new }).settle).bump (Reg.exclusions x.quad) new.length
    | 2 =>
      let new := idx.filter (fun i => !bit x.subst i && CE.hasBackup (x.contribs.getD i 0))
      if new.isEmpty then d
      else (d.setInst g { x with subst := x.subst ||| maskOf new }).bump (Reg.exclusions x.quad) new.length
    | _ => d

/-- An endpoint's port on this switch is gone: its indices are excluded or substituted at once (R386). -/
def contribGone (d : Dev) (feid : Nat) : Dev :=
  d.each (d.yar.insts.filter (fun kv => kv.2.state = 2)) (fun d kv =>
    let x := kv.2
    d.giveUp kv.1 ((List.range (GD.ncontrib x.desc)).filter (fun i => !CE.isLocal (x.contribs.getD i 0) && x.feidOf i = feid)))

/-! ### Results (R388, R389) and the journal (R390 to R392) -/

/-- A REDUCE_RESULT. -/
def resultPacket (g chunk status rop : Nat) (data : Bytes) : Packet :=
  { ptype := .reduceResult, cls := 1, comp := GD.comp g, status := status, group := GD.id g, chunk := chunk, ifmt := GD.ofmt g,
    nelem := GD.elems g, rop := rop, payload := data, mc := GD.destMode g = 0, dst := if GD.destMode g = 0 then GD.dest g else 0 }

/-- FEIDs a result of a chunk goes to (R389). -/
def destinations (d : Dev) (x : Inst) (chunk : Nat) : List Nat :=
  match GD.destMode x.desc with
  | 0 => (d.mcTargets (GD.dest x.desc) (GD.comp x.desc) none).2.filterMap d.memberFeid
  | 1 => [GD.dest x.desc]
  | 2 => [x.feidOf (chunk / GD.run x.desc % GD.ncontrib x.desc)]
  | _ => [x.feidOf ((members 32 (GD.planes x.desc)).filter (· < d.dom.swId)).length]

/-- Send a result to one destination alone. -/
def sendResult (d : Dev) (pk : Packet) (feid : Nat) : Dev := d.sendKeyed { pk with mc := false, dst := feid }

/-- Send a result for the first time: a multicast is admitted into the buffer of its own quadrant, or waits for room there, its journal entry without
destinations until then (R177, R389); a unicast joins the class streams (log 18). -/
def sendFirst (d : Dev) (q : Nat) (pk : Packet) (feids : List Nat) : Dev :=
  if pk.mc then
    let slot := d.reg (Reg.linkSlot pk.comp)
    match if d.linkSlotOf slot pk.comp then d.newestLive slot else none with
    | none => d.bump Reg.retiredDrops
    | some gen =>
      let pk := { pk with enc := true, kslot := slot, kgen := gen }
      match if d.mcHeld.any (fun x => x.1 = q) then none else d.placeResult q pk with
      | some d => d
      | none => { d.setDests q pk [] with mcHeld := d.mcHeld ++ [(q, pk)] }
  else d.each feids (fun d f => d.sendResult pk f)

/-- The missing mask of a chunk (R388). -/
def missMask (x : Inst) (c : Chunk) : Bytes := leBytes (maskBytes x.desc) (x.allBits - (x.allBits &&& c.bits))

/-- A chunk in ROUNDING or FAILED takes a free journal entry and becomes COMPLETE; its result is journaled and sent (R382, R388, R390). One
that finds no free entry waits, counted once. -/
def chunkRound (d : Dev) (g n : Nat) : Dev :=
  match d.inst g with
  | none => d
  | some x =>
    match Tab.look x.chunks n with
    | none => d
    | some c =>
      if x.state != 2 || c.phase = 1 then d
      else if SysArea.journal.2 / 16384 ≤ (d.journal x.quad).length then
        if c.waited then d
        else (d.setInst g { x with chunks := Tab.put x.chunks n { c with waited := true } }).bump (Reg.stalls x.quad)
      else
        let r := roundSlots x.desc c.slots
        let excl := decide (GD.policy x.desc = 1) && x.allBits &&& c.bits != x.allBits
        let pk :=
          if c.phase = 3 then resultPacket x.desc n St.timeout (GD.rop x.desc + 8) (padTo (max 2 (maskBytes x.desc)) (missMask x c))
          else resultPacket x.desc n 0 (GD.rop x.desc + (if excl then 8 else 0)) (r.1 ++ (if excl then missMask x c else []))
        let feids := d.destinations x n
        let d := d.setInst g (x.finish n)
        let d := if c.phase = 3 then d.bump (Reg.chunksFailed x.quad) else (d.bump (Reg.chunksDone x.quad)).bump (Reg.saturated x.quad) r.2
        let d := if feids.isEmpty then d
          else d.setJournal x.quad (d.journal x.quad ++ [{ group := g, chunk := n, pkt := pk, dests := feids.map (fun f => { feid := f }) }])
        d.sendFirst x.quad pk feids

/-- Resend what a destination that is back has not acknowledged (R392). -/
def resendTo (d : Dev) (feid : Nat) : Dev :=
  d.each [0, 1, 2, 3] (fun d q =>
    d.each ((d.journal q).filter (fun e => e.dests.any (fun x => x.feid = feid && !x.acked))) (fun d e =>
      (d.sendResult e.pkt feid).bump (Reg.resends q)))

end Dev

end Sys2Proof.Machine
end

