-- ==== Sys2Proof/Machine/JobCheck.lean ====
section
/-! DEFINITION. Check 1 of R324: what a JOB_POST payload must obey (R317 to R321, R326 to R328, R354, R362, R402, R403, R408, R411, R417,
R428, R437, R438, R462, R465). -/

namespace Sys2Proof.Machine

/-- All bytes of a part of the payload are zero. -/
def zeros (p : Bytes) (off n : Nat) : Bool := (slice p off n).all (· = 0)

/-- Operator codes of the table (R326), and those that run on tiles. -/
def knownOp (c : Nat) : Bool := decide (1 ≤ c ∧ c ≤ 13)
def tileOp (c : Nat) : Bool := [1, 2, 3, 4, 5, 6, 7, 10, 11].contains c

-- Operand kinds (R320).
namespace Kind
def none' : Nat := 0
def va : Nat := 1
def staged : Nat := 2
def inline : Nat := 3
def result : Nat := 4
def contrib : Nat := 5
end Kind

/-- CONTRIB address fields (R402). -/
structure CAddr where
  base : Nat
  index : Nat
  rows : Nat
  chunk : Nat
  deriving DecidableEq, Repr

def cAddr (a : Nat) : CAddr := { base := bits a 0 16, index := bits a 16 12, rows := bits a 28 12, chunk := bits a 40 24 }

/-! ### Operands (R320, R321) -/

/-- An operand descriptor by itself: reserved fields, and the address its KIND gives, of which a CODED operand's least stored length is known
(log 181). -/
def opndOk (p : Bytes) (i k : Nat) : Bool :=
  let a := JD.addr p i k
  JD.kind p i k ≤ 5 && JD.fmt p i k ≤ 9 && JD.oflags p i k < 2 && zeros p (JD.opndOff i k + 11) 1 &&
  let n := JD.leastLen p i k
  match JD.kind p i k with
  | 1 => a < 2 ^ 46 && a + n ≤ 2 ^ 46
  | 2 => a + n ≤ tierHBase
  | 3 => a + n ≤ JD.inlineLen p
  | 4 => a + n ≤ 2 ^ 29
  | _ => true

/-- An operand read: VA, STAGED or INLINE. -/
def isIn (p : Bytes) (i k : Nat) : Bool := [1, 2, 3].contains (JD.kind p i k)

/-- An operand written: VA or RESULT, not coded. -/
def isOut (p : Bytes) (i k : Nat) : Bool := [1, 4].contains (JD.kind p i k) && !JD.coded p i k

/-- LEN is that of R rows of C columns, an MX row being a multiple of 32 (R351, R352, R354). -/
def shapeOk (p : Bytes) (i k rows cols : Nat) : Bool :=
  let f := JD.fmt p i k
  (!isMx f || cols % 32 = 0) && JD.olen p i k = layoutLen f rows cols

/-- The operands of an ELEMWISE node run on the integer path (R362). -/
def intPath (p : Bytes) (i : Nat) : Bool :=
  let f := JD.fmt p i 0
  isInt f && (List.range (JD.nopnd p i)).all (fun k => JD.fmt p i k = f)

/-! ### Predicates (R438) -/

namespace PD
def npred (b : Bytes) : Nat := le b 0 1
def combine (b : Bytes) : Nat := le b 1 1
def invert (b : Bytes) : Nat := le b 2 1
def col (b : Bytes) (j : Nat) : Nat := le b (16 + 24 * j) 2
def ctype (b : Bytes) (j : Nat) : Nat := le b (18 + 24 * j) 1
def cmp (b : Bytes) (j : Nat) : Nat := le b (19 + 24 * j) 1
def lo (b : Bytes) (j : Nat) : Nat := le b (24 + 24 * j) 8
def hi (b : Bytes) (j : Nat) : Nat := le b (32 + 24 * j) 8
/-- Bytes of a column type. -/
def width (t : Nat) : Nat := ([1, 2, 4, 8, 1, 2, 4, 8, 2, 2, 4] : List Nat).getD t 1
/-- The descriptor of a row size obeys R438. -/
def ok (b : Bytes) (row : Nat) : Bool :=
  1 ≤ npred b && npred b ≤ 8 && b.length = 16 + 24 * npred b && combine b ≤ 1 && invert b ≤ 1 && zeros b 3 13 &&
  (List.range (npred b)).all (fun j =>
    let w := width (ctype b j)
    ctype b j ≤ 10 && cmp b j ≤ 8 && !(7 ≤ cmp b j && 8 ≤ ctype b j) && col b j % w = 0 && col b j + w ≤ row
      && zeros b (20 + 24 * j) 4 && lo b j < 256 ^ w && hi b j < 256 ^ w && (cmp b j = 6 || hi b j = 0))
end PD

/-! ### Operators (R326) -/

def gemmOk (p : Bytes) (i : Nat) : Bool :=
  let m := JD.param p i 0
  let n := JD.param p i 1
  let k := JD.param p i 2
  JD.nopnd p i = 3 && 1 ≤ m && m ≤ 65536 && 32 ≤ n && n ≤ 1048576 && n % 32 = 0 && 32 ≤ k && k ≤ 65536 && k % 32 = 0
    && isIn p i 0 && isIn p i 1 && JD.fmt p i 0 ≤ 5 && JD.fmt p i 1 ≤ 5 && !JD.coded p i 1 && !JD.coded p i 2
    && (JD.fmt p i 2 = 5 || JD.fmt p i 2 = 7) && [1, 4, 5].contains (JD.kind p i 2)
    && (!bit (JD.nflags p i) 0 || JD.kind p i 2 = 1)
    && shapeOk p i 0 m k && shapeOk p i 1 n k && shapeOk p i 2 m n

def attendOk (p : Bytes) (i : Nat) : Bool :=
  let h := JD.param p i 0 % 65536
  let g := JD.param p i 0 / 65536
  let dd := JD.param p i 1
  let t := JD.param p i 3
  let f32 := fun k n => JD.kind p i k = 1 && !JD.coded p i k && JD.fmt p i k = 7 && JD.olen p i k = 4 * n
  JD.nopnd p i = 5 && JD.subop p i ≤ 2 && 1 ≤ g && 1 ≤ h && h % g = 0 && [64, 128, 256].contains dd && JD.param p i 2 ≤ 1048576 && 1 ≤ t
    && isIn p i 0 && [3, 4, 5].contains (JD.fmt p i 0) && shapeOk p i 0 t (h * dd)
    && isIn p i 1 && !JD.coded p i 1 && JD.fmt p i 1 = 9 && JD.olen p i 1 % 8 = 0 && 8 * t ≤ JD.olen p i 1
    && ((f32 2 (t * h) && f32 3 (t * h) && f32 4 (t * h * dd))
      || (JD.kind p i 2 = 0 && JD.kind p i 3 = 0 && JD.kind p i 4 = 4 && !JD.coded p i 4 && JD.fmt p i 4 = 7
          && JD.olen p i 4 = t * h * (8 + 4 * dd)))

def reduceOk (p : Bytes) (i : Nat) : Bool :=
  let r := JD.param p i 0
  let c := JD.param p i 1
  JD.nopnd p i = 2 && JD.subop p i ≤ 2 && JD.param p i 2 ≤ 1 && 1 ≤ r && 1 ≤ c && r * c ≤ 2 ^ 28 && isIn p i 0 && isOut p i 1
    && shapeOk p i 0 r c && shapeOk p i 1 1 (if JD.param p i 2 = 0 then c else r)

def elemwiseOk (p : Bytes) (i : Nat) : Bool :=
  let n := JD.param p i 0
  let a := elemArity (JD.subop p i)
  JD.subop p i ≤ 0x27 && JD.nopnd p i = a + 1 && 1 ≤ n && n ≤ 2 ^ 28 && (List.range a).all (isIn p i) && isOut p i a
    && (List.range (a + 1)).all (fun k => shapeOk p i k 1 n) && (!intPath p i || intPathOk (JD.subop p i))

def softmaxOk (p : Bytes) (i : Nat) : Bool :=
  let r := JD.param p i 0
  let c := JD.param p i 1
  JD.nopnd p i = 2 && 1 ≤ r && 1 ≤ c && c ≤ 1048576 && isIn p i 0 && isOut p i 1 && shapeOk p i 0 r c && shapeOk p i 1 r c

def normOk (p : Bytes) (i : Nat) : Bool :=
  let r := JD.param p i 0
  let c := JD.param p i 1
  let s := JD.subop p i
  s ≤ 1 && JD.nopnd p i = 3 + s && 1 ≤ r && 1 ≤ c && c ≤ 65536 && (List.range (2 + s)).all (isIn p i) && isOut p i (2 + s)
    && shapeOk p i 0 r c && shapeOk p i 1 1 c && (s = 0 || shapeOk p i 2 1 c) && shapeOk p i (2 + s) r c

def topkOk (p : Bytes) (i : Nat) : Bool :=
  let r := JD.param p i 0
  let c := JD.param p i 1
  let k := JD.param p i 2
  JD.nopnd p i = 3 && 1 ≤ r && 1 ≤ c && c ≤ 1048576 && 1 ≤ k && k ≤ 1024 && isIn p i 0 && isOut p i 1 && isOut p i 2
    && JD.fmt p i 2 = 9 && shapeOk p i 0 r c && shapeOk p i 1 r k && shapeOk p i 2 r k

def gatherOk (p : Bytes) (i : Nat) : Bool :=
  let n := JD.param p i 0
  let e := JD.param p i 1
  (JD.nopnd p i = 3 || JD.nopnd p i = 4) && (List.range (JD.nopnd p i)).all (fun k => !JD.coded p i k)
    && isIn p i 0 && (JD.fmt p i 0 = 8 || JD.fmt p i 0 = 9) && JD.olen p i 0 = 4 * n
    && [1, 2].contains (JD.kind p i 1) && JD.addr p i 1 % 32 = 0 && e ≤ JD.olen p i 1
    && isOut p i 2 && JD.olen p i 2 = n * e && (JD.nopnd p i = 3 || (isOut p i 3 && JD.olen p i 3 = n))
    && 1 ≤ n && n ≤ 1048576 && 32 ≤ e && e ≤ 65536 && e % 32 = 0 && JD.param p i 2 % 32 = 0 && JD.param p i 3 ≤ 1

/-- The inline area's bytes of an operand. -/
def inlineOf (p : Bytes) (i k : Nat) : Bytes := slice p (JD.inlineOff p + JD.addr p i k) (JD.olen p i k)

def filterOk (p : Bytes) (i : Nat) : Bool :=
  let n := JD.param p i 0
  let r := JD.param p i 1
  let kd := JD.kind p i
  JD.nopnd p i = 5 && (List.range 5).all (fun k => !JD.coded p i k) && isIn p i 0 && JD.olen p i 0 = n * r
    && (kd 1 = 1 || kd 1 = 3) && 16 + 24 ≤ JD.olen p i 1 && JD.olen p i 1 ≤ 16 + 24 * 8 && (JD.olen p i 1 - 16) % 24 = 0
    && (kd 1 != 3 || PD.ok (inlineOf p i 1) r)
    && [0, 1, 4].contains (kd 2) && (kd 2 != 1 || (r != 0 && JD.olen p i 2 % r = 0))
    && [0, 1, 4].contains (kd 3) && (kd 3 != 1 || JD.olen p i 3 % 4 = 0)
    && !(kd 2 = 0 && kd 3 = 0) && (kd 4 = 0 || (kd 4 = 1 && JD.olen p i 4 = 8)) && (!(kd 2 = 1 || kd 3 = 1) || kd 4 = 1)
    && 1 ≤ n && n ≤ 2 ^ 28 && 8 ≤ r && r ≤ 4096 && r % 8 = 0 && JD.param p i 2 = 0 && JD.param p i 3 = 0

def expandOk (p : Bytes) (i : Nat) : Bool :=
  JD.nopnd p i = 2 && isIn p i 0 && JD.coded p i 0 && isOut p i 1 && JD.fmt p i 1 = JD.fmt p i 0 && JD.olen p i 1 = JD.olen p i 0
    && 1 ≤ JD.olen p i 0

def compressOk (p : Bytes) (i : Nat) : Bool :=
  let f := JD.fmt p i 0
  JD.nopnd p i = 2 && JD.subop p i ≤ 3 && isIn p i 0 && !JD.coded p i 0 && [1, 4].contains (JD.kind p i 1) && JD.coded p i 1
    && JD.fmt p i 1 = f && JD.olen p i 1 = JD.olen p i 0 && 1 ≤ JD.olen p i 0 && (JD.kind p i 1 != 4 || JD.olen p i 0 ≤ 2 ^ 27)
    && (JD.subop p i != 1 || f = 5 || f = 7) && (JD.subop p i != 2 || isMx f)

/-- The k data units stand in one operand: six descriptors could not name fourteen (R326). -/
def parityOk (p : Bytes) (i : Nat) : Bool :=
  let k := JD.param p i 0
  let u := JD.param p i 1
  JD.nopnd p i = 3 && 4 ≤ k && k ≤ 14 && 4096 ≤ u && u % 4096 = 0 && isIn p i 0 && !JD.coded p i 0 && JD.olen p i 0 = k * u
    && isOut p i 1 && JD.olen p i 1 = u && isOut p i 2 && JD.olen p i 2 = u

def copyOk (p : Bytes) (i : Nat) : Bool :=
  JD.nopnd p i = 2 && isIn p i 0 && !JD.coded p i 0 && isOut p i 1 && JD.olen p i 0 = JD.olen p i 1 && 1 ≤ JD.olen p i 0

/-- A node record obeys its table and its operator's row (R319, R321, R326). -/
def nodeOk (p : Bytes) (i : Nat) : Bool :=
  let n := JD.nopnd p i
  knownOp (JD.opcode p i) && JD.nflags p i < 2 && 1 ≤ n && n ≤ 6 && zeros p (JD.nodeOff i + 4) 4 && JD.deps p i < 2 ^ i
    && (List.range n).all (opndOk p i) && zeros p (JD.opndOff i n) (16 * (6 - n))
    && decide (((List.range n).filter (fun k => JD.kind p i k = 4)).length ≤ 1) &&
  match JD.opcode p i with
  | 1 => gemmOk p i
  | 2 => attendOk p i
  | 3 => reduceOk p i
  | 4 => elemwiseOk p i
  | 5 => softmaxOk p i
  | 6 => normOk p i
  | 7 => topkOk p i
  | 8 => gatherOk p i
  | 9 => filterOk p i
  | 10 => expandOk p i
  | 11 => compressOk p i
  | 12 => parityOk p i
  | _ => copyOk p i

/-- End of the staging descriptors. -/
def fixedEnd (p : Bytes) : Nat := JD.stageOff p (JD.nstage p)

/-- Staging descriptors of a payload. -/
def stagesOf (p : Bytes) : List Bytes := (List.range (JD.nstage p)).map (fun i => slice p (JD.stageOff p i) 32)

/-- The descriptor and the payload's parts (R317, R318, R417). -/
def payloadOk (p : Bytes) : Bool :=
  let r := JD.replyFeid p
  JD.version p = 1 && 1 ≤ JD.nnodes p && JD.nnodes p ≤ 64 && JD.flags p < 4 && (r = 0xFFFF || r < 4096) && 1 ≤ JD.tileMax p
    && JD.tileMax p ≤ 30 && JD.qshift p ≤ 8 && JD.nstage p ≤ 64 && JD.policy p ≤ 2 && JD.priority p ≤ 3 && zeros p 29 67
    && JD.inlineOff p % 16 = 0 && fixedEnd p ≤ p.length
    && (JD.inlineLen p = 0 ||
        (fixedEnd p ≤ JD.inlineOff p && JD.inlineOff p + JD.inlineLen p ≤ p.length && zeros p (fixedEnd p) (JD.inlineOff p - fixedEnd p)))
    && (stagesOf p).all SD.ok && (List.range (JD.nnodes p)).all (nodeOk p)

namespace Dev

/-- Every group that a CONTRIB operand feeds admits it (R403). -/
def contribOk (d : Dev) (comp : Nat) (p : Bytes) (i : Nat) : Bool :=
  let a := cAddr (JD.addr p i 2)
  let m := JD.param p i 0
  JD.opcode p i != 1 || JD.kind p i 2 != 5 || (a.rows != 0 &&
    (List.range (ceilDiv m a.rows)).all (fun r =>
      match Tab.look d.yar.insts (a.base + r) with
      | some x => x.state = 2 && GD.comp x.desc = comp && GD.rop x.desc = 0 && GD.ifmt x.desc = JD.fmt p i 2
          && JD.param p i 1 % GD.elems x.desc = 0 && CE.isLocal (x.contribs.getD a.index 0)
      | none => false))

/-- A backup names another switch of the plane set (R417). -/
def backupOk (d : Dev) (p : Bytes) : Bool :=
  let r := slice p (JD.inlineOff p) 16
  !JD.backup p || (16 ≤ JD.inlineLen p && le r 0 1 != d.dom.swId && le r 0 1 < 32 && bit d.dom.planeSet (le r 0 1) && zeros r 1 15)

/-- Check 1 of R324. -/
def descOk (d : Dev) (pk : Packet) : Bool :=
  let p := pk.payload
  payloadOk p && d.backupOk p && (List.range (JD.nnodes p)).all (d.contribOk pk.comp p)

end Dev

end Sys2Proof.Machine
end

