-- ==== Sys2Proof/Machine/Atomic.lean ====
section
/-! DEFINITION. The atomic operations (R207, R208) on an aligned operand. -/

namespace Sys2Proof.Machine

/-- New value of an aligned operand: operation, width in bytes, signedness, old value, payload (R207, R208). -/
def atomicNew (aop w : Nat) (signed : Bool) (old : Nat) (payload : Bytes) : Nat :=
  let x := le payload 0 w
  let less := fun a b => if signed then decide (toInt (8 * w) a < toInt (8 * w) b) else decide (a < b)
  match aop with
  | 1 => (old + x) % 2 ^ (8 * w)
  | 2 => if less x old then x else old
  | 3 => if less old x then x else old
  | 4 => if old = x then le payload w w else old
  | _ => old

/-- Apply an ATOMIC to a string of bytes at an offset in it: the new string and the prior value (R213). -/
def applyAtomic (line : Bytes) (off : Nat) (p : Packet) : Bytes × Bytes :=
  let w := 4 * 2 ^ p.awidth
  let prior := slice line off w
  (splice line off (leBytes w (atomicNew p.aop w p.asigned (leNat prior) p.payload)), prior)

end Sys2Proof.Machine
end

