-- ==== Sys2Proof/Machine/Groups.lean ====
section
/-! DEFINITION. Stripe groups as their home sees them: the entry that names a group, the stripes that are this switch's, spares, the end of a
rebuild (R480, R481, R484). -/

namespace Sys2Proof.Machine

namespace Dev

/-- The active Home Map entry that names a group (R470). -/
def hmapOfGroup (d : Dev) (g : Nat) : Option (Nat × Nat) :=
  d.hmapActive.find? (fun e => HMap.state e.2 != 0 && HMap.stripe e.2 && HMap.group e.2 = g)

/-- The first stripe at or after a number whose home plane is this switch (R144, R481). -/
def ownStripe (d : Dev) (hmap s : Nat) : Option Nat :=
  let ms := members 32 (HMap.planes hmap)
  match ms.findIdx? (fun i => d.ownId = some i) with
  | some i => some (s + (i + ms.length - s % ms.length) % ms.length)
  | none => none

/-- The home serves the group now. -/
def groupServed (d : Dev) (g : Nat) : Bool := 2 ≤ d.level (SG.quad (d.sg g))

/-- Valid spares of a group not assigned to a member, rising. -/
def freeSpares (d : Dev) (g : Nat) : List Nat :=
  [0, 1].filter (fun i => SG.spareValid (d.sg g) i && !((d.group g).spareOf.any (fun (kv : Nat × Nat) => kv.2 = i)))

/-- A member is given a spare and is being rebuilt (R480). -/
def assignSpare (d : Dev) (g m : Nat) : Dev :=
  match d.freeSpares g with
  | [] => d
  | i :: _ =>
    let e := d.sg g
    let e := SG.setMask (SG.setMstate e m 2) (setBit (SG.mask e) m true)
    (d.setSg g e).modGroup g (fun G => { G with spareOf := Tab.put G.spareOf m i })

/-- The rebuild has passed the last stripe (R484): each spare's FEID is the member's in both forms, and its SPARE_VALID bit is clear wherever a
form names it as a spare. -/
def rebuildDone (d : Dev) (g : Nat) : Dev :=
  let e := d.sg g
  let ms := (List.range (SG.k e + 2)).filter (fun m => SG.mstate e m = 2)
  let spare := fun m => (Tab.look (d.group g).spareOf m).getD 0
  let take := fun e m => SG.clearSpare (SG.setMember e m (SG.spare e (spare m))) (spare m)
  let e' := ms.foldl (fun e m => SG.setMstate (take e m) m 0) e
  let failed := (List.range (SG.k e + 2)).any (fun m => SG.mstate e' m = 1)
  let e' := SG.setGstate (SG.setCursor (SG.setMask e' 0) (SG.stripes e)) (if failed then 2 else 1)
  let own := fun s f => [0, 1].foldl (fun s i => if SG.spareValid s i && SG.spare s i = f then SG.clearSpare s i else s) s
  let staged := ms.foldl (fun s m => SG.setMember (own s (SG.spare e (spare m))) m (SG.spare e (spare m))) (d.reg (Reg.sgStage g))
  let d := ((d.setSg g e').setReg (Reg.sgStage g) staged).bump Reg.rebuildsDone
  let d := d.modGroup g (fun G => { G with spareOf := [] })
  d.event (SG.quad e) { code := Ev.rebuildDone, unit := g, detail := leBytes 2 g }

/-- The rebuild goes on from a stripe, or is done where no own stripe is left (R481, R484). -/
def rebuildFrom (d : Dev) (g hmap s : Nat) : Dev :=
  let d := d.setSg g (SG.setCursor (d.sg g) s)
  match d.ownStripe hmap s with
  | some n => if SG.stripes (d.sg g) ≤ n then d.rebuildDone g else d
  | none => d

/-- The 128-byte lines in which two units differ. -/
def diffLines (a b : Bytes) : List Nat := (List.range 32).filter (fun i => slice a (128 * i) 128 != slice b (128 * i) 128)

end Dev

end Sys2Proof.Machine
end

