-- ==== Sys2Proof/Machine/Home.lean ====
section
/-! DEFINITION. The home functions (R193 to R222): taking requests, forwarding to trays, merge records, the dedup window, encryption at
rest (R550), stripes and their degraded service (R471 to R479), member failures (R476, R477, R485, R486), tray answers (R126, R488, R492). -/

namespace Sys2Proof.Machine

namespace Dev

/-! ### Operations in take order -/

def modOps (d : Dev) (q : Nat) (f : List HomeOp → List HomeOp) : Dev := d.modHome q (fun H => { H with ops := f H.ops })
def opOf (d : Dev) (q id : Nat) : Option HomeOp := (d.home q).ops.find? (fun o => o.id = id)
def setOp (d : Dev) (q : Nat) (o : HomeOp) : Dev := d.modOps q (fun l => l.map (fun x => if x.id = o.id then o else x))

/-- Requests outstanding at trays for an operation. -/
def subsOf (d : Dev) (q id : Nat) : List TraySub := (d.home q).subs.filter (fun s => s.op = id)

/-- An operation leaves the list; requests of it still outstanding keep their tags until their answers come. -/
def dropOp (d : Dev) (q id : Nat) : Dev :=
  d.modHome q (fun H => { H with ops := H.ops.filter (fun o => o.id != id),
                                 subs := H.subs.map (fun s => if s.op = id then { s with op := 0 } else s) })

/-! ### Stripe groups (R471, R478, R482) -/

/-- FEID of the tray that serves a unit of a stripe, where the unit is available. -/
def unitTray (d : Dev) (g s u : Nat) : Option Nat :=
  let e := d.sg g
  let m := SG.memberOf e s u
  match SG.mstate e m with
  | 0 => some (SG.member e m)
  | 2 => if s < SG.cursor e then (Tab.look (d.group g).spareOf m).map (SG.spare e) else none
  | _ => none

/-- DA of the first byte of a data unit of a stripe under a Home Map entry. -/
def unitDa (d : Dev) (g hmap s j : Nat) : Nat := HMap.base hmap * 2 ^ 21 + (s * SG.k (d.sg g) + j) * 4096

/-- A data unit of the last stripe that lies past LAST reads as zero and is never addressed (R471). -/
def pastEnd (d : Dev) (g hmap s j : Nat) : Bool := decide ((HMap.last hmap + 1) * 2 ^ 21 ≤ d.unitDa g hmap s j)

/-- A stripe gained by a commit whose parity is not yet verified (R493). -/
def stripeUnverified (d : Dev) (g hmap s : Nat) : Bool :=
  let da := d.unitDa g hmap s 0
  (d.group g).unverified.any (fun u =>
    !u.done.contains s && (u.old = 0 || !HMap.covers u.old da || d.ownId != some (homePlane u.old (SG.k (d.sg g)) da)))

/-! ### Shape of an operation -/

/-- Slot of the region's key at rest, where its tray data takes one (R550). -/
def restSlotOf (op : HomeOp) : Option Nat :=
  if !op.tierH && (Region.restEnc op.region || Region.restMac op.region) then some (Region.restSlot op.region) else none

/-- The range an operation reads and writes at the trays: its own bytes, the whole line of a merge record, or the whole 256-byte units at
rest (R210, R550). -/
def accessRange (op : HomeOp) : Nat × Nat :=
  let a := if op.kind = .merge then op.off / 128 * 128 else op.off
  let n := if op.kind = .merge then 128 else op.len
  if (restSlotOf op).isSome then (a / 256 * 256, roundUp (a + n) 256 - a / 256 * 256) else (a, n)

/-- Lines held, numbered apart for stripe lines (R202, R473). -/
def keysOf (op : HomeOp) : List Nat :=
  let r := accessRange op
  let first := r.1 / 128
  let n := (r.1 + max 1 r.2 - 1) / 128 + 1 - first
  match op.grp with
  | none => (List.range n).map (first + ·)
  | some g => (List.range n).map (fun i => 2 ^ 60 + (g * 2 ^ 32 + op.stripe) * 32 + first + i)

/-- The operation of a request or of a closed merge record. -/
def mkOp (d : Dev) (q : Nat) (kind : OpKind) (p : Packet) (tierH : Bool) (hmapNo hmap region : Nat) : HomeOp :=
  let len := if kind = .read then p.rlen else p.payload.length
  let base : HomeOp :=
    { id := (d.home q).nextOp, kind := kind, pkt := p, tierH := tierH, hmapNo := hmapNo, hmap := hmap, region := region, len := len,
      data := p.payload, tick := d.tick }
  let gen := ((restSlotOf base).bind d.newestLive).getD 0
  let op :=
    if tierH then { base with off := d.windowOff p.da }
    else if HMap.stripe hmap then
      let g := HMap.group hmap
      let k := SG.k (d.sg g)
      let o := p.da - HMap.base hmap * 2 ^ 21
      { base with grp := some g, stripe := o / (k * 4096), unit := o % (k * 4096) / 4096, off := o % 4096, restGen := gen }
    else { base with off := p.da, restGen := gen }
  { op with keys := keysOf op }

/-- A step of the rebuild or of the resync pass, which nobody waits for (R481, R493). -/
def isBack (op : HomeOp) : Bool := op.kind = .rebuild || op.kind = .resync

/-- Device addresses that an operation bears on, first byte and length: whole units at rest, the whole stripe for a background step (R489, R550). -/
def lineSpan (op : HomeOp) : Nat × Nat :=
  let n := max 1 (if isBack op then op.pkt.rlen else op.len)
  if (restSlotOf op).isSome then (op.pkt.da / 256 * 256, roundUp (op.pkt.da + n) 256 - op.pkt.da / 256 * 256) else (op.pkt.da, n)

/-- Two ranges of device addresses, each first byte and length, touch one 128-byte line. -/
def linesMeet (a b : Nat × Nat) : Bool :=
  let last := fun (x : Nat × Nat) => (x.1 + max 1 x.2 - 1) / 128
  decide (a.1 / 128 ≤ last b) && decide (b.1 / 128 ≤ last a)

/-- Append an operation in take order. -/
def addOp (d : Dev) (q : Nat) (op : HomeOp) : Dev := d.modHome q (fun H => { H with ops := H.ops ++ [op], nextOp := H.nextOp + 1 })

/-! ### Answers (R203, R214, R218) -/

/-- The operation is a merge record, its write perhaps repeated on a stripe (R488). -/
def isRecord (op : HomeOp) : Bool := op.kind = .merge || !op.atoms.isEmpty

/-- A record whose write was repeated on a stripe, as the record it is. -/
def asMerge (op : HomeOp) : HomeOp := if op.atoms.isEmpty then op else { op with kind := .merge }

def tripleOf (p : Packet) : Nat := p.src * 2 ^ 24 + p.reqEpoch * 2 ^ 16 + p.tag

/-- Count requests completed with ERR_HOME_LOST or ERR_DATA_LOST (R477, R486 to R488, R492, R493; R663's too, log 186). -/
def countLost (d : Dev) (status n : Nat) : Dev :=
  if status = St.homeLost then d.bump Reg.homeLost n else if status = St.dataLost then d.bump Reg.dataLost n else d

/-- Requests that an operation completes: the atomics of a record, one otherwise. -/
def requestsOf (op : HomeOp) : Nat := if isRecord op then op.atoms.length else 1

/-- Answer an atomic and every retry attached to its record (R214, R216). -/
def answerAtomic (d : Dev) (q : Nat) (a : Packet) (status : Nat) (prior : Bytes) : Dev :=
  let data := if status = 0 then prior else []
  let att := ((Tab.look (d.home q).dedup (tripleOf a)).map (·.attached)).getD []
  (d.sendFeid (d.respTo a status data)).each att (fun d r => d.sendFeid (d.respTo r status data))

/-- The dedup record of an atomic whose record ends with a status: freed where the write was not sent, which is as not applied, else kept to
the end of its time with the status (R215, R218). -/
def settleDedup (d : Dev) (q : Nat) (op : HomeOp) (status : Nat) (a : Packet) : Dev :=
  d.modHome q (fun H =>
    { H with dedup := if op.phase < 2 then Tab.del H.dedup (tripleOf a)
                      else Tab.edit H.dedup (tripleOf a) (fun r => { r with written := true, status := status, attached := [] }) })

/-- What has come back of an access of tier P by a unit, where its quantum still runs, or by a scheduler for a node that it hands back (R227, R308,
R415). -/
def answerUnit (d : Dev) (q id status : Nat) (data : Bytes) : Dev :=
  let put := fun (a : TrayAccess) => if a.quad = q && a.op = id then { a with answer := some (status, data) } else a
  d.modJobs (fun J => { J with
    running := Tab.mapV J.running (fun _ (x : Quantum) => { x with trays := x.trays.map put }),
    recs := Tab.mapV J.recs (fun _ (j : Job) => if j.nodes.all (fun n => n.trays.isEmpty) then j
      else { j with nodes := j.nodes.map (fun n => { n with trays := n.trays.map put }) }) })

/-- A READ is answered: to the packet's sender, to the unit that made it, or to the staging slot whose fill it serves while the slot waits for it
(R203, R227, R244). -/
def answerRead (d : Dev) (q : Nat) (op : HomeOp) (status : Nat) (data : Bytes) : Dev :=
  match op.fill with
  | none => if op.own then d.answerUnit q op.id status data else d.sendFeid (d.respTo op.pkt status data)
  | some s => d.modTiers (fun T => { T with slots := Tab.edit T.slots s (fun x =>
      if x.read.map Prod.snd = some op.id then { x with answer := some (status, data) } else x) })

/-- Complete an operation: a request is answered with the status, and with its data where that is OK (R18); each atomic of a record is
answered; a step of a background pass is dropped. -/
def completeOp (d : Dev) (q : Nat) (op : HomeOp) (status : Nat) (data : Bytes) : Dev :=
  let d := match (asMerge op).kind with
    | .read => d.answerRead q op status (if status = 0 then data else [])
    | .write => d.sendFeid (d.respTo op.pkt status [])
    | .posted => if op.own then d.answerUnit q op.id status [] else if status = 0 then d else d.sendFeid (d.respTo op.pkt status [])
    | .merge => d.each op.atoms (fun d a => (d.answerAtomic q a status []).settleDedup q op status a)
    | .rebuild | .resync => d
  d.dropOp q op.id

/-- What a group's rebuild does next waits for the edge after this tick (R480, R481, R485). -/
def holdRebuild (d : Dev) (g : Nat) : Dev := d.modGroup g (fun G => { G with held := some d.tick })

/-- Complete with a status and count it; a step of the rebuild is given up until the next edge (R481). -/
def failOp (d : Dev) (q : Nat) (op : HomeOp) (status : Nat) : Dev :=
  let d := match op.kind, op.grp with
    | .rebuild, some g => d.holdRebuild g
    | _, _ => d
  (if isBack op then d else d.countLost status (requestsOf op)).completeOp q op status []

/-! ### Requests to trays (R126, R200, R548, R662) -/

/-- A TAG of the home function that it holds outstanding to no request at the tray (R662). -/
def ownTag (d : Dev) (q feid : Nat) : Nat :=
  let H := d.home q
  let busy := fun t => H.subs.any (fun s => s.feid = feid && s.src = 0 && s.reqEpoch = 0 && s.tag = t)
  (((List.range (H.subs.length + 1)).map (fun i => (H.nextTag + i) % 65536)).find? (fun t => !busy t)).getD H.nextTag

/-- The packet of a request the home originates. -/
def ownPacket (s : TraySub) : Packet :=
  { ptype := if s.write then .write else .read, cls := s.cls, dst := s.feid, comp := s.comp, tag := s.tag, da := s.addr, epoch := s.epoch,
    rlen := if s.write then 0 else s.len, payload := s.data }

/-- The home originates a request to a tray for an operation. -/
def sendOwn (d : Dev) (q : Nat) (op : HomeOp) (role feid : Nat) (write : Bool) (addr len : Nat) (data : Bytes) : Dev :=
  let s : TraySub :=
    { port := (d.portOfFeid feid).getD 0xFFFF, feid := feid, src := 0, reqEpoch := 0, tag := d.ownTag q feid, write := write, addr := addr,
      len := len, data := data, cls := if isBack op then 7 else 2, comp := op.pkt.comp, hmapNo := op.hmapNo, epoch := HMap.epoch op.hmap,
      op := op.id, role := role, grp := op.grp, da := (lineSpan op).1, span := (lineSpan op).2 }
  (d.modHome q (fun H => { H with subs := H.subs ++ [s], nextTag := (s.tag + 1) % 65536 })).sendKeyed (ownPacket s)

/-- The home forwards a request to its tray (R126, R203). -/
def forward (d : Dev) (q : Nat) (op : HomeOp) (feid port : Nat) : Dev :=
  let p := { op.pkt with ptype := if op.kind = .read then .read else .write, dst := feid, epoch := HMap.epoch op.hmap }
  let s : TraySub :=
    { port := port, feid := feid, src := p.src, reqEpoch := p.reqEpoch, tag := p.tag, write := op.kind != .read, addr := p.da, len := op.len,
      cls := p.cls, comp := p.comp, hmapNo := op.hmapNo, epoch := p.epoch, op := op.id, fwd := true, da := (lineSpan op).1,
      span := (lineSpan op).2 }
  ((d.modHome q (fun H => { H with subs := H.subs ++ [s] })).countOut p).sendPort port p

/-! ### Encryption at rest (R550) -/

/-- Key material of an operation's generation; none where it is zeroized (R552). -/
def restKey (d : Dev) (op : HomeOp) : Option Bytes := (restSlotOf op).bind (fun s => (d.keyGen s op.restGen).map (·.key))

/-- DA of the first byte of the accessed range. -/
def rangeDa (d : Dev) (op : HomeOp) : Nat :=
  match op.grp with
  | none => (accessRange op).1
  | some g => d.unitDa g op.hmap op.stripe op.unit + (accessRange op).1

/-- Encrypt or decrypt a range of whole 256-byte units. -/
def restCipher (dec : Bool) (op : HomeOp) (key : Bytes) (da : Nat) (bs : Bytes) : Bytes :=
  if Region.restEnc op.region then
    (List.range (bs.length / 256)).flatMap (fun i => Config.xts dec key ((da + 256 * i) / 256) (slice bs (256 * i) 256))
  else bs

/-- The MACs of a range of whole units. -/
def restMacs (key : Bytes) (da : Nat) (bs : Bytes) : Bytes :=
  (List.range (bs.length / 256)).flatMap (fun i => padTo 8 (Config.restMac key (da + 256 * i) (slice bs (256 * i) 256)))

/-- DA of the MAC of the unit at a DA. -/
def macDa (region da : Nat) : Nat :=
  let base := Region.base region * 2 ^ 21
  base + 2 ^ (Region.size region + 21) / 32 * 31 + 8 * ((da - base) / 256)

/-! ### Applying a merge record (R213, R215) -/

/-- Apply the atomics of a record to its line in join order; their dedup records turn LIVE. -/
def applyMerge (d : Dev) (q : Nat) (op : HomeOp) (line : Bytes) : Bytes × List Bytes × Dev :=
  let t := d.tick
  let r := op.atoms.foldl (fun (acc : Bytes × List Bytes × Dev) a =>
    let x := applyAtomic acc.1 (a.da % 128) a
    (x.1, acc.2.1 ++ [x.2], acc.2.2.modHome q (fun H =>
      { H with dedup := Tab.edit H.dedup (tripleOf a) (fun r => { r with state := 1, tick := t, prior := x.2 }) }))) (line, [], d)
  (r.1, r.2.1, r.2.2.bump (Reg.mergeRmw q))

/-- New bytes of the accessed range from its old ones: the write spliced in, or the record applied to its line. -/
def newRange (d : Dev) (q : Nat) (op : HomeOp) (old : Bytes) : Bytes × HomeOp × Dev :=
  let r := accessRange op
  if op.kind = .merge then
    let at' := op.off / 128 * 128 - r.1
    let x := d.applyMerge q op (slice old at' 128)
    (splice old at' x.1, { op with priors := x.2.1 }, x.2.2)
  else (splice old (op.off - r.1) op.data, op, d)

/-! ### MODE SINGLE -/

/-- Tray and port of an operation, where the tray has an ACTIVE port (R663). -/
def singleTray (d : Dev) (op : HomeOp) : Option (Nat × Nat) :=
  (d.portOfFeid (HMap.tray op.hmap)).map (fun p => (HMap.tray op.hmap, p))

/-- Send the write or writes of a range to the tray of a MODE SINGLE entry. -/
def singleWrite (d : Dev) (q : Nat) (op : HomeOp) (new : Bytes) : Dev :=
  match d.singleTray op with
  | none => d.failOp q op St.homeLost
  | some (f, _) =>
    let da := (accessRange op).1
    match restSlotOf op with
    | none => (d.setOp q { op with phase := 2, data := new }).sendOwn q op 100 f true da new.length new
    | some _ =>
      match d.restKey op with
      | none => d.failOp q op St.keyRetired
      | some key =>
        let c := restCipher false op key da new
        let d := (d.setOp q { op with phase := 2, data := new }).sendOwn q op 100 f true da c.length c
        if Region.restMac op.region then
          let m := restMacs key da c
          d.sendOwn q op 101 f true (macDa op.region da) m.length m
        else d

/-- The reads of a MODE SINGLE operation have returned. -/
def singleRead (d : Dev) (q : Nat) (op : HomeOp) : Dev :=
  let r := accessRange op
  let raw := Tab.getD op.got 100 []
  match restSlotOf op with
  | none =>
    let n := d.newRange q op (padTo r.2 raw)
    n.2.2.singleWrite q n.2.1 n.1
  | some _ =>
    match d.restKey op with
    | none => d.failOp q op St.keyRetired
    | some key =>
      let raw := padTo r.2 raw
      if Region.restMac op.region && restMacs key r.1 raw != padTo (r.2 / 32) (Tab.getD op.got 101 []) then
        ((d.bump Reg.restMacFails).event q { code := Ev.restMacFail, status := St.ecc, comp := op.pkt.comp, addr := r.1 }).failOp q op St.ecc
      else
        let plain := restCipher true op key r.1 raw
        if op.kind = .read then d.completeOp q op 0 (slice plain (op.off - r.1) op.len)
        else
          let n := d.newRange q op plain
          n.2.2.singleWrite q n.2.1 n.1

/-- Start a MODE SINGLE operation. -/
def startSingle (d : Dev) (q : Nat) (op : HomeOp) : Dev :=
  match d.singleTray op with
  | none => d.failOp q op St.homeLost
  | some (f, p) =>
    let op := { op with started := true }
    let r := accessRange op
    match restSlotOf op with
    | none =>
      if op.kind = .merge then (d.setOp q op).sendOwn q op 100 f false r.1 r.2 []
      else if op.own then (d.setOp q op).sendOwn q op 100 f (op.kind != .read) op.off op.len op.data
      else if op.pkt.src = 0 && op.pkt.reqEpoch = 0
          && (d.home q).subs.any (fun s => !s.fwd && s.feid = f && s.tag = op.pkt.tag) then d
      else (d.setOp q op).forward q op f p
    | some _ =>
      let d := d.setOp q op
      if (op.kind = .write || op.kind = .posted) && r = (op.off, op.len) then d.singleWrite q op op.data
      else
        let d := d.sendOwn q op 100 f false r.1 r.2 []
        if Region.restMac op.region then d.sendOwn q op 101 f false (macDa op.region r.1) (r.2 / 32) [] else d

/-! ### MODE STRIPE (R472 to R479) -/

/-- Units of the stripe that no member serves now; one past the end of the range reads as zero (R471). -/
def unavailable (d : Dev) (g : Nat) (op : HomeOp) : List Nat :=
  let k := SG.k (d.sg g)
  (List.range (k + 2)).filter (fun u => (d.unitTray g op.stripe u).isNone && !(u < k && d.pastEnd g op.hmap op.stripe u))

/-- Units an operation must read, or none where too few are left: the wanted unit of a read; the written unit, P and Q of a write, which
serve a merge record as its one read of the line too (R210, R213; log 165); K or more where one of them must be rebuilt (R474, R475, R478,
R479, R493); K for a rebuild step; every data unit with what can be read of P and Q for a resync step
(R481, R493). -/
def stripePlan (d : Dev) (g : Nat) (op : HomeOp) : Option (List Nat) :=
  let k := SG.k (d.sg g)
  let un := d.unavailable g op
  let bad := fun u => un.contains u || op.ecc.contains u
  let all := List.range (k + 2)
  let good := all.filter (fun u => !bad u)
  let fresh := d.stripeUnverified g op.hmap op.stripe
  match op.kind with
  | .read =>
    if !bad op.unit then some [op.unit]
    else if fresh || good.length < k then none
    else some (good.take k)
  | .rebuild => if good.length < k then none else some (good.take k)
  | .resync => if (List.range k).any bad then none else some good
  | _ =>
    if fresh then (if (List.range k).any bad then none else some (List.range k))
    else
      let need := [op.unit, k, k + 1]
      if bad op.unit || (need.filter (fun u => !un.contains u)).any (fun u => op.ecc.contains u) then
        (if good.length < k then none else some good)
      else some (need.filter (fun u => !un.contains u))

/-- Send the reads of a stripe operation that are still missing. -/
def stripeReads (d : Dev) (q g : Nat) (op : HomeOp) (units : List Nat) : Dev :=
  let e := d.sg g
  let r := accessRange op
  let want := units.filter (fun u => !Tab.has op.got u && !(d.subsOf q op.id).any (fun s => s.role = u))
  let zero := want.filter (fun u => u < SG.k e && d.pastEnd g op.hmap op.stripe u)
  let op := { op with got := zero.foldl (fun t u => Tab.put t u (List.replicate r.2 0)) op.got }
  (d.setOp q op).each (want.filter (fun u => !zero.contains u)) (fun d u =>
    match d.unitTray g op.stripe u with
    | some f => d.sendOwn q op u f false (SG.gbase e + op.stripe * 4096 + r.1) r.2 []
    | none => d)

/-- Repairs of the units that answered ERR_ECC and are not written otherwise (R479). The operation keeps its locks until they return; each
counts when its write has completed. Those of a request follow its completion. -/
def stripeRepair (d : Dev) (q g : Nat) (op : HomeOp) (full : Tab Bytes) (written : List Nat) : Dev :=
  let e := d.sg g
  d.each (op.ecc.filter (fun u => !written.contains u)) (fun d u =>
    match d.unitTray g op.stripe u with
    | some f =>
      let b := Tab.getD full u []
      d.sendOwn q op (200 + u) f true (SG.gbase e + op.stripe * 4096 + (accessRange op).1) b.length b
    | none => d)

/-- Bytes of stripe units that a quadrant's GF lanes take in (R396, log 167). -/
def gfWork (d : Dev) (q n : Nat) : Dev := d.bump (Reg.gfBytes q) n

/-- A read of a stripe has its bytes: answered, then the repairs. -/
def stripeAnswer (d : Dev) (q g : Nat) (op : HomeOp) : Dev :=
  let k := SG.k (d.sg g)
  let full := if Tab.has op.got op.unit then op.got else rebuildAll k op.got
  let full := if op.ecc.isEmpty then full else rebuildAll k full
  let r := accessRange op
  let raw := Tab.getD full op.unit []
  let d := if Tab.has op.got op.unit then d else d.bump Reg.degradedReads
  let d := if Tab.has op.got op.unit && op.ecc.isEmpty then d else d.gfWork q (k * r.2)
  let plain := match restSlotOf op with
    | none => some raw
    | some _ => (d.restKey op).map (fun key => restCipher true op key (d.rangeDa op) raw)
  match plain with
  | none => d.failOp q op St.keyRetired
  | some plain =>
    let d := d.answerRead q op 0 (slice plain (op.off - r.1) op.len)
    let d := (d.setOp q { op with phase := 4 }).stripeRepair q g op full []
    if (d.subsOf q op.id).isEmpty then d.dropOp q op.id else d

/-- What follows the completion of a stripe's write: the repairs that are left, under its locks, or nothing (R479). -/
def stripeAfter (d : Dev) (q : Nat) (op : HomeOp) : Dev :=
  match op.grp with
  | none => d.dropOp q op.id
  | some g =>
    let k := SG.k (d.sg g)
    let d := (d.setOp q { op with phase := 4 }).stripeRepair q g op op.got [op.unit, k, k + 1]
    if (d.subsOf q op.id).isEmpty then d.dropOp q op.id else d

/-- Answer the requester of a write whose phase 2 is complete: OK, or ERR_HOME_LOST after a dispute (R203, R474, R492). -/
def answerWrite (d : Dev) (q : Nat) (op : HomeOp) : Dev :=
  let d := d.countLost op.status 1
  if op.own then d.answerUnit q op.id op.status []
  else if op.kind = .posted && op.status = 0 then d
  else d.sendFeid (d.respTo op.pkt op.status [])

/-- The operation's phase 2 is complete: a write is answered and what is left of its repairs follows, a record waits for its RESPs, a rebuild
moves its cursor on, a stripe is verified (R203, R214, R474, R479, R481, R493). -/
def stripeWritten (d : Dev) (q : Nat) (op : HomeOp) : Dev :=
  match op.kind, op.grp with
  | .merge, _ => d.setOp q { op with phase := 3 }
  | .rebuild, some g => (d.dropOp q op.id).rebuildFrom g op.hmap (op.stripe + 1)
  | .resync, some g =>
    (d.dropOp q op.id).modGroup g (fun G => { G with unverified := G.unverified.map (fun u => { u with done := u.done ++ [op.stripe] }) })
  | _, _ => (d.answerWrite q op).stripeAfter q op

/-- Bytes that the rebuild or the resync pass writes, against its rate (R483). -/
def backBytes (d : Dev) (n : Nat) : Dev := { d.bump Reg.rebuildBytes n with backDebt := d.backDebt + n }

/-- Phase 2 of a rebuild step: every unit of REBUILD_MASK goes to its spare, and what answered ERR_ECC back to its member (R479, R481). -/
def rebuildWrite (d : Dev) (q g : Nat) (op : HomeOp) : Dev :=
  let e := d.sg g
  let k := SG.k e
  let full := rebuildAll k op.got
  let lost := (List.range (k + 2)).filter (fun u =>
    bit (SG.mask e) (SG.memberOf e op.stripe u) && !(u < k && d.pastEnd g op.hmap op.stripe u))
  let d := (d.setOp q { op with phase := 2 }).gfWork q (k * 4096)
  let d := d.each lost (fun d u =>
    match Tab.look (d.group g).spareOf (SG.memberOf e op.stripe u) with
    | some i =>
      (d.sendOwn q op u (SG.spare e i) true (SG.gbase e + op.stripe * 4096) 4096 (padTo 4096 (Tab.getD full u []))).backBytes 4096
    | none => d)
  let d := d.stripeRepair q g op full []
  if (d.subsOf q op.id).isEmpty then d.stripeWritten q op else d

/-- Phase 2 of a resync step: the lines of P and Q that differ from what the data gives are written, each counted, and the whole of one that
answered ERR_ECC, a repair (R479, R493). -/
def resyncWrite (d : Dev) (q g : Nat) (op : HomeOp) : Dev :=
  let e := d.sg g
  let k := SG.k e
  let t := Tab.keep op.got (fun u _ => u < k)
  let d := (d.setOp q { op with phase := 2 }).gfWork q (k * 4096)
  let d := d.each [(k, parityP k t), (k + 1, parityQ k t)] (fun d x =>
    match Tab.look op.got x.1, d.unitTray g op.stripe x.1 with
    | some old, some f => d.each (diffLines (padTo 4096 old) x.2) (fun d i =>
        ((d.sendOwn q op x.1 f true (SG.gbase e + op.stripe * 4096 + 128 * i) 128 (slice x.2 (128 * i) 128)).bump Reg.parityFixes).backBytes 128)
    | none, some f =>
      if op.ecc.contains x.1 then (d.sendOwn q op x.1 f true (SG.gbase e + op.stripe * 4096) 4096 (padTo 4096 x.2)).backBytes 4096 else d
    | _, _ => d)
  if (d.subsOf q op.id).isEmpty then d.stripeWritten q op else d

/-- Phase 2 of a write: new data, P and Q to each available member of the three (R474, R478). -/
def stripeWrite (d : Dev) (q g : Nat) (op : HomeOp) : Dev :=
  let e := d.sg g
  let k := SG.k e
  let r := accessRange op
  let fresh := d.stripeUnverified g op.hmap op.stripe
  let un := d.unavailable g op
  let whole := decide ((List.range (k + 2)).filter (fun u => Tab.has op.got u) |>.length |> (k ≤ ·))
  let full := if whole then rebuildAll k op.got else op.got
  let oldCipher := padTo r.2 (Tab.getD full op.unit [])
  let key := d.restKey op
  if (restSlotOf op).isSome && key.isNone then d.failOp q op St.keyRetired
  else
    let da := d.rangeDa op
    let kb := key.getD []
    let rest := (restSlotOf op).isSome
    let n := d.newRange q op (if rest then restCipher true op kb da oldCipher else oldCipher)
    let d := n.2.2
    let op := n.2.1
    let newCipher := if rest then restCipher false op kb da n.1 else n.1
    let delta := xorBytes oldCipher newCipher
    let all := Tab.put full op.unit newCipher
    let p := if fresh then parityP k all else xorBytes (Tab.getD full k []) delta
    let qq := if fresh then parityQ k all else xorBytes (Tab.getD full (k + 1) []) (qTerm op.unit delta)
    let outs := [(op.unit, newCipher), (k, p), (k + 1, qq)].filter (fun x => !un.contains x.1)
    let d := if un.isEmpty then d else d.bump Reg.degradedWrites
    let decoded := whole && !(List.range (k + 2)).all (Tab.has op.got)
    let op := { op with phase := 2, data := n.1, got := full }
    let d := (d.setOp q op).gfWork q (((if fresh then k else 1) + (if decoded then k else 0)) * r.2)
    let d := d.each outs (fun d x =>
      match d.unitTray g op.stripe x.1 with
      | some f => d.sendOwn q op x.1 f true (SG.gbase e + op.stripe * 4096 + r.1) r.2 x.2
      | none => d)
    if (d.subsOf q op.id).isEmpty then d.stripeWritten q (asMerge op) else d

/-- Three units of one stripe line are unavailable to one request (R487), or its parity is unverified (R493). A rebuild step counts it and is
given up (R481), a resync step is given up. -/
def stripeLost (d : Dev) (q : Nat) (op : HomeOp) : Dev :=
  if op.kind = .resync then d.failOp q op St.dataLost
  else
  let d := if op.kind = .rebuild then d.bump Reg.dataLost else d
  (d.event q { code := Ev.dataLost, status := St.dataLost, comp := op.pkt.comp, addr := op.pkt.da, unit := op.grp.getD 0xFFFF }).failOp q op
    St.dataLost

/-- Go on with phase 1 of a stripe operation: more reads, or what follows them. -/
def stripeGo (d : Dev) (q g : Nat) (op : HomeOp) : Dev :=
  match d.stripePlan g op with
  | none => d.stripeLost q op
  | some units =>
    let d := d.stripeReads q g op units
    match d.opOf q op.id with
    | none => d
    | some op =>
      if !(d.subsOf q op.id).isEmpty then d
      else
        match op.kind with
        | .read => d.stripeAnswer q g op
        | .rebuild => d.rebuildWrite q g op
        | .resync => d.resyncWrite q g op
        | _ => d.stripeWrite q g op

/-! ### Starting operations in take order -/

/-- Whether an earlier operation holds one back: one on its lines that itself still waits (R200, R205, R206), a lock of a stripe line, a record
or a change at rest on its lines, or a request bound to an older version of the entry (R209, R473, R489, R550). -/
def heldBy (e op : HomeOp) : Bool :=
  !e.tierH && e.phase != 3 &&
    ((op.keys.any (fun k => e.keys.contains k) && (!e.started || op.grp.isSome || isRecord e || (restSlotOf e).isSome || (restSlotOf op).isSome)) ||
      (linesMeet (lineSpan e) (lineSpan op) && HMap.epoch e.hmap != HMap.epoch op.hmap))

/-- A request under an older version of the entry, whose operation is complete, is still outstanding at a tray for one of the lines (R489). -/
def oldOutstanding (H : Home) (op : HomeOp) : Bool :=
  H.subs.any (fun s => s.op = 0 && s.epoch != HMap.epoch op.hmap && s.hmapNo = op.hmapNo && linesMeet (s.da, s.span) (lineSpan op))

/-- Tier H operations go to the quadrant's L2 in take order (R200, R210). -/
def startTierH (d : Dev) (q : Nat) (op : HomeOp) : Dev :=
  let kind := match op.kind with | .read => 0 | .merge => 2 | _ => 1
  let d := d.setOp q { op with started := true }
  let x : L2Req := { kind := kind, off := op.off, len := op.len, data := op.data, op := op.id }
  { d with l2 := Tab.upd d.l2 q [] (· ++ [x]) }

/-- Start an operation that nothing holds back. One whose generation at rest is gone never reaches a tray (R550). -/
def startOp (d : Dev) (q : Nat) (op : HomeOp) : Dev :=
  if op.tierH then d.startTierH q op
  else
    match op.grp with
    | none => if (restSlotOf op).isSome && (d.restKey op).isNone then d.failOp q op St.keyRetired else d.startSingle q op
    | some g =>
      if (restSlotOf op).isSome && (d.restKey op).isNone && !isBack op then d.failOp q op St.keyRetired
      else (d.setOp q { op with started := true }).stripeGo q g { op with started := true }

/-- Start every operation that can start, in take order. -/
def pump (d : Dev) (q : Nat) : Dev :=
  ((d.home q).ops.map (·.id)).foldl (fun d id =>
    match d.opOf q id with
    | none => d
    | some op =>
      if op.started then d
      else
        let earlier := (d.home q).ops.takeWhile (fun e => e.id != id)
        if !op.tierH && (earlier.any (fun e => heldBy e op) || oldOutstanding (d.home q) op) then d else d.startOp q op) d

/-! ### Taking requests (R193, R211, R212) -/

/-- A merge record closes and takes its place in the order (R212, R213). -/
def closeMerge (d : Dev) (q line : Nat) : Dev :=
  match Tab.look (d.home q).merges line with
  | none => d
  | some m =>
    let d := d.modHome q (fun H => { H with merges := Tab.del H.merges line })
    match m.atoms with
    | [] => d
    | a :: _ =>
      let op := { d.mkOp q .merge a m.tierH m.hmapNo m.hmap m.region with atoms := m.atoms, data := [], tick := m.tick, restGen := m.restGen }
      d.addOp q op

/-- The first request taken after the dedup store was emptied starts the stale period (R219). -/
def armStale (d : Dev) (q : Nat) : Dev :=
  if (d.home q).staleArmed then d.modHome q (fun H => { H with staleArmed := false, staleUntil := some (d.tick + 65) }) else d

/-- The next packet of the quadrant's HOME or TIERH unit that passes a test, the two in turn; with whether it is of tier H (R169, R193). -/
def homeHead (d : Dev) (q : Nat) (p : Packet → Bool) : Option (Nat × Nat × QEnt × Bool) :=
  let home := (d.unitHead q (fun e => p e.pkt)).map (fun x => (x.1, x.2.1, x.2.2, false))
  let tierH := (d.unitHead (4 + q) (fun e => p e.pkt)).map (fun x => (x.1, x.2.1, x.2.2, true))
  if (d.home q).rr = 0 then home.orElse (fun _ => tierH) else tierH.orElse (fun _ => home)

/-- The home takes a packet off its queue; the other unit is next in turn. -/
def homeConsume (d : Dev) (q a k : Nat) (e : QEnt) : Dev :=
  ((d.consume a k e).modHome q (fun H => { H with rr := if unitOf k = q then 1 else 0 })).armStale q

/-- Why a request ends at once: its group is LOST, or its key at rest has no LIVE generation (R486, R550). -/
def refusedAtHome (d : Dev) (op : HomeOp) : Option Nat :=
  if op.grp.any (fun g => SG.gstate (d.sg g) = 4) then some St.dataLost
  else match restSlotOf op with
    | some s => if (d.newestLive s).isNone then some St.keyRetired else none
    | none => none

/-- A READ, WRITE or WRITE_POSTED that the home takes: it closes the records of its lines, then stands in the order (R193, R212). -/
def homePlain (d : Dev) (q : Nat) (want : PType → Bool) : Dev :=
  match if d.level q < 2 then none else d.homeHead q (fun p => want p.ptype) with
  | none => d
  | some (a, k, e, tierH) =>
    let p := e.pkt
    let d := d.homeConsume q a k e
    let first := p.da / 128
    let n := (p.da + max 1 (if p.ptype = .read then p.rlen else p.payload.length) - 1) / 128 + 1 - first
    let lines := (List.range n).map (first + ·)
    let d := d.each lines (fun d l => d.closeMerge q l)
    let d := if p.ptype = .read then d else d.each lines (fun d l => d.noteStore q l e.src.num)
    let kind : OpKind := match p.ptype with | .read => .read | .write => .write | _ => .posted
    let op := d.mkOp q kind p tierH e.hmapNo e.hmap e.region
    let d := d.addOp q op
    match d.refusedAtHome op with
    | some s => (d.failOp q op s).pump q
    | none => d.pump q

/-- The fill of a slot reads its lowest block still missing, by a CLS2 READ that the home of its unit takes; one READ of a slot is under way at
a time (R244, log 156). -/
def fillRead (d : Dev) (s : Nat) : Dev :=
  match Tab.look d.tiers.slots s with
  | none => d
  | some x =>
    match if x.state != 1 || x.gone || x.read.isSome then none else (List.range 512).find? (fun b => !bit x.filled b) with
    | none => d
    | some b =>
      let da := x.unit * 2 ^ 21 + 4096 * b
      match d.hmapFor da with
      | none => d.modTiers (fun T => { T with slots := Tab.put T.slots s { x with state := 3, status := St.unmapped } })
      | some (no, h) =>
        let q := d.homeQuad h
        let pk : Packet := { ptype := .read, cls := 2, comp := x.comp, da := da, rlen := 4096 }
        let d := d.each ((List.range 32).map (da / 128 + ·)) (fun d l => d.closeMerge q l)
        let op := { d.mkOp q .read pk false no h ((d.regionFor x.comp da).getD 0) with own := true, fill := some s }
        let d := d.modTiers (fun T => { T with slots := Tab.put T.slots s { x with read := some (b, op.id) } })
        let d := d.addOp q op
        match d.refusedAtHome op with
        | some st => (d.failOp q op st).pump q
        | none => d.pump q

/-- Every fill under way has a READ at the homes. -/
def fillReads (d : Dev) : Dev := d.each d.tiers.slots (fun d kv => d.fillRead kv.1)

/-- An ATOMIC joins the open record of its line, or opens one (R211, R212, R214). -/
def joinMerge (d : Dev) (q : Nat) (e : QEnt) (tierH : Bool) : Dev :=
  let p := e.pkt
  let l := p.da / 128
  let m := Tab.getD (d.home q).merges l
    { atoms := [], hmapNo := e.hmapNo, hmap := e.hmap, region := e.region, tierH := tierH, tick := d.tick,
      restGen := (d.mkOp q .merge p tierH e.hmapNo e.hmap e.region).restGen }
  let m := { m with atoms := m.atoms ++ [p] }
  let d := d.modHome q (fun H => { H with merges := Tab.put H.merges l m })
  if d.reg Reg.combWindowNs = 0 || d.reg Reg.combMaxOps ≤ m.atoms.length then d.closeMerge q l else d

/-- The fields of a dedup record that must be equal (R216). -/
def sameAtomic (r : Dedup) (p : Packet) : Bool :=
  r.da = p.da && r.aop = p.aop && r.awidth = p.awidth && r.asigned = p.asigned && r.payload = p.payload

/-- Merge records in use: open, or closed and not written (R211). -/
def mergesInUse (d : Dev) (q : Nat) : Nat :=
  (d.home q).merges.length + ((d.home q).ops.filter (fun o => isRecord o && decide (o.phase < 3))).length

/-- The quadrant answers every ATOMIC with ERR_ATOMIC_STALE (R219). -/
def staleNow (d : Dev) (q : Nat) : Bool := (d.home q).staleArmed || (d.home q).staleUntil.any (fun t => d.tick < t)

/-- An ATOMIC can be taken: it needs no new dedup record or one is free, and no new merge record or one is free (R211, R217). -/
def atomicFits (d : Dev) (q : Nat) (p : Packet) : Bool :=
  d.staleNow q || Tab.has (d.home q).dedup (tripleOf p)
    || (decide ((d.home q).dedup.length < SysArea.dedup.2 / 128) && (Tab.has (d.home q).merges (p.da / 128) || decide (d.mergesInUse q < 4096)))

/-- The home takes an ATOMIC off its queue, counted. -/
def homeAtomicTake (d : Dev) (q a k : Nat) (e : QEnt) : Dev := (d.homeConsume q a k e).bump (Reg.atomics q)

/-- The home takes an ATOMIC: the dedup window, then the record of its line (R211, R215 to R219). One that needs a dedup or merge record
where none is free waits at the head of its queue, and holds up no other queue. -/
def homeAtomic (d : Dev) (q : Nat) : Dev :=
  match if d.level q < 2 then none else d.homeHead q (fun p => p.ptype = .atomic && d.atomicFits q p) with
  | none => d
  | some (a, k, e, tierH) =>
    let p := e.pkt
    let H := d.home q
    if d.staleNow q then ((d.homeAtomicTake q a k e).bump (Reg.stale q)).sendFeid (d.respTo p St.atomicStale [])
    else
      match Tab.look H.dedup (tripleOf p) with
      | some r =>
        let d := d.homeAtomicTake q a k e
        if !sameAtomic r p then d.sendFeid (d.respTo p St.badDesc [])
        else if r.state = 2 then (d.bump (Reg.stale q)).sendFeid (d.respTo p St.atomicStale [])
        else if r.state = 1 && r.written then
          (d.bump (Reg.dedupHits q)).sendFeid (d.respTo p r.status (if r.status = 0 then r.prior else []))
        else (d.bump (Reg.dedupHits q)).modHome q (fun H => { H with dedup := Tab.put H.dedup (tripleOf p) { r with attached := r.attached ++ [p] } })
      | none =>
        let d := d.homeAtomicTake q a k e
        let op := d.mkOp q .merge p tierH e.hmapNo e.hmap e.region
        match d.refusedAtHome op with
        | some s => (d.countLost s 1).sendFeid (d.respTo p s [])
        | none =>
          let r : Dedup := { da := p.da, aop := p.aop, awidth := p.awidth, asigned := p.asigned, payload := p.payload }
          ((d.modHome q (fun H => { H with dedup := Tab.put H.dedup (tripleOf p) r })).joinMerge q e tierH).pump q

/-- The combining window of a line has expired and its previous record is written: the open record closes (R212). -/
def windowClose (d : Dev) (q line : Nat) : Dev :=
  let busy := (d.home q).ops.any (fun o => isRecord o && decide (o.phase < 3) && o.pkt.da / 128 = line)
  if busy then d else (d.closeMerge q line).pump q

/-- The write of a record has completed: its RESPs leave in join order, and what is left of its repairs follows (R214, R216, R479). -/
def mergeDone (d : Dev) (q line : Nat) : Dev :=
  match (d.home q).ops.find? (fun o => isRecord o && o.phase = 3 && o.pkt.da / 128 = line) with
  | none => d
  | some op =>
    let d := d.each (op.atoms.zip op.priors) (fun d x =>
      (d.answerAtomic q x.1 op.status x.2).modHome q (fun H => { H with dedup := Tab.edit H.dedup (tripleOf x.1) (fun r =>
        { r with written := true, status := op.status, attached := [] }) }))
    (d.stripeAfter q op).pump q

/-! ### Member failure (R476, R477, R485, R486) -/

/-- Operations of a group outstanding at its home. -/
def groupOps (d : Dev) (g : Nat) : List HomeOp := (d.home (SG.quad (d.sg g))).ops.filter (fun o => o.grp = some g)

/-- The open merge records that a test picks close, and what they hold ends with a status, not applied (R218, R486, R552). -/
def failMerges (d : Dev) (q status : Nat) (p : MergeRec → Bool) : Dev :=
  d.each ((d.home q).merges.filter (fun m => !m.2.tierH && p m.2)) (fun d m =>
    let id := (d.home q).nextOp
    let d := d.closeMerge q m.1
    match d.opOf q id with
    | some op => d.failOp q op status
    | none => d)

/-- The group is LOST: every outstanding request ends with ERR_DATA_LOST, those of open records with them; one already answered is dropped; and
the compositions of its entries are fenced (R486). -/
def groupLost (d : Dev) (g : Nat) : Dev :=
  let q := SG.quad (d.sg g)
  let d := (d.setSg g (SG.setGstate (d.sg g) 4)).bump Reg.groupsLost
  let d := (d.modGroup g (fun G => { G with restart := false })).event q
    { code := Ev.groupLost, unit := g, status := St.dataLost, detail := leBytes 2 g }
  let d := d.each (d.groupOps g) (fun d op => if op.phase = 4 then d.dropOp q op.id else d.failOp q op St.dataLost)
  let d := d.failMerges q St.dataLost (fun m => HMap.stripe m.hmap && HMap.group m.hmap = g)
  let cs := d.compsOfHmap (fun e => HMap.stripe e && HMap.group e = g)
  (d.fenceOwn Ev.groupLost (fun c => cs.contains c)).pump q

/-- Some stripe of the group has three unavailable units (R486): FAILED members, and members being rebuilt while stripes are left. -/
def beyondTwo (e : Nat) : Bool :=
  let ms := List.range (SG.k e + 2)
  let failed := (ms.filter (fun m => SG.mstate e m = 1)).length
  let re := (ms.filter (fun m => SG.mstate e m = 2)).length
  3 ≤ failed || (3 ≤ failed + re && SG.cursor e < SG.stripes e)

/-- What the declaration of a member does to an outstanding request (R477). -/
def caught (d : Dev) (q g m : Nat) (op : HomeOp) : Dev :=
  let e := d.sg g
  let mine := fun (s : TraySub) => s.op = op.id && SG.memberOf e op.stripe (s.role % 200) = m
  let hit := (d.home q).subs.any mine
  let d := d.modHome q (fun H => { H with subs := H.subs.map (fun s => if mine s then { s with op := 0 } else s) })
  if !op.started || !hit then d
  else if op.phase = 1 then d.failOp q op St.homeLost
  else if !(d.subsOf q op.id).isEmpty then d
  else if op.phase = 2 then d.stripeWritten q (asMerge op)
  else d.dropOp q op.id

/-- A member is declared FAILED on this switch and the group DEGRADED (R476); one that is being rebuilt fails its spare, and a rebuild gives up
its stripe until it restarts (R485). -/
def memberFailed (d : Dev) (g m : Nat) : Dev :=
  let e := d.sg g
  let st := SG.mstate e m
  if !(SG.gstate e = 1 || SG.gstate e = 2 || SG.gstate e = 3) || SG.k e + 2 ≤ m || !(st = 0 || st = 2) then d
  else
    let q := SG.quad e
    let spare := Tab.look (d.group g).spareOf m
    let e' := SG.setMstate e m 1
    let e' := if st = 2 then SG.setMask e' (setBit (SG.mask e') m false) else e'
    let e' := match if st = 2 then spare else none with | some i => SG.clearSpare e' i | none => e'
    let e' := SG.setGstate e' 2
    let d := (d.setSg g e').bump Reg.memberFails
    let d := d.modGroup g (fun G => { G with spareOf := Tab.del G.spareOf m, restart := G.restart || SG.gstate e = 3, held := some d.tick })
    let d := d.event q { code := Ev.memberFailed, unit := m, feid := SG.member e m, detail := leBytes 2 g }
    let d := d.each ((d.groupOps g).filter (fun op => op.kind = .rebuild)) (fun d op => d.dropOp q op.id)
    if beyondTwo e' then d.groupLost g
    else (d.each (d.groupOps g) (fun d op => d.caught q g m op)).pump q

/-- The member of a group that an endpoint serves now, as itself or as the spare it is rebuilt onto. -/
def memberServing (d : Dev) (g feid : Nat) : Option Nat :=
  let e := d.sg g
  (List.range (SG.k e + 2)).find? (fun m => (SG.mstate e m = 0 && SG.member e m = feid)
    || (SG.mstate e m = 2 && (Tab.look (d.group g).spareOf m).any (fun i => SG.spare e i = feid)))

/-- A request to a member failed after its operation was complete: the member it was sent to fails, where it still serves the group (R476). -/
def lateFailure (d : Dev) (s : TraySub) : Dev :=
  match s.grp.bind (fun g => (d.memberServing g s.feid).map (fun m => (g, m))) with
  | some gm => d.memberFailed gm.1 gm.2
  | none => d

/-! ### Tray answers (R126, R477, R479, R488, R492) -/

/-- Nothing further of a request is sent: what it has outstanding at trays is not sent again (R488). -/
def stopSubs (d : Dev) (q id : Nat) : Dev :=
  d.modHome q (fun H => { H with subs := H.subs.map (fun s => if s.op = id then { s with stopped := true } else s) })

/-- The outstanding request that a RESP answers, with its quadrant. -/
def findSub (d : Dev) (port : Nat) (p : Packet) : Option (Nat × TraySub) :=
  [0, 1, 2, 3].findSome? (fun q =>
    ((d.home q).subs.find? (fun s => s.port = port && s.tag = p.tag && s.reqEpoch = p.reqEpoch && s.src = p.dst)).map (fun s => (q, s)))

/-- The write of a record must be sent again under the current version of its entry (R218, R488), whose group may be LOST (R486). -/
def resendMerge (d : Dev) (q : Nat) (op : HomeOp) : Dev :=
  match d.hmapFor op.pkt.da with
  | none => d.failOp q { op with phase := 1 } St.homeLost
  | some (n, e) =>
    let new := slice op.data (op.off / 128 * 128 - (accessRange op).1) 128
    let d := d.modHome q (fun H => { H with subs := H.subs.map (fun s => if s.op = op.id then { s with op := 0 } else s) })
    let base :=
      { d.mkOp q .merge op.pkt false n e op.region with
        id := op.id, atoms := [], priors := op.priors, tick := op.tick, started := true, restGen := op.restGen }
    if base.grp.any (fun g => SG.gstate (d.sg g) = 4) then d.failOp q op St.dataLost
    else
    match base.grp with
    | none =>
      let o := { base with atoms := op.atoms }
      (d.setOp q o).singleWrite q o (if (restSlotOf o).isSome then op.data else new)
    | some g =>
      let o := { base with kind := .write, off := base.off / 128 * 128, len := 128, data := new, atoms := op.atoms }
      (d.setOp q o).stripeGo q g o

/-- An answer that ends a request without its effect at the tray: what becomes of its operation. -/
def subLost (d : Dev) (q : Nat) (op : HomeOp) : Dev :=
  let d := d.stopSubs q op.id
  if isRecord op && op.phase = 2 then d.resendMerge q op
  else if op.phase = 4 then d.dropOp q op.id
  else d.failOp q op St.homeLost

/-- A request of a MODE SINGLE operation completes with a status. -/
def singleDone (d : Dev) (q : Nat) (op : HomeOp) (s : TraySub) (status : Nat) (data : Bytes) : Dev :=
  if op.kind != .merge && (restSlotOf op).isNone then d.completeOp q op status data
  else if op.phase = 1 then
    if status != 0 then d.failOp q op status
    else
      let op := { op with got := Tab.put op.got s.role data }
      let d := d.setOp q op
      if (d.subsOf q op.id).isEmpty then d.singleRead q op else d
  else
    let op := { op with status := if op.status = 0 then status else op.status }
    let d := d.setOp q op
    if !(d.subsOf q op.id).isEmpty then d
    else if op.kind = .merge then d.setOp q { op with phase := 3 }
    else d.completeOp q op op.status []

/-- A request of a stripe operation completes with a status. -/
def stripeDone (d : Dev) (q g : Nat) (op : HomeOp) (s : TraySub) (status : Nat) (data : Bytes) : Dev :=
  let m := SG.memberOf (d.sg g) op.stripe (s.role % 200)
  if 200 ≤ s.role || op.phase = 4 then
    let d := if status = 0 then d.bump Reg.unitRepairs else d.memberFailed g m
    match d.opOf q op.id with
    | none => d
    | some op =>
      if !(d.subsOf q op.id).isEmpty then d else if op.phase = 4 then d.dropOp q op.id else if op.phase = 2 then d.stripeWritten q (asMerge op) else d
  else if op.phase = 1 then
    if status = St.ecc then
      let op := { op with ecc := op.ecc ++ [s.role] }
      (d.setOp q op).stripeGo q g op
    else if status != 0 then d.failOp q op status
    else
      let op := { op with got := Tab.put op.got s.role data }
      let d := d.setOp q op
      if (d.subsOf q op.id).isEmpty then d.stripeGo q g op else d
  else
    let d := if status = 0 then (if op.ecc.contains s.role then d.bump Reg.unitRepairs else d) else d.memberFailed g m
    match d.opOf q op.id with
    | none => d
    | some op => if (d.subsOf q op.id).isEmpty && op.phase = 2 then d.stripeWritten q (asMerge op) else d

/-- A request at a tray completes with a status and data. -/
def subDone (d : Dev) (q : Nat) (s : TraySub) (status : Nat) (data : Bytes) : Dev :=
  match d.opOf q s.op with
  | none => d
  | some op =>
    match op.grp with
    | none => d.singleDone q op s status data
    | some g => d.stripeDone q g op s status data

/-- Take a request off the outstanding ones. -/
def dropSub (d : Dev) (q : Nat) (s : TraySub) : Dev := d.modHome q (fun H => { H with subs := removeFirst (fun x => x = s) H.subs })

/-- The status the switch reports for one a tray sent: a code of 0x13 to 0xFF leaves the outcome unknown, as ERR_TIMEOUT does (R17, R221;
DEDUCED, log 148). -/
def knownStatus (s : Nat) : Nat := if s ≤ 0x12 then s else St.timeout

/-- A tray disputes the current version of the entry: counted, with an event; the request ends with ERR_HOME_LOST. A WRITE of a stripe fails its
member too, and its request ends so once the WRITEs of the other members have returned; one already complete stays as it is (R476, R492). -/
def dispute (d : Dev) (q : Nat) (s : TraySub) : Dev :=
  let op := d.opOf q s.op
  let d := (d.bump Reg.epochDisputes).event q
    { code := Ev.epochDispute, status := St.homeLost, comp := s.comp, addr := (op.map (·.pkt.da)).getD s.da, feid := s.feid }
  match op with
  | none => if s.write then d.lateFailure s else d
  | some op =>
    if s.write && op.grp.isSome then
      let mark := op.phase = 2 && op.status = 0 && !isBack op
      let d := if mark then d.setOp q { op with status := St.homeLost } else d
      let d := if mark && isRecord op then d.countLost St.homeLost op.atoms.length else d
      d.subDone q s St.unmapped []
    else if isRecord op && op.phase = 2 then (d.countLost St.homeLost op.atoms.length).subDone q s St.homeLost []
    else d.failOp q op St.homeLost

/-- A tray's RESP that answers a request of a home function: the EPOCH check, a dispute, or its completion. A member that fails a WRITE whose
operation is complete fails all the same (R476). -/
def trayAnswer (d : Dev) (port q : Nat) (s : TraySub) (p : Packet) : Dev :=
  let d := d.leaveFifo (.port port) p
  if p.enc && !p.tagOk then (d.countRx (.port port) p).bump Reg.tagFails
  else
    let d := (d.countRx (.port port) p).dropSub q s
    let now := HMap.epoch (d.reg (Reg.hmapActive s.hmapNo))
    if p.epoch != now then
      match d.opOf q s.op with
      | none => d.pump q
      | some op => (d.subLost q op).pump q
    else if p.status = St.unmapped then (d.dispute q s).pump q
    else if (d.opOf q s.op).isNone then (if s.write && p.status != 0 then d.lateFailure s else d).pump q
    else (d.subDone q s (knownStatus p.status) p.payload).pump q

/-- Checks 1 to 3 of R151 on a RESP that a home function waits for; check 5 holds, since the home is its destination. The work it answers
passed check 4 and so completes under a fence too (R507, log 73). -/
def answerOk (d : Dev) (src : Ingress) (p : Packet) : Bool × Dev :=
  if !fieldsOk p then (false, d)
  else if p.enc && !d.liveGen p.kslot p.kgen then (false, d.bump Reg.retiredDrops)
  else (d.rightsOk src p, d)

/-- A RESP arrives: a home function's answer, else a packet to be routed (R126, R137, R140, R662). -/
def respIn (d : Dev) (src : Ingress) (p : Packet) : Dev :=
  match src with
  | .port n =>
    match if d.isActive n && d.role n = 0 && p.cls != 7 then d.findSub n p else none with
    | some (q, s) =>
      match d.answerOk src p with
      | (true, d) => d.trayAnswer n q s p
      | (false, d) => (d.leaveFifo src p).bump Reg.unroutable
    | none => d.ingest src p
  | .host _ => d.ingest src p

/-- The request that the home originated to a tray under a TAG. -/
def ownSub (d : Dev) (q feid tag : Nat) : Option TraySub := (d.home q).subs.find? (fun s => !s.fwd && s.feid = feid && s.tag = tag)

/-- The retry timer of a home's own request expires: it is sent again, or after the last retry its member fails, or the status of its operation is
ERR_TIMEOUT (R220, R475, R476). A request that is stopped is not sent again, and is forgotten in the end (R488). -/
def ownRetry (d : Dev) (q feid tag : Nat) : Dev :=
  match d.ownSub q feid tag with
  | none => d
  | some s =>
    if s.tries < d.reg Reg.reqRetryMax then
      let s' := { s with tries := s.tries + 1, port := (d.portOfFeid feid).getD s.port }
      let d := d.modHome q (fun H => { H with subs := H.subs.map (fun x => if x = s then s' else x) })
      if s.stopped then d else d.sendKeyed (ownPacket s)
    else if s.stopped then (d.dropSub q s).pump q
    else
      match s.grp, d.opOf q s.op with
      | none, some _ => ((d.dropSub q s).subDone q s St.timeout []).pump q
      | none, none => (d.dropSub q s).pump q
      | some _, _ =>
        let d := d.lateFailure s
        let old := (d.ownSub q feid tag).getD s
        (d.dropSub q old).pump q

end Dev

/-- HOME_READ (R193, R200). -/
def execHomeRead (q : Nat) (s : State) : Ans := onDev (fun d => d.homePlain q (fun t => t = .read)) s
/-- HOME_WRITE (R193, R200). -/
def execHomeWrite (q : Nat) (s : State) : Ans := onDev (fun d => d.homePlain q (fun t => t = .write || t = .writePosted)) s
/-- HOME_ATOMIC (R211, R216). -/
def execHomeAtomic (q : Nat) (s : State) : Ans := onDev (fun d => d.homeAtomic q) s
/-- RESP (R127, R140). -/
def execResp (src : Ingress) (p : Packet) (s : State) : Ans := onDev (fun d => d.respIn src { p with ptype := .resp }) s
/-- TRAY_RESP (R126). -/
def execTrayResp (port : Nat) (p : Packet) (s : State) : Ans := onDev (fun d => d.respIn (.port port) { p with ptype := .resp }) s
/-- MERGE_WINDOW_CLOSE (R212). -/
def execMergeWindowClose (q line : Nat) (s : State) : Ans := onDev (fun d => d.windowClose q line) s
/-- MERGE_WRITE_DONE (R214). -/
def execMergeWriteDone (q line : Nat) (s : State) : Ans := onDev (fun d => d.mergeDone q line) s
/-- REQUEST_RETRY_TIMEOUT (R475). -/
def execRequestRetryTimeout (q tray tag : Nat) (s : State) : Ans := onDev (fun d => d.ownRetry q tray tag) s

/-- DEDUP_STALE (R215): at the edge that starts tick T + 17. -/
def execDedupStale (q src reqEpoch tag : Nat) (s : State) : Ans :=
  onDev (fun d =>
    let k := src * 2 ^ 24 + reqEpoch * 2 ^ 16 + tag
    match Tab.look (d.home q).dedup k with
    | some r =>
      if r.state = 1 && decide (r.tick + 17 ≤ d.tick) then
        d.modHome q (fun H => { H with dedup := Tab.put H.dedup k { r with state := 2, prior := [] } })
      else d
    | none => d) s

/-- DEDUP_FREE (R215): at the edge that starts tick T + 65. -/
def execDedupFree (q src reqEpoch tag : Nat) (s : State) : Ans :=
  onDev (fun d =>
    let k := src * 2 ^ 24 + reqEpoch * 2 ^ 16 + tag
    match Tab.look (d.home q).dedup k with
    | some r => if r.state = 2 && decide (r.tick + 65 ≤ d.tick) then d.modHome q (fun H => { H with dedup := Tab.del H.dedup k }) else d
    | none => d) s

/-- STALE_WINDOW_END (R219). -/
def execStaleWindowEnd (q : Nat) (s : State) : Ans :=
  onDev (fun d =>
    if (d.home q).staleUntil.any (fun t => t ≤ d.tick) then d.modHome q (fun H => { H with staleUntil := none }) else d) s

end Sys2Proof.Machine
end

