-- ==== Sys2Proof/Machine/Coherence.lean ====
section
/-! DEFINITION. The L2 and the directory in front of tier H (R233 to R240, R291 to R306): what the slices do with agents' and home
requests, snoops, posted invalidations, uncorrectable sectors and LOST lines. -/

namespace Sys2Proof.Machine

/-- What the L2 answers to a home, BAR2, walker, scrubber or fill request: kind 0 read, 1 write, 2 atomic; for an atomic `data` is the line
before it. -/
structure L2Res where
  kind : Nat
  src : HSource
  off : Nat
  len : Nat
  status : Nat
  data : Bytes
  req : DirReq
  deriving DecidableEq, Repr

/-- Memory and device together, with what the L2 answered. -/
structure L2State where
  mem : Memory
  dev : Dev
  done : List L2Res := []
  deriving DecidableEq, Repr

/-- Line of a directory request. -/
def DirReq.line : DirReq → Nat
  | .gets _ l _ | .getm _ l _ _ | .wfull _ l _ _ | .evict l _ => l
  | .hread _ off _ | .hwrite _ off _ | .hatom _ off _ _ _ _ => off / 128

/-- The agent that makes a request. -/
def DirReq.agent : DirReq → Option Nat
  | .gets a _ _ | .getm a _ _ _ | .wfull a _ _ _ => some a
  | _ => none

/-- The line as the agent leaves it in its L1 or engine buffer: an atomic executes there (R207, R298). -/
def L1Op.on (x : L1Op) (line : Bytes) : Bytes :=
  let line := if x.data.isEmpty then line else splice line x.off x.data
  match x.atomic with
  | none => line
  | some a =>
    let w := 4 * 2 ^ a.awidth
    splice line a.off (leBytes w (atomicNew a.aop w a.asigned (le line a.off w) a.operand))

def copyKey (agent line : Nat) : Nat := agent * 2 ^ 33 + line

/-- Slice of a line: the quadrant that owns its stack (R294). -/
def sliceOf (line : Nat) : Nat := Dev.quadAt (line * 128)

namespace Dev

def modCoh (d : Dev) (f : Coh → Coh) : Dev := { d with coh := f d.coh }

/-- An agent is declared dead (R303). -/
def isDead (d : Dev) (a : Nat) : Bool := bit (d.reg Reg.deadAgents) a

/-- The agent's copy of a line. -/
def copyOf (d : Dev) (a line : Nat) : Option Copy := Tab.look d.coh.copies (copyKey a line)

def dropCopy (d : Dev) (a line : Nat) : Dev := d.modCoh (fun c => { c with copies := Tab.del c.copies (copyKey a line) })

/-- Lines an agent can hold (R291). -/
def agentLines (a : Nat) : Nat := if a < 120 then 2048 else if a < 124 then 64 else if a = 124 then 16 else 0

/-- Lines of which an agent holds a copy. -/
def linesHeld (d : Dev) (a : Nat) : List Nat := (d.coh.copies.filter (fun kv => kv.1 / 2 ^ 33 = a)).map (fun kv => kv.1 % 2 ^ 33)

/-- A unit is of no agent: Yarrow's GF lanes (R291). -/
def isLanes (u : Nat) : Bool := decide (128 ≤ u) && (u - 128) % 8 = 4

/-- Quadrant of an agent; the agent that a unit is or belongs to, or whose number stands for its quadrant; units of an agent: a tile, or the
gather, filter and DMA engines of a quadrant (R291, R425). -/
def agentQuad (a : Nat) : Nat := if a < 120 then a / 30 else a - 120
def agentOf (u : Nat) : Nat := if u < 120 then u else 120 + (u - 128) / 8
def agentUnits (d : Dev) (a : Nat) : List Nat := (d.jobs.running.filter (fun kv => agentOf kv.1 = a && !isLanes kv.1)).map Prod.fst

/-- Requests of an agent that wait for their lines. -/
def asking (d : Dev) (a : Nat) : Nat :=
  (d.coh.blocked.filter (fun r => r.agent = some a)).length + (d.coh.snoops.filter (fun s => s.req.agent = some a)).length

/-- An agent that asks for a line has a place for it. -/
def roomFor (d : Dev) (a line : Nat) : Bool := (d.copyOf a line).isSome || decide ((d.linesHeld a).length + d.asking a < agentLines a)

/-- Apply one queued invalidation, or all of them (R299, R300): an S copy of the line is dropped. Acknowledgments held for lack of room
are then given. -/
def applyInv (d : Dev) (a : Nat) (all : Bool) : Dev :=
  let q := Tab.getD d.coh.invq a []
  let now := if all then q else q.take 1
  let d := d.each now (fun d line => if (d.copyOf a line).any (fun c => c.st = 1) then d.dropCopy a line else d)
  let rest := q.drop now.length
  let held := Tab.getD d.coh.held a []
  let room := held.take (256 - rest.length)
  d.modCoh (fun c => { c with invq := Tab.set c.invq a (rest ++ room) [], held := Tab.set c.held a (held.drop room.length) [],
                              posted := c.posted.filter (fun p => !(p.1 = a && room.contains p.2)) })

/-- A slice watches an agent: the agent holds a line of the slice, or it has a running or parked quantum and the slice is its own quadrant's
(R303). -/
def watched (d : Dev) (a slice : Nat) : Bool :=
  (d.linesHeld a).any (fun l => sliceOf l = slice) || (agentQuad a = slice && !(d.agentUnits a).isEmpty)

/-- Note when a slice begins to watch an agent (R303). -/
def watch (d : Dev) (a slice : Nat) : Dev :=
  if d.watched a slice then d else d.modCoh (fun c => { c with beats := Tab.put c.beats (a * 4 + slice) d.tick })

/-- Post invalidations to the sharers of a line but one (R296, R299). -/
def postInv (d : Dev) (line : Nat) (agents : List Nat) : Dev :=
  d.each (agents.filter (fun a => !d.isDead a)) (fun d a =>
    (d.modCoh (fun c => { c with posted := c.posted ++ [(a, line)] })).emit (.invalidate a line))

/-- Enter a line in the directory, or take it out. -/
def setDir (d : Dev) (line st agents : Nat) : Dev :=
  d.modCoh (fun c => { c with dir := if st = 0 ∨ agents = 0 then Tab.del c.dir line else Tab.put c.dir line { st := st, agents := agents } })

/-- An agent holds a line. -/
def putCopy (d : Dev) (a line ctx st : Nat) (data : Bytes) : Dev :=
  (d.watch a (sliceOf line)).modCoh (fun c =>
    { c with copies := Tab.put c.copies (copyKey a line) { st := st, ctx := ctx, data := padTo 128 data } })

/-- Give an agent a line that it has asked for. -/
def grantLine (d : Dev) (a line ctx st : Nat) (data : Bytes) : Dev := (d.putCopy a line ctx st data).emit (.grant a line st data)

/-- A record and count of a failed access to a LOST line (R305). -/
def noteLost (d : Dev) (line : Nat) : Dev :=
  let q := sliceOf line
  (d.bump (Reg.lineLost q)).event q { code := Ev.lineLost, status := St.lineLost, addr := line * 128 }

/-- An access fails with ERR_ECC (R236, R237). -/
def noteUe (d : Dev) (off : Nat) : Dev :=
  let s := stackAt off
  let d := (d.bump (Reg.hbmEccUncorr s)).setReg (Reg.hbmUeLast s) (off / 64 * 64)
  d.event (s / 3) { code := Ev.hbmUe, unit := s, status := St.ecc, addr := off / 64 * 64 }

/-- The same of an access that met some sectors: it counts once, and records the last of them (R236, R237, R258). -/
def noteUes (d : Dev) (ss : List Nat) : Dev := match ss.getLast? with
  | some s => d.noteUe (s * 64)
  | none => d

/-- The L2 holds the line (R233). -/
def inL2 (d : Dev) (line : Nat) : Bool := Tab.has d.tiers.l2c line

/-- A sector meets a range; a range covers a sector. -/
def sectorIn (off len s : Nat) : Bool := decide (s * 64 < off + len) && decide (off < s * 64 + 64)
def sectorWhole (off len s : Nat) : Bool := decide (off ≤ s * 64) && decide (s * 64 + 64 ≤ off + len)

/-- Uncorrectable sectors that a read of a line's bytes meets: none where the L2 holds the line. -/
def badSectors (d : Dev) (off len : Nat) : List Nat := if d.inL2 (off / 128) then [] else d.tiers.bad.filter (sectorIn off len)

/-- Uncorrectable sectors that a write touches without covering them (R237). -/
def badPartials (d : Dev) (off len : Nat) : List Nat := (d.badSectors off len).filter (fun s => !sectorWhole off len s)

/-- A write covers sectors: their bits in error are replaced (R237). -/
def clearBad (d : Dev) (off len : Nat) : Dev :=
  let keep := fun (s : Nat) => !sectorWhole off len s
  { d with tiers := { d.tiers with bad := d.tiers.bad.filter keep, soft := d.tiers.soft.filter keep } }

/-- Errors arise in the memory (R234 to R236). A lost copy of a line that the L2 has not changed is read again from its stack. -/
def strike (d : Dev) (e : Ecc) : Dev :=
  d.modTiers (fun T =>
    let bad := T.bad ++ (e.bad.eraseDups.filter (fun s => !T.bad.contains s))
    { T with bad := bad,
             soft := (T.soft ++ e.soft.eraseDups.filter (fun s => !T.soft.contains s)).filter (fun s => !bad.contains s),
             l2err := T.l2err ++ (e.l2.eraseDups.filter (fun l => Tab.look T.l2c l = some true)),
             l2c := Tab.keep T.l2c (fun l _ => !e.l2.contains l) })

/-- The L2's only copy of a line is lost: both its sectors are reported uncorrectable and stay so (R234). Answers whether that was found now. -/
def l2Report (d : Dev) (line : Nat) : Bool × Dev :=
  if d.tiers.l2err.contains line then
    let ss := [2 * line, 2 * line + 1]
    let d := d.modTiers (fun T => { T with l2err := T.l2err.filter (· != line), soft := T.soft.filter (fun s => s / 2 != line),
                                           bad := T.bad.filter (fun s => s / 2 != line) ++ ss })
    (true, (d.event (sliceOf line) { code := Ev.hbmUe, unit := stackAt (line * 128), status := St.ecc, addr := line * 128 }).noteUes ss)
  else (false, d)

/-- The line whose place in the L2 another takes, where the set is full; which one is free (R233, log 152). -/
def l2Victim (d : Dev) (line : Nat) : Option (Nat × Bool) × Dev :=
  if d.tiers.l2c.length < 16 || d.inL2 line then (none, d)
  else
    let same := d.tiers.l2c.filter (fun e => sliceOf e.1 = sliceOf line && Config.l2Set e.1 % 8192 = Config.l2Set line % 8192)
    if same.length < 16 then (none, d)
    else
      let f := d.fresh
      (same[f.1 % same.length]?, f.2)

/-- The L2 holds a line, as read or as changed. A changed line that leaves is written to its stack whole (R233). -/
def l2Hold (d : Dev) (line : Nat) (dirty : Bool) : Dev :=
  let v := d.l2Victim line
  let d := match v.1 with
    | some (l, changed) => v.2.modTiers (fun T =>
        let keep := fun (s : Nat) => !changed || s / 2 != l
        { T with l2c := Tab.del T.l2c l, bad := T.bad.filter keep, soft := T.soft.filter keep })
    | none => v.2
  d.modTiers (fun T => { T with l2c := Tab.upd T.l2c line false (· || dirty) })

/-- A line that the L2 does not hold is read from its stack, and each sector corrected counts (R235). -/
def l2Fill (d : Dev) (line : Nat) : Dev :=
  let n := if d.inL2 line then 0 else (d.tiers.soft.filter (fun s => s / 2 = line)).length
  if n = 0 then d else d.bump (Reg.hbmEccCorr (stackAt (line * 128))) n

/-- A read of bytes of one line at the L2; answers whether it fails with ERR_ECC. A line with an uncorrectable sector takes no place in the L2
(R233 to R236). -/
def readLine (d : Dev) (off len : Nat) : Bool × Dev :=
  let line := off / 128
  let r := d.l2Report line
  if r.1 then r
  else
    let d := r.2.l2Fill line
    match d.badSectors off len with
    | [] => (false, if (d.badSectors (line * 128) 128).isEmpty then d.l2Hold line false else d)
    | ss => (true, d.noteUes ss)

/-- A write of bytes of one line at the L2; answers whether it fails with ERR_ECC and is not applied (R233, R234, R237). -/
def writeLine (d : Dev) (off len : Nat) : Bool × Dev :=
  let line := off / 128
  let r := if len = 128 then (false, d.modTiers (fun T => { T with l2err := T.l2err.filter (· != line) })) else d.l2Report line
  match r.2.badPartials off len with
  | [] =>
    let d := (if len = 128 then r.2 else r.2.l2Fill line).clearBad off len
    (false, if (d.badSectors (line * 128) 128).isEmpty then d.l2Hold line true else d)
  | ss => (true, if r.1 then r.2 else r.2.noteUes ss)

/-- A stack sleeps (R240). -/
def stackSleeps (d : Dev) (line : Nat) : Bool := d.reg (Reg.hbmState (stackAt (line * 128))) = 3

/-- A stack is being brought out of SLEEP for an access (R240). -/
def wakeStack (d : Dev) (line : Nat) : Dev := d.modTiers (fun T => { T with waking := T.waking ||| (1 <<< stackAt (line * 128)) })

/-- The status with which the L2 refuses every access to a line: its stack FAILED (R239), or its quadrant stands below SL-M or its stack does
not work, and offers no tier H service (R30, R32; the status is log 153). -/
def l2Refuses (d : Dev) (line : Nat) : Option Nat :=
  let st := d.reg (Reg.hbmState (stackAt (line * 128)))
  if st = 4 then some St.ecc
  else if d.level (sliceOf line) < 2 || (st != 2 && st != 3) then some St.unmapped
  else none

/-- The line is being changed by an earlier request: a snoop is outstanding, acknowledgments are due, or a request waits (R296). -/
def lineBusy (d : Dev) (line : Nat) : Bool :=
  d.coh.snoops.any (fun s => s.line = line) || d.coh.posted.any (fun p => p.2 = line) || d.coh.blocked.any (fun r => r.line = line)

def block (d : Dev) (r : DirReq) : Dev := d.modCoh (fun c => { c with blocked := c.blocked ++ [r] })

/-- Snoop an owner; the request waits for the answer (R302). -/
def snoop (d : Dev) (a line : Nat) (keep : Bool) (r : DirReq) : Dev :=
  (d.modCoh (fun c => { c with snoops := c.snoops ++ [{ agent := a, line := line, req := r }] })).emit (.snoop a line keep)

/-- Agents of an entry. -/
def agentsOf (v : Nat) : List Nat := members 128 v

/-- A LOST line is revived (R306). -/
def revive (d : Dev) (line : Nat) : Dev :=
  (d.modCoh (fun c => { c with lost := c.lost.filter (· != line) })).bump (Reg.revived (sliceOf line))

/-- The merge record that is next at the L2 for a line (R210). -/
def l2Record (d : Dev) (line : Nat) : Option (Nat × HomeOp) :=
  let q := sliceOf line
  match (Tab.getD d.l2 q []).find? (fun x => x.off / 128 = line) with
  | some x => if x.kind = 2 then (d.opOf q x.op).map (fun o => (q, o)) else none
  | none => none

/-- Two lines fall into one set of one slice, of its 16,384 (R294). -/
def sameSet (a b : Nat) : Bool := sliceOf a = sliceOf b && Config.dirSet a % 16384 = Config.dirSet b % 16384

/-- An entry is wanted in a set that is full: the entry to be evicted, chosen freely (R296, log 16). -/
def setVictim (d : Dev) (line : Nat) : Option (Nat × DirEnt) × Dev :=
  let same := d.coh.dir.filter (fun e => sameSet e.1 line)
  if Tab.has d.coh.dir line || same.length < 16 then (none, d)
  else
    let f := d.fresh
    (same[f.1 % same.length]?, f.2)

/-- An entry of the line's set is being evicted from its owner, and the set is full till then: no other entry is evicted for the line (R296). -/
def evicting (d : Dev) (line : Nat) : Bool :=
  d.coh.snoops.any (fun s => match s.req with
    | .evict v _ => sameSet v line
    | _ => false) && 16 ≤ (d.coh.dir.filter (fun e => sameSet e.1 line)).length

end Dev

namespace L2State

def onDev (s : L2State) (f : Dev → Dev) : L2State := { s with dev := f s.dev }
def answer (s : L2State) (r : L2Res) : L2State := { s with done := s.done ++ [r] }

/-- An agent's request fails; a tile whose quantum meets that fails the quantum (R305, R337). -/
def refuse (s : L2State) (a line st : Nat) : L2State :=
  s.onDev (fun d => let d := d.emit (.refuse a line st); if a < 120 then d.failQuantum a st else d)

/-- Bytes of a line. -/
def line (s : L2State) (l : Nat) : Bytes := s.mem.read (l * 128) 128

/-- The owner's data goes into the L2, where it offers service for the line (R32, R239, R296). -/
def writeBack (s : L2State) (a l : Nat) : L2State :=
  match if (s.dev.l2Refuses l).isSome then none else s.dev.copyOf a l with
  | some c => if c.st = 3 then { s with mem := s.mem.write (l * 128) c.data, dev := (s.dev.writeLine (l * 128) 128).2 } else s
  | none => s

/-- Serve a home, BAR2, walker, scrubber or fill request with no copy in the way. -/
def serveHome (s : L2State) (r : DirReq) : L2State :=
  match r with
  | .hread src off len =>
    let res := fun st data => ({ kind := 0, src := src, off := off, len := len, status := st, data := data, req := r } : L2Res)
    let x := s.dev.readLine off len
    ({ s with dev := x.2 }).answer (if x.1 then res St.ecc [] else res 0 (s.mem.read off len))
  | .hwrite src off data =>
    let res := fun st => ({ kind := 1, src := src, off := off, len := data.length, status := st, data := [], req := r } : L2Res)
    let x := s.dev.writeLine off data.length
    if x.1 then ({ s with dev := x.2 }).answer (res St.ecc)
    else ({ s with mem := s.mem.write off data, dev := x.2 }).answer (res 0)
  | .hatom src off _ aw _ _ =>
    let res := fun st data => ({ kind := 2, src := src, off := off, len := 4 * 2 ^ aw, status := st, data := data, req := r } : L2Res)
    let l := off / 128
    let y := s.dev.readLine (l * 128) 128
    if y.1 then ({ s with dev := y.2 }).answer (res St.ecc [])
    else
      let s := { s with dev := y.2.l2Hold l true }
      match s.dev.l2Record l with
      | some (q, op) =>
        let x := s.dev.applyMerge q op (s.line l)
        ({ s with mem := s.mem.write (l * 128) x.1, dev := x.2.2.setOp q { op with priors := x.2.1, data := x.1 } }).answer (res 0 (s.line l))
      | none => s.answer (res 0 (s.line l))
  | _ => s

/-- Answer a home request with a status and no effect. -/
def failHome (s : L2State) (r : DirReq) (st : Nat) : L2State :=
  match r with
  | .hread src off len => s.answer { kind := 0, src := src, off := off, len := len, status := st, data := [], req := r }
  | .hwrite src off data => s.answer { kind := 1, src := src, off := off, len := data.length, status := st, data := [], req := r }
  | .hatom src off _ aw _ _ => s.answer { kind := 2, src := src, off := off, len := 4 * 2 ^ aw, status := st, data := [], req := r }
  | .gets a l _ | .getm a l _ _ | .wfull a l _ _ => s.refuse a l st
  | .evict _ _ => s

/-- An agent's GETS, GETM or WFULL on a line in I or S, acknowledgments in (R296, R297). -/
def serveAgent (s : L2State) (r : DirReq) : L2State :=
  let l := r.line
  match r with
  | .gets a _ ctx =>
    let x := s.dev.readLine (l * 128) 128
    let s := { s with dev := x.2 }
    if x.1 then s.refuse a l St.ecc
    else
      match Tab.look s.dev.coh.dir l with
      | none => s.onDev (fun d => (d.grantLine a l ctx 2 (s.line l)).setDir l 2 (1 <<< a))
      | some e => s.onDev (fun d => (d.grantLine a l ctx 1 (s.line l)).setDir l 1 (e.agents ||| (1 <<< a)))
  | .getm a _ ctx op =>
    let own := if (Tab.look s.dev.coh.dir l).any (fun e => bit e.agents a) then (s.dev.copyOf a l).map (·.data) else none
    let x := if own.isSome then (false, s.dev) else s.dev.readLine (l * 128) 128
    let s := { s with dev := x.2 }
    if x.1 then s.refuse a l St.ecc
    else s.onDev (fun d => (d.grantLine a l ctx 3 (op.on (own.getD (s.line l)))).setDir l 3 (1 <<< a))
  | .wfull a _ ctx data => s.onDev (fun d => (d.grantLine a l ctx 3 data).setDir l 3 (1 <<< a))
  | _ => s

/-- Whether a request covers its whole line, and so revives a LOST one (R306). -/
def covers : DirReq → Bool
  | .wfull _ _ _ _ => true
  | .hwrite _ off data => off % 128 = 0 && data.length = 128
  | _ => false

/-- An agent's request for a line without an entry: where the line's set is full another entry is evicted, and the request waits for an owner
of that (R296). -/
def withEntry (s : L2State) (r : DirReq) (go : L2State → L2State) : L2State :=
  if s.dev.evicting r.line then s.onDev (fun d => d.block r)
  else
    match s.dev.setVictim r.line with
    | (none, d) => go { s with dev := d }
    | (some (v, e), d) =>
      let d := d.bump (Reg.backInval (sliceOf r.line))
      if e.st = 1 then go { s with dev := (d.postInv v (Dev.agentsOf e.agents)).setDir v 0 0 }
      else { s with dev := (d.snoop ((Dev.agentsOf e.agents).headD 0) v false (.evict v false)).block r }

/-- The slice takes a request (R296). A request that must wait is kept, and taken again when what it waits for has come. -/
def take (s : L2State) (r : DirReq) : L2State :=
  let l := r.line
  let d := s.dev
  if d.lineBusy l then s.onDev (fun d => d.block r)
  else if (d.l2Refuses l).isSome then s.failHome r ((d.l2Refuses l).getD 0)
  else if d.stackSleeps l then s.onDev (fun d => (d.wakeStack l).block r)
  else if d.coh.lost.contains l then
    if covers r then (match r with
      | .wfull _ _ _ _ => s.withEntry r (fun s => (s.onDev (fun d => d.revive l)).serveAgent r)
      | _ => (s.onDev (fun d => d.revive l)).serveHome r)
    else (match r with
      | .hread .scrub _ _ => s.failHome r St.lineLost
      | _ => (s.onDev (fun d => d.noteLost l)).failHome r St.lineLost)
  else
    match Tab.look d.coh.dir l with
    | some e =>
      let owner := (Dev.agentsOf e.agents).headD 0
      match r with
      | .gets a _ ctx =>
        if e.st = 1 then s.serveAgent r
        else if owner = a then s.onDev (fun d => d.grantLine a l ctx e.st (((d.copyOf a l).map (·.data)).getD (s.line l)))
        else s.onDev (fun d => d.snoop owner l true r)
      | .getm a _ ctx op =>
        if e.st = 1 then
          let others := (Dev.agentsOf e.agents).filter (· != a)
          if others.isEmpty then s.serveAgent r
          else s.onDev (fun d => ((d.postInv l others).setDir l 1 (if bit e.agents a then 1 <<< a else 0)).block r)
        else if owner = a then
          s.onDev (fun d => (d.grantLine a l ctx 3 (op.on (((d.copyOf a l).map (·.data)).getD (s.line l)))).setDir l 3 (1 <<< a))
        else s.onDev (fun d => d.snoop owner l false r)
      | .wfull a _ _ _ =>
        if e.st = 1 then
          let others := (Dev.agentsOf e.agents).filter (· != a)
          if others.isEmpty then s.serveAgent r
          else s.onDev (fun d => ((d.postInv l others).setDir l 1 (if bit e.agents a then 1 <<< a else 0)).block r)
        else if owner = a then s.serveAgent r
        else s.onDev (fun d => d.snoop owner l false r)
      | .hread _ _ _ => if e.st = 3 then s.onDev (fun d => d.snoop owner l true r) else s.serveHome r
      | .hwrite _ _ _ | .hatom _ _ _ _ _ _ =>
        if e.st = 1 then s.onDev (fun d => ((d.postInv l (Dev.agentsOf e.agents)).setDir l 0 0).block r)
        else s.onDev (fun d => d.snoop owner l false r)
      | .evict _ _ => s
    | none =>
      match r with
      | .gets _ _ _ | .getm _ _ _ _ | .wfull _ _ _ _ => s.withEntry r (fun s => s.serveAgent r)
      | _ => s.serveHome r

/-- Take every waiting request again, in order. -/
def retryAll (s : L2State) : L2State :=
  let rs := s.dev.coh.blocked
  rs.foldl take (s.onDev (fun d => d.modCoh (fun c => { c with blocked := [] })))

/-- Queued invalidations of an agent are applied; where acknowledgments held till then are given, what waits is taken again (R299, R300). -/
def applyAll (s : L2State) (a : Nat) : L2State :=
  let n := s.dev.coh.posted.length
  let s := s.onDev (fun d => d.applyInv a true)
  if s.dev.coh.posted.length < n then s.retryAll else s

/-- A snoop is answered: the owner's copy goes as the request wants, and the request completes from the new state (R296, R302). Where the L2
no longer serves the line, the owner keeps it, and the request fails (R32). -/
def snooped (s : L2State) (x : Snoop) : L2State :=
  let keep := match x.req with | .gets _ _ _ | .hread _ _ _ | .evict _ true => true | _ => false
  let stays := s.dev.l2Refuses x.line = some St.unmapped
  let discard := match x.req with | .wfull _ _ _ _ => true | _ => false
  let s := if discard then s else s.writeBack x.agent x.line
  let s := s.onDev (fun d => d.modCoh (fun c => { c with snoops := removeFirst (fun y => y = x) c.snoops }))
  let has := (s.dev.copyOf x.agent x.line).isSome
  let s := s.onDev (fun d =>
    if stays then d
    else if keep && has then
      (d.modCoh (fun c => { c with copies := Tab.edit c.copies (copyKey x.agent x.line) (fun y => { y with st := 1 }) })).setDir x.line 1
        (1 <<< x.agent)
    else (d.dropCopy x.agent x.line).setDir x.line 0 0)
  let waiting := s.dev.coh.blocked
  let s := s.onDev (fun d => d.modCoh (fun c => { c with blocked := [] }))
  waiting.foldl take (match x.req with | .evict _ _ => s | r => s.take r)

/-- SNOOP_RESPONSE: an owner answers; a response already replaced by a write-back is discarded (R300, R302). -/
def snoopResponse (s : L2State) (a l : Nat) : L2State :=
  if s.dev.isDead a then s
  else if s.dev.coh.noData.contains (a, l) then
    s.onDev (fun d => d.modCoh (fun c => { c with noData := removeFirst (· = (a, l)) c.noData }))
  else
    let s := s.applyAll a
    match s.dev.coh.snoops.find? (fun x => x.agent = a && x.line = l) with
    | some x => s.snooped x
    | none => s

/-- PUTE or PUTM: an owner gives a line up; where a snoop to it is outstanding, the write-back is the snoop response (R296, R302). A quadrant
below SL-M refuses it, and the owner keeps the line; a write-back to a FAILED stack fails, and its data is gone (R32, R239). -/
def put (s : L2State) (a l : Nat) (dirty : Bool) : L2State :=
  match s.dev.copyOf a l with
  | none => s
  | some c =>
    if s.dev.isDead a || c.st != (if dirty then 3 else 2) then s
    else if s.dev.l2Refuses l = some St.unmapped then s.onDev (fun d => d.emit (.refuse a l St.unmapped))
    else
      match s.dev.coh.snoops.find? (fun x => x.agent = a && x.line = l) with
      | some x =>
        let s := s.writeBack a l
        let s := s.onDev (fun d => ((d.dropCopy a l).modCoh (fun c => { c with noData := c.noData ++ [(a, l)] })).bump (Reg.wbCross (sliceOf l)))
        s.snooped x
      | none =>
        let s := s.writeBack a l
        (s.onDev (fun d => (d.dropCopy a l).setDir l 0 0)).retryAll

/-- An agent drops a copy of another context before it asks for the line again, writing it back if it is in M (R293). -/
def retag (s : L2State) (a l ctx : Nat) : L2State :=
  match s.dev.copyOf a l with
  | some c => if c.ctx = ctx then s else if c.st = 1 then s.onDev (fun d => d.dropCopy a l) else s.put a l (c.st = 3)
  | none => s

/-- Make room for a line of an agent that holds as many as it can (R291): which copy it gives up, of those that their L2 takes, is free
(log 155). -/
def makeRoom (s : L2State) (a l : Nat) : L2State :=
  let ls := (s.dev.linesHeld a).filter (fun v => s.dev.l2Refuses v != some St.unmapped)
  if s.dev.roomFor a l then s
  else
    let f := s.dev.fresh
    match ls[f.1 % ls.length]? with
    | none => s
    | some v =>
      match f.2.copyOf a v with
      | some c => if c.st = 1 then { s with dev := f.2.dropCopy a v } else ({ s with dev := f.2 }).put a v (c.st = 3)
      | none => s

/-- An agent's request reaches its slice (R296, R300). -/
def request (s : L2State) (r : DirReq) : L2State :=
  let go := fun (s : L2State) (a l ctx : Nat) =>
    let s := (s.retag a l ctx).makeRoom a l
    if s.dev.roomFor a l then s.take r else s
  match r with
  | .gets a l ctx => if s.dev.isDead a || 124 < a || windowSize / 128 ≤ l then s else go s a l ctx
  | .getm a l ctx _ | .wfull a l ctx _ =>
    if s.dev.isDead a || 124 < a || windowSize / 128 ≤ l then s else go (s.applyAll a) a l ctx
  | r => s.take r

/-- DIRTY_NOTICE: the owner of an E line has written (R295). -/
def dirty (s : L2State) (a l : Nat) (data : Bytes) : L2State :=
  match s.dev.copyOf a l with
  | some c =>
    if s.dev.isDead a || c.st = 1 then s
    else s.onDev (fun d =>
      (d.modCoh (fun x => { x with copies := Tab.put x.copies (copyKey a l) { c with st := 3, data := padTo 128 data } })).setDir l 3 (1 <<< a))
  | none => s

/-- An invalidation reaches an agent: acknowledged, unless its queue is full (R299). -/
def invReceive (s : L2State) (a l : Nat) : L2State :=
  if s.dev.isDead a || !s.dev.coh.posted.contains (a, l) || (Tab.getD s.dev.coh.held a []).contains l then s
  else
    let q := Tab.getD s.dev.coh.invq a []
    if q.length < 256 then
      (s.onDev (fun d => d.modCoh (fun c =>
        { c with invq := Tab.put c.invq a (q ++ [l]), posted := removeFirst (· = (a, l)) c.posted }))).retryAll
    else s.onDev (fun d => d.modCoh (fun c => { c with held := Tab.upd c.held a [] (· ++ [l]) }))

/-- INVALIDATION_APPLY: the oldest queued invalidation is applied (R299). -/
def invApply (s : L2State) (a : Nat) : L2State := (s.onDev (fun d => d.applyInv a false)).retryAll

/-- The kernel boundary of an agent: queued invalidations applied, S lines dropped (R307). -/
def boundary (s : L2State) (a : Nat) (ctx : Option Nat) : L2State :=
  (s.onDev (fun d => (d.applyInv a true).modCoh (fun c =>
    { c with copies := Tab.keep c.copies (fun k y => !(k / 2 ^ 33 = a && y.st = 1 && (ctx.isNone || ctx = some y.ctx))) }))).retryAll

/-- Every slice acts on a dead agent's entries (R304): E and S lose it, M lines enter LOST, or I where the LOST table is full (R306).
The requests of the agent that wait are discarded. Answers the lines for which no LOST entry was free. -/
def kill (s : L2State) (a : Nat) : L2State × List Nat :=
  let mine := s.dev.coh.dir.filter (fun e => bit e.2.agents a)
  let r := mine.foldl (fun (acc : Dev × List Nat) e =>
    let d := acc.1
    match e.2.st with
    | 3 =>
      let q := sliceOf e.1
      if (d.coh.lost.filter (fun l => sliceOf l = q)).length < 16384 then
        ((d.setDir e.1 0 0).modCoh (fun c => { c with lost := c.lost ++ [e.1] }), acc.2)
      else (((d.setDir e.1 0 0).bump (Reg.lostOverflow q)).event q { code := Ev.lostOverflow, addr := e.1 * 128 }, acc.2 ++ [e.1])
    | 2 => (d.setDir e.1 0 0, acc.2)
    | _ => (d.setDir e.1 1 (setBit e.2.agents a false), acc.2)) (s.dev, [])
  let d := r.1.modCoh (fun c =>
    { c with copies := Tab.keep c.copies (fun k _ => k / 2 ^ 33 != a), invq := Tab.del c.invq a, held := Tab.del c.held a,
             posted := c.posted.filter (fun p => p.1 != a), noData := c.noData.filter (fun p => p.1 != a) })
  let waiting := d.coh.snoops.filter (fun x => x.agent = a)
  let orphan := fun (x : Snoop) => if x.req.agent != some a then x else
    { x with req := .evict x.line (match x.req with | .gets _ _ _ => true | _ => false) }
  let d := d.modCoh (fun c => { c with snoops := (c.snoops.filter (fun x => x.agent != a)).map orphan, blocked := [] })
  let again := waiting.filterMap (fun x => match x.req with | .evict _ _ => none | q => some q)
  (((again ++ r.1.coh.blocked).filter (fun r => r.agent != some a)).foldl take { s with dev := d }, r.2)

end L2State

end Sys2Proof.Machine
end

