-- ==== Sys2Proof/Machine/L2Serve.lean ====
section
/-! DEFINITION. Requests at the L2: the home functions' tier H requests and the hosts' BAR2 accesses, served line by line (R200, R210,
R234, R251 to R254), and the agents' requests, write-backs, snoops and invalidations (R295 to R302). -/

namespace Sys2Proof.Machine

namespace Dev

def modL2 (d : Dev) (q : Nat) (f : List L2Req → List L2Req) : Dev := { d with l2 := Tab.set d.l2 q (f (Tab.getD d.l2 q [])) [] }

/-! ### BAR2 (R251 to R254) -/

def bar2Base (d : Dev) : HostId → Nat
  | .ha => d.reg Reg.bar2BaseHa
  | .hb => d.reg Reg.bar2BaseHb
def bar2Comp (d : Dev) : HostId → Nat
  | .ha => d.reg Reg.bar2CompHa
  | .hb => d.reg Reg.bar2CompHb
def bar2Rkey (d : Dev) : HostId → Nat
  | .ha => d.reg Reg.bar2RkeyHa
  | .hb => d.reg Reg.bar2RkeyHb

/-- A failed BAR2 access is counted and told to the host's event log (R252). -/
def bar2Fail (d : Dev) (h : HostId) (off status : Nat) : Dev :=
  let d := match h with | .ha => d.bump Reg.bar2FailsHa | .hb => d.bump Reg.bar2FailsHb
  d.event 4 { code := Ev.bar2Fail, status := status, comp := d.bar2Comp h, addr := off }

/-- Checks 4 to 7 of R151 and R197 on a BAR2 access. -/
def bar2Check (d : Dev) (h : HostId) (off kind : Nat) : Except Nat Nat × Dev :=
  let c := d.bar2Comp h
  if d.fenced c then (.error St.fenced, d)
  else if d.ownId.isNone || d.level (quadAt off) < 2 then (.error St.unmapped, d)
  else d.regionCheck c (windowBase d.dom.swId + off) (d.bar2Rkey h) kind

/-- A request that BAR2 does not accept (R253). -/
def bar2Bad (addr len : Nat) : Bool := len = 0 || 4096 < len || 4096 < addr % 4096 + len || 0x400000000 ≤ addr

/-- A BAR2 read or write reaches the block. -/
def bar2Access (d : Dev) (h : HostId) (addr len : Nat) (data : Option Bytes) : Dev :=
  if !(d.host h).up then d
  else if bar2Bad addr len then (if data.isNone then d.emit (.completion h 1 []) else d)
  else
    let off := d.bar2Base h + addr
    let r := d.bar2Check h off (if data.isNone then 0 else 1)
    match r.1 with
    | .error st =>
      let d := r.2.bar2Fail h off st
      if data.isNone then d.emit (.completion h 4 []) else d
    | .ok _ =>
      let n := r.2.tiers.bar2Seq + 1
      let x : L2Req := { kind := if data.isNone then 0 else 1, off := off, len := len, data := data.getD [], host := some h, seq := n }
      (r.2.modTiers (fun T => { T with bar2Seq := n })).modL2 (quadAt off) (· ++ [x])

/-! ### Completion of L2 requests -/

/-- An L2 request is complete: the home operation or the BAR2 access it serves goes on. -/
def l2Done (d : Dev) (q : Nat) (x : L2Req) (status : Nat) : Dev :=
  match x.host with
  | some h =>
    let d := if status = 0 then d else d.bar2Fail h x.off status
    if x.kind = 0 then d.emit (if status = 0 then .completion h 0 x.got else .completion h 4 []) else d
  | none =>
    match d.opOf q x.op with
    | none => d
    | some op =>
      if op.kind = .merge then
        if status = 0 then (d.setOp q { op with phase := 3 }).pump q else (d.failOp q op status).pump q
      else (d.completeOp q op status x.got).pump q

/-- Whether an answer of the L2 is for a request. -/
def answers (r : L2Res) (x : L2Req) : Bool :=
  x.asked && x.kind = r.kind &&
    (match r.src with | .home => x.host.isNone | .bar2 h => x.host = some h | _ => false) &&
    (if r.kind = 2 then x.off / 128 = r.off / 128 else x.off + x.done = r.off)

/-- The scrubber writes a corrected sector back through the L2, unless a write was taken since its read (R238). -/
def scrubBack (d : Dev) (s : Nat) : Dev :=
  if d.tiers.scrubCut || !d.tiers.soft.contains s then d
  else (d.modTiers (fun T => { T with soft := T.soft.filter (· != s) })).l2Hold (s / 2) true

/-- A write of a fill waits at the L2 still. -/
def fillBusy (d : Dev) (slot : Nat) : Bool :=
  let a := d.slotAddr slot
  let mine := fun (r : DirReq) => match r with
    | .hwrite .fill off _ => decide (a ≤ off) && decide (off < a + 2 ^ 21)
    | _ => false
  d.coh.blocked.any mine || d.coh.snoops.any (fun s => mine s.req)

/-- A slot whose blocks have all come, and are all written, is READY (R243). -/
def fillDone (d : Dev) (slot : Nat) : Dev :=
  if (Tab.look d.tiers.slots slot).any (fun x => x.state = 1 && x.filled = 2 ^ 512 - 1) && !d.fillBusy slot then
    (d.modTiers (fun T => { T with slots := Tab.edit T.slots slot (fun x => { x with state := 2, lastUse := d.tick }) })).stageComplete
  else d

/-- A write of a fill has been applied, or has failed and with it its slot (R240, R243). -/
def fillWritten (d : Dev) (off status : Nat) : Dev :=
  let slot := (off - d.tiers.poolBase) / 2 ^ 21
  if status = 0 then d.fillDone slot
  else d.modTiers (fun T => { T with slots := Tab.edit T.slots slot (fun x => if x.state = 1 then { x with state := 3, status := status } else x) })

/-- Take an answer of the L2 to the request it serves; an answer to no request goes to its source. -/
def settle (d : Dev) (r : L2Res) : Dev :=
  let q := sliceOf (r.off / 128)
  match r.src with
  | .home | .bar2 _ =>
    match (Tab.getD d.l2 q []).find? (answers r) with
    | none => d
    | some x =>
      let y := { x with done := x.done + r.len, got := x.got ++ r.data, asked := false }
      if r.status != 0 || r.kind = 2 || x.len ≤ y.done then (d.modL2 q (fun l => removeFirst (fun z => z = x) l)).l2Done q y r.status
      else d.modL2 q (replaceFirst x y)
  | .scrub => if r.status = 0 then d.scrubBack (r.off / 64) else d
  | src => if src = .fill && r.kind = 1 then d.fillWritten r.off r.status else if r.kind = 0 then d.emit (if r.status = 0 then .l2data r.off r.data else .refuse 0xFFFF (r.off / 128) r.status) else d

end Dev

/-- Run something at the L2 and take its answers to where they belong. -/
def runL2 (f : L2State → L2State) (m : Memory) (d : Dev) : Memory × Dev :=
  let s := f { mem := m, dev := d }
  (s.mem, s.done.foldl Dev.settle s.dev)

namespace Dev

/-- Bytes of the next line of a request. -/
def nextPiece (x : L2Req) : Nat := min (x.len - x.done) (128 - (x.off + x.done) % 128)

/-- A write of the host that PCIe delivered before a write waits still (R253). -/
def bar2Before (d : Dev) (x : L2Req) : Bool :=
  x.kind = 1 && x.host.isSome
    && d.l2.any (fun (kv : Nat × List L2Req) => kv.2.any (fun y => y.kind = 1 && y.host = x.host && decide (y.seq < x.seq)))

/-- The request of a source that an access may serve: the first of its kind at that place, with no earlier request on the line. -/
def l2Next (d : Dev) (q kind off : Nat) (src : HSource) : Option L2Req :=
  let l := Tab.getD d.l2 q []
  let mine := fun (x : L2Req) =>
    !x.asked && x.kind = kind && (match src with | .home => x.host.isNone | .bar2 h => x.host = some h | _ => false)
      && (if kind = 2 then x.off / 128 = off / 128 else x.off + x.done = off)
  let touches := fun (x : L2Req) => decide ((x.off + x.done) / 128 ≤ off / 128 ∧ off / 128 ≤ (x.off + max 1 x.len - 1) / 128)
  match l.find? mine with
  | some x => if (l.takeWhile (fun y => y != x)).any touches || d.bar2Before x then none else some x
  | none => none

/-- The request has gone to its slice. -/
def askL2 (d : Dev) (q : Nat) (x : L2Req) : Dev := d.modL2 q (replaceFirst x { x with asked := true })

end Dev

/-- HREAD: one line of a home or BAR2 read, or a read by the walker, the scrubber or a fill (R296). -/
def hreadAt (src : HSource) (off len : Nat) (m : Memory) (d : Dev) : Memory × Dev :=
  match src with
  | .home | .bar2 _ =>
    let q := sliceOf (off / 128)
    match d.l2Next q 0 off src with
    | none => (m, d)
    | some x => runL2 (fun s => s.take (.hread src off (Dev.nextPiece x))) m (d.askL2 q x)
  | _ => if len = 0 || 128 < off % 128 + len || windowSize < off + len then (m, d) else runL2 (fun s => s.take (.hread src off len)) m d

/-- HWRITE: one line of a home or BAR2 write, or a write of a fill. -/
def hwriteAt (src : HSource) (off : Nat) (data : Bytes) (m : Memory) (d : Dev) : Memory × Dev :=
  match src with
  | .home | .bar2 _ =>
    let q := sliceOf (off / 128)
    match d.l2Next q 1 off src with
    | none => (m, d)
    | some x => runL2 (fun s => s.take (.hwrite src off (slice x.data x.done (Dev.nextPiece x)))) m (d.askL2 q x)
  | _ =>
    if data.isEmpty || 128 < off % 128 + data.length || windowSize < off + data.length then (m, d)
    else runL2 (fun s => s.take (.hwrite src off data)) m d

/-- HATOM: a merge record of the home at its line; no other source makes atomics. -/
def hatomAt (src : HSource) (off aop aw : Nat) (sg : Bool) (operand : Bytes) (m : Memory) (d : Dev) : Memory × Dev :=
  let q := sliceOf (off / 128)
  match d.l2Next q 2 off src with
  | none => (m, d)
  | some x => runL2 (fun s => s.take (.hatom src x.off aop aw sg operand)) m (d.askL2 q x)

/-! ### Meanings -/

/-- HREAD (R296). -/
def execHread (src : HSource) (off len : Nat) (found : Ecc) (s : State) : Ans := onMem (fun m d => hreadAt src off len m (d.strike found)) s
/-- HWRITE (R296). -/
def execHwrite (src : HSource) (off : Nat) (data : Bytes) (s : State) : Ans := onMem (hwriteAt src off data) s
/-- HATOM (R296). -/
def execHatom (src : HSource) (off aop awidth : Nat) (asigned : Bool) (operand : Bytes) (s : State) : Ans :=
  onMem (hatomAt src off aop awidth asigned operand) s
/-- GETS (R296). -/
def execGets (agent line : Nat) (w : AgentAccess) (s : State) : Ans :=
  onMem (fun m d => runL2 (fun x => x.request (.gets agent line w.ctx)) m (d.strike w.found)) s
/-- GETM (R296). -/
def execGetm (agent line : Nat) (w : AgentAccess) (data : Bytes) (s : State) : Ans :=
  onMem (fun m d => runL2 (fun x => x.request (.getm agent line w.ctx { off := w.off, data := data, atomic := w.atomic })) m (d.strike w.found)) s
/-- WFULL (R296): a write of all 128 bytes. -/
def execWfull (agent line ctx : Nat) (data : Bytes) (s : State) : Ans :=
  onMem (runL2 (fun x => x.request (.wfull agent line ctx (padTo 128 data)))) s
/-- PUTE (R296). -/
def execPute (agent line : Nat) (s : State) : Ans := onMem (runL2 (fun x => x.put agent line false)) s
/-- PUTM (R296). -/
def execPutm (agent line : Nat) (s : State) : Ans := onMem (runL2 (fun x => x.put agent line true)) s
/-- DIRTY_NOTICE (R295). -/
def execDirtyNotice (agent line : Nat) (data : Bytes) (s : State) : Ans := onMem (runL2 (fun x => x.dirty agent line data)) s
/-- SNOOP_RESPONSE (R302). -/
def execSnoopResponse (agent line : Nat) (s : State) : Ans := onMem (runL2 (fun x => x.snoopResponse agent line)) s
/-- INVALIDATION_RECEIVE (R299). -/
def execInvalidationReceive (agent line : Nat) (s : State) : Ans := onMem (runL2 (fun x => x.invReceive agent line)) s
/-- INVALIDATION_APPLY (R299). -/
def execInvalidationApply (agent : Nat) (s : State) : Ans := onMem (runL2 (fun x => x.invApply agent)) s
/-- HEARTBEAT (R303): a slice hears that an agent which it watches lives; a dead agent's messages are discarded. -/
def execHeartbeat (agent slice : Nat) (s : State) : Ans :=
  onDev (fun d => if d.isDead agent || 4 ≤ slice || !d.watched agent slice then d
    else d.modCoh (fun c => { c with beats := Tab.put c.beats (agent * 4 + slice) d.tick })) s

/-- BAR2_READ (R252). -/
def execBar2Read (h : HostId) (addr len : Nat) (s : State) : Ans := onDev (fun d => d.bar2Access h addr len none) s
/-- BAR2_WRITE (R252). -/
def execBar2Write (h : HostId) (addr : Nat) (data : Bytes) (s : State) : Ans :=
  onDev (fun d => d.bar2Access h addr data.length (some data)) s
/-- BAR2_UNSUPPORTED (R253): an AtomicOp or a larger request draws Unsupported Request. -/
def execBar2Unsupported (h : HostId) (addr len : Nat) (atomicOp : Bool) (s : State) : Ans :=
  onDev (fun d => if (d.host h).up && (atomicOp || Dev.bar2Bad addr len) then d.emit (.completion h 1 []) else d) s

end Sys2Proof.Machine
end

