-- ==== Sys2Proof/Machine/SwitchCore.lean ====
section
/-! DEFINITION. The crossbar (R164 to R168) and the release of a packet whose last cell has been read (R158, R175). -/

namespace Sys2Proof.Machine

/-- A proposal of a block's egress arbiter, or of a unit as block 96 + unit: block, port, class, ingress quadrant (R166, R169). -/
structure Proposal where
  block : Nat
  port : Nat := 0
  cls : Nat
  quad : Nat
  deriving DecidableEq, Repr

/-- Where the cell of a proposal goes: the quadrant of its port or unit; a host port's cells cross no bridge, but the ingress quadrant's
control link (R22, R165). -/
def Proposal.target (x : Proposal) : Nat :=
  if x.block < 96 then Dev.quadOf x.port else if x.block < 112 then (x.block - 96) % 4 else x.quad

namespace Dev

/-- The next entry of a VOQ that has cells to grant. -/
def nextEntry (d : Dev) (q p cls : Nat) : Option QEnt :=
  ((d.core q).queue (voqKey p cls)).find? (fun e => decide (e.granted < e.n))

/-- Where the next cell of a pair comes from: the packet in progress, else the head packet of a VOQ. -/
def pairSource (d : Dev) (p cls : Nat) : Option Nat :=
  let P := d.port p
  if 4 ≤ (Tab.getD P.staged cls []).length || Tab.has P.txRest cls then none
  else
    match Tab.look P.inProgress cls with
    | some (q, _) => if bit d.health.deadDies q then none else some q
    | none => (d.quadTurn (voqKey p cls)).find? (fun q => (d.nextEntry q p cls).isSome)

/-- The proposal of a block (R166 step 1). Which of a block's ports with a cell of the chosen class comes first the rule does not say: DESIGN
CHOICE, the lowest-numbered (log 176). -/
def propose (d : Dev) (b : Nat) : Option Proposal :=
  let ports := (d.portsOfBlock b).filter d.isActive
  (d.classTurn b).findSome? (fun cls => ports.findSome? (fun p =>
    (d.pairSource p cls).map (fun q => { block := b, port := p, cls := cls, quad := q })))

/-- Cells a unit takes in one core cycle: Yarrow's intake is 14 (R394); no rule gives another unit a rate beyond the one cell of the port
block whose place it takes (R169). -/
def unitRate (u : Nat) : Nat := if 8 ≤ u && u < 12 then 14 else 1

/-- The proposals of a unit: cells of the packet that crosses to it, of the first class in its turn that has one (R166 step 1, R169). Units of
a failed quadrant propose nothing (R501). -/
def unitProposal (d : Dev) (u : Nat) : List Proposal :=
  if u < 16 && bit d.health.deadDies (u % 4) then []
  else
    ((d.classTurn (96 + u)).findSome? (fun cls =>
      match d.unitTurn (unitKey u cls) with
      | some (q, e) =>
        if e.granted < e.n && !bit d.health.deadDies q then
          some (List.replicate (min (unitRate u) (e.n - e.granted)) { block := 96 + u, cls := cls, quad := q : Proposal })
        else none
      | none => none)).getD []

/-- A cell of a packet crosses to a unit. -/
def grantUnit (d : Dev) (x : Proposal) : Dev :=
  let k := unitKey (x.block - 96) x.cls
  match d.unitTurn k with
  | none => d
  | some (q, e) =>
    let up := fun (l : List QEnt) => l.map (fun y => if y.id = e.id then { y with granted := y.granted + 1 } else y)
    { d.modCore q (fun c => { c with queues := Tab.upd c.queues k [] up }) with crossing := Tab.put d.crossing k (q, e.id) }

/-- Put back an entry of a VOQ after a change. -/
def setEntry (d : Dev) (q p cls : Nat) (e : QEnt) : Dev :=
  d.modCore q (fun c => { c with queues := Tab.upd c.queues (voqKey p cls) [] (fun l : List QEnt => l.map (fun x => if x.id = e.id then e else x)) })

/-- A packet in progress ends with a tag that fails at the receiver; one that does already stays so (R149, R172, R552). -/
def spoil (d : Dev) (q p cls : Nat) (e : QEnt) : Dev :=
  if !e.pkt.tagOk then d
  else
    let flip := fun (bs : Bytes) => bs.take (bs.length - 1) ++ [255 - bs.getLastD 0]
    (d.setEntry q p cls { e with pkt := { e.pkt with tagOk := false } }).modPort p (fun P => { P with egress := Tab.edit P.egress cls flip })

/-- A packet of a VOQ is dropped at egress: released, and a request type answered (R152). -/
def dropAtEgress (d : Dev) (q p cls : Nat) (e : QEnt) (status : Nat) : Dev :=
  let d := d.modCore q (fun c => (c.dequeue (voqKey p cls) e).2)
  if e.pkt.ptype.isRequest then d.failPacket e.src e.pkt status else d

/-- Grant one cell of a pair from an ingress quadrant into the egress staging. A packet that starts is sealed under the egress key; one
whose generation is gone is dropped (R548, R552). -/
def grantCell (d : Dev) (x : Proposal) : Dev :=
  let P := d.port x.port
  let start := (Tab.look P.inProgress x.cls).isNone
  let ent := match Tab.look P.inProgress x.cls with
    | some (q, i) => ((d.core q).queue (voqKey x.port x.cls)).find? (fun (e : QEnt) => decide (e.id = i))
    | none => d.nextEntry x.quad x.port x.cls
  match ent with
  | none => d.modPort x.port (fun P => { P with inProgress := Tab.del P.inProgress x.cls, egress := Tab.del P.egress x.cls })
  | some e =>
    let r := if start then d.sealPkt x.port e.pkt (!e.pkt.tagOk) else (some (Tab.getD P.egress x.cls []), d)
    match r with
    | (none, d) => (d.bump Reg.retiredDrops).dropAtEgress x.quad x.port x.cls e St.keyRetired
    | (some bs, d) =>
      let last := decide (e.n ≤ e.granted + 1)
      let cell : StagedCell :=
        { bytes := bs.take 256, sop := start, eop := last, key := if e.pkt.enc then 1 + e.pkt.kslot * 256 + e.pkt.kgen else 0 }
      let d := d.setEntry x.quad x.port x.cls { e with granted := e.granted + 1 }
      let d := d.modPort x.port (fun P =>
        { P with staged := Tab.upd P.staged x.cls [] (· ++ [cell]),
                 inProgress := if last then Tab.del P.inProgress x.cls else Tab.put P.inProgress x.cls (x.quad, e.id),
                 egress := if last then Tab.del P.egress x.cls else Tab.put P.egress x.cls (bs.drop 256) })
      let k := voqKey x.port x.cls
      d.turnPast x.block k x.cls (if start then x.quad else (Tab.getD d.arbQuad k 0 + 3) % 4)

/-- Order in which an ingress quadrant accepts (R166 step 2). Whether the rotation also orders several proposals of CLS0, or of CLS1, is open:
DESIGN CHOICE, those are taken in rising order of their blocks and units, and the rotation orders the rest (log 176). -/
def acceptOrder (c : Core) (ps : List Proposal) : List Proposal :=
  let turn := fun (x : Proposal) => (x.block + 114 - c.rr % 114) % 114
  let rest := ps.filter (fun x => 2 ≤ x.cls)
  ps.filter (fun x => x.cls = 0) ++ ps.filter (fun x => x.cls = 1) ++
    (List.range 114).flatMap (fun t => rest.filter (fun x => turn x = t))

/-- An ingress quadrant accepts proposals: 16 cells, each bridge within 25 cells per 2 cycles (R164). -/
def accept (d : Dev) (q : Nat) (ps : List Proposal) : Dev :=
  let c := d.core q
  let take := (acceptOrder c (ps.filter (fun x => x.quad = q))).foldl (fun (acc : List Proposal × Tab Nat) x =>
    let e := x.target
    let n := Tab.getD acc.2 e 0
    if acc.1.length < 16 && (e = q || n + Tab.getD c.bridge e 0 < 25) then (acc.1 ++ [x], Tab.put acc.2 e (n + 1)) else acc) ([], [])
  let d := d.each take.1 (fun d x => if x.block < 96 then d.grantCell x else d.grantUnit x)
  let rr := match (take.1.filter (fun x => 2 ≤ x.cls)).getLast? with | some x => (x.block + 1) % 114 | none => c.rr
  d.modCore q (fun c => { c with bridge := Tab.del take.2 q, rr := rr })

/-- Multicast results that wait are tested again, oldest first in each quadrant (R161, R174, R177). -/
def retryHeld (d : Dev) : Dev :=
  d.mcHeld.foldl (fun d x =>
    match if d.mcHeld.any (fun y => y.1 = x.1) then none else d.placeResult x.1 x.2 with
    | some d => d
    | none => { d with mcHeld := d.mcHeld ++ [x] }) { d with mcHeld := [] }

/-- One core cycle of the crossbar (R166). -/
def crossbar (d : Dev) : Dev :=
  let d := d.retryHeld
  let blocks := (d.activePorts.map (· / 4)).eraseDups
  let ps := blocks.filterMap d.propose ++ (List.range 18).flatMap d.unitProposal
  d.each [0, 1, 2, 3] (fun d q => if ps.isEmpty ∧ (d.core q).bridge = [] then d else d.accept q ps)

/-- The first entry of a port and class whose cells have all been read, over the quadrants. -/
def firstDone (d : Dev) (p cls : Nat) : Option (Nat × QEnt) :=
  [0, 1, 2, 3].findSome? (fun q =>
    (((d.core q).queue (voqKey p cls)).find? (fun e => decide (e.n ≤ e.granted))).map (fun e => (q, e)))

/-- The last cell of a packet or copy has been read for egress: its cells or its reference return (R158, R175). -/
def egressDone (d : Dev) (p cls : Nat) : Dev :=
  match d.firstDone p cls with
  | none => d
  | some (q, e) => (d.modCore q (fun c => (c.dequeue (voqKey p cls) e).2)).countOut e.pkt

end Dev

/-- CROSSBAR_GRANT (R166). -/
def execCrossbarGrant (s : State) : Ans := onDev (fun d => d.crossbar) s

end Sys2Proof.Machine
end

