-- ==== Sys2Proof/Machine/PortDown.lean ====
section
/-! DEFINITION. A port leaving ACTIVE (R104, R170, R386, R476, R477, R502, R663), DYING (R114, R115), loss of signal and retrain expiry, the
end of the TRAIN exchange with its admission checks (R42, R44, R71, R102), and the last cell read at egress (R158, R171, R172, R175). -/

namespace Sys2Proof.Machine

namespace Dev

/-- Outstanding requests to a tray whose port is gone: MODE SINGLE ones complete with ERR_HOME_LOST (R477, R663); abandoned ones are
forgotten. -/
def traysGone (d : Dev) (p : Nat) : Dev :=
  d.each [0, 1, 2, 3] (fun d q =>
    let mine := (d.home q).subs.filter (fun s => s.port = p)
    if mine.isEmpty then d
    else
      let d := d.each (mine.map (·.op)).eraseDups (fun d id =>
        match d.opOf q id with
        | some op =>
          if op.grp.isSome then d
          else if isRecord op && op.phase = 2 then (d.countLost St.homeLost (requestsOf op)).setOp q { op with phase := 3, status := St.homeLost }
          else d.failOp q op St.homeLost
        | none => d)
      (d.modHome q (fun H => { H with subs := H.subs.filter (fun s => s.port != p || (H.ops.any (fun o => o.id = s.op && o.grp.isSome))) })).pump q)

/-- Groups with a member or an assigned spare of an FEID, and that member (R476, R485). -/
def memberships (d : Dev) (feid : Nat) : List (Nat × Nat) :=
  (d.instances 0x560004).flatMap (fun ge =>
    let e := ge.2
    if SG.gstate e = 0 then []
    else ((List.range (SG.k e + 2)).filter (fun m =>
      (SG.mstate e m = 0 && SG.member e m = feid)
        || (SG.mstate e m = 2 && (Tab.look (d.group ge.1).spareOf m).any (fun i => SG.spare e i = feid)))).map (fun m => (ge.1, m)))

/-- What the loss of an ENDPOINT port means for the endpoint it led to. -/
def endpointGone (d : Dev) (p feid : Nat) : Dev :=
  let d := d.each (d.memberships feid) (fun d gm => d.memberFailed gm.1 gm.2)
  let d := d.traysGone p
  let d := d.contribGone feid
  let cs := d.compsOfHmap (fun e => !HMap.stripe e && (HMap.home e = feid || (HMap.state e = 2 && HMap.next e = feid)))
  d.fenceOwn Ev.portDown (fun c => cs.contains c)

/-- DATA flits of a port's replay buffer and receive FIFO (R104). -/
def flitsHeld (d : Dev) (p : Nat) : Nat :=
  let P := d.port p
  P.replay.length + (Tab.vals P.rx).foldl (fun n r => n + r.flits.length) 0

/-- A port leaves ACTIVE or RETRAIN, or a training state, for another one. Out of ACTIVE and RETRAIN its flits and queues are discarded and
what depends on it is told; the count and the event of R104 are for DETECT and HELD (R104, R170, R502). -/
def leaveActive (d : Dev) (p nx : Nat) : Dev :=
  let st := d.portState p
  let ep := d.role p = 0
  let feid := d.reg (Reg.portExpectFeid p)
  if st = 6 || st = 7 then
    let d := (if nx = 0 then d else d.bump (Reg.flitsDiscarded p) (d.flitsHeld p)).setReg (Reg.portState p) nx
    let d := d.modPort p (fun P =>
      { noExchange P with replay := [], resend := [], rx := [], staged := [], inProgress := [], egress := [], txq := [], txRest := [], nak := false,
                          ackValid := false, crRet := [], lastNak := none, expiries := 0, rxLanes := if nx = 8 then P.rxLanes else 0,
                          txLanes := if nx = 8 then P.txLanes else 0 })
    let d := if nx = 8 then d else d.showTrained p 0
    let d := { d with waiting := Tab.keep d.waiting (fun k _ => k / 8 != p) }
    let d := (d.showLanes p 0).flushPort p
    let d := if nx = 0 then d else d.event (quadOf p) { code := Ev.portDown, unit := p, feid := if ep then feid else 0xFFFF }
    let d := d.modDom (fun D => { D with markers := Tab.del D.markers p, linkDelay := Tab.del D.linkDelay p })
    if ep then d.endpointGone p feid else d
  else if nx = 8 then d.setReg (Reg.portState p) 8
  else d.untrained p nx

/-- Loss of signal on every lane (R102); it also ends the hold after a DYING (R115). -/
def lossOfSignal (d : Dev) (p : Nat) : Dev :=
  if d.isActive p then d.leaveActive p 1
  else if d.portState p = 1 then d.modPort p (fun P => { P with dyingHold := false })
  else d

/-- A DYING flit with a good CRC arrives (R115). An endpoint that sends it is gone in whatever state its port is (R386, R476). -/
def dyingRcvd (d : Dev) (p : Nat) (m : Dying) : Dev :=
  if !(d.exchanges p || d.portState p = 7) then d
  else
    let d := (d.bump (Reg.dyingRcvd p)).setReg (Reg.lastDying p) (leNat m.bytes)
    let d := d.event (quadOf p) { code := Ev.dyingRcvd, unit := p, feid := if m.srcKind = 1 then m.srcId else 0xFFFF, detail := m.bytes }
    let d := if d.role p = 0 && !(d.portState p = 6 || d.portState p = 7) then d.endpointGone p (d.reg (Reg.portExpectFeid p)) else d
    (d.leaveActive p 1).modPort p (fun P => { P with dyingHold := true })

/-! ### The own DYING and commanded resets (R114, R639) -/

/-- Ports that are not DISABLED. -/
def liveList (d : Dev) : List Nat := (d.liveStates.filter (fun x => x.2 != 0)).map Prod.fst

/-- Send DYING on ports: eight times on every lane, then only IDLE (R114); when the transmitters stop is given as unknown. -/
def sendDying (d : Dev) (ports : List Nat) (reason : Nat) : Dev :=
  let m : Dying := { reason := reason, srcKind := 0, srcId := d.dom.swId, tick := d.tick, portsLeft := 0xFFFF }
  d.each ports (fun d p => d.modPort p (fun P =>
    { P with dying := some m, dyingLeft := 8 * laneCount (d.portLaneMask p), closing := true, resend := [] }))

/-- Send DYING on ports at once, before what follows stops their transmitters (R114, R630). -/
def dyingNow (d : Dev) (ports : List Nat) (reason : Nat) : Dev :=
  (d.sendDying ports reason).each ports (fun d p => d.each (List.range (d.port p).dyingLeft) (fun d _ => d.flitSlot p))

/-- A commanded reset is taken, by its cause of R640: 3 fundamental, 4 to 6 warm. The weaker of two is abandoned; an orderly stop ignores
both (R626, R639). -/
def requestReset (d : Dev) (cause : Nat) : Dev :=
  if d.power.stopping || d.power.reset = some 3 || (d.power.reset.isSome && cause != 3) then d
  else (if d.power.reset.isSome then d else d.sendDying d.liveList 3).setPower { d.power with reset := some cause }

/-! ### The end of the TRAIN exchange (R102, R42, R44, R71) -/

/-- The check of the announced values in ADMIT. -/
def admitOk (d : Dev) (p : Nat) (t : TrainInfo) : Bool :=
  match d.role p with
  | 0 => d.reg (Reg.portExpectFeid p) != 0xFFFF && t.feid = d.reg (Reg.portExpectFeid p)
  | 1 => t.domId = d.dom.domId && t.switchId != d.dom.swId && bit d.dom.planeSet t.switchId
  | 2 => d.reg (Reg.portGwDomain p) != 0xFFFF && t.domId = d.reg (Reg.portGwDomain p) && t.domId != d.dom.domId
  | _ => false

/-- The value of PORT_PEER, by role (R77). -/
def announced (d : Dev) (p : Nat) (t : TrainInfo) : Nat :=
  match d.role p with
  | 0 => t.feid
  | 1 => t.switchId
  | _ => t.domId

def portHeld (d : Dev) (p peer : Nat) : Dev :=
  (d.setReg (Reg.portState p) 8).event (quadOf p) { code := Ev.portHeld, unit := p, feid := if d.role p = 0 then peer else 0xFFFF }

/-- The port may go into service: its quadrant has a level, and the switch has a place in a domain, plane ports apart (R31, R38). -/
def mayServe (d : Dev) (p : Nat) : Bool := d.level (quadOf p) != 0 && (d.role p = 1 || d.ownId.isSome)

/-- The delay of a link: half of its round trip, taken in steps of 0.25 ns (R62). -/
def halfTrip (rttPs : Nat) : Nat := rttPs / 250 * 125

/-- A switch that has lost its place takes every port but its plane ports out of service (R38, R43). -/
def placeLost (d : Dev) : Dev :=
  d.each ((d.liveStates.filter (fun x => (x.2 = 6 || x.2 = 7) && d.role x.1 != 1)).map Prod.fst) (fun d p => d.leaveActive p 1)

/-- The announcements of the peers are held against another own domain, switch ID or plane set: plane and gateway ports that fail the check go
to HELD with the event (R42, R71, R102). -/
def recheckPeers (d : Dev) : Dev :=
  d.each (d.liveStates.filter (fun x => x.2 = 5 || x.2 = 6 || x.2 = 7)) (fun d x =>
    match (d.port x.1).peer with
    | some t => if (d.role x.1 = 1 || d.role x.1 = 2) && !d.admitOk x.1 t then (d.leaveActive x.1 8).portHeld x.1 (d.announced x.1 t) else d
    | none => d)

/-- The exchange of TRAIN flits completes. -/
def paramDone (d : Dev) (p rttPs : Nat) : Dev :=
  if d.portState p != 4 then d
  else
    match (d.port p).peer with
    | none => d
    | some t =>
      let who := d.announced p t
      let d := (d.setReg (Reg.portPeer p) who).setReg (Reg.rttNs p) (min (rttPs / 1000) 0xFFFF)
      if leNat (d.port p).salt = t.salt then d.untrained p 1
      else if t.malformed || t.laneSet != (d.port p).rxLanes || t.credits != d.trainAlloc p then d.portHeld p who
      else if !d.admitOk p t then d.portHeld p who
      else
        let d := d.modDom (fun D => { D with linkDelay := if d.role p = 1 then Tab.put D.linkDelay p (halfTrip rttPs) else D.linkDelay })
        if d.role p != 0 && d.mayServe p then d.enterActive p else d.setReg (Reg.portState p) 5

/-- A port in ADMIT enters ACTIVE: an ENDPOINT port once the tick has been LOCKED, and in phase 5 where a manager leads (R58). Journaled
results for its endpoint leave again (R392). -/
def portActive (d : Dev) (p : Nat) : Dev :=
  let early := !d.dom.admitted || (d.dom.phase != 5 && d.reg Reg.managerCur != 0xFF)
  if d.portState p != 5 || !d.mayServe p || (d.role p = 0 && early) then d
  else
    let d := d.enterActive p
    if d.role p = 0 then d.resendTo (d.reg (Reg.portExpectFeid p)) else d

/-! ### Egress of the last cell (R158, R171, R172, R175) -/

/-- A buffer word that cannot be corrected is found in a packet of a port and class, or of unit u's queue under the number 512 + u (log 122);
a unit takes nothing before its packet has passed, so the packet is dropped. -/
def egressUe (d : Dev) (p cls : Nat) : Dev :=
  let P := d.port p
  let ent := match Tab.look P.inProgress cls with
    | some (q, i) => (((d.core q).queue (voqKey p cls)).find? (fun (e : QEnt) => decide (e.id = i))).map (fun e => (q, e))
    | none => [0, 1, 2, 3].findSome? (fun q => (d.nextEntry q p cls).map (fun e => (q, e)))
  match ent with
  | none => d
  | some (q, e) =>
    let d := (d.bump Reg.cellEccUncorr).event q { code := Ev.cellUe, unit := if p < 384 then p else 0xFFFF, comp := e.pkt.comp, status := St.ecc }
    if e.granted = 0 then d.dropAtEgress q p cls e St.ecc
    else if e.pkt.enc then d.spoil q p cls e
    else
      let bs := ((Tab.getD P.staged cls []).flatMap (·.bytes)).take 242
      let d := (d.bump (Reg.flitsTx p)).bump (Reg.bytesTx p) bs.length
      (d.putFlit p { ftype := 1, cls := cls, seq := P.txSeq, crcOk := false, payload := padTo 242 bs }).leaveActive p 1

/-- A round of RETRAIN ends in ACTIVE: the results that its endpoint has not acknowledged are sent again (R102, R392). -/
def retrained (d : Dev) (p : Nat) : Dev :=
  let back := d.portState p = 7 && d.role p = 0
  let d := d.retrainDone p
  if back then d.resendTo (d.reg (Reg.portExpectFeid p)) else d

end Dev

/-- PACKET_EGRESS_DONE (R158, R171, R172, R175). -/
def execPacketEgressDone (port cls : Nat) (uncorrectable : Bool) (s : State) : Ans :=
  onDev (fun d => if uncorrectable then d.egressUe port cls else if port < 384 then d.egressDone port cls else d) s
/-- LOSS_OF_SIGNAL (R102). -/
def execLossOfSignal (port : Nat) (s : State) : Ans := onDev (fun d => d.lossOfSignal port) s
/-- RETRAIN_TIMEOUT (R102, R104). -/
def execRetrainTimeout (port : Nat) (s : State) : Ans := onDev (fun d => if d.portState port = 7 then d.leaveActive port 1 else d) s
/-- DYING_RCVD (R115). -/
def execDyingRcvd (port : Nat) (m : Dying) (s : State) : Ans := onDev (fun d => d.dyingRcvd port m) s
/-- DYING_HOLD_END (R115). -/
def execDyingHoldEnd (port : Nat) (s : State) : Ans := onDev (fun d => d.modPort port (fun P => { P with dyingHold := false })) s
/-- PARAM_DONE (R102). -/
def execParamDone (port rttPs : Nat) (s : State) : Ans := onDev (fun d => d.paramDone port rttPs) s
/-- PORT_ACTIVE (R58, R102). -/
def execPortActive (port : Nat) (s : State) : Ans := onDev (fun d => d.portActive port) s
/-- RETRAIN_DONE (R102). -/
def execRetrainDone (port : Nat) (s : State) : Ans := onDev (fun d => d.retrained port) s

end Sys2Proof.Machine
end

