-- ==== Sys2Proof/Machine/Service.lean ====
section
/-! DEFINITION. Service levels of the quadrants (R30 to R35) and what a change of one does, failure and waking of a stack (R232, R239, R240),
die heartbeats (R505), and the death, reset and return of an agent (R303 to R306, R504, R506). -/

namespace Sys2Proof.Machine

-- Context entry (R262).
namespace CX
def ptBase (e : Nat) : Nat := bits e 0 64
def valid (e : Nat) : Bool := bit e 64
def faultHost (e : Nat) : HostId := if bit e 65 then .hb else .ha
def comp (e : Nat) : Nat := bits e 72 8
end CX

-- Weight record of a slice plan (R399), as one number.
namespace PR
def srcDa (r : Nat) : Nat := bits r 0 64
def srcLen (r : Nat) : Nat := bits r 64 32
def srcFmt (r : Nat) : Nat := bits r 120 8
def shadowOff (r : Nat) : Nat := bits r 128 64
def shadowLen (r : Nat) : Nat := bits r 192 32
end PR

/-- Bytes of a stack (R2). -/
def stackBytes : Nat := 0xC00000000

namespace Dev

def modPower (d : Dev) (f : PowerState → PowerState) : Dev := { d with power := f d.power }

/-! ### Levels (R30 to R35) -/

/-- A working port block of a quadrant (R30, R642). -/
def anyBlock (d : Dev) (q : Nat) : Bool := (List.range 24).any (fun i => !bit d.health.failedUnits (24 * q + i))

/-- The level R30 assigns to a quadrant, Campion counted until it has first reached SL-F (R33). The loss of both fabric references leaves the
levels as they are (DESIGN CHOICE, log 149). -/
def levelOf (d : Dev) (q : Nat) : Nat :=
  if !d.power.on || d.power.stopping || bit d.health.deadDies q || d.health.controlDead || Tab.has d.power.rungs (4 * 1024 + q) then 0
  else if bit d.health.failedUnits (232 + q) || !d.anyBlock q || !(bit d.health.everUp q || d.campionUp) then 0
  else if (d.workingStacks q).isEmpty then 1
  else if (d.workingTiles q).isEmpty then 2
  else 3

/-- Compositions with a resident job in a quadrant. -/
def compsOfJobs (d : Dev) (q : Nat) : List Nat := (d.jobs.recs.filter (fun kv => kv.1 / 256 = q)).map (·.2.pkt.comp)

/-- A Home Map entry names a home port of a quadrant, or a stripe group that the quadrant serves: in TRANSITION the next tray's port too
(R34, R470, R489). -/
def homesIn (d : Dev) (e q : Nat) : Bool :=
  let stands := fun (f : Nat) => (d.homePort f).any (fun p => decide (quadOf p = q))
  if HMap.stripe e then SG.quad (d.sg (HMap.group e)) = q
  else stands (HMap.home e) || (HMap.state e = 2 && stands (HMap.next e))

/-- Compositions with a Home Map entry or stripe group that a quadrant serves (R34, R470). -/
def compsOfHome (d : Dev) (q : Nat) : List Nat := d.compsOfHmap (fun e => d.homesIn e q)

/-- A quadrant below SL-C runs nothing: its units stop, and the compositions of its jobs are fenced (R32, R507). -/
def stopTiles (d : Dev) (q : Nat) : Dev :=
  let cs := d.compsOfJobs q
  let d := d.fenceOwn Ev.svcChange (fun c => cs.contains c)
  let us := (d.jobs.running.filter (fun kv => kv.2.quad = q)).map Prod.fst
  let d := d.each us (fun d u => d.dropQuantum u)
  let d := d.each ((d.jobs.recs.filter (fun kv => kv.1 / 256 = q)).map Prod.fst) (fun d k => d.quantumGone k)
  d.flushUnit (12 + q)

/-- The contributions in a quadrant's YARROW queues are answered: its instances have failed (R393). -/
def answerQueued (d : Dev) (q : Nat) : Dev :=
  let es := [0, 1, 2, 3].flatMap (fun a => (List.range 8).flatMap (fun c => (d.core a).queue (unitKey (8 + q) c)))
  d.each es (fun d e =>
    match e.unit with
    | none => d.failPacket e.src e.pkt St.unmapped
    | some u =>
      if (Tab.look d.jobs.running u).any (fun x => x.contribs.any (fun c => c.queued && c.pkt = e.pkt)) then d.failQuantum u St.unmapped else d)

/-- A quadrant below SL-M serves no home, tier H or Yarrow function: what it held is lost, the compositions it served are fenced, and its
instances fail (R34, R393, R470). -/
def stopHome (d : Dev) (q : Nat) : Dev :=
  let cs := d.compsOfHome q
  let d := d.fenceOwn Ev.svcChange (fun c => cs.contains c)
  let d := d.each ((d.yar.insts.filter (fun kv => kv.2.quad = q)).map Prod.fst) (fun d g => d.failInst g)
  let d := d.each ((d.home q).ops.filter (·.own)) (fun d op => d.answerRead q op St.fenced [])
  let d := { d.answerQueued q with homes := Tab.del d.homes q, l2 := Tab.del d.l2 q }
  ((d.flushUnit q).flushUnit (4 + q)).flushUnit (8 + q)

/-- The ports of a quadrant leave for DETECT, and their transmitters send nothing more (R31). -/
def portsDown (d : Dev) (q : Nat) : Dev :=
  d.each ((d.liveStates.map Prod.fst).filter (fun p => quadOf p = q && d.portState p != 0)) (fun d p =>
    (d.leaveActive p 1).modPort p (fun P => { P with dying := none, dyingLeft := 0, closing := false }))

/-- A quadrant's own buffer is gone with it (R501). -/
def dropCore (d : Dev) (q : Nat) : Dev :=
  { d.modCore q (fun c => { rsv0 := c.rsv0, rsv1 := c.rsv1 }) with crossing := Tab.keep d.crossing (fun _ x => x.1 != q) }

/-- The homes of a quadrant serve again: the rebuilds of its groups go on at the next edge (R481). -/
def homeBack (d : Dev) (q : Nat) : Dev :=
  d.each ((d.instances 0x560004).filter (fun e => SG.gstate e.2 != 0 && SG.quad e.2 = q)) (fun d e => d.holdRebuild e.1)

/-- Report a quadrant's level and act on a change (R31 to R35, R481, R501). -/
def setLevel (d : Dev) (q new : Nat) : Dev :=
  let old := d.level q
  if old = new then d
  else
    let d := d.setReg Reg.svcQuadLevel (setBits (d.reg Reg.svcQuadLevel) (2 * q) 2 new)
    let d := if new != 0 then d.modHealth (fun H => { H with everUp := setBit H.everUp q true }) else d
    let d := d.event q { code := Ev.svcChange, detail := leBytes 1 old ++ leBytes 1 new }
    let d := if old = 3 then d.stopTiles q else d
    let d := if 2 ≤ old && new < 2 then d.stopHome q else d
    let d := if old < 2 && 2 ≤ new then d.homeBack q else d
    if new = 0 then (d.portsDown q).dropCore q else d

/-- Evaluate the working sets again (R30, R32, R35). Tiles of a quadrant at NONE do not count as working (DESIGN CHOICE, log 150). -/
def evalLevels (d : Dev) : Dev :=
  let d := d.each [0, 1, 2, 3] (fun d q => d.setLevel q (d.levelOf q))
  let d := d.setReg Reg.svcTiles (([0, 1, 2, 3].map (fun q => if d.level q = 0 then 0 else (d.workingTiles q).length)).foldl (· + ·) 0)
  d.setReg Reg.svcLevel (([0, 1, 2, 3].map d.level).foldl max 0)

/-! ### Stacks (R231, R232, R239, R240, R502) -/

/-- Show which stack holds a quadrant's system contents (R231). -/
def showSysarea (d : Dev) (q : Nat) : Dev :=
  let holder := d.sysStack q
  d.each [3 * q, 3 * q + 1, 3 * q + 2] (fun d s => d.setReg (Reg.hbmSysarea s) (decide (holder = some s)).toNat)

/-- The stack that held a quadrant's system contents is gone: they start afresh in the lowest remaining one (R232, R219, R393, R513). -/
def moveSysarea (d : Dev) (q : Nat) : Dev :=
  let lost := (Tab.count (d.log q).recs (fun _ r => d.recWaiting r))
  let d := d.modHome q (fun H => { H with dedup := [], staleArmed := true, staleUntil := none })
  let gone := d.journal q
  let d := d.each gone (fun d e => match d.inst e.group with
    | some x => d.setInst e.group { x with lostChunks := x.lostChunks ++ [e.chunk] }
    | none => d)
  let d := d.setJournal q []
  let d := d.modLog q (fun L => { recs := [], nextSeq := L.nextSeq, dropped := lost })
  let d := d.showSysarea q
  if (d.workingStacks q).isEmpty then d else d.event q { code := Ev.sysareaMoved }

/-- The staging slots of a failed stack turn FAILED with ERR_ECC and leave the pool (R502). -/
def slotsFailed (d : Dev) (s : Nat) : Dev :=
  d.modTiers (fun T => { T with slots := Tab.mapV T.slots (fun i (x : StageSlot) =>
    if stackAt (T.poolBase + i * 2 ^ 21) = s then { x with state := 3, status := St.ecc, gone := true } else x) })

/-- Compositions whose context has its page table, or whose plan a shadow, in a stack (R502). -/
def compsInStack (d : Dev) (s : Nat) : List Nat :=
  d.compsOfWindow (s * stackBytes) stackBytes
    ++ ((d.instances 0x540002).filter (fun e => CX.valid e.2 && stackAt (CX.ptBase e.2) = s)).map (fun e => CX.comp e.2)
    ++ (d.jobs.plans.filter (fun (kv : Nat × Plan) => kv.2.state = 1 && kv.2.recs.any (fun r =>
        stackAt (PR.shadowOff r) ≤ s && s ≤ stackAt (PR.shadowOff r + PR.shadowLen r - 1)))).map (fun kv => kv.2.comp)

/-- A stack is declared FAILED (R239). -/
def stackFailed (d : Dev) (s : Nat) : Dev :=
  if 11 < s || d.reg (Reg.hbmState s) = 0 || d.reg (Reg.hbmState s) = 4 then d
  else
    let q := s / 3
    let held := d.flag (Reg.hbmSysarea s)
    let cs := d.compsInStack s
    let d := (d.setReg (Reg.hbmState s) 4).setReg Reg.svcStacks (setBit (d.reg Reg.svcStacks) s false)
    let d := (d.slotsFailed s).modPower (fun P => { P with training := setBit P.training s false })
    let d := if held then d.moveSysarea q else d
    let d := d.event q { code := Ev.hbmFailed, unit := s }
    let d := d.fenceOwn Ev.hbmFailed (fun c => cs.contains c)
    d.evalLevels

/-! ### Dies (R505) -/

/-- A die's heartbeat stays out: 0 to 3 a quadrant die, 4 the control die as every quadrant sees it. -/
def dieFailed (d : Dev) (die : Nat) : Dev :=
  if 4 < die || !d.power.on || (die = 4 && d.health.controlDead) || bit d.health.deadDies die then d
  else if die = 4 then
    let d := d.modHealth (fun H => { H with controlDead := true })
    let d := d.event 0 { code := Ev.dieFailed, unit := 4 }
    d.evalLevels
  else
    let cs := d.compsOfWindow (3 * die * stackBytes) (3 * stackBytes) ++ d.compsOfJobs die ++ d.compsOfHome die
    let d := d.modHealth (fun H => { H with deadDies := setBit H.deadDies die true })
    let d := d.setReg Reg.svcStacks (d.reg Reg.svcStacks - (d.reg Reg.svcStacks &&& (7 <<< (3 * die))))
    let d := d.event 4 { code := Ev.dieFailed, unit := die }
    let d := d.fenceOwn Ev.dieFailed (fun c => cs.contains c)
    d.evalLevels

/-! ### Agents (R303 to R306, R504, R506) -/

/-- Four ticks have passed without a heartbeat of an agent to some slice that watches it (R303). -/
def overdue (d : Dev) (a : Nat) : Bool :=
  !d.isDead a && [0, 1, 2, 3].any (fun s => d.watched a s && decide (Tab.getD d.coh.beats (a * 4 + s) d.tick + 5 ≤ d.tick))

/-- A running or parked quantum of a dead agent: it restarts from its beginning, or fails once committed (R504). -/
def reassign (d : Dev) (u : Nat) : Dev :=
  match Tab.look d.jobs.running u with
  | none => d
  | some x =>
    let k := x.quad * 256 + x.job
    if x.committed then d.failQuantum u St.lineLost
    else
      let d := d.dropQuantum u
      let d := d.bump Reg.quantaReassigned
      let d := d.modNode k x.node (fun n => { n with left := some (x.cut :: n.left.getD []) })
      d.quantumGone k

/-- Note this tick for an agent, and whether an edge has passed since (R506). -/
def markAgent (d : Dev) (a : Nat) : Dev :=
  let t := d.tick
  d.modHealth (fun H => { H with agentAt := Tab.put H.agentAt a t })
def agentEdge (d : Dev) (a : Nat) : Bool := (Tab.look d.health.agentAt a).all (fun t => t < d.tick)

/-- An agent is declared dead: its lines, its watch, its quanta, and the compositions over lines the LOST tables could not hold. -/
def agentDead (a : Nat) (m : Memory) (d : Dev) : Memory × Dev :=
  if 124 < a || !d.overdue a then (m, d)
  else
    let d := (d.setReg Reg.deadAgents (setBit (d.reg Reg.deadAgents) a true)).bump Reg.agentDeaths
    let d := (d.event (agentQuad a) { code := Ev.agentDead, unit := a }).markAgent a
    let d := d.modCoh (fun c => { c with beats := Tab.keep c.beats (fun k _ => k / 4 != a), grain := Tab.keep c.grain (fun u _ => agentOf u != a) })
    let full := (L2State.kill { mem := m, dev := d, done := [] } a).2
    let r := runL2 (fun s => (s.kill a).1) m d
    let d := r.2
    let cs := full.flatMap (fun l => d.compsOfWindow (l * 128) 128)
    let d := d.fenceOwn Ev.lostOverflow (fun c => cs.contains c)
    (r.1, d.each (d.agentUnits a) (fun d u => d.reassign u))

/-- The reset of a dead agent begins at the first edge after its declaration: its buffers and micro-TLB clear, its scratch is zeroed, self-test runs (R506, R256). -/
def agentReset (d : Dev) (a : Nat) : Dev :=
  if !d.isDead a || bit d.health.agentsOut a || bit d.health.resetting a || !d.agentEdge a then d
  else
    let d := ((d.bump Reg.agentResets).markAgent a).modHealth (fun H => { H with resetting := setBit H.resetting a true })
    let d := d.modTrans (fun T => { T with micro := Tab.del T.micro a })
    let d := d.modCoh (fun c => { c with copies := Tab.keep c.copies (fun k _ => k / 2 ^ 33 != a), invq := Tab.del c.invq a, held := Tab.del c.held a })
    let d := if a < 120 then d.clearScratch a else d
    let d := d.modJobs (fun J => { J with slots := Tab.keep J.slots (fun u _ => agentOf u != a || isLanes u) })
    d.evalLevels

/-- The self-test of an agent under reset ends: it rejoins at the next edge, is tested again, or after three failures stays out (R506). -/
def agentRejoined (d : Dev) (a : Nat) (passed : Bool) : Dev :=
  if !bit d.health.resetting a || !d.agentEdge a then d
  else
    let d := (d.markAgent a).modHealth (fun H => { H with resetting := setBit H.resetting a false })
    if passed then
      let d := d.setReg Reg.deadAgents (setBit (d.reg Reg.deadAgents) a false)
      let d := d.modHealth (fun H => { H with failedTests := Tab.del H.failedTests a })
      (d.event (agentQuad a) { code := Ev.agentRejoined, unit := a }).evalLevels
    else
      let n := Tab.getD d.health.failedTests a 0 + 1
      let d := d.modHealth (fun H => { H with failedTests := Tab.put H.failedTests a n,
                                              agentsOut := if 3 ≤ n then setBit H.agentsOut a true else H.agentsOut })
      d.evalLevels

end Dev

/-- A change that may fail stacks, after which the accesses that waited for them complete (R239, R240). -/
def failStacks (f : Dev → Dev) (m : Memory) (d : Dev) : Memory × Dev :=
  let n := f d
  if n.reg Reg.svcStacks = d.reg Reg.svcStacks then (m, n) else runL2 (fun x => x.retryAll) m n

/-- STACK_FAILED (R239). -/
def execStackFailed (st : Nat) (thermal : Bool) (s : State) : Ans :=
  onMem (failStacks (fun d => if thermal then d.stackFailed st else if d.reg (Reg.hbmState st) = 1 then d else d.stackFailed st)) s
/-- STACK_WAKE (R240): the waiting accesses are taken again. -/
def execStackWake (st : Nat) (s : State) : Ans :=
  onMem (fun m d =>
    if d.reg (Reg.hbmState st) != 3 then (m, d)
    else
      let d := (d.setReg (Reg.hbmState st) 2).modTiers (fun T => { T with waking := setBit T.waking st false })
      let d := d.modPower (fun P => { P with rungs := Tab.del P.rungs (3 * 1024 + st), used := Tab.put P.used (3 * 1024 + st) d.tick })
      runL2 (fun x => x.retryAll) m d) s
/-- DIE_HEARTBEAT_TIMEOUT (R505). -/
def execDieHeartbeatTimeout (die : Nat) (s : State) : Ans := onDev (fun d => d.dieFailed die) s
/-- AGENT_DEAD (R303). -/
def execAgentDead (agent : Nat) (s : State) : Ans := onMem (Dev.agentDead agent) s
/-- AGENT_RESET (R506). -/
def execAgentReset (agent : Nat) (s : State) : Ans := onDev (fun d => d.agentReset agent) s
/-- AGENT_REJOINED (R506). -/
def execAgentRejoined (agent : Nat) (passed : Bool) (s : State) : Ans := onDev (fun d => d.agentRejoined agent passed) s

end Sys2Proof.Machine
end

