-- ==== Sys2Proof/Machine/Translation.lean ====
section
/-! DEFINITION. Translation of the engines' accesses (R261 to R275), page faults and the hosts' answers (R276 to R284), and invalidation
(R285 to R288). -/

namespace Sys2Proof.Machine

-- Page table entry (R266), as one number.
namespace PTE
def v (p : Nat) : Bool := bit p 0
def big (p : Nat) : Bool := bit p 1
def rights (p : Nat) : Nat := bits p 2 3
def target (p : Nat) : Nat := bits p 24 17
def rkey (p : Nat) : Nat := bits p 64 32
/-- Reserved bits and the alignment of TARGET obey R266 (R269). -/
def ok (p : Nat) : Bool := bits p 5 19 = 0 && bits p 41 23 = 0 && bits p 112 16 = 0 && (!big p || bits p 24 5 = 0)
end PTE

/-- Page number of a VA (R265). -/
def pageOf (va : Nat) : Nat := bits va 29 17

/-- A TLB entry serves a page of a context (R267). -/
def serves (ctx page : Nat) (e : TlbEnt) : Bool := e.ctx = ctx && (if e.big then e.page = page / 32 else e.page = page)

/-- The entry a PTE fills (R271). -/
def tlbOf (ctx page pte : Nat) : TlbEnt :=
  { ctx := ctx, big := PTE.big pte, page := if PTE.big pte then page / 32 else page, rights := PTE.rights pte, target := PTE.target pte,
    rkey := PTE.rkey pte }

/-- DA of a VA through an entry (R267). -/
def daOf (e : TlbEnt) (va : Nat) : Nat := e.target * 2 ^ 29 + (if e.big then va % 2 ^ 34 else va % 2 ^ 29)

/-- Put an entry first in a list of a given size; the least recently used falls out (R270). -/
def tlbFill (n : Nat) (e : TlbEnt) (l : List TlbEnt) : List TlbEnt := (e :: l.filter (fun x => x != e)).take n

/-- Quadrant of a unit. -/
def unitQuad (u : Nat) : Nat := if u < 120 then u / 30 else (u - 128) / 8

/-- Why an access of a quantum stops: a completion status, a page without a translation yet, a line or stack that it waits for, or ranges of tier P
(DA, length) that are still to be read from their trays. -/
inductive QErr where
  | status (s : Nat)
  | miss (va kind : Nat)
  | wait
  | tray (reads : List (Nat × Nat))
  deriving DecidableEq, Repr

namespace Dev

/-- A context of which accesses may be made: VALID, or cleared since the last edge (R264). -/
def ctxLive (d : Dev) (ctx : Nat) : Bool := CX.valid (d.reg (Reg.ctxEntry ctx)) || d.trans.cleared.contains ctx

/-! ### Units at the L2 (R268, R291 to R301, R305, R308) -/

/-- Parts of a range that cross no multiple of a unit: offset and length. -/
def cuts (u off n : Nat) : List (Nat × Nat) :=
  if n = 0 then []
  else (List.range ((off + n - 1) / u + 1 - off / u)).map (fun i =>
    let b := max off ((off / u + i) * u)
    (b, min (off + n) ((off / u + i + 1) * u) - b))

/-- The parts of a range by lines. -/
def lineParts (off n : Nat) : List (Nat × Nat) := cuts 128 off n

/-- The owner of a line answers a snoop of an access that is made whole in one step: its bytes go to the L2 unless they are to be written over,
and it keeps the line in S or gives it up (R296, R300; log 157). -/
def snoopNow (m : Memory) (d : Dev) (l : Nat) (keep discard : Bool) : Memory × Dev :=
  match Tab.look d.coh.dir l with
  | none => (m, d)
  | some e =>
    if e.st = 1 then (m, d)
    else
      let o := (agentsOf e.agents).headD 0
      let d := d.applyInv o true
      let w := match if e.st = 3 && !discard && (d.l2Refuses l).isNone then d.copyOf o l else none with
        | some c => (m.write (l * 128) c.data, (d.writeLine (l * 128) 128).2)
        | none => (m, d)
      (w.1, if keep then
          (w.2.modCoh (fun c => { c with copies := Tab.edit c.copies (copyKey o l) (fun y => { y with st := 1 }) })).setDir l 1 (1 <<< o)
        else (w.2.dropCopy o l).setDir l 0 0)

/-- Why an access of a unit to a line is not made now: its stack or quadrant refuses it, or it waits for the line's requests or for the stack
to wake (R234, R239, R240, R296). -/
def lineStops (d : Dev) (l : Nat) : Option QErr × Dev :=
  if d.lineBusy l then (some .wait, d)
  else
    match d.l2Refuses l with
    | some st => (some (.status st), d)
    | none => if d.stackSleeps l then (some .wait, d.wakeStack l) else (none, d)

/-- Where an access has made an agent give acknowledgments that it held, what waits for them is taken again (R299). -/
def acksGiven (before : Dev) (s : Memory × Dev) : Memory × Dev :=
  if s.2.coh.posted.length < before.coh.posted.length then runL2 (fun x => x.retryAll) s.1 s.2 else s

/-- A reader of bytes of one line at the L2, in the manner of HREAD (R236, R296, R305, R432). -/
def lineRead (off n : Nat) (m : Memory) (d : Dev) : Except QErr Bytes × Memory × Dev :=
  let l := off / 128
  match d.lineStops l with
  | (some e, d) => (.error e, m, d)
  | (none, d) =>
    if d.coh.lost.contains l then (.error (.status St.lineLost), m, d.noteLost l)
    else
      let w := if (Tab.look d.coh.dir l).any (fun e => e.st = 3) then snoopNow m d l true false else (m, d)
      let r := w.2.readLine off n
      let s := acksGiven d (w.1, r.2)
      (if r.1 then .error (.status St.ecc) else .ok (w.1.read off n), s.1, s.2)

/-- A posted invalidation reaches a sharer at once: acknowledged, and queued; its copy stays until it applies the queue (R299; log 157). -/
def queueInv (d : Dev) (o line : Nat) : Dev :=
  (d.modCoh (fun c => { c with invq := Tab.upd c.invq o [] (· ++ [line]) })).emit (.invalidate o line)

/-- Sharers of a line but one agent that are alive. -/
def sharers (d : Dev) (e : DirEnt) (a : Nat) : List Nat := if e.st = 1 then (agentsOf e.agents).filter (fun o => o != a && !d.isDead o) else []

/-- Every one of some agents has room for an invalidation (R299). -/
def invRoom (d : Dev) (os : List Nat) : Bool := os.all (fun o => decide ((Tab.getD d.coh.invq o []).length < 256))

/-- Read parts one after the other, until one fails. -/
def partsRead (f : Nat → Nat → Memory → Dev → Except QErr Bytes × Memory × Dev) :
    List (Nat × Nat) → Memory → Dev → Except QErr Bytes × Memory × Dev
  | [], m, d => (.ok [], m, d)
  | x :: xs, m, d =>
    match f x.1 x.2 m d with
    | (.error e, s) => (.error e, s)
    | (.ok b, s) =>
      match partsRead f xs s.1 s.2 with
      | (.ok bs, s) => (.ok (b ++ bs), s)
      | r => r

/-- A range of tier H is read at the L2. -/
def l2ReadAt (off n : Nat) (m : Memory) (d : Dev) : Except QErr Bytes × Memory × Dev := partsRead lineRead (lineParts off n) m d

/-- The same by an agent, which gives up a shared copy that may now be older than what it has read (R301). -/
def l2ReadBy (a off n : Nat) (m : Memory) (d : Dev) : Except QErr Bytes × Memory × Dev :=
  let r := l2ReadAt off n m d
  (r.1, r.2.1, r.2.2.each (lineParts off n) (fun d x =>
    if (d.copyOf a (x.1 / 128)).any (fun c => c.st = 1) then d.dropCopy a (x.1 / 128) else d))

/-- The walker's read of a PTE through the owning quadrant's L2 (R268): its 16 bytes, or why it is not made. -/
def readPte (off : Nat) (m : Memory) (d : Dev) : Except QErr Nat × Memory × Dev :=
  match lineRead off 16 m d with
  | (.ok b, s) => (.ok (leNat b), s)
  | (.error e, s) => (.error e, s)

end Dev

/-- A computation of a unit over the tier H bytes and the device; what it changed before an error stands. -/
abbrev QM := ExceptT QErr (StateM (Memory × Dev))

namespace QM

def fail {α : Type} (s : Nat) : QM α := throw (QErr.status s)
def dev : QM Dev := do return (← get).2
def modDev (f : Dev → Dev) : QM Unit := modify (fun s => (s.1, f s.2))

/-- Change the device and the memory. -/
def modBoth (f : Memory → Dev → Memory × Dev) : QM Unit := modify (fun s => f s.1 s.2)

/-- Run a part that yields a status or a value and changes the device. -/
def check {α : Type} (f : Dev → Except Nat α × Dev) : QM α := do
  let s ← get
  match f s.2 with
  | (.ok a, d) => set (s.1, d); return a
  | (.error e, d) => set (s.1, d); fail e

/-- Run an access at the L2. -/
def atL2 {α : Type} (f : Memory → Dev → Except QErr α × Memory × Dev) : QM α := do
  let s ← get
  match f s.1 s.2 with
  | (.ok a, s) => set s; return a
  | (.error e, s) => set s; throw e

/-! ### Units as coherence agents (R291 to R301, R305, R308; log 157) -/

/-- An agent's access goes to a line: not while the line's requests or its stack make it wait. -/
def approach (l : Nat) : QM Unit := atL2 (fun m d => match d.lineStops l with
  | (some e, d) => (.error e, m, d)
  | (none, d) => (.ok (), m, d))

/-- An agent gives up a copy of its own, writing it back where it is in M (R293, R296). -/
def giveUp (a l : Nat) : QM Unit := do
  let d ← dev
  if (d.copyOf a l).any (fun c => c.st = 1) then modDev (fun d => d.dropCopy a l) else modBoth (fun m d => Dev.snoopNow m d l false false)

/-- The agent has a place for a line: where it holds as many as it can it gives up one, freely chosen (R291, log 155). -/
def roomNow (a l : Nat) : QM Unit := do
  let d ← dev
  if !d.roomFor a l then
    let ls := (d.linesHeld a).filter (fun v => !d.lineBusy v && d.l2Refuses v != some St.unmapped)
    modDev (fun d => d.fresh.2)
    match ls[d.fresh.1 % ls.length]? with
    | none => throw .wait
    | some v => giveUp a v
    let d ← dev
    if !d.roomFor a l then throw .wait

/-- The line's set has a place for its entry: where it is full another is evicted at once (R294, R296). -/
def entryNow (l : Nat) : QM Unit := do
  let d ← dev
  if d.evicting l then throw .wait
  match d.setVictim l with
  | (none, d) => modDev (fun _ => d)
  | (some (v, e), d) =>
    let os := d.sharers e 128
    if d.lineBusy v || !d.invRoom os then throw .wait
    modDev (fun _ => d.bump (Reg.backInval (sliceOf l)))
    if e.st = 1 then modDev (fun d => (d.each os (fun d o => d.queueInv o v)).setDir v 0 0)
    else modBoth (fun m d => Dev.snoopNow m d v false false)

/-- The agent gives up a copy of another context (R293), and then there is a place for the line with it and in the directory. -/
def prepare (a l : Nat) (foreign : Bool) : QM Unit := do
  if foreign then giveUp a l
  roomNow a l
  entryNow l

/-- Data of a line from the L2 (R236, R296). -/
def lineData (l : Nat) : QM Bytes := do
  let d ← dev
  let r := d.readLine (l * 128) 128
  modDev (fun _ => r.2)
  if r.1 then fail St.ecc
  return (← get).1.read (l * 128) 128

/-- What an access has set free is taken again, however the access ends (R299). -/
def settled {α : Type} (f : QM α) : QM α := ExceptT.mk (do
  let s ← get
  let r ← ExceptT.run f
  modify (fun t => Dev.acksGiven s.2 t)
  return r)

/-- An agent's read of bytes of one line: its own copy of the context as it is, stale or not, else a miss, under which it takes the line in E or S as
under GETS (R293, R296, R301, R310). -/
def agentRead (a ctx off n : Nat) : QM Bytes := do
  let l := off / 128
  let d ← dev
  match d.copyOf a l with
  | some c => if c.ctx = ctx then return slice c.data (off % 128) n
  | none => pure ()
  approach l
  if d.coh.lost.contains l then
    modDev (fun d => d.noteLost l)
    fail St.lineLost
  settled (do
    prepare a l (d.copyOf a l).isSome
    modBoth (fun m d => Dev.snoopNow m d l true false)
    let bs ← lineData l
    modDev (fun d => match Tab.look d.coh.dir l with
      | none => (d.putCopy a l ctx 2 bs).setDir l 2 (1 <<< a)
      | some e => (d.putCopy a l ctx 1 bs).setDir l 1 (e.agents ||| (1 <<< a)))
    return slice bs (off % 128) n)

/-- An agent writes bytes of one line: a copy that it holds in E or M, else it takes the line in M as under GETM, or under WFULL where it writes
all of it, its queued invalidations applied first (R295 to R297, R299, R300, R305, R306, R308). -/
def agentWrite (a ctx off : Nat) (bs : Bytes) : QM Unit := do
  let l := off / 128
  let whole := decide (bs.length = 128)
  let d ← dev
  match (d.copyOf a l).filter (fun c => c.ctx = ctx && c.st != 1) with
  | some c => modDev (fun d => (d.putCopy a l ctx 3 (splice c.data (off % 128) bs)).setDir l 3 (1 <<< a))
  | none => settled (do
    modDev (fun d => d.applyInv a true)
    approach l
    let d ← dev
    let lost := d.coh.lost.contains l
    if lost && !whole then
      modDev (fun d => d.noteLost l)
      fail St.lineLost
    let e := (Tab.look d.coh.dir l).getD { st := 0, agents := 0 }
    if !d.invRoom (d.sharers e a) then throw .wait
    prepare a l ((d.copyOf a l).any (fun c => c.ctx != ctx))
    if lost then modDev (fun d => d.revive l)
    let d ← dev
    let own := if e.st = 1 && bit e.agents a then (d.copyOf a l).map (·.data) else none
    if e.st = 1 then modDev (fun d => (d.each (d.sharers e a) (fun d o => d.queueInv o l)).setDir l 1 (if own.isSome then 1 <<< a else 0))
    else modBoth (fun m d => Dev.snoopNow m d l false whole)
    let base ← if whole then pure [] else match own with
      | some b => pure b
      | none => lineData l
    modDev (fun d => (d.putCopy a l ctx 3 (splice base (off % 128) bs)).setDir l 3 (1 <<< a)))

/-- A unit that is no agent writes bytes of one line at the L2, in the manner of HWRITE (R296, R299). -/
def laneWrite (off : Nat) (bs : Bytes) : QM Unit := do
  let l := off / 128
  approach l
  let d ← dev
  let lost := d.coh.lost.contains l
  if lost && bs.length != 128 then
    modDev (fun d => d.noteLost l)
    fail St.lineLost
  let e := (Tab.look d.coh.dir l).getD { st := 0, agents := 0 }
  if !d.invRoom (d.sharers e 128) then throw .wait
  settled (do
    if lost then modDev (fun d => d.revive l)
    if e.st = 1 then modDev (fun d => (d.each (d.sharers e 128) (fun d o => d.queueInv o l)).setDir l 0 0)
    else modBoth (fun m d => Dev.snoopNow m d l false false)
    let r := (← dev).writeLine off bs.length
    modDev (fun _ => r.2)
    if r.1 then fail St.ecc
    modBoth (fun m d => (m.write off bs, d)))

end QM

namespace Dev

/-- Checks 2 to 4 of R274 on a translated access. -/
def xlatCheck (d : Dev) (ctx : Nat) (e : TlbEnt) (a : XAccess) : Except Nat Nat × Dev :=
  let da := daOf e a.va
  let comp := CX.comp (d.reg (Reg.ctxEntry ctx))
  let home := match d.hmapFor da with
    | some (_, h) => d.ownId = some (homePlane h (d.hmapK h) da)
    | none => false
  if !isTierP da && !d.inWindow da then (.error St.unmapped, d)
  else if isTierP da && !home then (.error St.unmapped, if (d.hmapFor da).isSome then d.bump Reg.wrongPlane else d)
  else d.regionCheck comp da e.rkey a.kind

/-- A quantum parked on faults goes on once none of its accesses waits (R276, R281). -/
def unpark (d : Dev) (u : Nat) : Dev :=
  match Tab.look d.jobs.running u with
  | none => d
  | some x =>
    let waits := d.trans.faults.any (fun f => f.accs.any (fun a => a.unit = u))
      || d.trans.walks.any (fun (kv : Nat × List PageWalk) => kv.2.any (fun w => w.accs.any (fun a => a.unit = u)))
    if !x.parked || waits then d
    else
      let past := decide (x.parkTick ≤ x.slot) && decide (x.slot < d.tick)
      (d.parkDone x).modJobs (fun J => { J with running := Tab.edit J.running u (fun x =>
        { x with parked := false, excused := x.excused || past }) })

/-- A read of a gather node's source: it fails the element at the engine's position, which then counts and says what becomes of the quantum
(R434). -/
def elementAccess (d : Dev) (a : XAccess) : Bool :=
  match (Tab.look d.jobs.running a.unit).bind (fun x => (d.job (x.quad * 256 + x.job)).map (fun j => (x, j))) with
  | none => false
  | some (x, j) =>
    let p := j.pkt.payload
    JD.opcode p x.node = 8 && a.kind = 0 && JD.kind p x.node 1 = 1
      && decide (JD.addr p x.node 1 ≤ a.va) && decide (a.va < JD.addr p x.node 1 + JD.olen p x.node 1)

/-- An access fails: its gather element, else the quantum (R337, R434). -/
def failAccess (d : Dev) (a : XAccess) (st : Nat) : Dev :=
  if d.elementAccess a then
    (d.modJobs (fun J => { J with running := Tab.edit J.running a.unit (fun x => { x with failing := st }) })).unpark a.unit
  else d.failQuantum a.unit st

/-- An access has its translation: its checks, and the quantum goes on or fails (R274, R337). -/
def accessDone (d : Dev) (ctx : Nat) (e : TlbEnt) (a : XAccess) : Dev :=
  let d := if a.unit < 120 then d.modTrans (fun T => { T with micro := Tab.upd T.micro a.unit [] (tlbFill 32 e) }) else d
  match d.xlatCheck ctx e a with
  | (.error st, d) => d.failAccess a st
  | (.ok _, d) =>
    (d.modJobs (fun J => { J with running := Tab.edit J.running a.unit (fun x =>
      { x with translated := true, xlat := if x.xlat.contains e then x.xlat else x.xlat ++ [e] }) })).unpark a.unit

/-- Fail accesses with a status: each quantum fails (R281, R337). -/
def failAccs (d : Dev) (accs : List XAccess) (status : Nat) : Dev := d.each accs (fun d a => d.failAccess a status)

/-- Number of a page, by the PTE that the walker read for it: a page of 16 GiB is one page (R266, R267, R276, R282). -/
def pageNo (page pte : Nat) : Nat := if PTE.v pte && PTE.big pte then 2 ^ 17 + page / 32 else page

/-- An outstanding fault is of the page (R276). -/
def faultOn (ctx page : Nat) (f : PageFault) : Bool := f.ctx = ctx && (pageNo f.page f.pte = page || pageNo f.page f.pte = 2 ^ 17 + page / 32)

/-- A quantum parks (R276). -/
def park (d : Dev) (u : Nat) : Dev :=
  d.modJobs (fun J => { J with running := Tab.edit J.running u (fun x => if x.parked then x else { x with parked := true, parkTick := d.tick }) })

/-- Accesses attach to the outstanding fault of their page (R276). -/
def attach (d : Dev) (ctx page : Nat) (accs : List XAccess) : Dev :=
  let d := match d.trans.faults.find? (faultOn ctx page) with
    | some f => d.modTrans (fun T => { T with faults := replaceFirst f { f with accs := f.accs ++ accs } T.faults })
    | none => d
  d.each ((accs.map (·.unit)).eraseDups) park

/-- Accesses to a page join a walk of it that may still serve them, or start one (R273). -/
def joinWalk (d : Dev) (q ctx page : Nat) (accs : List XAccess) : Dev :=
  let ws := Tab.getD d.trans.walks q []
  match ws.find? (fun w => w.ctx = ctx && w.page = page && !w.stale) with
  | some w => d.setWalks q (replaceFirst w { w with accs := w.accs ++ accs } ws)
  | none => d.setWalks q (ws ++ [{ ctx := ctx, page := page, accs := accs }])

/-- An access misses both TLBs: it waits on the outstanding fault of its page, on a walk that covers it, or on a walk of its own. -/
def walkFor (d : Dev) (ctx : Nat) (a : XAccess) : Dev :=
  let page := pageOf a.va
  if d.trans.faults.any (faultOn ctx page) then d.attach ctx page [a] else d.joinWalk (unitQuad a.unit) ctx page [a]

/-- Look an access up in the TLBs of its unit: an entry with the right, which is then the most recently used of each list it stands in; a
miss of the micro-TLB counts (R270). -/
def tlbLook (d : Dev) (ctx : Nat) (a : XAccess) : Option TlbEnt × Dev :=
  let hit := fun (l : List TlbEnt) => l.find? (fun e => serves ctx (pageOf a.va) e && bit e.rights a.kind)
  let near := fun (d : Dev) (e : TlbEnt) =>
    if a.unit < 120 then d.modTrans (fun T => { T with micro := Tab.upd T.micro a.unit [] (tlbFill 32 e) }) else d
  match if a.unit < 120 then hit (Tab.getD d.trans.micro a.unit []) else none with
  | some e => (some e, near d e)
  | none =>
    let d := if a.unit < 120 then d.bump Reg.utlbMisses else d
    let q := unitQuad a.unit
    match hit (Tab.getD d.trans.quad q []) with
    | some e => (some e, near (d.modTrans (fun T => { T with quad := Tab.upd T.quad q [] (tlbFill 1024 e) })) e)
    | none => (none, d)

/-- An access of a unit is translated: through its micro-TLB, its quadrant's TLB, or a walk (R270 to R273). An entry that lacks the right
is walked again, so that the fault record holds a PTE the walker read. -/
def translate (d : Dev) (ctx : Nat) (a : XAccess) : Dev :=
  if !d.ctxLive ctx then d.failAccess a St.rights
  else
    match d.tlbLook ctx a with
    | (some e, d) => d.accessDone ctx e a
    | (none, d) => d.walkFor ctx a

/-! ### Faults (R276 to R284) -/

def flogProd (d : Dev) : HostId → Nat
  | .ha => d.reg Reg.flogProdHa
  | .hb => d.reg Reg.flogProdHb
def flogCons (d : Dev) : HostId → Nat
  | .ha => d.reg Reg.flogConsHa
  | .hb => d.reg Reg.flogConsHb
def flogBase (d : Dev) : HostId → Nat
  | .ha => d.reg Reg.flogBaseHa
  | .hb => d.reg Reg.flogBaseHb

/-- A host's fault log is full (R278). -/
def flogFull (d : Dev) (h : HostId) : Bool := (d.flogProd h + 65536 - d.flogCons h) % 65536 = 4096

/-- Attempts of a unit's quantum on a page so far, as a page of 512 MiB or of 16 GiB (R282). -/
def attemptsOf (d : Dev) (u page : Nat) : Nat :=
  ((Tab.look d.jobs.running u).map (fun x => max (Tab.getD x.attempts page 0) (Tab.getD x.attempts (2 ^ 17 + page / 32) 0))).getD 0

/-- A fault that finds its host's log full waits for room and counts once (R278). -/
def countFull (d : Dev) (f : PageFault) : Dev :=
  if f.waited || !d.flogFull f.host then d
  else (d.modTrans (fun T => { T with faults := replaceFirst f { f with waited := true } T.faults })).bump Reg.logFullWaits

/-- Accesses meet a fault on a page: they attach to the outstanding fault of the page, or a quantum whose ninth it would be fails and the
others park on a new fault (R276, R281, R282). -/
def raiseFault (d : Dev) (q ctx page pte reason : Nat) (accs : List XAccess) : Dev :=
  if d.trans.faults.any (faultOn ctx page) then d.attach ctx page accs else
  let no := pageNo page pte
  let out := accs.filter (fun a => 8 ≤ d.attemptsOf a.unit page)
  let d := d.failAccs out St.pageFault
  let stay := accs.filter (fun a => (Tab.look d.jobs.running a.unit).isSome && !out.contains a)
  match stay with
  | [] => d
  | a :: _ =>
    let e := d.reg (Reg.ctxEntry ctx)
    let h := CX.faultHost e
    let us := (stay.map (·.unit)).eraseDups
    let d := d.each us (fun d u => let n := d.attemptsOf u page + 1; d.modJobs (fun J => { J with running := Tab.edit J.running u (fun x =>
      { x with attempts := Tab.put x.attempts no n, parked := true, parkTick := if x.parked then x.parkTick else d.tick }) }))
    let work := ((Tab.look d.jobs.running a.unit).bind (fun x => d.job (x.quad * 256 + x.job))).map (·.pkt.workId)
    let f : PageFault :=
      { host := h, q := q, ctx := ctx, page := page, reason := reason, access := 2 ^ a.kind, agent := agentOf a.unit, va := a.va, pte := pte,
        tick := d.tick, workId := work.getD 0, comp := CX.comp e, attempt := d.attemptsOf a.unit page, accs := stay }
    (d.modTrans (fun T => { T with faults := T.faults ++ [f] })).countFull f

/-- Status a fault's ABORT applies by default (R277). -/
def faultStatus (f : PageFault) : Nat := if f.reason = 1 then St.unmapped else St.rights

/-- The 64 bytes of a fault record (R277). -/
def faultBytes (f : PageFault) : Bytes :=
  leBytes 4 f.id ++ leBytes 1 f.ctx ++ leBytes 1 f.reason ++ leBytes 1 f.access ++ leBytes 1 f.agent ++ leBytes 8 f.va ++ leBytes 16 f.pte
    ++ leBytes 8 f.tick ++ leBytes 8 f.workId ++ leBytes 1 f.comp ++ leBytes 1 f.q ++ leBytes 1 f.attempt ++ leBytes 1 (faultStatus f)
    ++ leBytes 12 0

/-- The oldest fault whose record is not yet written goes into its host's log, and the host hears of it once (R277 to R279). -/
def faultRecord (d : Dev) (h : HostId) : Dev :=
  match d.trans.faults.find? (fun f => f.host = h && f.id = 0) with
  | none => d
  | some f =>
    if !(d.host h).up then d
    else if d.flogFull h then d.countFull f
    else
      let last := match h with | .ha => d.trans.idA | .hb => d.trans.idB
      let g := { f with id := (last + 1) % 2 ^ 32 }
      let p := d.flogProd h
      let d := d.modTrans (fun T => { T with faults := T.faults.map (fun x => if x = f then g else x),
                                             idA := if h = .ha then g.id else T.idA, idB := if h = .hb then g.id else T.idB })
      let d := (d.emit (.hostWrite h (d.flogBase h + p % 4096 * 64) (faultBytes g))).bump Reg.faultsRaised
      let d := d.setReg (match h with | .ha => Reg.flogProdHa | .hb => Reg.flogProdHb) ((p + 1) % 65536)
      if (d.host h).armed1 then (d.msix h 1).modHost h (fun H => { H with armed1 := false }) else d

/-- Take a fault off the outstanding ones. -/
def dropFault (d : Dev) (f : PageFault) : Dev := d.modTrans (fun T => { T with faults := removeFirst (fun x => x = f) T.faults })

/-- A fault response of a host (R280, R281, R284): the 16 bytes of its table. -/
def faultResp (d : Dev) (h : HostId) (r : Nat) : Dev :=
  let action := bits r 32 8
  let st := bits r 40 8
  let bad := r >>> 48 != 0 || (action != 1 && action != 2) || (action = 2 && !([0, St.rights, St.unmapped, St.pageFault].contains st))
  match if bad then none else d.trans.faults.find? (fun f => f.host = h && f.id != 0 && f.id = bits r 0 32) with
  | none => d.bump Reg.respDiscarded
  | some f =>
    let d := d.dropFault f
    if action = 2 then d.failAccs f.accs (if st = 0 then faultStatus f else st)
    else
      let ws := Tab.getD d.trans.walks f.q []
      match ws.find? (fun w => w.ctx = f.ctx && w.page = f.page && !w.stale) with
      | some w => d.setWalks f.q (replaceFirst w { w with accs := f.accs ++ w.accs } ws)
      | none => d.setWalks f.q (ws ++ [{ ctx := f.ctx, page := f.page, accs := f.accs }])

/-- Every BAR2 write of the host has been taken by the L2 (R280). -/
def bar2Drained (d : Dev) (h : HostId) : Bool := d.l2.all (fun (kv : Nat × List L2Req) => kv.2.all (fun x => !(x.kind = 1 && x.host = some h)))

/-- Accessor code of a host's mailbox (R604). -/
def hostAcc : HostId → Nat
  | .ha => 0x10
  | .hb => 0x11

/-- A response written by a host through its own window. -/
def respond (d : Dev) (h : HostId) (r : Nat) : Dev :=
  if !d.bar2Drained h then d else d.writeKey (hostAcc h) Reg.faultResp (fun d => (Acc.done, d.faultResp h r))

/-- A fault's timeout expires (R283); faults whose record is not written have no number. -/
def faultTimeout (d : Dev) (h : HostId) (id : Nat) : Dev :=
  let due := fun (f : PageFault) => f.host = h && f.id = id && decide (f.tick + d.reg Reg.faultTimeoutUs / 5 ≤ d.tick)
  match d.trans.faults.find? due with
  | none => d
  | some f => ((d.dropFault f).failAccs f.accs St.pageFault).bump Reg.faultTimeouts

/-! ### Walks (R268 to R274) -/

/-- A running walk reads its PTE. The accesses of one whose result is to be discarded walk again (R285). -/
def walkDone (q ctx page : Nat) (m : Memory) (d : Dev) : Memory × Dev :=
  let ws := Tab.getD d.trans.walks q []
  match ws.find? (fun w => w.running && w.ctx = ctx && w.page = page) with
  | none => (m, d)
  | some w =>
    let rest := removeFirst (fun x => x = w) ws
    if w.stale then (m, (d.setWalks q rest).joinWalk q ctx page w.accs)
    else
      let e := d.reg (Reg.ctxEntry ctx)
      if !d.ctxLive ctx then (m, (d.setWalks q rest).failAccs w.accs St.rights)
      else
        match readPte (CX.ptBase e + 16 * page) m d with
        | (.error (.status st), m, d) => (m, (d.setWalks q rest).failAccs w.accs st)
        | (.error _, s) => s
        | (.ok pte, m, d) =>
          let d := d.setWalks q rest
          (m, if !PTE.v pte then d.raiseFault q ctx page pte 1 w.accs
          else if !PTE.ok pte then d.failAccs w.accs St.badDesc
          else
            let t := tlbOf ctx page pte
            let d := d.modTrans (fun T => { T with quad := Tab.upd T.quad q [] (tlbFill 1024 t) })
            let good := w.accs.filter (fun a => bit t.rights a.kind)
            let bad := w.accs.filter (fun a => !bit t.rights a.kind)
            let d := d.each good (fun d a => d.accessDone ctx t a)
            if bad.isEmpty then d else d.raiseFault q ctx page pte 2 (bad.filter (fun a => (Tab.look d.jobs.running a.unit).isSome)))

/-! ### Invalidation (R285 to R288) -/

/-- Request the invalidation of a context's tag. -/
def askInval (d : Dev) (tag : Nat) : Dev := d.modTrans (fun T => { T with inval := T.inval ++ [tag] })

/-- The tick edge serves one request: every entry of the tag goes, running walks of it are stale, and the units with accesses under way on a
removed translation, which complete on it, are noted (R285, R286). -/
def invalOne (d : Dev) (tag : Nat) : Dev :=
  let drop := fun (_ : Nat) (l : List TlbEnt) => l.filter (fun e => e.ctx != tag)
  let mine := fun (x : Quantum) => x.translated && (x.xlat.any (fun e => e.ctx = tag) || x.trays.any (fun a => a.answer.isNone))
    && (d.job (x.quad * 256 + x.job)).any (fun j => JD.ctx j.pkt.payload = tag)
  let used := (d.jobs.running.filter (fun (kv : Nat × Quantum) => mine kv.2)).map Prod.fst
  let d := d.modTrans (fun T =>
    { T with micro := Tab.mapV T.micro drop, quad := Tab.mapV T.quad drop, draining := T.draining ++ [used],
             walks := Tab.mapV T.walks (fun _ l => l.map (fun (w : PageWalk) =>
               if w.ctx = tag && w.running then { w with stale := true } else w)) })
  d.bump Reg.invalDone

/-- Every request taken before the edge is served at it. -/
def invalEdge (d : Dev) : Dev :=
  let d := d.each d.trans.inval invalOne
  d.modTrans (fun T => { T with inval := [], cleared := [] })

/-- The accesses of one invalidation have finished (R286). -/
def invalDrained (d : Dev) : Dev :=
  if d.trans.draining.any (fun l => l.isEmpty) then
    (d.modTrans (fun T => { T with draining := removeFirst (fun l => l.isEmpty) T.draining })).bump Reg.invalDrained
  else d

/-- A write of a context entry (R262 to R264); none where Campion rejects it. -/
def ctxWrite (d : Dev) (ctx v : Nat) : Option Dev :=
  let old := d.reg (Reg.ctxEntry ctx)
  let base := CX.ptBase v
  if bits v 66 6 != 0 || v >>> 80 != 0 || 63 < CX.comp v || base >>> 40 != 0 || base % 2 ^ 21 != 0 then none
  else if !allocatable base (2 ^ 21) || d.poolOverlap base (2 ^ 21) then none
  else if CX.valid old && CX.valid v then none
  else
    let d := d.setReg (Reg.ctxEntry ctx) v
    some (if CX.valid old then (d.modTrans (fun T => { T with cleared := T.cleared ++ [ctx] })).askInval ctx else d)

/-- The context that an accessor's selector names. -/
def ctxSel (d : Dev) (acc : Nat) : Nat := d.regAs acc Reg.ctxSelect

end Dev

/-- PAGE_WALK_DONE (R268 to R274). -/
def execPageWalkDone (q ctx page : Nat) (s : State) : Ans := onMem (Dev.walkDone q ctx page) s
/-- FAULT_RECORD_WRITE (R277 to R279). -/
def execFaultRecordWrite (h : HostId) (s : State) : Ans := onDev (fun d => d.faultRecord h) s
/-- FAULT_RESP_RETRY (R281). -/
def execFaultRespRetry (h : HostId) (faultId : Nat) (s : State) : Ans := onDev (fun d => d.respond h (faultId % 2 ^ 32 + 2 ^ 32)) s
/-- FAULT_RESP_ABORT (R281). -/
def execFaultRespAbort (h : HostId) (faultId status : Nat) (s : State) : Ans :=
  onDev (fun d => d.respond h (faultId % 2 ^ 32 + 2 * 2 ^ 32 + status % 256 * 2 ^ 40)) s
/-- FAULT_TIMEOUT (R283). -/
def execFaultTimeout (h : HostId) (faultId : Nat) (s : State) : Ans := onDev (fun d => d.faultTimeout h faultId) s
/-- INVAL_REQ (R285). -/
def execInvalReq (acc tag : Nat) (s : State) : Ans := onDev (fun d => d.writeKey acc Reg.invalReq (fun d => (Acc.done, d.askInval (tag % 256)))) s
/-- TLB_INVALIDATE (R285). -/
def execTlbInvalidate (s : State) : Ans := onDev (fun d => d.invalEdge) s
/-- INVAL_DRAINED (R286). -/
def execInvalDrained (s : State) : Ans := onDev (fun d => d.invalDrained) s
/-- CTX_ENTRY_WRITE (R262 to R264): the entry of the context the accessor has selected. -/
def execCtxEntryWrite (acc entry : Nat) (s : State) : Ans :=
  onDev (fun d => d.writeKey acc (Reg.ctxEntry 0) (fun d => d.orReject (d.ctxWrite (d.ctxSel acc) entry))) s

end Sys2Proof.Machine
end

