-- ==== Sys2Proof/Machine/UnitMem.lean ====
section
/-! DEFINITION. How the units' quanta read and write their operands: at the L2 (R296, R305, R306), through translation (R274), in staged
slots and shadows (R245, R414), in the inline area, through the expander (R457 to R460), and into result streams (R321). -/

namespace Sys2Proof.Machine

/-- What a quantum works with. -/
structure QEnv where
  unit : Nat
  job : Nat
  node : Nat
  p : Bytes
  comp : Nat
  ctx : Nat
  xlat : List TlbEnt
  shadows : Tab Nat := []
  failing : Nat := 0
  /-- The gather element that it reads ahead of the engine's position (R340). -/
  index : Option Nat := none
  deriving DecidableEq, Repr

/-- Only a gather engine's architectural READ is sent again after ERR_HOME_LOST (R343, R433). -/
def resends (e : QEnv) : Bool := decide (128 ≤ e.unit) && decide ((e.unit - 128) % 8 ≤ 1) && e.index.isNone

namespace Dev

/-- The READ of a range of tier P that a unit's quantum has made, for the element at its position or for one ahead of it. -/
def trayRead (d : Dev) (u : Nat) (index : Option Nat) (da len : Nat) : Option TrayAccess :=
  (Tab.look d.jobs.running u).bind (fun x => x.trays.find? (fun a => !a.write && a.index = index && a.da = da && a.len = len))

/-- The switch reads or writes a range of tier P that crosses no 4 KiB boundary for one of its units or schedulers, which notes the access: the home
function of its tray takes the request in order, as a READ or a posted write of the switch's own (R200, R227). A quadrant below SL-M serves no
home (R32; the status is log 153). -/
def homeAccess (d : Dev) (comp rkey : Nat) (a : TrayAccess) (bs : Option Bytes) (note : TrayAccess → Dev → Dev) : Dev :=
  match if d.fenced comp then none else d.hmapFor a.da with
  | none => note { a with answer := some (if d.fenced comp then St.fenced else St.unmapped, []) } d
  | some (no, h) =>
    let q := d.homeQuad h
    if d.level q < 2 then note { a with answer := some (St.unmapped, []) } d else
    let pk : Packet :=
      { ptype := if bs.isSome then .writePosted else .read, cls := 2, comp := comp, da := a.da, rkey := rkey,
        rlen := if bs.isSome then 0 else a.len, payload := bs.getD [] }
    let d := d.each ((List.range ((a.da + max 1 a.len - 1) / 128 + 1 - a.da / 128)).map (a.da / 128 + ·)) (fun d l => d.closeMerge q l)
    let op := { d.mkOp q (if bs.isSome then .posted else .read) pk false no h ((d.regionFor comp a.da).getD 0) with own := true }
    let d := (note { a with quad := q, op := op.id } d).addOp q op
    match d.refusedAtHome op with
    | some s => (d.failOp q op s).pump q
    | none => d.pump q

/-- A unit's quantum reads or writes a range of tier P; a READ takes the place of one that it had made of the range. -/
def trayAccess (d : Dev) (e : QEnv) (da rkey len : Nat) (bs : Option Bytes) : Dev :=
  let mine := fun (a : TrayAccess) => !a.write && bs.isNone && a.index = e.index && a.da = da && a.len = len
  let again := (d.trayRead e.unit e.index da len).isSome && bs.isNone
  let note := fun (a : TrayAccess) (d : Dev) =>
    d.modJobs (fun J => { J with running := Tab.edit J.running e.unit (fun x => { x with trays := x.trays.filter (fun y => !mine y) ++ [a] }) })
  d.homeAccess e.comp rkey { write := bs.isSome, da := da, len := len, quad := 0, op := 0, index := e.index, again := again } bs note

/-- READs of ranges of tier P that are still to be made, each once; one that is under way is left alone. -/
def trayReads (d : Dev) (e : QEnv) (l : List (Nat × Nat)) : Dev :=
  d.each l.eraseDups (fun d x =>
    if (d.trayRead e.unit e.index x.1 x.2).any (fun a => a.answer.isNone) then d else d.trayAccess e x.1 0 x.2 none)

end Dev

namespace QM

/-- The unit reads tier H as a coherence agent, which holds copies: a tile, or the DMA engine; the gather and filter engines and the GF lanes
read at the L2 (R291, R301, R432). -/
def caches (u : Nat) : Bool := decide (u < 120) || (u - 128) % 8 = 3

/-- Read tier H at the L2 (R245, R292, R301, R432). -/
def l2Read (e : QEnv) (off n : Nat) : QM Bytes := atL2 (Dev.l2ReadBy (Dev.agentOf e.unit) off n)

/-- Bytes of a range with later ones of some places put over them. -/
def overlay (off : Nat) (bs : Bytes) (l : List (Nat × Bytes)) : Bytes :=
  l.foldl (fun bs x =>
    let a := max off x.1
    let b := min (off + bs.length) (x.1 + x.2.length)
    if a < b then splice bs (a - off) (slice x.2 (a - x.1) (b - a)) else bs) bs

/-- Read tier H by a translated access; the unit's own sectors that are still to be written count (R293, R301, R310, R311, R432). -/
def unitRead (e : QEnv) (off n : Nat) : QM Bytes := do
  let bs ← if caches e.unit then (do
      let ps ← (Dev.lineParts off n).mapM (fun x => agentRead (Dev.agentOf e.unit) e.ctx x.1 x.2)
      return ps.flatten)
    else l2Read e off n
  let d ← dev
  return overlay off bs (((Tab.look d.jobs.running e.unit).map (·.sectors)).getD [])

/-- Write tier H as the unit's agent, line by line; under TILE the sectors of a store go one after the other, and what is done before another agent
sees the line is free (R305, R306, R308, R311, R432). A LOST line is written whole. -/
def unitWrite (e : QEnv) (off : Nat) (bs : Bytes) : QM Unit :=
  (Dev.lineParts off bs.length).forM (fun x => do
    let d ← dev
    let part := slice bs (x.1 - off) x.2
    if Dev.isLanes e.unit then laneWrite x.1 part
    else if Tab.getD d.coh.grain e.unit 0 = 1 && !(x.2 = 128 && d.coh.lost.contains (x.1 / 128))
        && !(x.1 / 32 = (x.1 + x.2 - 1) / 32 && (Tab.look d.jobs.running e.unit).all (fun q => q.sectors.isEmpty)) then
      modDev (fun d => d.modJobs (fun J => { J with running := Tab.edit J.running e.unit (fun q =>
        { q with sectors := q.sectors ++ (Dev.cuts 32 x.1 x.2).map (fun y => (y.1, slice part (y.1 - x.1) y.2)) }) }))
    else agentWrite (Dev.agentOf e.unit) e.ctx x.1 part)

/-- The first sectors that a unit has still to write are written (R311). -/
def writeSectors (e : QEnv) (n : Nat) : QM Unit := do
  let d ← dev
  let l := ((Tab.look d.jobs.running e.unit).map (·.sectors)).getD []
  (l.take n).forM (fun x => agentWrite (Dev.agentOf e.unit) e.ctx x.1 x.2)
  modDev (fun d => d.modJobs (fun J => { J with running := Tab.edit J.running e.unit (fun q => { q with sectors := q.sectors.drop n }) }))

/-- Pieces of a range that cross no 4 KiB boundary (R125). -/
def pieces (a n : Nat) : List (Nat × Nat) := Dev.cuts 4096 a n

/-- The translation of one access, checked: the one that this access has obtained and waited for, else through the TLBs, where the context must
be live (R264, R270, R274, R286). An address past the VAs, which a coded stream or a KV page can reach, breaks its descriptor (R265, log 181). -/
def translated (e : QEnv) (va kind : Nat) : QM (Nat × Nat) := do
  if 2 ^ 46 ≤ va then fail St.badDesc
  let a : XAccess := { unit := e.unit, va := va, kind := kind }
  let go := fun (t : TlbEnt) => (do
    let _ ← check (fun d => d.xlatCheck e.ctx t a)
    return (daOf t va, t.rkey) : QM (Nat × Nat))
  match e.xlat.find? (fun t => serves e.ctx (pageOf va) t && bit t.rights kind) with
  | some t => go t
  | none =>
    let d ← dev
    if !d.ctxLive e.ctx then fail St.rights
    match d.tlbLook e.ctx a with
    | (none, _) => throw (QErr.miss va kind)
    | (some t, d) =>
      modDev (fun _ => d)
      go t

/-- The READ of a range of tier P has its answer: with ERR_HOME_LOST a gather engine sends it a second time (R433). -/
def trayAnswer (d : Dev) (e : QEnv) (da len : Nat) : Option (Nat × Bytes) :=
  (d.trayRead e.unit e.index da len).bind (fun a => a.answer.filter (fun r => r.1 != St.homeLost || a.again || !resends e))

/-- Read a range of VAs: the pieces in tier P by READs to their trays, all of them before any byte is used (R227, R274, R431, R433). -/
def readVa (e : QEnv) (va n : Nat) : QM Bytes := do
  let ps ← (pieces va n).mapM (fun x => return ((← translated e x.1 0).1, x.2))
  let d ← dev
  let due := ps.filter (fun x => isTierP x.1 && (trayAnswer d e x.1 x.2).isNone)
  if !due.isEmpty then throw (QErr.tray due)
  let bs ← ps.mapM (fun x => do
    if isTierP x.1 then
      match (trayAnswer d e x.1 x.2).getD (0, []) with
      | (0, b) => return padTo x.2 b
      | (s, _) => fail s
    else
      let d ← dev
      unitRead e (d.windowOff x.1) x.2)
  return bs.flatten

/-- Write a range of VAs; the quantum is committed with its first store (R504). -/
def writeVa (e : QEnv) (va : Nat) (bs : Bytes) : QM Unit :=
  (pieces va bs.length).forM (fun x => do
    let (da, rkey) ← translated e x.1 1
    modDev (fun d => d.modJobs (fun J => { J with running := Tab.edit J.running e.unit (fun q => { q with committed := true }) }))
    let part := slice bs (x.1 - va) x.2
    if isTierP da then modDev (fun d => d.trayAccess e da rkey x.2 (some part))
    else
      let d ← dev
      unitWrite e (d.windowOff da) part)

/-- Read a STAGED range (R245). -/
def readStaged (e : QEnv) (da n : Nat) : QM Bytes := do
  let bs ← (pieces da n).mapM (fun x => do
    let d ← dev
    match d.slotNamed e.comp (x.1 / 2 ^ 21) with
    | some (s, y) =>
      if y.state = 2 then l2Read e (d.slotAddr s + x.1 % 2 ^ 21) x.2
      else if y.state = 3 then fail y.status
      else fail St.unmapped
    | none => fail St.unmapped)
  return bs.flatten

/-- The shadow record of a STAGED operand among the composition's ACTIVE plans (R414). -/
def shadowOf (d : Dev) (comp : Nat) (p : Bytes) (i k : Nat) : Option Nat :=
  (d.jobs.plans.filter (fun (kv : Nat × Plan) => kv.2.state = 1 && kv.2.comp = comp)).findSome? (fun kv =>
    kv.2.recs.find? (fun r => PR.srcDa r = JD.addr p i k && PR.srcLen r = JD.olen p i k))

/-- An operand is replaced by its shadow. -/
def shadowed (e : QEnv) (k : Nat) : Bool := Tab.has e.shadows k

/-- Stored bytes of an operand (R320). -/
def readRaw (e : QEnv) (k off n : Nat) : QM Bytes := do
  let a := JD.addr e.p e.node k + off
  match Tab.look e.shadows k with
  | some r =>
    let d ← dev
    let b := PR.shadowOff r + off
    let covered := (pieces b n).all (fun x => (d.regionFor e.comp (windowBase d.dom.swId + x.1)).isSome)
    if covered then l2Read e b n else fail St.unmapped
  | none =>
    match JD.kind e.p e.node k with
    | 1 => readVa e a n
    | 2 => readStaged e a n
    | 3 => if JD.inlineLen e.p < a + n then fail St.badDesc else return slice e.p (JD.inlineOff e.p + a) n
    | _ => return List.replicate n 0

/-- What a coded operand's stream holds of block `b`: its index entry, the next block's where there is one, and its bytes (R446, R460). -/
def streamBlock (e : QEnv) (k b : Nat) : QM (Nat × Nat × Bytes) := do
  let len := JD.olen e.p e.node k
  let idx := leNat (← readRaw e k (4 * b) 4)
  let next ← if b + 1 < nblkOf len then (do return leNat (← readRaw e k (4 * b + 4) 4)) else pure 0
  let head ← readRaw e k (16 * idx) 8
  let body ← if 4096 < Blk.bodyLen head then pure [] else readRaw e k (16 * idx + 8) (Blk.bodyLen head)
  return (idx, next, head ++ body)

/-- Block `b` of a coded operand, decoded by the tile's expander and counted once in a quantum (R449, R459). -/
def expandBlock (e : QEnv) (k b : Nat) : QM Bytes := do
  let (idx, next, block) ← streamBlock e k b
  match decodeBlock (JD.olen e.p e.node k) b idx next block with
  | .ok bs =>
    let d ← dev
    if !(Tab.look d.jobs.running e.unit).any (fun x => x.drawn.contains (k, b)) then
      modDev (fun d => (d.bump (Reg.blocksExpanded (unitQuad e.unit))).modJobs (fun J =>
        { J with running := Tab.edit J.running e.unit (fun x => { x with drawn := x.drawn ++ [(k, b)] }) }))
    return bs
  | .error s => do
    modDev (fun d => d.bump (Reg.expandFails (unitQuad e.unit)))
    fail s

/-- Operands of a quantum that it draws through the expander (R328, R457). -/
def codedInputs (e : QEnv) : List Nat :=
  if JD.opcode e.p e.node = 11 then [] else (List.range (JD.nopnd e.p e.node)).filter (fun k => JD.coded e.p e.node k && !Tab.has e.shadows k)

/-- Raw bytes of an operand: as stored, or drawn through the expander (R328, R460). -/
def readBytes (e : QEnv) (k off n : Nat) : QM Bytes := do
  if JD.coded e.p e.node k && !shadowed e k && n != 0 then
    let first := off / 4096
    let bs ← ((List.range ((off + n - 1) / 4096 + 1 - first)).map (first + ·)).mapM (expandBlock e k)
    return slice bs.flatten (off % 4096) n
  else readRaw e k off n

/-- Format an operand is read in: a shadow is MXFP4 (R414). -/
def fmtOf (e : QEnv) (k : Nat) : Nat := if shadowed e k then 0 else JD.fmt e.p e.node k

end QM

/-- Byte ranges of `n` elements from element `c` of an operand of `total` elements: its elements, then its MX scales (R352). -/
def elemRanges (fmt total c n : Nat) : List (Nat × Nat) :=
  let w := fmtBits fmt
  (c * w / 8, n * w / 8) :: (if isMx fmt then [(total * w / 8 + c / 32, n / 32)] else [])

namespace QM

/-- `n` elements of an operand from element `c`, in the layout of an operand of their own. -/
def readElems (e : QEnv) (k total c n : Nat) : QM Bytes := do
  let bs ← (elemRanges (fmtOf e k) total c n).mapM (fun r => readBytes e k r.1 r.2)
  return bs.flatten

/-- Change the unit's quantum. -/
def modQuantum (e : QEnv) (f : Quantum → Quantum) : QM Unit :=
  modDev (fun d => d.modJobs (fun J => { J with running := Tab.edit J.running e.unit f }))

/-- A gather or filter engine: it places its output as it goes, and its quantum delivers it at its end (R257). -/
def atEnd (u : Nat) : Bool := decide (128 ≤ u) && decide ((u - 128) % 8 ≤ 2)

/-- Put bytes of an output operand (R320, R321): a VA is written, a result stream takes a piece. -/
def putBytes (e : QEnv) (k off : Nat) (bs : Bytes) : QM Unit := do
  let a := JD.addr e.p e.node k + off
  match JD.kind e.p e.node k with
  | 1 => if atEnd e.unit then modQuantum e (fun q => { q with stores := q.stores ++ [(a, bs)] }) else writeVa e a bs
  | 4 => modQuantum e (fun q => { q with out := q.out ++ [(a, bs)] })
  | _ => return ()

/-- The end of a gather or filter quantum delivers what it has placed (R257, R308). -/
def deliver (e : QEnv) (stores : List (Nat × Bytes)) : QM Unit := stores.forM (fun x => writeVa e x.1 x.2)

/-- Put elements of an output operand, given in the layout of an operand of their own. -/
def putElems (e : QEnv) (k total c n : Nat) (bs : Bytes) : QM Unit := do
  let f := JD.fmt e.p e.node k
  let w := n * fmtBits f / 8
  match elemRanges f total c n with
  | [x, y] => putBytes e k x.1 (slice bs 0 x.2); putBytes e k y.1 (slice bs w y.2)
  | x :: _ => putBytes e k x.1 (slice bs 0 x.2)
  | [] => return ()

end QM

end Sys2Proof.Machine
end

