-- ==== Sys2Proof/Machine/Results.lean ====
section
/-! DEFINITION. What a quantum computes for its run of units: the operators of R326 but GATHER and FILTER, over the units of each node's
grid (R329 to R331, R357 to R363, R395, R402 to R411, R463 to R465). -/

namespace Sys2Proof.Machine

/-! ### Grids (R331, R425, R463) -/

/-- The grid of a GEMM (R331): units of 64 rows and 256 columns, and of whole rows where the output is contributions (R404). Unit `first` lies in
row band `first` mod the row bands. -/
def bandCols (p : Bytes) (i : Nat) : Nat := if JD.kind p i 2 = 5 then JD.param p i 1 else min 256 (JD.param p i 1)
def rowBands (p : Bytes) (i : Nat) : Nat := ceilDiv (JD.param p i 0) 64
def colBands (p : Bytes) (i : Nat) : Nat := ceilDiv (JD.param p i 1) (bandCols p i)

/-- The block of C that a run of a GEMM covers, clipped at the edge of C: first row and rows, first column and columns (R331). -/
def gemmBlock (p : Bytes) (i : Nat) (w : Run) : (Nat × Nat) × (Nat × Nat) :=
  let r0 := w.first % rowBands p i * 64
  let c0 := w.first / rowBands p i * bandCols p i
  ((r0, min (JD.param p i 0) (r0 + w.count * 64) - r0), (c0, min (JD.param p i 1) (c0 + w.wide * bandCols p i) - c0))

/-- Units of a node's grid. -/
def gridUnits (p : Bytes) (i : Nat) : Nat :=
  match JD.opcode p i with
  | 1 => rowBands p i * colBands p i
  | 2 => JD.param p i 3
  | 3 => 1
  | 4 => ceilDiv (JD.param p i 0) 65536
  | 5 | 6 | 7 => JD.param p i 0
  | 8 | 9 => JD.param p i 0
  | 10 | 11 => nblkOf (JD.olen p i 0)
  | 12 => JD.param p i 1 / 4096
  | _ => ceilDiv (JD.olen p i 0) 65536

/-- Element range of a run of ELEMWISE or COPY units of 65,536. -/
def runSpan (total first n : Nat) : Nat × Nat := (first * 65536, min total ((first + n) * 65536) - first * 65536)

namespace QM

/-- Shape words a library function is given: its operator parameters and the formats of its operands. -/
def shapeWords (e : QEnv) (more : List Nat) : List Nat :=
  [JD.param e.p e.node 0, JD.param e.p e.node 1, JD.param e.p e.node 2, JD.param e.p e.node 3]
    ++ (List.range (JD.nopnd e.p e.node)).map (fmtOf e) ++ more

/-- A library result for some operand bytes, of a given length (R363, log 9). -/
def lib (e : QEnv) (version : Nat) (more : List Nat) (args : List Bytes) (len : Nat) : Bytes :=
  padTo len (Config.libReduce version (JD.opcode e.p e.node) (JD.subop e.p e.node) (shapeWords e more) args)

/-- GEMM rows (R357 to R359): the block's output rows, each with its row number. -/
def gemm (e : QEnv) (w : Run) : QM (List (Nat × List Num)) := do
  let p := e.p
  let i := e.node
  let m := JD.param p i 0
  let cols := JD.param p i 1
  let k := JD.param p i 2
  let ((r0, nr), (c0, nc)) := gemmBlock p i w
  let a ← readElems e 0 (m * k) (r0 * k) (nr * k)
  let b ← readElems e 1 (cols * k) (c0 * k) (nc * k)
  let acc := bit (JD.nflags p i) 0
  let old ← (List.range nr).mapM (fun r =>
    if acc then readElems e 2 (m * cols) ((r0 + r) * cols + c0) nc else pure [])
  return (List.range nr).map (fun r => (r0 + r, (List.range nc).map (fun c =>
    let start := if acc then elemAt (JD.fmt p i 2) 1 nc (old.getD r []) 0 c else .fin false 0 0
    gemmElem (fmtOf e 0) (fmtOf e 1) a b nr nc k r c start)))

/-- GEMM into memory or a stream. -/
def gemmOut (e : QEnv) (w : Run) : QM Unit := do
  let rows ← gemm e w
  let total := JD.param e.p e.node 0 * JD.param e.p e.node 1
  let c0 := (gemmBlock e.p e.node w).2.1
  rows.forM (fun r => putElems e 2 total (r.1 * JD.param e.p e.node 1 + c0) r.2.length (encodeRows (JD.fmt e.p e.node 2) [r.2]))

/-- Contributions of GEMM rows (R403): one per chunk. -/
def contribsOf (d : Dev) (e : QEnv) (rows : List (Nat × List Num)) : List Contribution :=
  let a := cAddr (JD.addr e.p e.node 2)
  let f := JD.fmt e.p e.node 2
  rows.flatMap (fun r =>
    let g := a.base + r.1 / a.rows
    let x := ((Tab.look d.yar.insts g).map (fun y => GD.elems y.desc)).getD 1
    (chunks x r.2.length r.2).zipIdx.map (fun c =>
      { pkt := { ptype := .reduceContrib, cls := 4, comp := e.comp, group := g,
                 chunk := a.chunk + r.1 % a.rows * (r.2.length / x) + c.2, contrib := a.index, ifmt := f, nelem := x, rop := 0,
                 payload := encodeRows f [c.1] } }))

/-- ELEMWISE (R327, R360 to R362). -/
def elemwise (e : QEnv) (version first n : Nat) : QM Unit := do
  let p := e.p
  let i := e.node
  let total := JD.param p i 0
  let sub := JD.subop p i
  let ar := elemArity sub
  let s := runSpan total first n
  let ins ← (List.range ar).mapM (fun k => readElems e k total s.1 s.2)
  let at' := fun k j => if k < ar then elemAt (fmtOf e k) 1 s.2 (ins.getD k []) 0 j else .fin false 0 0
  let code := fun k j => le (ins.getD k []) (4 * j) 4
  let out :=
    if intPath p i then packRow 32 ((List.range s.2).map (fun j => elemInt (JD.fmt p i 0) sub (code 0 j) (code 1 j) (code 2 j)))
    else encodeRows (JD.fmt p i ar) [(List.range s.2).map (fun j =>
      if sub = 0x1A then
        let k := j / 2 * 2
        -- an odd number of elements leaves its last one without a partner
        if s.2 ≤ k + 1 then freeFn version 4 sub [at' 0 k, at' 1 k]
        else ropeFn version (decide (j = k)) (at' 0 k) (at' 0 (k + 1)) (at' 1 k) (at' 1 (k + 1))
      else elemFn version sub (JD.param p i 1) (JD.param p i 2) (at' 0 j) (at' 1 j) (at' 2 j))]
  putElems e ar total s.1 s.2 out

/-- A sum in binary32 whose order the library fixes for the shape (R363). -/
def libSum (e : QEnv) (version : Nat) (xs : List Num) : Num :=
  if xs.any Num.isNan then .nan
  else decodeF (ffmt 7) (leNat (lib e version [0] [xs.flatMap (fun x => x.key.flatMap (fun z => leBytes 32 (ofInt 256 z)))] 4))

/-- REDUCE_LOCAL (R326, R363): MAX and MIN are exact, then binary32; SUM is the library's. Axis 0 reduces over the rows. -/
def reduceLocal (e : QEnv) (version : Nat) : QM Unit := do
  let p := e.p
  let i := e.node
  let r := JD.param p i 0
  let c := JD.param p i 1
  let byRows := decide (JD.param p i 2 = 0)
  let x ← readElems e 0 (r * c) 0 (r * c)
  let n := if byRows then c else r
  let f := JD.fmt p i 1
  let sub := JD.subop p i
  let line := fun j => if byRows then (List.range r).map (fun q => elemAt (fmtOf e 0) r c x q j)
    else (List.range c).map (fun q => elemAt (fmtOf e 0) r c x j q)
  let best := fun (l : List Num) => if l.any Num.isNan then .nan else
    l.foldl (fun a b => if (if sub = 1 then a.below b else b.below a) then b else a) (l.headD .nan)
  let out := encodeRows f [(List.range n).map (fun j => if sub = 0 then libSum e version (line j) else fp32 (best (line j)))]
  putElems e 1 n 0 n out

/-- Elements of a row of `c`, and binary32 values as the bytes of a row. -/
def rowOf (e : QEnv) (k c : Nat) (bs : Bytes) : List Num := (List.range c).map (fun j => elemAt (fmtOf e k) 1 c bs 0 j)
def f32Row (xs : List Num) : Bytes := packRow 32 (xs.map (encodeF (ffmt 7)))

/-- A library's row: binary32 values, NaN where the operands make them so, in the output's format (R356, R363). -/
def libRow (e : QEnv) (version out c : Nat) (args : List Bytes) (nan : Nat → Bool) : Bytes :=
  let bs := lib e version [] args (4 * c)
  encodeRows (JD.fmt e.p e.node out) [(List.range c).map (fun j => if nan j then .nan else elemAt 7 1 c bs 0 j)]

/-- What SOFTMAX exponentiates: the row scaled by P2, less its maximum, each step in binary32 (R356, R360, R363, log 183). -/
def lessMax (s : Num) (xs : List Num) : List Num :=
  let z := xs.map (fun x => fp32 (s.mul x))
  let m := z.foldl (fun a b => if a.isNan || b.isNan then .nan else if a.below b then b else a) (z.headD .nan)
  z.map (fun x => fp32 (x.add m.neg))

/-- SOFTMAX by rows (R326, R363): a NaN in a row reaches all of it. -/
def softmax (e : QEnv) (version first n : Nat) : QM Unit := do
  let r := JD.param e.p e.node 0
  let c := JD.param e.p e.node 1
  let s := decodeF (ffmt 7) (JD.param e.p e.node 2)
  let rows ← (List.range n).mapM (fun j => readElems e 0 (r * c) ((first + j) * c) c)
  (List.range n).forM (fun j =>
    let xs := lessMax s (rowOf e 0 c (rows.getD j []))
    putElems e 1 (r * c) ((first + j) * c) c (libRow e version 1 c [f32Row xs] (fun _ => xs.any Num.isNan)))

/-- NORM by rows (R326, R363): a NaN in a row reaches all of it, one in gamma or beta its column. -/
def norm (e : QEnv) (version out : Nat) (first n : Nat) : QM Unit := do
  let r := JD.param e.p e.node 0
  let c := JD.param e.p e.node 1
  let shared ← ((List.range out).drop 1).mapM (fun k => return (k, ← readElems e k c 0 c))
  let rows ← (List.range n).mapM (fun j => readElems e 0 (r * c) ((first + j) * c) c)
  let bad := shared.map (fun x => (rowOf e x.1 c x.2).map Num.isNan)
  let eps := (decodeF (ffmt 7) (JD.param e.p e.node 2)).isNan
  (List.range n).forM (fun j =>
    let row := rows.getD j []
    let all := eps || (rowOf e 0 c row).any Num.isNan
    putElems e out (r * c) ((first + j) * c) c
      (libRow e version out c (row :: shared.map Prod.snd) (fun q => all || bad.any (fun b => b.getD q false))))

/-- The k largest of a row with their columns, equal values at the lower column (R326). -/
def topRow (k : Nat) (xs : List Num) : List (Num × Nat) :=
  let insert := fun (l : List (Num × Nat)) (x : Num × Nat) =>
    let a := l.takeWhile (fun y => !y.1.lt x.1)
    (a ++ x :: l.drop a.length).take k
  xs.zipIdx.foldl insert []

/-- TOPK. A row that holds a NaN or fewer than k columns has no stated order or length: its result is the library's. -/
def topk (e : QEnv) (version : Nat) (first n : Nat) : QM Unit := do
  let r := JD.param e.p e.node 0
  let c := JD.param e.p e.node 1
  let k := JD.param e.p e.node 2
  let f := JD.fmt e.p e.node 1
  let rows ← (List.range n).mapM (fun j => readElems e 0 (r * c) ((first + j) * c) c)
  (List.range n).forM (fun j => do
    let b := rows.getD j []
    let xs := (List.range c).map (fun q => elemAt (fmtOf e 0) 1 c b 0 q)
    let known := decide (k ≤ c) && !xs.any Num.isNan
    let top := topRow k xs
    let vals := if known then encodeRows f [top.map Prod.fst] else lib e version [0] [b] (layoutLen f 1 k)
    let idx := if known then packRow 32 (top.map Prod.snd) else lib e version [1] [b] (4 * k)
    putElems e 1 (r * k) ((first + j) * k) k vals
    putElems e 2 (r * k) ((first + j) * k) k idx)

/-- COPY: raw bytes of the source. -/
def copy (e : QEnv) (first n : Nat) : QM Unit := do
  let s := runSpan (JD.olen e.p e.node 0) first n
  putBytes e 1 s.1 (← readBytes e 0 s.1 s.2)

/-- PARITY: P and Q over the data units, byte by byte (R395). -/
def parity (e : QEnv) (first n : Nat) : QM Unit := do
  let k := JD.param e.p e.node 0
  let u := JD.param e.p e.node 1
  let units ← (List.range k).mapM (fun j => readBytes e 0 (j * u + first * 4096) (n * 4096))
  let t : Tab Bytes := units.zipIdx.map (fun x => (x.2, x.1))
  modDev (fun d => d.gfWork (e.job / 256) (k * (n * 4096)))
  putBytes e 1 (first * 4096) (parityP k t)
  putBytes e 2 (first * 4096) (parityQ k t)

/-- EXPAND: decoded raw blocks (R465). -/
def expand (e : QEnv) (first n : Nat) : QM Unit := do
  let len := JD.olen e.p e.node 0
  let a := first * 4096
  putBytes e 1 a (← readBytes e 0 a (min len ((first + n) * 4096) - a))

/-- Units of 16 bytes before the first block of a compressed output (R463, R464). -/
def firstIdx (p : Bytes) (i : Nat) : Nat :=
  let n := nblkOf (JD.olen p i 0)
  if JD.kind p i 1 = 4 then 1024 * ceilDiv n 4096 else ceilDiv n 4

/-- COMPRESS: blocks in raw order, each after the one before it (R454 to R456, R463, R464). -/
def compress (e : QEnv) (first n : Nat) : QM Unit := do
  let p := e.p
  let i := e.node
  let q := e.job / 256
  let len := JD.olen p i 0
  let raws ← (List.range n).mapM (fun j => readBytes e 0 ((first + j) * 4096) (rawLenOf len (first + j)))
  (List.range n).forM (fun j => do
    let b := first + j
    let raw := raws.getD j []
    let x := encodeBlk (JD.subop p i) (JD.fmt p i 0) len b raw
    let d ← dev
    let nd := ((d.job e.job).bind (fun y => y.nodes[i]?)).getD {}
    let off := firstIdx p i + nd.units
    let n16 := ceilDiv x.1.length 16
    let last := decide (b + 1 = nblkOf len)
    let stored := if last then x.1 else padTo (16 * n16) x.1
    putBytes e 1 (16 * off) stored
    if JD.kind p i 1 = 1 then putBytes e 1 (4 * b) (leBytes 4 off)
    modDev (fun d =>
      let d := d.modNode e.job i (fun y => { y with idx := y.idx ++ [off], units := y.units + n16, kept := 16 * off + stored.length })
      let d := if x.2 then d.bump (Reg.rawFallbacks q) else d
      let table := if !last then 0 else if JD.kind p i 1 = 4 then 16384 * ceilDiv (nblkOf len) 4096 else 4 * nblkOf len
      (d.bump (Reg.compressRaw q) raw.length).bump (Reg.compressStored q) (stored.length + table)))

/-! ### ATTEND (R408 to R411) -/

/-- Element of the K (0) or V (1) rows of a KV head in a page: per head first K, then V, each 256 rows of D elements in their layout (R409). -/
def pageElem (f dd : Nat) (page : Bytes) (g kv pos j : Nat) : Num :=
  elemAt f 256 dd (slice page ((2 * g + kv) * layoutLen f 256 dd) (layoutLen f 256 dd)) pos j

/-- Attention of one query head over the valid positions of its pages, in order (R410): (q · k) ÷ √D, the maximum, the sum of the exponentials of
the differences, and the weighted mean of V, in binary32. Ascending positions are added one after the other; how the library adds q · k, and whether
it fuses a product into a sum of V, the spec leaves open (R360, R363; log 184). -/
def attendHead (version f dd : Nat) (q : List Num) (pages : List Bytes) (fill g : Nat) : Num × Num × List Num :=
  let root := fp32 (Num.sqrt (.fin false dd 0))
  let poss := (pages.zipIdx).flatMap (fun x => (List.range (if x.2 + 1 = pages.length then fill else 256)).map (fun r => (x.1, r)))
  let score := fun (x : Bytes × Nat) =>
    let k := (List.range dd).map (fun j => pageElem f dd x.1 g 0 x.2 j)
    if (q ++ k).any Num.isNan then .nan else fp32 ((freeFn version 2 0x40 (q ++ k)).div root)
  let ss := poss.map score
  let m := ss.foldl (fun a b => if a.isNan || b.isNan then .nan else if a.below b then b else a) (ss.headD .nan)
  let ps := ss.map (fun s => elemFn version 0x0B 0 0 (fp32 (s.add m.neg)) .nan .nan)
  let l := ps.foldl (fun a p => fp32 (a.add p)) (.fin false 0 0)
  let fused := Config.libFn version 2 0x41 [] % 2 = 1
  let mean := fun (j : Nat) =>
    fp32 (((poss.zip ps).foldl (fun a x =>
      let t := x.2.mul (pageElem f dd x.1.1 g 1 x.1.2 j)
      fp32 (a.add (if fused then t else fp32 t))) (.fin false 0 0)).div l)
  (m, l, (List.range dd).map mean)

/-- One token: Q row, its pages, and the three outputs. Query head `x` uses KV head x ÷ (H ÷ G) (R410). -/
def attendToken (e : QEnv) (version t : Nat) : QM (Bytes × Bytes × Bytes) := do
  let p := e.p
  let i := e.node
  let h := JD.param p i 0 % 65536
  let g := JD.param p i 0 / 65536
  let dd := JD.param p i 1
  let tn := JD.param p i 3
  let ent := leNat (← readBytes e 1 (8 * t) 8)
  let first := bits ent 0 32
  let np := bits ent 32 16
  let fill := bits ent 48 16
  if JD.param p i 2 + 255 < np * 256 || (np != 0 && (fill = 0 || 256 < fill)) || JD.olen p i 1 < 8 * tn + 8 * (first + np) && np != 0 then
    fail St.badDesc
  let q ← readElems e 0 (tn * (h * dd)) (t * (h * dd)) (h * dd)
  let f := ([3, 4, 5] : List Nat).getD (JD.subop p i) 3
  let pages ← (List.range np).mapM (fun j => do
    let va := leNat (← readBytes e 1 (8 * tn + 8 * (first + j)) 8)
    if 2 ^ 46 ≤ va || va % 128 != 0 then fail St.badDesc
    modDev (fun d => d.bump Reg.attendPages)
    readVa e va (2 * g * layoutLen f 256 dd))
  if np = 0 then return ((List.replicate h (leBytes 4 0xFF800000)).flatten, List.replicate (4 * h) 0, List.replicate (4 * h * dd) 0)
  else
    let outs := (List.range h).map (fun x =>
      attendHead version f dd ((List.range dd).map (fun j => elemAt (fmtOf e 0) 1 (h * dd) q 0 (x * dd + j))) pages fill (x / (h / g)))
    return (f32Row (outs.map (·.1)), f32Row (outs.map (·.2.1)), f32Row (outs.flatMap (·.2.2)))

def attend (e : QEnv) (version first n : Nat) : QM Unit := do
  let p := e.p
  let i := e.node
  let h := JD.param p i 0 % 65536
  let dd := JD.param p i 1
  let outs ← (List.range n).mapM (fun j => attendToken e version (first + j))
  (List.range n).forM (fun j => do
    let t := first + j
    let (m, l, o) := outs.getD j ([], [], [])
    if JD.kind p i 4 = 4 then
      putBytes e 4 (t * h * (8 + 4 * dd))
        ((List.range h).flatMap (fun x => slice m (4 * x) 4 ++ slice l (4 * x) 4 ++ slice o (4 * dd * x) (4 * dd)))
    else
      putBytes e 2 (t * h * 4) m
      putBytes e 3 (t * h * 4) l
      putBytes e 4 (t * h * dd * 4) o)

/-- A quantum's run of units of a node. -/
def run (e : QEnv) (version : Nat) (w : Run) : QM Unit :=
  let first := w.first
  let n := w.count
  match JD.opcode e.p e.node with
  | 1 => if JD.kind e.p e.node 2 = 5 then (do
      let rows ← gemm e w
      modDev (fun d => d.modJobs (fun J => { J with running := Tab.edit J.running e.unit (fun q =>
        { q with contribs := contribsOf d e rows }) })))
    else gemmOut e w
  | 2 => attend e version first n
  | 3 => reduceLocal e version
  | 4 => elemwise e version first n
  | 5 => softmax e version first n
  | 6 => norm e version (2 + JD.subop e.p e.node) first n
  | 7 => topk e version first n
  | 10 => expand e first n
  | 11 => compress e first n
  | 12 => parity e first n
  | 13 => copy e first n
  | _ => return ()

end QM

end Sys2Proof.Machine
end

