-- ==== Sys2Proof/Machine/Quanta.lean ====
section
/-! DEFINITION. The tiler and the schedulers: sizes and modeled times of quanta (R330, R331, R426), tick slots (R332, R333), starts and ends
of quanta (R307, R308, R329, R464), result parts (R321), overruns and halvings (R334, R335). -/

namespace Sys2Proof.Machine

/-- Compute cycles of a tick (R27, R60). -/
def tickCycles : Nat := 11250

/-- Stored bytes of `n` elements. -/
def elemBytes (fmt n : Nat) : Nat := n * fmtBits fmt / 8 + (if isMx fmt then n / 32 else 0)

/-- An operand in tier H or P: its bytes enter `b` (R330, R406). -/
def inMemory (p : Bytes) (i k : Nat) : Bool := JD.kind p i k = 1 || JD.kind p i k = 2

/-- Units of a node run one quantum at a time, in order (R425, R463). -/
def inOrder (op : Nat) : Bool := op = 9 || op = 11

/-- Engines of an operator: gather 0 and 1, filter 2, DMA 3, GF lanes 4; none for a tile operator. -/
def enginesOf (op : Nat) : List Nat :=
  match op with
  | 8 => [0, 1]
  | 9 => [2]
  | 13 => [3]
  | 12 => [4]
  | _ => []

/-- Kind of unit: none for a tile, else the engine. -/
def engineOf (u : Nat) : Option Nat := if u < 120 then none else some ((u - 128) % 8)

/-- A unit runs an operator. -/
def unitRuns (u op : Nat) : Bool :=
  match engineOf u with
  | none => tileOp op
  | some e => (enginesOf op).contains e

/-- What becomes of a contribution: added, dropped, or answered with a status (R380). -/
inductive Taken where
  | added
  | dropped
  | failed (status : Nat)
  deriving DecidableEq, Repr

namespace Dev

/-! ### The tiler -/

/-- Tiles of a quadrant that hold quanta in the current slot (R330). -/
def tilesInSlot (d : Dev) (q : Nat) : Nat :=
  max 1 ((d.workingTiles q).filter (fun t => Tab.has d.jobs.running t || (Tab.look d.jobs.slots t).any (fun s => s.tick = d.tick))).length

/-- Tiles that hold a slot of this tick for a job. -/
def slotsOfJob (d : Dev) (k : Nat) : Nat := Tab.count d.jobs.slots (fun u s => u < 120 && s.tick = d.tick && s.job = k)

/-- Cycles of `b` bytes at a tile's memory share: 6.144 TB/s ÷ 2.25 GHz ÷ tiles (R330). -/
def memCycles (b tiles : Nat) : Nat := ceilDiv (3 * b * tiles) 8192

/-- Slots of this tick that the job has still to use, and quanta of a node that run in a slot of this tick with a property. -/
def slotsToUse (d : Dev) (k : Nat) : Nat :=
  Tab.count d.jobs.slots (fun u s => u < 120 && s.tick = d.tick && s.job = k && !Tab.has d.jobs.running u)
def inSlot (d : Dev) (k i : Nat) (f : Quantum → Bool) : Nat :=
  Tab.count d.jobs.running (fun _ x => x.quad * 256 + x.job = k && x.node = i && x.slot = d.tick && f x)

/-- How many of a GEMM node's quanta in the slot read the rows of A, and the columns of B, of a block alike, the block itself counted: those that
run, and those that the job's free slots of the tick will take, cut from the same run beside and below it (R406). -/
def readAlike (d : Dev) (k : Nat) (p : Bytes) (i : Nat) (r w : Run) : Nat × Nat :=
  let blk := gemmBlock p i w
  let across := ceilDiv r.wide (max 1 w.wide)
  let down := ceilDiv r.count (max 1 w.count)
  let next := d.slotsToUse k
  (max 1 (d.inSlot k i (fun x => (gemmBlock p i x.cut).1 = blk.1) + min next across),
   max 1 (d.inSlot k i (fun x => (gemmBlock p i x.cut).2 = blk.2) + min (ceilDiv next (max 1 across)) down))

/-- Modeled cycles of a GEMM quantum cut from a run (R330, R331, R406, R466). -/
def gemmCycles (d : Dev) (k : Nat) (p : Bytes) (i : Nat) (r w : Run) : Nat :=
  let kk := JD.param p i 2
  let ((_, mq), (_, nq)) := gemmBlock p i w
  let alike := d.readAlike k p i r w
  let fa := JD.fmt p i 0
  let fb := JD.fmt p i 1
  let rate := if fa = 5 || fb = 5 then 8 else if fb = 0 then 1 else 2
  let c := mq * ceilDiv kk 256 * ceilDiv nq 256 * rate
  let part := fun k b => if inMemory p i k then b else 0
  let out := if JD.kind p i 2 = 1 then elemBytes (JD.fmt p i 2) (mq * nq) * (if bit (JD.nflags p i) 0 then 2 else 1) else 0
  let b := part 0 (ceilDiv (elemBytes fa (mq * kk)) alike.1) + part 1 (ceilDiv (elemBytes fb (nq * kk)) alike.2) + out
  max c (memCycles b (d.tilesInSlot (k / 256))) + 64

/-- Bytes of an average unit of a node in tiers H and P. -/
def unitBytes (p : Bytes) (i : Nat) : Nat :=
  ceilDiv (((List.range (JD.nopnd p i)).filter (inMemory p i)).foldl (fun s k => s + JD.olen p i k) 0) (gridUnits p i)

/-- The source table of a GATHER lies in tier P (R426): by the page table's entry for its first byte at the quantum's start, and tier H where
that entry is not VALID (log 40). -/
def sourceFar (d : Dev) (m : Memory) (p : Bytes) (i : Nat) : Bool :=
  let va := JD.addr p i 1
  JD.opcode p i = 8 && JD.kind p i 1 = 1 &&
    match (readPte (CX.ptBase (d.reg (Reg.ctxEntry (JD.ctx p))) + 16 * pageOf va) m d).1 with
    | .ok pte => PTE.v pte && isTierP (daOf (tlbOf (JD.ctx p) (pageOf va) pte) va)
    | .error _ => false

/-- Version of the library that a job runs on (R347). -/
def libOf (d : Dev) (k : Nat) : Nat := (d.job k).elim 0 (fun j => if j.bank = 1 then d.jobs.bankA.version else d.jobs.bankB.version)

/-- What the library's tiler is told of a node: its version and the PARAMS. -/
def gridArgs (d : Dev) (k : Nat) (p : Bytes) (i : Nat) : List Nat :=
  [d.libOf k, JD.param p i 0, JD.param p i 1, JD.param p i 2, JD.param p i 3]

/-- Raw bytes of a run of blocks of an EXPAND or COMPRESS node (R463, R465). -/
def rawRun (p : Bytes) (i : Nat) (w : Run) : Nat := min (JD.olen p i 0) ((w.first + w.count) * 4096) - w.first * 4096

/-- Its operands in tiers H and P, each counted at its raw share (R330, R466). -/
def rawSides (p : Bytes) (i : Nat) : Nat := ((List.range 2).filter (inMemory p i)).length

/-- Modeled cycles of a quantum `w` cut from a run `r`: GEMM by its block, EXPAND and COMPRESS by their raw bytes, the engines of R426, the
library's tiler for the rest (log 9). -/
def opCycles (d : Dev) (k : Nat) (p : Bytes) (i : Nat) (far : Bool) (r w : Run) (bound : Nat) : Nat :=
  let n := w.count
  let mem := memCycles (unitBytes p i * n) (d.tilesInSlot (k / 256))
  match JD.opcode p i with
  | 1 => d.gemmCycles k p i r w
  | 8 =>
    let e := JD.param p i 1
    let la := if d.flag Reg.specEnable then min 256 (262144 / e) else 1
    let lat := if far then d.reg Reg.tierPLatNs else 220
    max (max (ceilDiv (9 * n) 4) (ceilDiv (2 * n * e) 455)) (ceilDiv (9 * n * lat) (4 * la)) + 64
  | 9 => ceilDiv (n * JD.param p i 1) 256 + 64
  | 10 | 11 => max (ceilDiv (rawRun p i w) 128) (memCycles (rawRun p i w * rawSides p i) (d.tilesInSlot (k / 256))) + 64
  | op => max (Config.libGrid (256 + op) (d.gridArgs k p i ++ [w.first, n]) bound) mem + 64

/-- The modeled time fits the budget at a halving count (R330). -/
def fitsBudget (d : Dev) (h t : Nat) : Bool := t * 2 ^ h ≤ d.reg Reg.quantumBudget

/-- The largest of the first `n` multiples of a step that fits, else the smallest (R330, R426). -/
def largest (d : Dev) (h step : Nat) (cost : Nat → Nat) : Nat → Nat
  | 0 => step
  | n + 1 => if d.fitsBudget h (cost ((n + 1) * step)) then (n + 1) * step else largest d h step cost n

/-- The same, the last multiple clipped at the end of the grid (R330, R331). -/
def largestOf (d : Dev) (h step cap : Nat) (cost : Nat → Nat) : Nat → Nat
  | 0 => min step cap
  | n + 1 => let m := min ((n + 1) * step) cap; if d.fitsBudget h (cost m) then m else largestOf d h step cap cost n

/-- What remains of a run once a quantum has its first corner: the column bands beside it, then the units after it. -/
def restOf (p : Bytes) (i : Nat) (r w : Run) : List Run :=
  (if w.wide < r.wide then [{ first := r.first + w.wide * rowBands p i, count := w.count, wide := r.wide - w.wide }] else [])
    ++ (if w.count < r.count then [{ r with first := r.first + w.count, count := r.count - w.count }] else [])

/-- What a block leaves of its run starts where a quantum may: that of a stream at a multiple of 16,384 bytes of it (R331). -/
def leavesCorners (p : Bytes) (i : Nat) (r w : Run) : Bool :=
  JD.kind p i 2 != 4 || (restOf p i r w).all (fun x =>
    let b := gemmBlock p i x
    (JD.addr p i 2 + elemBytes (JD.fmt p i 2) (b.1.1 * JD.param p i 1 + b.2.1)) % 16384 = 0)

/-- The most rows, of at most `n`, of a block that may be cut and fits; the fewest of one that may be cut. -/
def mostRows (ok fits : Nat → Bool) : Nat → Option Nat
  | 0 => none
  | n + 1 => if ok (n + 1) && fits (n + 1) then some (n + 1) else mostRows ok fits n
def fewestRows (ok : Nat → Bool) (n : Nat) : Option Nat := ((List.range n).map (· + 1)).find? ok

/-- The block of most units, at the first corner of a rectangle of row and column bands, that may be cut and fits the budget; of blocks of the same
size the narrowest; where none fits the smallest that may be cut (R330, R331, log 51). -/
def largestBlock (d : Dev) (h : Nat) (ok : Run → Bool) (cost : Run → Nat) (r : Run) : Run :=
  let blk := fun (a b : Nat) => { r with count := a, wide := b }
  let widths := (List.range r.wide).map (· + 1)
  let fit := widths.filterMap (fun b =>
    (mostRows (fun a => ok (blk a b)) (fun a => d.fitsBudget h (cost (blk a b))) r.count).map (fun a => blk a b))
  let size := fun (w : Run) => w.count * w.wide
  match fit with
  | w :: ws => ws.foldl (fun best w => if size best < size w then w else best) w
  | [] => (minBy size (widths.filterMap (fun b => (fewestRows (fun a => ok (blk a b)) r.count).map (fun a => blk a b)))).getD r

/-- The next quantum of a node, out of a run of units that remain (R330, R331). -/
def chooseUnits (d : Dev) (k : Nat) (p : Bytes) (i : Nat) (far : Bool) (h : Nat) (r : Run) : Run :=
  let bound := d.reg Reg.quantumBudget / 2 ^ h
  let cost := fun w => d.opCycles k p i far r w bound
  let upTo := fun n => { r with count := max 1 (min r.count n) }
  match JD.opcode p i with
  | 1 => d.largestBlock h (leavesCorners p i r) cost r
  | op => upTo (match op with
    | 8 => d.largest h 512 (fun n => cost { r with count := n }) (ceilDiv r.count 512)
    | 9 =>
      let s := (d.reg Reg.quantumBudget - 64 * 2 ^ h) * 256 / (2 ^ h * max 1 (JD.param p i 1))
      max 64 (s / 64 * 64)
    | 10 | 11 =>
      -- whole blocks, and the grid's last block where it is short
      let s := d.reg Reg.quantumBudget - 64 * 2 ^ h
      let byMem := s * 8192 / (2 ^ h * max 1 (3 * 4096 * rawSides p i * d.tilesInSlot (k / 256)))
      let n := max 1 (min (s / (2 ^ h * 32)) byMem)
      if r.count = n + 1 && d.fitsBudget h (cost r) then r.count else n
    | op =>
      let step := max 1 (Config.libGrid op (d.gridArgs k p i) bound)
      d.largestOf h step r.count (fun n => cost { r with count := n }) (ceilDiv r.count step))

/-! ### Readiness (R329, R336, R413) -/

/-- Runs of units that a node has still to give to quanta: its whole grid before the first. -/
def runsLeft (p : Bytes) (i : Nat) (n : NodeRt) : List Run :=
  n.left.getD (if gridUnits p i = 0 then []
    else [if JD.opcode p i = 1 then { first := 0, count := rowBands p i, wide := colBands p i } else { first := 0, count := gridUnits p i }])

/-- Every node that DEPS names has completed. -/
def depsDone (j : Job) (i : Nat) : Bool := (List.range i).all (fun x => !bit (JD.deps j.pkt.payload i) x || (j.nodes.getD x {}).st = 2)

/-- Every slot that a node's STAGED operands name is READY. -/
def stagedReady (d : Dev) (j : Job) (i : Nat) : Bool :=
  (JD.stagedOpnds j.pkt.payload i).all (fun k => (d.namedUnits j.pkt.comp j.pkt.payload i k).all (fun u =>
    (d.slotOf j.pkt.comp u).any (fun s => s.2.state = 2)))

/-- Quanta of a node that run. -/
def runningOf (d : Dev) (k i : Nat) : Nat := Tab.count d.jobs.running (fun _ x => x.quad * 256 + x.job = k && x.node = i)

/-- The table buffer of the quadrant is free for a COMPRESS node, or held by it (R464). -/
def tableFree (d : Dev) (k i : Nat) : Bool := (Tab.look d.jobs.tableBuf (k / 256)).all (fun h => h = k * 256 + i)

/-- The node takes the quadrant's table buffer. -/
def wantsTable (p : Bytes) (i : Nat) : Bool := JD.opcode p i = 11 && JD.kind p i 1 = 4

/-- A node has a quantum that may start on a kind of unit: its slots are READY, or it has started under a policy that does not wait for them, and a
slot that is not READY any more completes the operand (R245, R336, R413). A node that is being handed back starts none (R415). -/
def nodeReady (d : Dev) (k : Nat) (j : Job) (u i : Nat) : Bool :=
  let p := j.pkt.payload
  let n := j.nodes.getD i {}
  unitRuns u (JD.opcode p i) && n.st ≤ 1 && !n.back && depsDone j i && !(runsLeft p i n).isEmpty
    && (!inOrder (JD.opcode p i) || d.runningOf k i = 0) && (n.chosen || (n.st = 1 && JD.policy p != 0) || d.stagedReady j i)

/-- Quanta that runs of units are cut into, up to a number. -/
def quantaIn (d : Dev) (k : Nat) (p : Bytes) (i : Nat) (far : Bool) (h : Nat) : Nat → List Run → Nat
  | 0, _ => 0
  | _, [] => 0
  | n + 1, r :: rs =>
    let w := d.chooseUnits k p i far h r
    1 + quantaIn d k p i far h n (restOf p i r w ++ rs)

/-- Quanta of a job that are ready for a kind of unit, up to a number. -/
def quantaReady (d : Dev) (m : Memory) (k : Nat) (j : Job) (u most : Nat) : Nat :=
  let p := j.pkt.payload
  (((List.range (JD.nnodes p)).filter (d.nodeReady k j u)).map (fun i =>
    if inOrder (JD.opcode p i) then 1 else d.quantaIn k p i (d.sourceFar m p i) j.halvings most (runsLeft p i (j.nodes.getD i {})))).foldl (· + ·) 0

/-- Two units run the same operators. -/
def sameKind (u v : Nat) : Bool :=
  match engineOf u, engineOf v with
  | none, none => true
  | some a, some b => a = b || (decide (a < 2) && decide (b < 2))
  | _, _ => false

/-- Units that hold a slot of this tick for a job and have not used it yet. -/
def slotsAhead (d : Dev) (k u : Nat) : Nat :=
  Tab.count d.jobs.slots (fun v s => s.tick = d.tick && s.job = k && sameKind u v && !Tab.has d.jobs.running v)

/-- Tiles that hold quanta of a job. -/
def tilesOfJob (d : Dev) (k : Nat) : Nat := ((d.unitsOfJob k).filter (· < 120)).length

/-- The job has a quantum that may start now. -/
def jobReady (d : Dev) (k : Nat) (j : Job) (u : Nat) : Bool :=
  j.ending.isNone && JD.notBefore j.pkt.payload ≤ d.tick && (List.range (JD.nnodes j.pkt.payload)).any (d.nodeReady k j u)

/-! ### Slots (R332, R425) -/

/-- The unit is a tile that a Class B dip holds in NAP (R625). -/
def tileHeld (d : Dev) (u : Nat) : Bool := decide (u < 120) && d.power.suspended.isSome

/-- The longest exit from a rung, in ns (R627). -/
def exitNs (r : Nat) : Nat := [0, 20, 200, 2000, 20000, 200000].getD r 0

/-- A domain leaves its rung and counts as used (R628). -/
def leaveRung (d : Dev) (k : Nat) : Dev :=
  let t := d.tick
  d.setPower { d.power with rungs := Tab.del d.power.rungs k, used := Tab.put d.power.used k t }

/-- The scheduler wakes a tile for a slot: from DOZE, NAP or SLEEP the slot starts late by the exit time, which the rules bound and do not
fix (R627, R628, log 10). -/
def wakeTile (d : Dev) (u : Nat) : Dev :=
  let r := Tab.getD d.power.rungs u 0
  if 120 ≤ u || r = 0 || 3 < r then d
  else
    let v := d.fresh
    (v.2.leaveRung u).bump Reg.wakeDelayNs (v.1 % (exitNs r + 1))

/-- Units of the quadrant that may take a slot: working, with no quantum, and not in DORMANT (R628). -/
def freeUnits (d : Dev) (q : Nat) : List Nat :=
  if d.level q != 3 then []
  else
    let agent := !bit (d.reg Reg.deadAgents) (120 + q)
    let set := if bit d.health.failedUnits (236 + q) then [] else [0, 1, 2]
    let engines := (if agent then set ++ [3] else []) ++ [4]
    ((if d.power.suspended.isSome then [] else d.workingTiles q) ++ engines.map (fun e => 128 + 8 * q + e)).filter (fun u =>
      !Tab.has d.jobs.running u && Tab.getD d.power.rungs u 0 < 4)

/-- Tiles a composition holds, slots of this tick included (R332, R562). -/
def tilesHeldNow (d : Dev) (c : Nat) : Nat :=
  d.tilesOf c + Tab.count d.jobs.slots (fun u s => u < 120 && s.tick = d.tick && !Tab.has d.jobs.running u
    && (d.job s.job).any (fun j => j.pkt.comp = c))

/-- Jobs of a quadrant that may take a unit: with a ready quantum for which no unit has a slot yet, and within TILE_MAX and the tile quota. -/
def candidates (d : Dev) (m : Memory) (q u : Nat) : List (Nat × Job) :=
  d.jobs.recs.filter (fun (kv : Nat × Job) =>
    let j := kv.2
    kv.1 / 256 = q && d.jobReady kv.1 j u
      && decide (d.slotsAhead kv.1 u < d.quantaReady m kv.1 j u (d.slotsAhead kv.1 u + 1))
      && (120 ≤ u || (decide (d.tilesOfJob kv.1 + d.slotsOfJob kv.1 < JD.tileMax j.pkt.payload)
                      && decide (d.tilesHeldNow j.pkt.comp < d.tileQuota j.pkt.comp))))

/-- Give one unit its slot: the next composition in rotation, its job of highest PRIORITY, then the earliest admitted. -/
def giveSlotTo (m : Memory) (d : Dev) (q u : Nat) : Dev :=
  let d := d.modJobs (fun J => { J with slots := Tab.del J.slots u })
  let cs := d.candidates m q u
  let rk := if u < 120 then q else 4 + q
  let last := Tab.getD d.jobs.rot rk 63
  match minBy (fun (x : Nat × Job) => (x.2.pkt.comp + 63 - last) % 64) cs with
  | none => d
  | some (_, j0) =>
    let c := j0.pkt.comp
    let mine := cs.filter (fun x => x.2.pkt.comp = c)
    let top := (mine.map (fun x => JD.priority x.2.pkt.payload)).foldl max 0
    match minBy (fun (x : Nat × Job) => x.2.seq) (mine.filter (fun x => JD.priority x.2.pkt.payload = top)) with
    | none => d
    | some (k, _) =>
      let d := d.wakeTile u
      d.modJobs (fun J => { J with slots := Tab.put J.slots u { tick := d.tick, job := k }, rot := Tab.put J.rot rk c })

/-- The schedulers give their slots at a tick edge. -/
def giveSlots (m : Memory) (d : Dev) : Dev := d.each [0, 1, 2, 3] (fun d q => d.each (d.freeUnits q) (fun d u => giveSlotTo m d q u))

/-! ### Result parts (R321) -/

/-- Operand of the result stream of a node. -/
def resultOpnd (p : Bytes) (i : Nat) : Option Nat := (List.range (JD.nopnd p i)).find? (fun k => JD.kind p i k = 4)

/-- Length of a node's result stream, once it is known (R440, R464). -/
def streamLen (p : Bytes) (i k : Nat) (n : NodeRt) (ended : Bool) : Option Nat :=
  match JD.opcode p i with
  | 9 => if ended then some (JD.addr p i k + n.kept * (if k = 2 then JD.param p i 1 else 4)) else none
  | 11 => if ended then some (JD.addr p i k + n.kept) else none
  | _ => some (JD.addr p i k + JD.olen p i k)

/-- Bytes of a part that stand. -/
def partHeld (base part : Nat) (l : List (Nat × Bytes)) : Nat := min 16384 (base - part * 16384) + (l.map (fun x => x.2.length)).foldl (· + ·) 0

/-- Send the parts of a node's stream that are whole. -/
def sendParts (d : Dev) (k i : Nat) (ended : Bool) : Dev :=
  match d.job k with
  | none => d
  | some j =>
    let p := j.pkt.payload
    match resultOpnd p i with
    | none => d
    | some r =>
      let n := j.nodes.getD i {}
      let total := streamLen p i r n ended
      let want := fun part => match total with | some t => min 16384 (t - part * 16384) | none => 16384
      d.each n.stream (fun d (x : Nat × List (Nat × Bytes)) =>
        let w := want x.1
        if partHeld (JD.addr p i r) x.1 x.2 < w || w = 0 then d
        else
          let bs := x.2.foldl (fun b y => splice b y.1 y.2) (List.replicate w 0)
          (d.modNode k i (fun n => { n with stream := Tab.del n.stream x.1 })).jobOutput k (resultOf j (k / 256) i x.1 0 false (padTo w bs)))

/-- Cut a piece of a stream at part boundaries. -/
def cutPieces (off : Nat) (bs : Bytes) : List (Nat × Nat × Bytes) :=
  if bs.isEmpty then []
  else (List.range ((off + bs.length - 1) / 16384 + 1 - off / 16384)).map (fun i =>
    let part := off / 16384 + i
    let a := max off (part * 16384)
    let b := min (off + bs.length) ((part + 1) * 16384)
    (part, a % 16384, slice bs (a - off) (b - a)))

/-- Enter pieces of a result stream into a node. -/
def addPieces (d : Dev) (k i : Nat) (ps : List (Nat × Bytes)) : Dev :=
  let cut := ps.flatMap (fun x => cutPieces x.1 x.2)
  d.modNode k i (fun n => { n with stream := cut.foldl (fun t x => Tab.upd t x.1 [] (· ++ [x.2])) n.stream })

/-! ### Ends (R308, R329) -/

/-- The table buffer is free of a node (R464). -/
def freeTable (d : Dev) (k i : Nat) : Dev := d.modJobs (fun J => { J with tableBuf := Tab.keep J.tableBuf (fun _ h => h != k * 256 + i) })

/-- A node has completed: its last parts, those of its table behind them, its notice, and with the last node the job. Of a job that is already
ending no part is sent (R322, R337, R464). -/
def nodeDone (d : Dev) (k i : Nat) : Dev :=
  match d.job k with
  | none => d
  | some j =>
    let p := j.pkt.payload
    let n := j.nodes.getD i {}
    let d := if j.ending.isSome then d else
      let d := d.sendParts k i true
      if wantsTable p i then
        (d.addPieces k i [(JD.addr p i 1, padTo (16384 * ceilDiv n.idx.length 4096) (n.idx.flatMap (leBytes 4)))]).sendParts k i true
      else d
    let d := ((d.modNode k i (fun n => { n with st := 2 })).noteNode k i 0).freeTable k i
    match d.job k with
    | none => d
    | some j => if j.ending.isNone && (List.range (JD.nnodes p)).all (fun x => (j.nodes.getD x {}).st = 2) then d.endJob k 0 0xFF else d

/-- Element bytes that a gather quantum has written to its output at its end: none into a stream whose parts are not sent (R337, R444). -/
def gathered (j : Job) (x : Quantum) (live : Bool) (d : Dev) : Dev :=
  let p := j.pkt.payload
  if JD.opcode p x.node = 8 && (live || JD.kind p x.node 2 = 1) then d.bump (Reg.gatherBytes x.quad) (x.count * JD.param p x.node 1) else d

/-- A quantum completes: its parts leave, its unit is free, and what is left of its slot may be used (R308, R329, R333). -/
def endQuantum (d : Dev) (u : Nat) : Dev :=
  match Tab.look d.jobs.running u with
  | none => d
  | some x =>
    let k := x.quad * 256 + x.job
    let live := (d.job k).any (fun j => j.ending.isNone)
    let d := if live then d.addPieces k x.node x.out else d
    let left : TickSlot := { tick := x.slot, used := x.before + x.cycles, job := k }
    let d := d.modJobs (fun J => { J with slots := if x.slot = d.tick then Tab.put J.slots u left else Tab.del J.slots u })
    let d := (d.dropQuantum u).bump (Reg.quantaDone x.quad)
    let d := d.modJob k (fun j => { j with quanta := j.quanta + 1 })
    let d := d.modNode k x.node (fun n => { n with done := n.done + x.count * x.wide, kept := n.kept + x.kept })
    let d := if live then d.sendParts k x.node false else d
    match d.job k with
    | none => d
    | some j =>
      let n := j.nodes.getD x.node {}
      let d := gathered j x live d
      let d := if gridUnits j.pkt.payload x.node ≤ n.done then d.nodeDone k x.node else d
      d.quantumGone k

/-- The first output of a job is ready (R419, R420): whether it may leave now or later. -/
def firstOutput (d : Dev) (k : Nat) : Bool × Dev :=
  match d.job k with
  | none => (false, d)
  | some j =>
    match j.backup with
    | 1 =>
      (true, (d.modJob k (fun j => { j with backup := 2, claimTick := d.tick, output := true })).sendCancel j.pkt.workId j.reply 2 j.primarySw)
    | 0 =>
      let r := d.arbitrate j
      if r.1 then (true, r.2.modJob k (fun j => { j with output := true })) else (false, r.2.endJob k St.cancelled 0xFF)
    | _ => (true, d)

/-! ### Overruns (R334, R335) -/

/-- A quantum still runs at the edge that ends its slot: the slot is late, and the job's streak may halve its quanta. -/
def overrun (d : Dev) (u : Nat) : Dev :=
  match Tab.look d.jobs.running u with
  | none => d
  | some x =>
    if x.parked || x.late || x.excused || d.tick ≤ x.slot || d.tileHeld u then d
    else
      let k := x.quad * 256 + x.job
      let d := d.modJobs (fun J => { J with running := Tab.edit J.running u (fun x => { x with late := true }) })
      let d := d.bump (Reg.lateTicks x.quad)
      let d := match engineOf u with
        | some e => if e ≤ 2 then d.bump (Reg.engineLate x.quad) else d
        | none => d
      match d.job k with
      | none => d
      | some j =>
        let again := decide (j.streakTick = x.slot && j.lateTicks != 0)
        let s := if again then j.streak else if j.streakTick + 1 = x.slot then j.streak + 1 else 1
        let halve := !again && decide (2 ≤ s)
        let up := halve && decide (j.halvings < 8)
        let d := if up then d.bump (Reg.halvings x.quad) else d
        d.modJob k (fun j => { j with lateTicks := j.lateTicks + 1, streak := if halve then 0 else s, streakTick := x.slot, calm := d.tick,
                                      halvings := if up then j.halvings + 1 else j.halvings })

/-- A job without a late slot for HALVE_RESTORE ticks undoes one halving (R335). -/
def halveRestore (d : Dev) (k : Nat) : Dev :=
  match d.job k with
  | none => d
  | some j =>
    let n := d.reg Reg.halveRestore
    if n != 0 && decide (j.calm + n ≤ d.tick) && decide (JD.qshift j.pkt.payload < j.halvings) then
      d.modJob k (fun j => { j with halvings := j.halvings - 1, calm := d.tick })
    else d

/-- The job's time is up (R338). -/
def jobTimeout (d : Dev) (k : Nat) : Dev :=
  match d.job k with
  | none => d
  | some j =>
    let n := JD.timeout j.pkt.payload
    if n != 0 && decide (j.admitTick + n + j.heldTicks ≤ d.tick) && d.power.suspended.isNone then d.endJob k St.timeout 0xFF else d

end Dev

/-! ### Starts (R307, R333, R427, R464) -/

/-- Ranges of VAs a run of units touches, known before it runs: operand, offset, length, right. -/
def touches (p : Bytes) (i : Nat) (w : Run) : List (Nat × Nat × Nat × Nat) :=
  let first := w.first
  let n := w.count
  let elems := fun (k total c m kind : Nat) => (elemRanges (JD.fmt p i k) total c m).map (fun r => (k, r.1, r.2, kind))
  let p0 := JD.param p i 0
  let p1 := JD.param p i 1
  match JD.opcode p i with
  | 1 =>
    let kk := JD.param p i 2
    let ((r0, nr), (c0, nc)) := gemmBlock p i w
    let c := fun kind => elems 2 (p0 * p1) (r0 * p1 + c0) ((nr - 1) * p1 + nc) kind
    elems 0 (p0 * kk) (r0 * kk) (nr * kk) 0 ++ elems 1 (p1 * kk) (c0 * kk) (nc * kk) 0
      ++ (if bit (JD.nflags p i) 0 then c 0 else []) ++ c 1
  | 2 =>
    let h := p0 % 65536
    elems 0 (JD.param p i 3 * (h * p1)) (first * (h * p1)) (n * (h * p1)) 0 ++ [(1, 8 * first, 8 * n, 0)]
  | 3 => [(0, 0, JD.olen p i 0, 0), (1, 0, JD.olen p i 1, 1)]
  | 4 =>
    let s := runSpan p0 first n
    let a := elemArity (JD.subop p i)
    (List.range a).flatMap (fun k => elems k p0 s.1 s.2 0) ++ elems a p0 s.1 s.2 1
  | 5 => elems 0 (p0 * p1) (first * p1) (n * p1) 0 ++ elems 1 (p0 * p1) (first * p1) (n * p1) 1
  | 6 =>
    let o := 2 + JD.subop p i
    elems 0 (p0 * p1) (first * p1) (n * p1) 0 ++ ((List.range o).drop 1).flatMap (fun k => elems k p1 0 p1 0)
      ++ elems o (p0 * p1) (first * p1) (n * p1) 1
  | 7 =>
    let kk := JD.param p i 2
    elems 0 (p0 * p1) (first * p1) (n * p1) 0 ++ elems 1 (p0 * kk) (first * kk) (n * kk) 1 ++ elems 2 (p0 * kk) (first * kk) (n * kk) 1
  | 8 => [(0, 4 * first, 4 * n, 0), (2, first * p1, n * p1, 1)] ++ (if JD.nopnd p i = 4 then [(3, first, n, 1)] else [])
  | 9 => [(0, first * p1, n * p1, 0), (1, 0, JD.olen p i 1, 0)]
  | 10 => [(0, first * 4096, Dev.rawRun p i w, 0), (1, first * 4096, Dev.rawRun p i w, 1)]
  | 11 => [(0, first * 4096, min (JD.olen p i 0) ((first + n) * 4096) - first * 4096, 0)]
  | 12 => (List.range p0).map (fun j => (0, j * p1 + first * 4096, n * 4096, 0))
      ++ [(1, first * 4096, n * 4096, 1), (2, first * 4096, n * 4096, 1)]
  | _ =>
    let s := runSpan (JD.olen p i 0) first n
    [(0, s.1, s.2, 0), (1, s.1, s.2, 1)]

/-- First VA touched in each page of a range. -/
def pageVas (a n : Nat) : List Nat :=
  if n = 0 then [] else (List.range ((a + n - 1) / 2 ^ 29 + 1 - a / 2 ^ 29)).map (fun i => max a ((a / 2 ^ 29 + i) * 2 ^ 29))

/-- The accesses a quantum makes through translation from its start. -/
def firstNeeds (u : Nat) (p : Bytes) (i : Nat) (w : Run) : List XAccess :=
  ((touches p i w).filter (fun r => JD.kind p i r.1 = 1 && !JD.coded p i r.1)).flatMap (fun r =>
    (pageVas (JD.addr p i r.1 + r.2.1) r.2.2.1).map (fun va => { unit := u, va := va, kind := r.2.2.2 }))

namespace Dev

/-- Scratch units that the tiler asks for of the free ones of a tile: how many is free (R255, log 154). -/
def askedScratch (d : Dev) (t : Nat) (x : Quantum) (j : Job) : List Nat :=
  let p := j.pkt.payload
  (d.freeScratch t).take (Config.libScratch (JD.opcode p x.node)
    [JD.param p x.node 0, JD.param p x.node 1, JD.param p x.node 2, JD.param p x.node 3, x.first, x.count])

/-- What a started quantum of a unit does to its surroundings: pins, scratch, write granularity, metering, use of its unit (R248, R256, R311,
R572, R628). -/
def settleStart (d : Dev) (u : Nat) (x : Quantum) (j : Job) : Dev :=
  let c := j.pkt.comp
  let ctx := JD.ctx j.pkt.payload
  let pins := ((d.quantumStaged x).filterMap (fun s => (d.slotOf c s).map Prod.fst)).eraseDups
  let d := d.each pins (fun d i => d.modTiers (fun T => { T with slots := Tab.edit T.slots i (fun y => { y with pins := y.pins ++ [u] }) }))
  let d := d.modJobs (fun J => { J with running := Tab.edit J.running u (fun x => { x with pinned := pins }) })
  let d := match x.landing, decide (u < 120) with
    | some t, _ => d.takeScratch t c u ((d.freeScratch t).take 4)
    | none, true => d.takeScratch u c u (d.askedScratch u x j ++ [31])
    | none, false => d
  let d := d.modCoh (fun C => { C with grain := Tab.set C.grain u (bit (d.reg Reg.mmGrain) ctx).toNat 0 })
  let d := { d with meter := { d.meter with held := Tab.upd d.meter.held c 0 (fun m => setBit m u true) } }
  if u < 120 then d.modPower (fun P => { P with used := Tab.put P.used u d.tick }) else d

/-- The landing buffers of a gather quantum: four free scratch units of a working tile (R427). -/
def landingTile (d : Dev) (q : Nat) : Option Nat := (d.workingTiles q).find? (fun t => decide (4 ≤ (d.freeScratch t).length))

/-- The slot of a unit is spent without a quantum. -/
def spendSlot (d : Dev) (u : Nat) : Dev :=
  d.modJobs (fun J => { J with slots := Tab.edit J.slots u (fun s => { s with used := tickCycles }) })

/-- The run of units that a node gives out next. -/
def nextRun (p : Bytes) (i : Nat) (n : NodeRt) : Run := (runsLeft p i n).headD { first := 0, count := 0 }

/-- A node gives a run to a quantum. -/
def giveRun (p : Bytes) (i : Nat) (w : Run) (n : NodeRt) : NodeRt :=
  { n with st := 1, left := some (restOf p i (nextRun p i n) w ++ (runsLeft p i n).drop 1) }

/-- A unit with a slot starts its job's next ready quantum at a kernel boundary (R307, R333). -/
def startOn (u : Nat) (m : Memory) (d : Dev) : Memory × Dev :=
  match if d.tileHeld u then none else Tab.look d.jobs.slots u with
  | none => (m, d)
  | some s =>
    match d.job s.job with
    | none => (m, d)
    | some j =>
      let p := j.pkt.payload
      let k := s.job
      let q := k / 256
      if s.tick != d.tick || !(d.freeUnits q).contains u || !d.jobReady k j u then (m, d)
      else
        match (List.range (JD.nnodes p)).find? (d.nodeReady k j u) with
        | none => (m, d)
        | some i =>
          if wantsTable p i && !d.tableFree k i then
            let d := if (j.nodes.getD i {}).tableWait then d else (d.bump Reg.tableBufWaits).modNode k i (fun n => { n with tableWait := true })
            (m, d.spendSlot u)
          else
            let n := j.nodes.getD i {}
            let far := d.sourceFar m p i
            let w := d.chooseUnits k p i far j.halvings (nextRun p i n)
            let t := d.opCycles k p i far (nextRun p i n) w (d.reg Reg.quantumBudget / 2 ^ j.halvings)
            let land := if JD.opcode p i = 8 then d.landingTile q else none
            if s.used != 0 && tickCycles < s.used + t then (m, d)
            else if JD.opcode p i = 8 && land.isNone then (m, d.spendSlot u)
            else
              let x : Quantum := { quad := q, job := k % 256, node := i, first := w.first, count := w.count, wide := w.wide, slot := d.tick,
                                   before := s.used, cycles := t, pos := w.first, landing := land }
              let d := d.modNode k i (giveRun p i w)
              let d := if wantsTable p i then
                  (d.modJobs (fun J => { J with tableBuf := Tab.put J.tableBuf q (k * 256 + i) })).modNode k i (fun n => { n with tableWait := false })
                else d
              let d := if isLanes u then d else d.watch (agentOf u) q
              let d := d.modJobs (fun J => { J with running := Tab.put J.running u x })
              let d := d.settleStart u x j
              let b := if isLanes u then (m, d) else runL2 (fun l => l.boundary (agentOf u) (if u < 120 then some (JD.ctx p) else none)) m d
              (b.1, b.2.each (firstNeeds u p i w) (fun d a =>
                if Tab.has d.jobs.running u then d.translate (JD.ctx p) a else d))

/-- What a running quantum works with. -/
def envOf (d : Dev) (u : Nat) (x : Quantum) : Option (QEnv × Nat) :=
  (d.job (x.quad * 256 + x.job)).map (fun j =>
    ({ unit := u, job := x.quad * 256 + x.job, node := x.node, p := j.pkt.payload, comp := j.pkt.comp, ctx := JD.ctx j.pkt.payload,
       xlat := x.xlat, shadows := (j.nodes.getD x.node {}).shadows, failing := x.failing },
     if j.bank = 1 then d.jobs.bankA.version else d.jobs.bankB.version))

/-- Accesses of a unit wait on walks or faults. -/
def unitWaits (d : Dev) (u : Nat) : Bool :=
  d.trans.faults.any (fun f => f.accs.any (fun a => a.unit = u))
    || d.trans.walks.any (fun (kv : Nat × List PageWalk) => kv.2.any (fun w => w.accs.any (fun a => a.unit = u)))

/-- Run a part of a unit's quantum: a page it has no translation for is translated, and the part is tried again where that needed no walk; a line
or stack that an access must wait for leaves the part undone, as does a range of tier P, whose READ is made now; a failed access fails the
quantum (R227, R274, R337). Answers whether the part is done; its accesses are then over, those of an invalidated translation too once their trays have answered (R286). -/
def attempt (u : Nat) (f : QEnv → Nat → QM Unit) : Nat → Memory → Dev → Bool × Memory × Dev
  | 0, m, d => (false, m, d)
  | fuel + 1, m, d =>
    match Tab.look d.jobs.running u with
    | none => (false, m, d)
    | some x =>
      match if d.unitWaits u then none else d.envOf u x with
      | none => (false, m, d)
      | some (e, v) =>
        match StateT.run (ExceptT.run (f e v)) (m, d) with
        | (.ok _, s) =>
          let d := s.2.modJobs (fun J => { J with running := Tab.edit J.running u (fun x =>
            { x with xlat := [], translated := true, trays := x.trays.filter (fun a => a.write || a.index.isSome) }) })
          let finished := (Tab.look d.jobs.running u).all (fun x => x.trays.all (fun a => a.answer.isSome))
          (true, s.1, if finished then d.modTrans (fun T => { T with draining := T.draining.map (fun l => l.filter (· != u)) }) else d)
        | (.error (.status st), s) => (false, s.1, s.2.failQuantum u st)
        | (.error .wait, s) => (false, m, d.modTiers (fun T => { T with waking := T.waking ||| s.2.tiers.waking }))
        | (.error (.tray l), _) => (false, m, d.trayReads e l)
        | (.error (.miss va kind), _) => attempt u f fuel m (d.translate e.ctx { unit := u, va := va, kind := kind })

/-- Yarrow has answered a job's contribution (R404, R405). -/
def localAnswer (d : Dev) (u : Nat) (c : Contribution) (r : Taken) : Dev :=
  let edit := fun (f : List Contribution → List Contribution) =>
    d.modJobs (fun J => { J with running := Tab.edit J.running u (fun x => { x with contribs := f x.contribs }) })
  match r with
  | .failed st =>
    if st = St.quota && c.tries < d.reg Reg.reqRetryMax then
      edit (fun l => l.map (fun x => if x = c then { x with waits := true, queued := false } else x))
    else d.failQuantum u st
  | _ =>
    let d := edit (removeFirst (· = c))
    if (Tab.look d.jobs.running u).any (fun x => x.contribs.isEmpty) then d.endQuantum u else d

/-- A contribution of a unit's quantum enters the YARROW queue of the quadrant that holds its group, or waits for room there (R154, R159, R375); one
whose group has no ACTIVE instance is answered so (R380, R393). -/
def enterContrib (d : Dev) (u : Nat) (c : Contribution) : Dev :=
  match (Tab.look d.yar.insts c.pkt.group).filter (fun i => i.state = 2 && 2 ≤ d.level i.quad) with
  | none => d.localAnswer u c (.failed St.unmapped)
  | some i =>
    let k := unitKey (8 + i.quad) c.pkt.cls
    match poolFor d i.quad k c.pkt.cls c.pkt.cells with
    | none => d
    | some pool =>
      let a := (d.core i.quad).alloc c.pkt.cells pool
      let e : QEnt := { id := (d.core i.quad).nextId, pkt := c.pkt, src := .host .ha, cells := a.1, n := c.pkt.cells, pool := pool, unit := some u,
                        tick := d.tick }
      (d.coreUsed i.quad (a.2.enqueue k e)).modJobs (fun J => { J with running := Tab.edit J.running u (fun x =>
        { x with contribs := x.contribs.map (fun y => if y = c then { y with queued := true } else y) }) })

/-- The contributions of a unit's quantum that may go do so: not while its job holds its output (R404, R419). -/
def enterContribs (d : Dev) (u : Nat) : Dev :=
  match Tab.look d.jobs.running u with
  | none => d
  | some x =>
    if (d.job (x.quad * 256 + x.job)).any (fun j => j.backup = 0 || j.backup = 3) then
      d.each (x.contribs.filter (fun c => !c.waits && !c.queued)) (fun d c =>
        if (Tab.look d.jobs.running u).any (fun y => y.contribs.contains c) then d.enterContrib u c else d)
    else d

/-- Those of every unit. -/
def enterAll (d : Dev) : Dev :=
  d.each ((d.jobs.running.filter (fun (kv : Nat × Quantum) => !kv.2.contribs.isEmpty)).map Prod.fst) (fun d u => d.enterContribs u)

/-- The work of a quantum is done: contributions go to Yarrow, any other quantum ends (R404). -/
def workDone (d : Dev) (u : Nat) : Dev :=
  match Tab.look d.jobs.running u with
  | none => d
  | some x =>
    if x.contribs.isEmpty then d.endQuantum u
    else
      let k := x.quad * 256 + x.job
      let drop := (d.job k).any (fun j => j.ending.any (fun e => e.1 = St.cancelled || e.1 = St.fenced))
      let clear := fun (d : Dev) => d.modJobs (fun J => { J with running := Tab.edit J.running u (fun x => { x with contribs := [] }) })
      if drop then (clear d).endQuantum u
      else
        let r := d.firstOutput k
        let d := r.2.modJobs (fun J => { J with running := Tab.edit J.running u (fun x => { x with committed := true }) })
        if r.1 then d.enterContribs u else (clear d).endQuantum u

/-- The work of a quantum is done and its writes of tier H are visible: it ends once each of its writes of tier P has completed, and fails with the
status of one that failed (R308, R337). -/
def tryEnd (d : Dev) (u : Nat) : Dev :=
  match Tab.look d.jobs.running u with
  | none => d
  | some x =>
    let answers := (x.trays.filter (·.write)).map (fun a => a.answer.map Prod.fst)
    match (answers.filterMap id).find? (· != 0) with
    | some s => d.failQuantum u s
    | none => if answers.any (·.isNone) then d.modJobs (fun J => { J with running := Tab.put J.running u { x with worked := true } }) else d.workDone u

/-- Stores of TILE granularity go on after the work of a quantum: how many sectors are written before other agents see their lines is free; none
where there are none (R311, log 178). Answers whether all are written. -/
def drain (u : Nat) (m : Memory) (d : Dev) : Bool × Memory × Dev :=
  match Tab.look d.jobs.running u with
  | none => (false, m, d)
  | some x =>
    if x.sectors.isEmpty then (true, m, d)
    else
      let f := d.fresh
      let r := attempt u (fun e _ => QM.writeSectors e (1 + f.1 % x.sectors.length)) 4096 m
        (f.2.modJobs (fun J => { J with running := Tab.put J.running u { x with worked := true } }))
      (r.1 && (Tab.look r.2.2.jobs.running u).all (fun x => x.sectors.isEmpty), r.2)

/-- A quantum reaches its end (R308, R329, R337); a tile that is in an acquire-wait does not (R309). -/
def complete (u : Nat) (e : QuantumEnd) (m : Memory) (d : Dev) : Memory × Dev :=
  match Tab.look d.jobs.running u with
  | none => (m, d)
  | some x =>
    if x.parked || !x.contribs.isEmpty || d.tileHeld u || Tab.has d.coh.waits u then (m, d)
    else if e.status != 0 then (m, d.failQuantum u (knownStatus e.status))
    else if QM.atEnd u && x.pos < x.first + x.count then (m, d)
    else
      let work := fun env v => if QM.atEnd u then QM.deliver env x.stores else QM.run env v x.cut
      let r := if x.worked then (true, m, d) else attempt u work 4096 m d
      let r := if r.1 then drain u r.2.1 r.2.2 else r
      (r.2.1, if r.1 then r.2.2.tryEnd u else r.2.2)

end Dev

end Sys2Proof.Machine
end

