-- ==== Sys2Proof/Machine/Jobs.lean ====
section
/-! DEFINITION. Jobs: admission (R323 to R325), the commands of quanta and tick slots (R329 to R338), the acquire-wait and release of the
memory model (R308, R309), and cancellation by an endpoint (R338, R423). -/

namespace Sys2Proof.Machine

namespace Dev

/-! ### Admission (R323 to R325) -/

/-- The ACTIVE library bank: 1 A, 2 B (R344). -/
def activeBank (d : Dev) : Option (Nat × LibBank) :=
  if d.jobs.bankA.state = 2 then some (1, d.jobs.bankA) else if d.jobs.bankB.state = 2 then some (2, d.jobs.bankB) else none

/-- Check 2: the library's version and operators. -/
def libOk (d : Dev) (p : Bytes) : Bool :=
  match d.activeBank with
  | some (_, b) => JD.libMin p ≤ b.version && (List.range (JD.nnodes p)).all (fun i => bit b.opMask (JD.opcode p i))
  | none => false

/-- The first check of R324 that fails. -/
def admitCheck (d : Dev) (q : Nat) (pk : Packet) : Option Nat :=
  let p := pk.payload
  let e := d.reg (Reg.ctxEntry (JD.ctx p))
  let held := Tab.count d.jobs.recs (fun k j => k / 256 = q && j.pkt.comp = pk.comp)
  if !d.descOk pk then some St.badDesc
  else if !d.libOk p then some St.badDesc
  else if !CX.valid e || CX.comp e != pk.comp then some St.rights
  else if (d.tileQuota pk.comp = 0 && (List.range (JD.nnodes p)).any (fun i => tileOp (JD.opcode p i)))
      || d.reg Reg.compJobMax ≤ held then some St.quota
  else if !d.stageFits pk.comp (stagesOf p) then some St.quota
  else none

/-- The FEID that receives a job's results (R318). -/
def replyOf (pk : Packet) : Nat := if JD.replyFeid pk.payload = 0xFFFF then pk.src else JD.replyFeid pk.payload

/-- A job becomes resident in a record: its staging requests, its NOTIFY, and the claim another plane may hold (R325, R419, R420). -/
def makeResident (d : Dev) (k : Nat) (pk : Packet) : Dev :=
  let p := pk.payload
  let backup := JD.backup p
  let j : Job :=
    { pkt := pk, reply := replyOf pk, admitTick := d.tick, seq := d.jobs.admitted, bank := (d.activeBank.map Prod.fst).getD 1, halvings := JD.qshift p, calm := d.tick,
      nodes := List.replicate (JD.nnodes p) {}, backup := backup.toNat, primarySw := if backup then le p (JD.inlineOff p) 1 else 0 }
  let d := (d.modJobs (fun J => { J with recs := Tab.put J.recs k j, admitted := J.admitted + 1 })).bump (Reg.jobsAdmitted (k / 256))
  let d := d.each (stagesOf p) (fun d s => d.stageRequest pk.comp k s)
  if backup then d.sendCancel pk.workId j.reply 1 j.primarySw
  else if (d.claimOf pk.comp j.reply pk.workId).any (fun c => c.st = 3) then d.endJob k St.cancelled 0xFF
  else d

/-- The scheduler of a quadrant takes the JOB_POST at the head of its queue while a record is free; a bank whose edge has come is ACTIVE by then
(R347). -/
def jobAdmit (d : Dev) (q : Nat) : Dev :=
  match if d.level q = 3 then d.unitHead (12 + q) (fun e => e.pkt.ptype = .jobPost) else none with
  | none => d
  | some (a, k, e) =>
    match (List.range 256).find? (fun r => !Tab.has d.jobs.recs (q * 256 + r)) with
    | none => d
    | some r =>
      let d := (d.consume a k e).libSwitch
      match d.admitCheck q e.pkt with
      | some st => (d.bump (Reg.jobsFailed q)).sendFeid (refusalOf e.pkt st q)
      | none => d.makeResident (q * 256 + r) e.pkt

/-! ### Cancellation (R338, R423) -/

/-- The resident job of a key, backup or not (R417). -/
def jobOfKey (d : Dev) (comp reply work : Nat) (backup : Bool) : Option Nat :=
  (d.jobs.recs.find? (fun (kv : Nat × Job) =>
    kv.2.pkt.comp = comp && kv.2.reply = reply && kv.2.pkt.workId = work && JD.backup kv.2.pkt.payload = backup)).map Prod.fst

/-- An endpoint's or host's JOB_CANCEL (R132, R423). -/
def endpointCancel (d : Dev) (feid comp : Nat) (m : CancelMsg) : Dev :=
  if m.op != 0 || 4096 ≤ m.replyFeid then d
  else
    let mine := d.jobs.recs.find? (fun (kv : Nat × Job) =>
      kv.2.pkt.comp = comp && kv.2.reply = m.replyFeid && kv.2.pkt.workId = m.workId && (kv.2.pkt.src = feid || kv.2.reply = feid))
    match mine with
    | some (k, _) => d.endJob k St.cancelled 0xFF
    | none => d

/-- A JOB_CANCEL of an endpoint or host arrives (R132, R418). -/
def cancelIn (d : Dev) (src : Ingress) (p : Packet) : Dev :=
  d.ctrlIn src p (fun p d => d.endpointCancel p.src p.comp (cancelOf p.payload))

/-! ### Acquire-wait and release (R308, R309) -/

/-- The condition of an acquire-wait: 0 equal, 1 not equal, 2 greater or equal, 3 all bits of a mask set. -/
def waitHolds (cond v value : Nat) : Bool :=
  match cond with
  | 0 => v = value
  | 1 => v != value
  | 2 => value ≤ v
  | _ => v &&& value = value

/-- The tile is in an acquire-wait with this location and condition, or in none, where it enters it now: with a timeout of 1 to 16 ticks that
the operator's microcode gives and the spec leaves open (R309, log 179). -/
def enterWait (d : Dev) (t off cond width value : Nat) : Option Dev :=
  match Tab.look d.coh.waits t with
  | some w => if w.off = off && w.cond = cond && w.width = width && w.value = value then some d else none
  | none =>
    let f := d.fresh
    let w : AcqWait := { off := off, cond := cond, width := width, value := value, since := d.tick, ticks := 1 + f.1 % 16 }
    some (f.2.modCoh (fun c => { c with waits := Tab.put c.waits t w }))

/-- A tile polls the location of its acquire-wait at the L2: where the condition holds the wait ends, with the queued invalidations applied and the
context's S lines dropped; where it does not the tile waits on. -/
def acquireMet (t off cond width value : Nat) (m : Memory) (d : Dev) : Memory × Dev :=
  match if t < 120 && !d.isDead t then Tab.look d.jobs.running t else none with
  | none => (m, d)
  | some x =>
    match if width = 0 || 8 < width || windowSize < off + width || x.parked || x.worked then none else d.job (x.quad * 256 + x.job) with
    | none => (m, d)
    | some j =>
      match d.enterWait t off cond width value with
      | none => (m, d)
      | some d =>
        match l2ReadBy t off width m d with
        | (.ok bs, m, d) =>
          if waitHolds cond (leNat bs) value then
            let d := d.modCoh (fun c => { c with waits := Tab.del c.waits t })
            let r := runL2 (fun l => l.boundary t (some (JD.ctx j.pkt.payload))) m d
            (r.1, r.2.bump (Reg.acqWaits (t / 30)))
          else (m, d)
        | (.error (.status st), m, d) => (m, d.failQuantum t st)
        | (.error _, s) => s

/-- A tile's acquire-wait reaches its timeout: its quantum fails (R309). -/
def acquireTimeout (d : Dev) (t : Nat) : Dev :=
  if !d.tileHeld t && (Tab.look d.coh.waits t).any (fun w => decide (w.since + w.ticks ≤ d.tick)) then
    (d.bump (Reg.acqTimeouts (t / 30))).failQuantum t St.timeout
  else d

/-- An earlier write of an agent is not yet visible: a request of its waits in a slice, a sector is still to be written, or a write of tier P has
not returned OK (R308). -/
def unseen (d : Dev) (a : Nat) : Bool :=
  d.asking a != 0 || (d.agentUnits a).any (fun u => (Tab.look d.jobs.running u).any (fun x =>
    !x.sectors.isEmpty || x.trays.any (fun y => y.write && !y.answer.any (fun r => r.1 = 0))))

/-- A release store of an agent to a line that it holds in E or M (R308). -/
def releaseH (d : Dev) (a line : Nat) (data : Bytes) : Dev :=
  match d.copyOf a line with
  | some c =>
    if c.st = 1 then d
    else (d.modCoh (fun x => { x with copies := Tab.put x.copies (copyKey a line) { c with st := 3, data := padTo 128 data } })).setDir line 3 (1 <<< a)
  | none => d

/-- A release store of an agent to tier P, through a translation with the right to write that its unit holds: it is sent as any write of the
unit (R227, R308, log 180). -/
def releaseP (d : Dev) (a da : Nat) (data : Bytes) : Dev :=
  match (d.agentUnits a).findSome? (fun u => (Tab.look d.jobs.running u).bind (fun x => (d.envOf u x).map (fun e => (u, e.1)))) with
  | none => d
  | some (u, e) =>
    let known := Tab.getD d.trans.micro u [] ++ Tab.getD d.trans.quad (unitQuad u) []
    let reaches := fun (t : TlbEnt) =>
      t.ctx = e.ctx && bit t.rights 1 && decide (t.target * 2 ^ 29 ≤ da) && decide (da < (t.target + if t.big then 32 else 1) * 2 ^ 29)
    match if data.isEmpty then none else known.find? reaches with
    | none => d
    | some t => (d.modJobs (fun J => { J with running := Tab.edit J.running u (fun x => { x with committed := true }) })).trayAccess e da t.rkey
        data.length (some data)

/-- A release store of an agent completes: every earlier write of the agent is visible (R308). Lines from 2^33 on are those of tier P. -/
def release (d : Dev) (a line : Nat) (data : Bytes) : Dev :=
  if d.isDead a || d.unseen a then d
  else if line < 2 ^ 33 then d.releaseH a line data
  else d.releaseP a ((line - 2 ^ 33) * 128) data

end Dev

/-- Number of a unit in the state. -/
def RunUnit.num : RunUnit → Nat
  | .tile t => t
  | .engine q e => 128 + 8 * q + e

/-- A unit that exists. -/
def RunUnit.ok : RunUnit → Bool
  | .tile t => t < 120
  | .engine q e => q < 4 && e < 5

/-- ACQUIRE_WAIT_MET (R309). -/
def execAcquireWaitMet (agent off cond width value : Nat) (s : State) : Ans := onMem (Dev.acquireMet agent off cond width value) s
/-- ACQUIRE_WAIT_TIMEOUT (R309). -/
def execAcquireWaitTimeout (agent : Nat) (s : State) : Ans := onDev (fun d => d.acquireTimeout agent) s
/-- RELEASE_COMPLETE (R308). -/
def execReleaseComplete (agent line : Nat) (data : Bytes) (s : State) : Ans := onDev (fun d => d.release agent line data) s
/-- JOB_ADMIT (R323, R324). -/
def execJobAdmit (q : Nat) (s : State) : Ans := onDev (fun d => if q < 4 then (d.jobAdmit q).fillReads else d) s
/-- QUANTUM_START (R333). -/
def execQuantumStart (u : Sys2Proof.RunUnit) (s : State) : Ans := onMem (fun m d => if RunUnit.ok u then Dev.startOn (RunUnit.num u) m d else (m, d)) s
/-- QUANTUM_COMPLETE (R329). -/
def execQuantumComplete (u : Sys2Proof.RunUnit) (e : QuantumEnd) (s : State) : Ans :=
  onMem (fun m d =>
    if RunUnit.ok u then
      let r := Dev.complete (RunUnit.num u) e m (d.strike e.found)
      (r.1, r.2.fillReads)
    else (m, d)) s
/-- QUANTUM_OVERRUN (R334, R335). -/
def execQuantumOverrun (u : Sys2Proof.RunUnit) (s : State) : Ans := onDev (fun d => d.overrun (RunUnit.num u)) s
/-- HALVE_RESTORE (R335). -/
def execHalveRestore (q job : Nat) (s : State) : Ans := onDev (fun d => d.halveRestore (q * 256 + job)) s
/-- JOB_TIMEOUT (R338). -/
def execJobTimeout (q job : Nat) (s : State) : Ans := onDev (fun d => d.jobTimeout (q * 256 + job)) s
/-- JOB_CANCEL (R338, R423). -/
def execJobCancel (src : Ingress) (srcSw : Nat) (fromSw : Bool) (p : Packet) (s : State) : Ans :=
  onDev (fun d => d.cancelIn src (p.asCtrl 6 srcSw fromSw)) s
/-- GF_PARITY_WORK (R395, R396): the parity of a PARITY node's quantum on the GF lanes. -/
def execGfParityWork (q : Nat) (s : State) : Ans :=
  onMem (fun m d => if q < 4 then Dev.complete (132 + 8 * q) {} m d else (m, d)) s

end Sys2Proof.Machine
end

