-- ==== Sys2Proof/Machine/Security.lean ====
section
/-! DEFINITION. The security root: images and measured boot (R528 to R535), library banks (R344 to R347), attestation reports (R536), key
delivery (R541 to R545), generations (R537 to R540, R551 to R553) and debug unlock (R554, R555). -/

namespace Sys2Proof.Machine

/-! ### Numbers of what fuses and flash hold (log 11) -/

namespace Sec
/-- Unique device secret, and the secret of die `d` (4 the control die) (R528, R529). -/
def uds : Nat := Config.secret 0
def dieSecret (d : Nat) : Nat := Config.secret (8 + d)
/-- Digest of image signing key `i`, and its revocation (R531). -/
def keyDigest (i : Nat) : Nat := Config.secret (16 + i)
def keyRevoked (i : Nat) : Bool := Config.secret (24 + i) != 0
/-- Digest of the vendor's debug key (R554). -/
def debugDigest : Nat := Config.secret 32
/-- SVN, digest and, for a library, version and operators of the images installed at manufacture, by IMG_TYPE (R530). -/
def firstSvn (t : Nat) : Nat := Config.secret (40 + t) % 65536
def firstDigest (t : Nat) : Bytes := leBytes 64 (Config.secret (48 + t))
def firstVersion : Nat := Config.secret 56 % 65536
def firstFw (t : Nat) : Nat := Config.secret (60 + t) % 2 ^ 32
def firstOps : Nat := Config.secret 57 % 2 ^ 64
/-- Seed of the management key pair (R581). -/
def mgmtKey : Nat := Config.secret 59
/-- Measurement of the boot ROM (R533). -/
def romDigest : Bytes := leBytes 64 (Config.secret 58)
end Sec

/-- An ASCII string as bytes. -/
def ascii (s : String) : Bytes := s.toList.map (fun c => BitVec.ofNat 8 c.toNat)

/-! ### Anti-rollback counters (R532) -/

/-- A counter: what the fuses held at manufacture and the advances since, 0 to 64. -/
def Fuses.counter (f : Fuses) (c : Nat) : Nat :=
  if 3 ≤ c then 0 else min 64 (min 64 (bits (Config.factory Reg.arCounters) (8 * c) 8) + Tab.getD f.counters c 0)

/-- The 64 counters (R536). -/
def Fuses.counterBytes (f : Fuses) : Bytes := (List.range 64).map (fun c => BitVec.ofNat 8 (f.counter c))

/-! ### Images (R530, R531, R345) -/

end Sys2Proof.Machine

namespace Sys2Proof
open Machine

namespace Image
/-- Envelope bytes 0 to 2,031. -/
def head (i : Image) : Bytes :=
  leBytes 4 0x57464E45 ++ leBytes 1 i.imgType ++ leBytes 1 i.keyIndex ++ leBytes 2 i.svn ++ leBytes 4 i.body.length ++ leBytes 4 0
    ++ padTo 64 i.bodyDigest ++ padTo 1952 i.pubkey
/-- The envelope of 8,192 bytes and the body. -/
def whole (i : Image) : Bytes := padTo 8192 (i.head ++ padTo 3309 i.sig) ++ i.body
/-- Library header fields. -/
def libMagic (i : Image) : Nat := le i.body 0 4
def libVersion (i : Image) : Nat := le i.body 4 2
def libSvn (i : Image) : Nat := le i.body 6 2
def libOps (i : Image) : Nat := le i.body 8 8
def libCode (i : Image) : Nat := le i.body 16 4
/-- Its bytes 20 to 63 are zero. -/
def libRest (i : Image) : Bool := (slice i.body 20 44).all (· = 0)
/-- The image of the bytes of an envelope and body; none where they are no envelope (R530, R535). -/
def parse (b : Bytes) : Option Image :=
  let i : Image := { imgType := le b 4 1, keyIndex := le b 5 1, svn := le b 6 2, bodyDigest := slice b 16 64, pubkey := slice b 80 1952,
                     sig := slice b 2032 3309, body := b.drop 8192 }
  if i.whole = b then some i else none
/-- What an installed image is known by. -/
def bank (i : Image) : LibBank :=
  { state := 1, svn := i.svn, body := i.whole, digest := Config.shake256 i.whole 64, version := if i.imgType = 3 then i.libVersion else le i.body 0 4,
    opMask := if i.imgType = 3 then i.libOps else 0 }
end Image

end Sys2Proof

namespace Sys2Proof.Machine

/-- The image is accepted (R531); a library has the header of R345. -/
def imageOk (f : Fuses) (i : Image) : Bool :=
  1 ≤ i.imgType && i.imgType ≤ 3 && i.keyIndex ≤ 3
    && leNat (Config.shake256 i.pubkey 32) = Sec.keyDigest i.keyIndex && !Sec.keyRevoked i.keyIndex
    && Config.mldsaVerify i.pubkey i.head i.sig
    && Config.shake256 i.body 64 = i.bodyDigest
    && decide (f.counter (i.imgType - 1) ≤ i.svn)
    && (i.imgType != 3 || (i.libSvn = i.svn && i.libMagic = 0x4C504F57 && decide (i.libCode ≤ 33546176) && i.libRest
      && i.body.length = 64 + i.libCode))

/-- The installed image of a type (R531). -/
def Fuses.image (f : Fuses) (t : Nat) : LibBank :=
  (Tab.look f.installed t).getD
    { state := 1, svn := Sec.firstSvn t, digest := Sec.firstDigest t, version := if t = 3 then Sec.firstVersion else Sec.firstFw t,
      opMask := if t = 3 then Sec.firstOps else 0, body := Config.heldImage (Sec.firstDigest t) }

/-! ### Measurements (R533) -/

/-- The 72 bytes of a measurement entry. -/
def measEntry (layer : Nat) (m : Meas) : Bytes :=
  let t := match layer with | 1 => 1 | 2 => 2 | 3 => 3 | 4 => 3 | _ => 0
  leBytes 1 layer ++ leBytes 1 t ++ leBytes 2 m.svn ++ leBytes 4 0 ++ padTo 64 m.digest

/-- Digest of layer 5: key slots, revocations, counters and the debug state. -/
def layer5 (f : Fuses) (debug : Nat) : Bytes :=
  Config.shake256 ((List.range 4).flatMap (fun i => leBytes 32 (Sec.keyDigest i)) ++ (List.range 4).map (fun i => BitVec.ofNat 8 (Sec.keyRevoked i).toNat)
    ++ f.counterBytes ++ leBytes 4 debug) 64

namespace Dev

def modSec (d : Dev) (f : Security → Security) : Dev := { d with sec := f d.sec }

/-- Unlocked debug scopes (R555). -/
def debugScopes (d : Dev) : Nat := d.sec.unlocks.foldl (fun m x => m ||| x.1) 0

/-- The measurement list, and MEAS (R533). -/
def measList (d : Dev) : Bytes := d.sec.meas.flatMap (fun (kv : Nat × Meas) => measEntry kv.1 kv.2)
def measDigest (d : Dev) : Bytes := Config.shake256 d.measList 32

def setMeas (d : Dev) (layer svn : Nat) (digest : Bytes) : Dev :=
  d.modSec (fun S => { S with meas := Tab.put S.meas layer { svn := svn, digest := digest } })

/-- Entry 5 is kept current as counters advance and the debug state changes (R533). -/
def measureConfig (f : Fuses) (d : Dev) : Dev :=
  if Tab.has d.sec.meas 5 then d.setMeas 5 0 (layer5 f (d.reg Reg.debugState)) else d

/-- What the boot ROM and the security root do at a boot: the measurements, the attestation key and its certificate, the debug state, and the
installed library in bank A as ACTIVE (R344, R533, R534). -/
def bootSecurity (f : Fuses) (d : Dev) : Dev :=
  let scopes := d.debugScopes
  let l1 := f.image 1
  let l2 := f.image 2
  let lib := f.image 3
  let l5 := layer5 f scopes
  let cdi := fun (c rest : Bytes) => Config.shake256 (c ++ rest) 32
  let cdi3 := cdi (cdi (cdi (leBytes 32 Sec.uds) Sec.romDigest) l1.digest) (l2.digest ++ l5)
  let seed := leNat (Config.shake256 (cdi3 ++ ascii "ALIAS") 32)
  let d := d.modSec (fun S => { S with attSeed := seed, meas := [] })
  let d := ((((d.setMeas 0 0 Sec.romDigest).setMeas 1 l1.svn l1.digest).setMeas 2 l2.svn l2.digest).setMeas 3 lib.svn lib.digest).setMeas 5 0 l5
  let d := d.setReg Reg.aliasCert (leNat (padTo 8192 (Config.certificate Sec.uds (Config.mldsaPublic seed))))
  let d := d.setReg Reg.debugState scopes
  let d := (d.setBank 1 { lib with state := 2 }).setBank 2 {}
  (d.modJobs (fun J => { J with activate := none })).setReg Reg.libVersionCur lib.version

/-- An image is rejected (R531). -/
def rejectImage (d : Dev) (i : Image) : Dev :=
  (d.modSec (fun S => { S with imageRejects := S.imageRejects + 1 })).event 4 { code := Ev.imageReject, unit := i.imgType }

/-- Only EMPTY and VERIFIED banks are written (R346). -/
def bankFree (d : Dev) (b : Nat) : Bool := (b = 1 || b = 2) && decide ((d.bankOf b).state < 2)

/-- A new image stands in a library bank and has been checked (R346). -/
def libVerify (f : Fuses) (d : Dev) (b : Nat) (i : Image) : Dev :=
  if !d.bankFree b then d
  else if i.imgType = 3 && imageOk f i then (d.setBank b i.bank).setMeas (2 + b) i.svn i.bank.digest
  else
    let d := (d.setBank b {}).modSec (fun S => { S with meas := Tab.del S.meas (2 + b) })
    ((d.bump Reg.libRejects).event 4 { code := Ev.libReject, unit := b }).rejectImage i

/-- A write to 0x4000:08 (R347). -/
def libActivate (d : Dev) (b : Nat) : Option Dev :=
  if (b = 1 || b = 2) && (d.bankOf b).state = 1 && d.jobs.bankA.state != 3 && d.jobs.bankB.state != 3 then
    some (d.modJobs (fun J => { J with activate := some b, activateTick := d.tick }))
  else none

/-! ### Images from the manager (R58, R535) -/

/-- An accepted image is installed. -/
def install (f : Fuses) (i : Image) : Fuses := { f with installed := Tab.put f.installed i.imgType i.bank }

/-- The boot ROM or the security root checks an image (R531). At boot an accepted one is the image that runs. -/
def imageVerify (i : Image) (atBoot : Bool) (f : Fuses) (d : Dev) : Fuses × Dev :=
  if !d.power.on then (f, d)
  else if imageOk f i then
    let f := install f i
    (f, if atBoot then d.bootSecurity f else d)
  else (f, d.rejectImage i)

/-- A whole image from the manager: verified, installed, and started by a warm reset (R58 phase 2, R535, R346). -/
def imageDone (bank : Nat) (img : Option Image) (imgType : Nat) (f : Fuses) (d : Dev) : Fuses × Dev :=
  match img with
  | none =>
    (f, (d.modSec (fun S => { S with imageRejects := S.imageRejects + 1 })).event 4 { code := Ev.imageReject, unit := imgType })
  | some i =>
    let ok := imageOk f i && decide (i.imgType = imgType) && (imgType != 3 || d.bankFree bank)
    let d := if imgType = 3 then libVerify f d bank i else if imageOk f i && decide (i.imgType = imgType) then d else d.rejectImage i
    if ok then (install f i, d.requestReset 5) else (f, d)

/-- A part of an image arrives on a plane port of a worker (R535). The last one makes the image whole, which is then read from what was assembled. -/
def imagePart (port imgType bank off total : Nat) (data : Bytes) (f : Fuses) (d : Dev) : Fuses × Dev :=
  let key := imgType * 4 + bank
  let n := data.length
  let a := (Tab.look d.sec.assembly key).getD { total := total }
  if d.isActive port && d.role port = 1 && (n < 48 || 16368 < n || imgType = 0 || 3 < imgType) then (f, d.bump Reg.unroutable)
  else if !d.isActive port || d.role port != 1 || d.isManager then (f, d.ctrlDrop port)
  else
    let drop := d.modSec (fun S => { S with assembly := Tab.del S.assembly key })
    if a.total != total || total < off + n || Cells.inter a.got [(off, n)] != [] then (f, drop)
    else
      let got := Cells.union a.got [(off, n)]
      let parts := Tab.put a.parts off data
      if Cells.count got < total then (f, d.modSec (fun S => { S with assembly := Tab.put S.assembly key { a with got := got, parts := parts } }))
      else imageDone bank (Image.parse (parts.flatMap Prod.snd)) imgType f drop

/-- A write of a counter number to 0x6000:09 (R532). -/
def svnCommit (c : Nat) (f : Fuses) (d : Dev) : Fuses × Dev :=
  let running := match c with
    | 0 => ((Tab.look d.sec.meas 1).getD {}).svn
    | 1 => ((Tab.look d.sec.meas 2).getD {}).svn
    | 2 => if d.jobs.bankA.state = 2 then d.jobs.bankA.svn else if d.jobs.bankB.state = 2 then d.jobs.bankB.svn else 0
    | _ => 0
  let new := min 64 running
  if 3 ≤ c || new ≤ f.counter c then (f, d)
  else
    let f := { f with counters := Tab.put f.counters c (Tab.getD f.counters c 0 + (new - f.counter c)) }
    (f, (measureConfig f d).event 4 { code := Ev.svnCommit, unit := c, detail := leBytes 1 new })

/-! ### Attestation report (R536) -/

/-- DIE_DIGEST (R529). -/
def dieDigest : Bytes := Config.shake256 ((List.range 5).flatMap (fun i => Config.mldsaPublic (Sec.dieSecret i))) 64

/-- COMP_BLOCK. -/
def compBlock (d : Dev) (comp : Nat) : Bytes :=
  if 63 < comp then padTo 48 [0xFF]
  else
    let slots := maskOf ((List.range 256).filter (fun k => d.reg (Reg.slotComp k) = comp))
    padTo 48 (leBytes 8 comp ++ leBytes 32 slots ++ leBytes 1 (d.reg (Reg.requireEnc comp)) ++ leBytes 1 (d.reg (Reg.linkSlot comp)))

/-- A signed report for a nonce and a composition. -/
def attest (f : Fuses) (d : Dev) (nonce : Bytes) (comp : Nat) : Bytes :=
  let meas := d.measList
  let len := 128 + meas.length + 64 + 48 + 3309
  let body := leBytes 4 0x54415354 ++ leBytes 2 1 ++ leBytes 2 len ++ leBytes 8 (d.reg Reg.serialNumber) ++ padTo 32 nonce ++ leBytes 8 d.tick
    ++ leBytes 2 (d.reg Reg.domId) ++ leBytes 1 (d.reg Reg.switchId) ++ leBytes 1 (d.reg Reg.svcLevel) ++ leBytes 1 (d.reg Reg.debugState)
    ++ leBytes 1 d.sec.meas.length ++ leBytes 2 0 ++ padTo 64 dieDigest ++ meas ++ f.counterBytes ++ d.compBlock comp
  body ++ padTo 3309 (Config.mldsaSign d.sec.attSeed body)

/-- What a read of 0x6000:06 generates for an accessor (R536, R606). -/
def reportFor (f : Fuses) (d : Dev) (acc : Nat) : Bytes :=
  padTo 4800 (attest f d (leBytes 32 (d.regAs acc Reg.reportNonce)) (d.regAs acc Reg.reportComp))

/-! ### Key slots (R537 to R540, R551 to R553) -/

def keySlot (d : Dev) (s : Nat) : KeySlot := Tab.getD d.keys s {}
def setKeySlot (d : Dev) (s : Nat) (k : KeySlot) : Dev := { d with keys := Tab.set d.keys s k {} }
def modGens (d : Dev) (s : Nat) (f : KeyGen → KeyGen) : Dev := d.setKeySlot s { d.keySlot s with gens := (d.keySlot s).gens.map f }

/-- A security event about a generation. -/
def keyEvent (d : Dev) (code s gen : Nat) : Dev :=
  d.event 4 { code := code, unit := s, comp := d.reg (Reg.slotComp s), detail := leBytes 1 gen }

/-- The first edge after a LOAD: a PENDING generation becomes LIVE; one that was retired becomes RETIRING (R538, R551). -/
def keyLive (d : Dev) (s : Nat) : Dev :=
  let t := d.tick
  let due := fun (g : KeyGen) => g.state = 3 && decide (g.loaded < t) && g.asked.isNone
  d.modGens s (fun g => if due g then { g with state := 1 } else g)

/-- The first edge after a RETIRE, E0 (R551). -/
def keyRetired (d : Dev) (s : Nat) : Dev :=
  let t := d.tick
  let due := fun (g : KeyGen) => (g.state = 1 || (g.state = 3 && decide (g.loaded < t))) && g.asked.any (fun a => decide (a < t))
  let gs := (d.keySlot s).gens.filter due
  let d := d.modGens s (fun g => if due g then { g with state := 2, e0 := t } else g)
  d.each gs (fun d g => d.keyEvent Ev.keyRetired s g.num)

/-- A packet uses a generation. -/
def underKey (s gen : Nat) (p : Packet) : Bool := p.enc && p.kslot = s && p.kgen = gen

/-- Region of a filling or filled staging unit names the slot (R552). -/
def slotUnderRest (d : Dev) (s : Nat) (x : StageSlot) : Bool :=
  (d.regionFor x.comp (x.unit * 2 ^ 21)).any (fun r => (Region.restEnc r || Region.restMac r) && Region.restSlot r = s)

/-- A home request bound to a REST generation. -/
def opUnder (s gen : Nat) (op : HomeOp) : Bool := restSlotOf op = some s && op.restGen = gen

/-- An open merge record bound to a REST generation. -/
def mergeUnder (s gen : Nat) (m : MergeRec) : Bool :=
  !m.tierH && (Region.restEnc m.region || Region.restMac m.region) && Region.restSlot m.region = s && m.restGen = gen

/-- A home request bound to a generation is outstanding: to a REST one, or to the LINK one it came under and its answer needs (R548, R551). -/
def homeUses (s gen : Nat) (H : Home) : Bool :=
  H.ops.any (fun o => opUnder s gen o || underKey s gen o.pkt || o.atoms.any (underKey s gen))
    || H.merges.any (fun (kv : Nat × MergeRec) => mergeUnder s gen kv.2 || kv.2.atoms.any (underKey s gen))

/-- A RETIRING generation is in use (R551): the egress staging of a port counts as leaving it. -/
def inUse (d : Dev) (s gen : Nat) : Bool :=
  d.ports.any (fun (kv : Nat × Port) =>
      kv.2.staged.any (fun (x : Nat × List StagedCell) => x.2.any (fun c => c.key = 1 + s * 256 + gen)))
    || d.waiting.any (fun (kv : Nat × List Waiting) => kv.2.any (fun w => underKey s gen w.pkt))
    || [0, 1, 2, 3].any (fun q =>
        (d.core q).queues.any (fun (kv : Nat × List QEnt) => kv.2.any (fun e => underKey s gen e.pkt))
          || homeUses s gen (d.home q))
    || (d.reg (Reg.slotPurpose s) = 1 && d.tiers.slots.any (fun (kv : Nat × StageSlot) => kv.2.state = 1 && d.slotUnderRest s kv.2))

/-- The bytes still to be staged of packets in progress under a generation end with a tag that fails (R552). -/
def spoilEgress (d : Dev) (s gen : Nat) : Dev :=
  d.each (d.ports.filter (fun (kv : Nat × Port) => !kv.2.inProgress.isEmpty)) (fun d kv =>
    d.each kv.2.inProgress (fun d x =>
      match ((d.core x.2.1).queue (voqKey kv.1 x.1)).find? (fun (e : QEnt) => decide (e.id = x.2.2)) with
      | some e => if underKey s gen e.pkt then d.spoil x.2.1 kv.1 x.1 e else d
      | none => d))

/-- Overwrite the key material of a generation everywhere, derived hop keys and their packet counts with it, and end what depends on it (R538,
R547, R552). -/
def zeroize (s gen : Nat) (m : Memory) (d : Dev) : Memory × Dev :=
  let d := d.spoilEgress s gen
  let rest := decide (d.reg (Reg.slotPurpose s) = 1)
  let freed := if rest then d.tiers.slots.filter (fun (kv : Nat × StageSlot) => d.slotUnderRest s kv.2) else []
  let K := d.keySlot s
  let d := (d.setKeySlot s { K with gens := K.gens.filter (fun g => g.num != gen) }).bump Reg.zeroizes
  let d := d.keyEvent Ev.keyZeroized s gen
  let d := d.each [0, 1, 2, 3] (fun d q =>
    let ops := (d.home q).ops.filter (opUnder s gen)
    if ops.isEmpty && !(d.home q).merges.any (fun (kv : Nat × MergeRec) => mergeUnder s gen kv.2) then d
    else
      let d := d.each ops (fun d op => if op.phase = 4 then d.dropOp q op.id else d.failOp q op St.keyRetired)
      (d.failMerges q St.keyRetired (mergeUnder s gen)).pump q)
  let d := { d with ports := Tab.mapV d.ports (fun _ (P : Port) =>
    let other := fun (k : Nat) (_ : Nat) => k / 8 != s * 256 + gen
    { P with txCtr := Tab.keep P.txCtr other, rxCtr := Tab.keep P.rxCtr other }) }
  let m := freed.foldl (fun m kv => Memory.zero m (d.slotAddr kv.1) (2 ^ 21)) m
  let d := d.each freed (fun d kv => d.dropSlot kv.1)
  (m, if freed.isEmpty then d else d.retestWaits)

/-- An edge at which a RETIRING generation is tested: drained at t + 1 to t + 3, unconditional at t + 4 (R551). -/
def keyZeroized (s gen : Nat) (m : Memory) (d : Dev) : Memory × Dev :=
  match d.keyGen s gen with
  | none => (m, d)
  | some g =>
    if g.state = 2 && (decide (g.e0 + 4 ≤ d.tick) || (decide (g.e0 + 1 ≤ d.tick) && !d.inUse s gen)) then zeroize s gen m d else (m, d)

/-- Zeroize every generation of every slot (R553, R555). -/
def zeroizeAll (m : Memory) (d : Dev) : Memory × Dev :=
  (d.keys.flatMap (fun (kv : Nat × KeySlot) => kv.2.gens.map (fun g => (kv.1, g.num)))).foldl (fun r x => zeroize x.1 x.2 r.1 r.2) (m, d)

/-- A RETIRE is taken: of one generation, or of every one for 0 (R551). -/
def retire (d : Dev) (s gen : Nat) : Dev :=
  let t := d.tick
  d.modGens s (fun g => if (gen = 0 || g.num = gen) && g.state != 2 && g.asked.isNone then { g with asked := some t } else g)

/-- A write to 0x6000:10 (R551, R610). -/
def slotCmd (d : Dev) (acc v : Nat) : Option Dev := if v = 1 then some (d.retire (d.regAs acc Reg.slotSelect) 0) else none

/-! ### Key delivery (R541 to R545) -/

/-- The 16-byte header of a KDS message. -/
def kdsHeader (op status session len : Nat) : Bytes :=
  leBytes 1 op ++ leBytes 1 status ++ leBytes 2 session ++ leBytes 2 len ++ leBytes 10 0

/-- Send a KDS message: a MSG in CLS5 with ENC 0 from the key service (R542). -/
def kdsSend (d : Dev) (feid comp op status session : Nat) (body : Bytes) : Dev :=
  d.sendFeid { ptype := .msg, cls := 5, dst := feid, src := d.reg Reg.kdsFeid, comp := comp,
               payload := kdsHeader op status session body.length ++ body }

def kdsSession (d : Dev) (n : Nat) : Option KdsSession := Tab.look d.sec.sessions n

/-- Put or end a session, and report how many are open. -/
def setSession (d : Dev) (n : Nat) (x : Option KdsSession) : Dev :=
  let d := d.modSec (fun S => { S with sessions := match x with | some x => Tab.put S.sessions n x | none => Tab.del S.sessions n })
  d.setReg Reg.kdsSessions d.sec.sessions.length

/-- The MSG that carries a KDS message (R541). -/
def kdsPacket (d : Dev) (feid comp op : Nat) (m : SessMsg) : Packet :=
  { ptype := .msg, cls := 5, dst := d.reg Reg.kdsFeid, src := feid, comp := comp,
    payload := kdsHeader op m.status m.session m.body.length ++ m.body }

/-- A KDS message enters as any MSG does, with the checks of R542; with the service disabled none exists (R541). The security root answers
the packet's source. -/
def kdsIn (d : Dev) (src : Ingress) (feid comp op : Nat) (m : SessMsg) (act : Nat → Dev → Dev) : Dev :=
  if !d.power.on || d.reg Reg.kdsFeid = 0xFFFF then d
  else d.ctrlIn src (d.kdsPacket feid comp op m) (fun p d => act p.src d)

/-- The nonce of a message counter: four zero bytes, then the counter (R543). -/
def ctrNonce (c : Nat) : Nat := c * 2 ^ 32

/-- HELLO (R541, R542, R545). -/
def kdsHello (f : Fuses) (d : Dev) (feid comp : Nat) (m : SessMsg) : Dev :=
  if m.body.length != 40 || le m.body 0 1 != comp then d.kdsSend feid comp 2 St.badDesc 0 []
  else if d.sec.refuseKds then d.kdsSend feid comp 2 St.rights 0 []
  else if 8 ≤ d.sec.sessions.length then d.kdsSend feid comp 2 St.quota 0 []
  else
    let n := d.sec.nextSession
    let r := d.freshBytes 32
    let k := r.2.fresh
    let d := k.2
    let ek := Config.mlkemEk k.1
    let rep := attest f d (Config.shake256 (m.body.drop 8 ++ r.1 ++ ek) 32) comp
    let offer := r.1 ++ ek ++ rep
    let x : KdsSession := { comp := comp, tenant := feid, helloBody := m.body, offerBody := offer, kem := k.1, last := d.tick }
    let d := (d.modSec (fun S => { S with nextSession := S.nextSession % 65535 + 1 })).setSession n (some x)
    d.kdsSend feid comp 2 0 n offer

/-- The session of a later message: its answer is ERR_TIMEOUT where it has ended, ERR_BADDESC for another composition (R542, R545). -/
def kdsWith (d : Dev) (feid comp op : Nat) (m : SessMsg) (f : KdsSession → Dev → Dev) : Dev :=
  match d.kdsSession m.session with
  | none => d.kdsSend feid comp op St.timeout m.session []
  | some x =>
    if x.comp != comp then d.kdsSend feid comp op St.badDesc m.session []
    else
      let x := { x with last := d.tick }
      f x (d.setSession m.session (some x))

/-- ACCEPT (R543, R544). -/
def kdsAccept (d : Dev) (feid comp : Nat) (m : SessMsg) : Dev :=
  d.kdsWith feid comp 4 m (fun x d =>
    if x.state != 1 || m.body.length != 1088 + 1952 + 3309 then d.kdsSend feid comp 4 St.badDesc m.session []
    else
      let ct := m.body.take 1088
      let pk := (m.body.drop 1088).take 1952
      let h := Config.shake256 (x.helloBody ++ x.offerBody ++ ct) 64
      if leNat (Config.shake256 pk 32) = d.reg (Reg.tenantPkHash comp) && Config.mldsaVerify pk h (m.body.drop 3040) then
        let k := Config.shake256 (Config.mlkemDecap x.kem ct ++ h ++ ascii "VRELA-KDS") 64
        let x := { x with state := 2, keyTs := k.take 32, keySt := k.drop 32 }
        let d := d.setSession m.session (some x)
        d.kdsSend feid comp 4 0 m.session (Config.gcmSeal x.keySt (ctrNonce 0) (kdsHeader 4 0 m.session 16) [])
      else
        let d := (d.setSession m.session none).bump Reg.kdsAuthFails
        (d.event 4 { code := Ev.kdsAuthFail, comp := comp, feid := feid }).kdsSend feid comp 4 St.rights m.session [])

/-- A message under K_TS: its plaintext, where the tag and the counter are good (R543, R544). -/
def kdsOpenBody (x : KdsSession) (m : SessMsg) : Option Bytes :=
  if x.state != 2 || m.counter = 0 || x.accepted.contains m.counter then none
  else Config.gcmOpen x.keyTs (ctrNonce m.counter) (kdsHeader m.op m.status m.session m.body.length) m.body

/-- Slot `s` serves the composition of a session (R544). -/
def kdsSlot (d : Dev) (comp s : Nat) : Bool := d.reg (Reg.slotComp s) = comp

/-- Why a LOAD into a slot is refused (R540). -/
def loadRefused (d : Dev) (s : Nat) : Bool :=
  let K := d.keySlot s
  decide (2 ≤ K.gens.length) || (d.reg (Reg.slotPurpose s) = 1 && !K.gens.isEmpty) || K.lastLoad.any (fun t => decide (d.tick < t + 1024))

/-- LOAD (R538, R540, R544). -/
def kdsLoad (d : Dev) (feid comp : Nat) (m : SessMsg) : Dev :=
  d.kdsWith feid comp 6 m (fun x d =>
    let bad := d.kdsSend feid comp 6 St.badDesc m.session []
    match kdsOpenBody x { m with op := 5 } with
    | none => bad
    | some b =>
      let s := le b 0 1
      let key := b.drop 8
      let d := d.setSession m.session (some { x with accepted := m.counter :: x.accepted })
      if !d.kdsSlot comp s || key.length != (if d.reg (Reg.slotPurpose s) = 1 then 96 else 32) then
        d.kdsSend feid comp 6 St.badDesc m.session []
      else if d.loadRefused s then d.kdsSend feid comp 6 St.quota m.session []
      else
        let K := d.keySlot s
        let n := K.last % 255 + 1
        let d := d.setKeySlot s { K with gens := K.gens ++ [{ num := n, state := 3, key := key, loaded := d.tick }], last := n,
                                         lastLoad := some d.tick }
        let d := (d.bump Reg.keysLoaded).keyEvent Ev.keyLoaded s n
        let body := Config.gcmSeal x.keySt (ctrNonce x.sendCtr) (kdsHeader 6 0 m.session 24) (leBytes 1 s ++ leBytes 1 n ++ leBytes 6 0)
        let d := d.modSec (fun S => { S with sessions := Tab.edit S.sessions m.session (fun y => { y with sendCtr := y.sendCtr + 1 }) })
        d.kdsSend feid comp 6 0 m.session body)

/-- RETIRE (R544, R551). -/
def kdsRetire (d : Dev) (feid comp : Nat) (m : SessMsg) : Dev :=
  d.kdsWith feid comp 7 m (fun x d =>
    match kdsOpenBody x { m with op := 7 } with
    | none => d.kdsSend feid comp 7 St.badDesc m.session []
    | some b =>
      let d := d.setSession m.session (some { x with accepted := m.counter :: x.accepted })
      if !d.kdsSlot comp (le b 0 1) then d.kdsSend feid comp 7 St.badDesc m.session []
      else d.retire (le b 0 1) (le b 1 1))

/-- CERTS (R541): a session's timer starts again; none is needed. -/
def kdsCerts (d : Dev) (feid comp : Nat) (m : SessMsg) : Dev :=
  let answer := fun (d : Dev) =>
    match le m.body 0 1 with
    | 0 => d.kdsSend feid comp 8 0 m.session (leBytes 8192 (d.reg Reg.deviceCert))
    | 1 => d.kdsSend feid comp 8 0 m.session (leBytes 8192 (d.reg Reg.aliasCert))
    | _ => d.kdsSend feid comp 8 St.badDesc m.session []
  if m.session = 0 then answer d else d.kdsWith feid comp 8 m (fun _ d => answer d)

/-- CLOSE (R545). -/
def kdsClose (d : Dev) (feid comp : Nat) (m : SessMsg) : Dev := d.kdsWith feid comp 9 m (fun _ d => d.setSession m.session none)

/-- A session sees no message for 2^10 ticks (R545). -/
def kdsTimeout (d : Dev) (n : Nat) : Dev :=
  match d.kdsSession n with
  | some x => if x.last + 1024 ≤ d.tick then d.setSession n none else d
  | none => d

/-! ### Debug unlock (R554, R555) -/

/-- Token bytes 0 to 2,015. -/
def tokenHead (t : DebugToken) : Bytes :=
  leBytes 4 0x4B544244 ++ leBytes 8 t.serial ++ padTo 32 t.challenge ++ leBytes 2 t.scope ++ leBytes 1 t.authority ++ leBytes 1 0
    ++ leBytes 8 t.expiryTicks ++ leBytes 8 0 ++ padTo 1952 t.pubkey

/-- The token is accepted (R554). -/
def tokenOk (f : Fuses) (d : Dev) (t : DebugToken) : Bool :=
  let h := leNat (Config.shake256 t.pubkey 32)
  t.serial = d.reg Reg.serialNumber && leNat t.challenge = d.reg Reg.debugChallenge && decide (t.scope < 16)
    && (match t.authority with | 0 => h = Sec.debugDigest | 1 => f.ownerHash = some h | _ => false)
    && Config.mldsaVerify t.pubkey (tokenHead t) t.sig

/-- A debug token is checked: the challenge is replaced either way (R554, R555). -/
def takeToken (t : DebugToken) (f : Fuses) (m : Memory) (d : Dev) : Memory × Dev :=
  let ok := tokenOk f d t
  let r := d.freshBytes 32
  let d := r.2.setReg Reg.debugChallenge (leNat r.1)
  if !ok then (m, (d.modSec (fun S => { S with tokenRejects := S.tokenRejects + 1 })).event 4 { code := Ev.debugTokenReject })
  else
    let stop := d.tick + t.expiryTicks
    let d := d.event 4 { code := Ev.debugUnlock, detail := leBytes 2 t.scope }
    let d := if bit t.scope 0 then
        measureConfig f ((d.modSec (fun S => { S with unlocks := S.unlocks ++ [(1, stop)] })).setReg Reg.debugState (d.reg Reg.debugState ||| 1))
      else d
    if t.scope < 2 then (m, d)
    else
      let r := zeroizeAll m d
      let d := r.2.modSec (fun S => { S with sessions := [], refuseKds := true, debugPending := S.debugPending ++ [(t.scope / 2 * 2, stop)] })
      (r.1, (d.setReg Reg.kdsSessions 0).requestReset 6)

/-- EXPIRY_TICKS of an unlock elapse (R555). -/
def debugExpiry (f : Fuses) (d : Dev) : Dev :=
  let t := d.tick
  let d := d.modSec (fun S => { S with unlocks := S.unlocks.filter (fun x => t < x.2) })
  let d := measureConfig f (d.setReg Reg.debugState d.debugScopes)
  if bit d.debugScopes 0 then d else d.endAccessor 0x30

end Dev

/-- LIB_VERIFY (R346). -/
def execLibVerify (bank : Nat) (img : Image) (s : State) : Ans := onDevWith (fun f _ d => Dev.libVerify f d bank img) s
/-- LIB_ACTIVATE_A (R347). -/
def execLibActivateA (acc : Nat) (s : State) : Ans := onDev (fun d => d.writeKey acc Reg.libActivate (fun d => d.orReject (d.libActivate 1))) s
/-- LIB_ACTIVATE_B (R347). -/
def execLibActivateB (acc : Nat) (s : State) : Ans := onDev (fun d => d.writeKey acc Reg.libActivate (fun d => d.orReject (d.libActivate 2))) s
/-- LIB_SWITCH (R347). -/
def execLibSwitch (s : State) : Ans := onDev (fun d => d.libSwitch) s
/-- IMAGE_VERIFY (R531). -/
def execImageVerify (img : Image) (atBoot : Bool) (s : State) : Ans := onFuses (Dev.imageVerify img atBoot) s
/-- IMAGE (R535). What the sender names as the whole image is not read: the parts received are. -/
def execImage (port imgType bank offset totalLen : Nat) (data : Bytes) (_assembled : Option Image) (s : State) : Ans :=
  onFuses (fun f d => Dev.imagePart port imgType bank offset totalLen data f (d.ctrlTaken port 6 (16 + data.length))) s
/-- SVN_COMMIT (R532). -/
def execSvnCommit (acc counter : Nat) (s : State) : Ans :=
  onFuses (fun f d =>
    if d.mayWriteKey acc Reg.svnCommit && counter < 64 then Dev.svnCommit counter f d
    else (f, d.writeKey acc Reg.svnCommit (fun d => (Acc.rejected, d)))) s
/-- KDS_HELLO (R541). -/
def execKdsHello (src : Ingress) (feid comp : Nat) (m : SessMsg) (s : State) : Ans :=
  onDevWith (fun f _ d => d.kdsIn src feid comp 1 m (fun feid d => Dev.kdsHello f d feid comp m)) s
/-- KDS_ACCEPT (R544). -/
def execKdsAccept (src : Ingress) (feid comp : Nat) (m : SessMsg) (s : State) : Ans :=
  onDev (fun d => d.kdsIn src feid comp 3 m (fun feid d => d.kdsAccept feid comp m)) s
/-- KDS_LOAD (R540). -/
def execKdsLoad (src : Ingress) (feid comp : Nat) (m : SessMsg) (s : State) : Ans :=
  onDev (fun d => d.kdsIn src feid comp 5 m (fun feid d => d.kdsLoad feid comp m)) s
/-- KDS_RETIRE (R551). -/
def execKdsRetire (src : Ingress) (feid comp : Nat) (m : SessMsg) (s : State) : Ans :=
  onDev (fun d => d.kdsIn src feid comp 7 m (fun feid d => d.kdsRetire feid comp m)) s
/-- KDS_CERTS (R541). -/
def execKdsCerts (src : Ingress) (feid comp : Nat) (m : SessMsg) (s : State) : Ans :=
  onDev (fun d => d.kdsIn src feid comp 8 m (fun feid d => d.kdsCerts feid comp m)) s
/-- KDS_CLOSE (R545). -/
def execKdsClose (src : Ingress) (feid comp : Nat) (m : SessMsg) (s : State) : Ans :=
  onDev (fun d => d.kdsIn src feid comp 9 m (fun feid d => d.kdsClose feid comp m)) s
/-- KDS_SESSION_TIMEOUT (R545). -/
def execKdsSessionTimeout (session : Nat) (s : State) : Ans := onDev (fun d => d.kdsTimeout session) s
/-- KEY_LIVE (R538). -/
def execKeyLive (slot : Nat) (s : State) : Ans := onDev (fun d => d.keyLive slot) s
/-- KEY_RETIRED (R551). -/
def execKeyRetired (slot : Nat) (s : State) : Ans := onDev (fun d => d.keyRetired slot) s
/-- KEY_ZEROIZED (R551). -/
def execKeyZeroized (slot gen : Nat) (s : State) : Ans := onMem (Dev.keyZeroized slot gen) s
/-- SLOT_RETIRE (R551). -/
def execSlotRetire (acc : Nat) (s : State) : Ans := onDev (fun d => d.writeKey acc Reg.slotCmd (fun d => d.orReject (d.slotCmd acc 1))) s
/-- DEBUG_TOKEN (R554). -/
def execDebugToken (acc : Nat) (t : DebugToken) (s : State) : Ans :=
  onAll (fun f m d =>
    if d.mayWriteKey acc Reg.debugToken then
      let r := Dev.takeToken t f m d
      (f, r.1, r.2)
    else (f, m, d.writeKey acc Reg.debugToken (fun d => (Acc.done, d)))) s
/-- DEBUG_UNLOCK_EXPIRY (R555). -/
def execDebugUnlockExpiry (s : State) : Ans := onDevWith (fun f _ d => Dev.debugExpiry f d) s

end Sys2Proof.Machine
end

