-- ==== Sys2Proof/Machine/Domain.lean ====
section
/-! DEFINITION. The domain and the tick (R37 to R69): beacons, election, tick markers and steering, TICK_IN, start-up and recovery, and lost
switches (R503). -/

namespace Sys2Proof.Machine

/-- Largest shift of an edge in ps: one core cycle (R64). -/
def coreCyclePs : Int := 667

/-- An offset cut to one core cycle. -/
def oneCycle (z : Int) : Int := max (-coreCyclePs) (min coreCyclePs z)

namespace Dev

/-! ### Beacons and the candidates (R49 to R51, R58) -/

/-- A beacon received within the last 4 ticks. -/
def recent (d : Dev) (b : BeaconRec) : Bool := d.tick ≤ b.arrived + 4

/-- No beacon of a switch in the four ticks that end now: the fourth edge after the one whose beacon came last is past (R52). -/
def silent (d : Dev) (sw : Nat) : Bool := (Tab.look d.dom.beacons sw).any (fun b => decide (b.arrived + 4 ≤ d.tick))

/-- A switch that has failed self-test stays out of the quorum count until it passes: this one by its own 0xF000:02, another by the last
result it sent (R58 phase 3; log 137). -/
def outOfQuorum (d : Dev) (sw : Nat) : Bool :=
  if sw = d.dom.swId then decide (d.reg Reg.bistState = 3) else bit d.dom.testFailed sw

/-- More than half of the plane set is heard, this switch included (R50). -/
def majority (d : Dev) : Bool :=
  let base := (members 32 d.dom.planeSet).filter (fun s => !d.outOfQuorum s)
  let heard := base.filter (fun s => s = d.dom.swId || (Tab.look d.dom.beacons s).any d.recent)
  decide (base.length < 2 * heard.length)

/-- A manager is known and has not yet commanded phase 4: election, acquiring and locking are still to come for a switch in FREE (R58; that
such a switch is no candidate either is DEDUCED, log 24). -/
def beforeElection (d : Dev) : Bool := d.reg Reg.tickState = 0 && decide (d.dom.phase < 4) && d.reg Reg.managerCur != 0xFF

/-- This switch is a master candidate (R50). The edge that ends the fourth silent tick of the master precedes the declaration of its loss, and
its beacon already tells that this switch will know no master (R52; DEDUCED, log 174). -/
def candidate (d : Dev) : Bool :=
  let t := d.reg Reg.tickState
  d.ownId.isSome && 1 ≤ d.reg Reg.svcLevel && d.campionUp && !d.beforeElection
    && (t = 2 || d.isMaster || ((t = 0 || t = 3) && (d.reg Reg.masterCur = 0xFF || d.silent (d.reg Reg.masterCur)))) && d.majority

/-- The candidates this switch counts, rising (R51). -/
def masterCands (d : Dev) : List Nat :=
  (members 32 d.dom.planeSet).filter (fun s =>
    if s = d.dom.swId then d.candidate else (Tab.look d.dom.beacons s).any (fun b => d.recent b && bit b.beacon.flags 2))

/-- Markers held from the tick that ended or this one, in HOLDOVER from this one only (R66), by port. -/
def heldMarkers (d : Dev) : List (Nat × MarkerRec) :=
  let age := if d.reg Reg.tickState = 3 then 0 else 1
  d.dom.markers.filter (fun (kv : Nat × MarkerRec) => d.tick ≤ kv.2.arrived + age && d.isActive kv.1 && d.role kv.1 = 1)

/-- The parent port: lowest depth, then lowest peer switch ID (R63). -/
def parentPort (d : Dev) : Option Nat :=
  (minBy (fun kv : Nat × MarkerRec => kv.2.marker.depth * 256 + d.reg (Reg.portPeer kv.1) % 256) d.heldMarkers).map Prod.fst

/-- The master that stands: 0x8000:05, or while that names none the master of the markers this switch follows; a configured master that
has restarted finds it there (R54). 0xFF for none. -/
def standing (d : Dev) : Nat :=
  let m := d.reg Reg.masterCur
  if m != 0xFF then m else ((d.parentPort.bind (fun p => Tab.look d.dom.markers p)).map (fun r => r.marker.master)).getD 0xFF

/-- The master by R51 and R54, 0xFF for none (R53). -/
def computed (d : Dev) : Nat :=
  let cs := d.masterCands
  let cfg := d.reg Reg.masterCfg
  let cur := d.standing
  let free := cur = cfg || !cs.contains cur || d.dom.handoverAt.any (fun h => decide (h ≤ d.tick))
  if cs.contains cfg && free then cfg else (cs.filter (· != cfg)).headD 0xFF

/-- 0x8000:05 changes (R51, R76). -/
def setMaster (d : Dev) (m : Nat) : Dev :=
  if d.reg Reg.masterCur = m then d
  else
    let was := d.isMaster
    let old := d.reg Reg.masterCur
    let d := d.modDom (fun D => { D with prevMaster := if old = 0xFF then D.prevMaster else old })
    let d := d.setReg Reg.masterCur m
    let d := if m = 0xFF then d else (d.bump Reg.masterChanges).event 4 { code := Ev.masterChange, unit := m }
    let d := d.modDom (fun D => { D with handoverAt := D.handoverAt.filter (fun h => decide (d.tick < h)) })
    if d.ownId = some m then
      (((d.setReg Reg.tickState 2).setReg Reg.tickParent 0xFFFF).setReg Reg.tickDepth 0).setReg Reg.tickOffset 0
    else if was && m = 0xFF then d.setReg Reg.tickState 3
    else d

/-- Each switch computes the master at its edges; one without a place takes no part (R38, R51). A master that has fallen silent stays until
its loss is declared, and the edge after that computes its successor (R52). The ticks of R54 count for the switch that 0x8000:04 names. -/
def elect (d : Dev) : Dev :=
  if d.ownId.isNone || d.beforeElection then d
  else
    let cfg := d.reg Reg.masterCfg
    let streak := if d.masterCands.contains cfg then (if d.dom.candOf = cfg then d.dom.candStreak else 0) + 1 else 0
    let cur := d.reg Reg.masterCur
    let d := (d.modDom (fun D => { D with candStreak := streak, candOf := cfg })).setMaster
      (if cur != 0xFF && !d.isMaster && d.silent cur then cur else d.computed)
    d.modDom (fun D => { D with noMaster := if d.reg Reg.masterCur = 0xFF then D.noMaster + 1 else 0 })

/-- The manager known: the lowest of the strapped managers heard, this switch included (R57). How long a manager is heard the rule does not
say: DESIGN CHOICE, within the last 4 ticks, as every other beacon (log 134). -/
def manage (d : Dev) : Dev :=
  let own := if d.reg Reg.mgmtRole = 1 then d.ownId.toList else []
  let others := (d.dom.beacons.filter (fun (kv : Nat × BeaconRec) => d.recent kv.2 && bit kv.2.beacon.flags 0)).map Prod.fst
  d.setReg Reg.managerCur ((own ++ others).foldl min 0xFF)

/-- The beacon of this edge (R49, R134). -/
def ownBeacon (d : Dev) : Beacon :=
  { tick := d.tick, switchId := d.dom.swId, svcLevel := d.reg Reg.svcLevel, campion := (!d.campionUp).toNat, tickState := d.reg Reg.tickState,
    depth := d.reg Reg.tickDepth,
    flags := d.reg Reg.mgmtRole % 2 + (decide (d.reg Reg.bistState = 2)).toNat * 2 + d.candidate.toNat * 4,
    domId := d.dom.domId, serial := d.reg Reg.serialNumber, meas := d.measDigest }

/-- Note a beacon as forwarded; what is kept covers more ticks than a beacon is on the way. -/
def noteBeacon (d : Dev) (b : Beacon) : Dev :=
  d.modDom (fun D => { D with seenBeacons := ((b.switchId, b.serial, b.tick) :: D.seenBeacons).take 256 })

/-- This switch has lost its ID to the module of a serial number (R38, R43). -/
def idLost (d : Dev) (serial : Nat) : Dev :=
  d.placeLost.event 4 { code := Ev.switchIdConflict, unit := d.dom.swId, detail := leBytes 8 serial }

/-- A switch with a place sends its beacon on every plane port (R49). Its first one may show that the ID stays with another module heard
before (R43). -/
def sendBeacon (d : Dev) : Dev :=
  if d.ownId.isNone then d
  else
    let b := d.ownBeacon
    let d := d.modDom (fun D => { D with firstBeacon := D.firstBeacon.orElse (fun _ => some b.tick) })
    let d := (d.noteBeacon b).flood none (d.ctrl 0x02 0 b.bytes)
    if d.ownId.isNone then d.idLost ((minBy (fun r : Nat × Rival => r.2.first * 2 ^ 64 + r.1) d.dom.rivals).map Prod.fst |>.getD 0) else d

/-- A beacon of another module with this switch's own ID (R43). -/
def rivalBeacon (d : Dev) (b : Beacon) : Dev :=
  let t := d.tick
  let had := d.ownId.isSome
  let r : Rival := { first := ((Tab.look d.dom.rivals b.serial).map (·.first)).getD b.tick, last := t }
  let d := d.modDom (fun D => { D with rivals := Tab.put D.rivals b.serial r })
  if had && d.ownId.isNone then d.idLost b.serial else d

/-! ### Images the manager sends (R58 phase 2, R535) -/

/-- The parts of an envelope and body, of equal length but for the last, each within 16,368 bytes: offset and bytes. -/
def imageParts (bs : Bytes) : List (Nat × Bytes) :=
  let size := ceilDiv bs.length (ceilDiv bs.length 16368)
  (List.range (ceilDiv bs.length 16368)).map (fun i => (i * size, (bs.drop (i * size)).take size))

/-- Send an image on every plane port; a library goes to the bank that is not the ACTIVE one after a boot. -/
def sendImage (d : Dev) (t : Nat) : Dev :=
  let bs := Config.heldImage ((Tab.look d.sec.meas t).getD {}).digest
  d.each (imageParts bs) (fun d x =>
    d.flood none (d.ctrl 0x07 6 (leBytes 1 t ++ leBytes 1 (if t = 3 then 2 else 0) ++ leBytes 2 0 ++ leBytes 4 x.1 ++ leBytes 4 bs.length
      ++ leBytes 4 0 ++ x.2)))

/-- The manager in phase 2, of start-up or of a recovery: a worker whose measurements differ from the manager's own is sent the Campion
firmware, the SerDes firmware and the operator microcode that the manager runs, once (R58; what the approved set is, and that all three
go, is the model's: log 136). -/
def approve (d : Dev) (b : Beacon) : Dev :=
  if !d.isManager || !(d.dom.phase = 2 || d.dom.led = 2) || b.meas = d.measDigest || bit d.dom.imaged b.switchId then d
  else (d.modDom (fun D => { D with imaged := setBit D.imaged b.switchId true })).each [1, 2, 3] (fun d t => d.sendImage t)

/-- A beacon arrives on a plane port (R49, R57). -/
def beaconIn (d : Dev) (port : Nat) (b : Beacon) : Dev :=
  if !d.isActive port || d.role port != 1 || b.domId != d.dom.domId || d.dom.seenBeacons.contains (b.switchId, b.serial, b.tick) then
    d.ctrlDrop port
  else if b.switchId = d.dom.swId && b.serial = d.reg Reg.serialNumber then d
  else
    let d := (d.noteBeacon b).flood (some port) { d.ctrl 0x02 0 b.bytes with srcSw := b.switchId }
    if b.switchId = d.dom.swId then d.rivalBeacon b
    else
      let known := (Tab.look d.dom.beacons b.switchId).any (fun r => d.recent r && bit r.beacon.flags 0)
      let t := d.tick
      let d := d.modDom (fun D => { D with beacons := Tab.put D.beacons b.switchId { beacon := b, arrived := t },
                                           lostSwitches := setBit D.lostSwitches b.switchId false,
                                           testFailed := if bit b.flags 1 then setBit D.testFailed b.switchId false else D.testFailed })
      let d := if bit b.flags 0 && !known && d.reg Reg.mgmtRole = 1 && d.ownId.isSome then
          d.event 4 { code := Ev.managerConflict, unit := b.switchId }
        else d
      d.manage.approve b

/-! ### Lost switches (R52, R503) -/

/-- Compositions whose Home Map entries, regions, stripe groups or reduction groups name a switch (R503); a stripe group is named through the
PLANE_MASK of the entry that names it, since its own entry holds none (R468). -/
def compsOfSwitch (d : Dev) (sw : Nat) : List Nat :=
  d.compsOfHmap (fun e => bit (HMap.planes e) sw || windowBase sw ≤ (HMap.last e + 1) * 2 ^ 21 - 1 && HMap.base e * 2 ^ 21 < windowBase (sw + 1))
    ++ (d.regionsActive.filter (fun r => Region.state r.2 = 1
        && decide (Region.base r.2 * 2 ^ 21 < windowBase (sw + 1))
        && decide (windowBase sw < (Region.base r.2 + 2 ^ Region.size r.2) * 2 ^ 21))).map (fun r => Region.comp r.2)
    ++ (d.yar.registry.filter (fun (kv : Nat × RegEnt) => bit (GD.planes kv.2.desc) sw)).map (fun kv => GD.comp kv.2.desc)
    ++ (d.yar.insts.filter (fun (kv : Nat × Inst) => bit (GD.planes kv.2.desc) sw)).map (fun kv => GD.comp kv.2.desc)

/-- Declare a switch lost; the rules give its fences no event code, which is a free value (log 10). -/
def loseSwitch (d : Dev) (sw : Nat) : Dev :=
  let cs := d.compsOfSwitch sw
  let r := d.fresh
  (r.2.modDom (fun D => { D with lostSwitches := setBit D.lostSwitches sw true })).fenceOwn (r.1 % 65536) (fun c => cs.contains c)

/-- The master is lost (R52). -/
def masterLost (d : Dev) : Dev :=
  let m := d.reg Reg.masterCur
  if d.ownId.isNone || m = 0xFF || d.isMaster || !d.silent m then d else (d.setMaster 0xFF).loseSwitch m

/-- Another switch of the plane set is lost (R503). -/
def switchLost (d : Dev) (sw : Nat) : Dev :=
  if d.ownId.isNone || sw = d.dom.swId || !bit d.dom.planeSet sw || sw = d.reg Reg.masterCur || bit d.dom.lostSwitches sw || !d.silent sw then d
  else d.loseSwitch sw

/-! ### The tick (R60 to R69) -/

/-- The counter takes another value in one move: stamps of the domain, of health, power and debug keep their distance to it. -/
def stepCount (d : Dev) (new : Nat) : Dev :=
  let old := d.tick
  let mv := fun (t : Nat) => t + new - old
  let d := d.setReg Reg.tickCount new
  let d := d.modDom (fun D =>
    { D with beacons := Tab.mapV D.beacons (fun _ (b : BeaconRec) => { b with arrived := mv b.arrived }),
             rivals := Tab.mapV D.rivals (fun _ (r : Rival) => { r with last := mv r.last }),
             markers := Tab.mapV D.markers (fun _ (m : MarkerRec) => { m with arrived := mv m.arrived }) })
  let d := d.modHealth (fun H => { H with provisionalEnd := mv H.provisionalEnd, expulsions := H.expulsions.map mv,
                                          crossings := H.crossings.map mv, agentAt := Tab.mapV H.agentAt (fun _ t => mv t) })
  let d := d.modSec (fun S => { S with unlocks := S.unlocks.map (fun x => (x.1, mv x.2)) })
  let d := { d with groups := Tab.mapV d.groups (fun _ (g : GroupRt) => { g with held := g.held.map mv }) }
  { d with power := { d.power with used := Tab.mapV d.power.used (fun _ t => mv t), suspended := d.power.suspended.map mv } }

/-- Send a marker on the other plane ports and on the admitted ENDPOINT ports (R61); the master originates it (R131). -/
def sendMarker (d : Dev) (except : Option Nat) (m : Marker) : Dev :=
  let pk := { d.ctrl 0x01 0 m.bytes with srcSw := m.master % 32 }
  (d.flood except pk).each d.endpointPorts (fun d p => d.sendPort p pk)

/-- The master's marker of this edge (R54, R61, R68). R68 does not say how long EXT_ALIGNED stands once TICK_IN gives no more edges, or over a
loss of mastership: DESIGN CHOICE, the result of the last edge stands (log 188). -/
def ownMarker (d : Dev) : Marker :=
  { tick := d.tick, master := d.dom.swId, depth := 0, corr := 0, holdover := false, extAligned := d.dom.extAligned && d.dom.tickInMode != 0,
    handoverIn := ((d.dom.handoverAt.map (fun h => h - d.tick)).getD 0) % 256 }

/-- Delay of a plane port's link in ps. -/
def delayOf (d : Dev) (port : Nat) : Nat := Tab.getD d.dom.linkDelay port 0

/-- An offset beyond 10 ns: 0x8000:13 counts ticks, so one tick counts once (R65). -/
def alignFault (d : Dev) : Dev :=
  let t := d.tick
  if d.dom.faultTick = some t then d else (d.modDom (fun D => { D with faultTick := some t })).bump Reg.tickAlignFaults

/-- A port is the parent with a marker: depth, tick state, the offset of the own edge from the master's, its correction, and an announced
handover (R54, R63 to R66). -/
def follow (d : Dev) (port : Nat) (r : MarkerRec) : Dev :=
  let m := r.marker
  let off : Int := (d.delayOf port : Int) + (m.corr : Int) - r.arrivalPs
  let st := d.reg Reg.tickState
  let d := (d.setReg Reg.tickParent port).setReg Reg.tickDepth ((m.depth + 1) % 32)
  let d := d.setReg Reg.tickState (match st with | 0 => 1 | 3 => 2 | s => s)
  let d := d.modDom (fun D => { D with handoverAt := if m.handoverIn = 0 then D.handoverAt else some (m.tick + m.handoverIn) })
  if st = 2 || st = 3 then
    let d := (d.setReg Reg.tickOffset (ofInt 32 off)).modDom (fun D => { D with freqCorr := oneCycle (-off) })
    if off < -10000 || 10000 < off then d.alignFault else d
  else d

/-- A tick marker arrives on a plane port (R61 to R66): the parent's is followed and forwarded. In HOLDOVER any port's marker leads back to
LOCKED; where R63 then picks a port whose marker came earlier in this tick, that one is followed, and not forwarded again (log 138). A switch
that is still to reach phase 4 follows none (R58, log 24). -/
def markerIn (d : Dev) (port : Nat) (m : Marker) (arrivalPs : Int) (residencePs : Nat) : Dev :=
  if !d.isActive port || d.role port != 1 || d.isMaster then d.ctrlDrop port
  else
    let r : MarkerRec := { marker := m, arrivalPs := arrivalPs, arrived := d.tick }
    let d := d.modDom (fun D => { D with markers := Tab.put D.markers port r })
    if d.beforeElection then d
    else if d.parentPort = some port then
      let d := d.follow port r
      d.sendMarker (some port)
        { m with depth := (m.depth + 1) % 32, corr := (m.corr + d.delayOf port + residencePs) % 2 ^ 32, holdover := decide (d.reg Reg.tickState = 3) }
    else if d.reg Reg.tickState = 3 then
      match d.parentPort with
      | some best => d.follow best (Tab.getD d.dom.markers best r)
      | none => d
    else d

/-- No marker from the parent is held for this tick (R66). -/
def holdover (d : Dev) : Dev :=
  let held := (Tab.look d.dom.markers (d.reg Reg.tickParent)).any (fun m => m.arrived = d.tick)
  if d.reg Reg.tickState != 2 || d.isMaster || held then d else (d.setReg Reg.tickState 3).setReg Reg.tickParent 0xFFFF

/-- The first step of an ACQUIRING switch to the master's counter (R64): the marker of the tick that ended gives it. -/
def acquire (d : Dev) : Dev :=
  if d.reg Reg.tickState != 1 then d
  else
    match d.parentPort.bind (fun p => Tab.look d.dom.markers p) with
    | none => d
    | some m => ((d.stepCount (m.marker.tick + (d.tick - m.arrived))).setReg Reg.tickState 2).modDom (fun D => { D with formed := true })

/-- The current master announces the handover: the next edge's marker is the first to tell it, 8 ticks ahead (R54). -/
def announceHandover (d : Dev) : Dev :=
  let cfg := d.reg Reg.masterCfg
  if !d.isMaster || d.ownId = some cfg || d.dom.candOf != cfg || d.dom.candStreak < 2 ^ 20 || d.dom.handoverAt.isSome then d
  else d.modDom (fun D => { D with handoverAt := some (d.tick + 9) })

/-- A rising edge on TICK_IN reaches the master; the offset of its own edge, in ps (R67, R68). Until when a late first edge still counts as
domain formation the rules do not say: DESIGN CHOICE, formation stays open until the first edge in mode PPS or TICK (log 135). -/
def tickIn (d : Dev) (offsetPs : Int) : Dev :=
  if !d.isMaster || d.dom.tickInMode = 0 then d
  else
    let d := if d.dom.formed then d else (d.stepCount (d.reg Reg.tickInCount)).modDom (fun D => { D with formed := true })
    d.modDom (fun D => { D with freqCorr := oneCycle (-offsetPs), extAligned := decide (-10000 ≤ offsetPs ∧ offsetPs ≤ 10000) })

/-! ### Start-up and recovery (R58, R59) -/

/-- Self-test begins, commanded by a switch or by none (R642, R643); one that runs goes on for the new commander. -/
def startBist (d : Dev) (from' : Nat) : Dev := (d.setReg Reg.bistState 1).setPower { d.power with bistFor := from' }

/-- What a switch passes of the start-up phases by itself: without a manager, phase 3 is its own self-test, and it passes from 2 to 4 without
waiting, and on to 5 once LOCKED; under a manager it leaves a phase on the manager's command alone (R58). How long a switch waits before it
counts as without a manager the rule does not say: DESIGN CHOICE, not at all, the first edge at which 0x8000:07 reads 0xFF (log 24). -/
def phases (d : Dev) : Dev :=
  let d := if d.reg Reg.tickState = 2 then d.modDom (fun D => { D with admitted := true }) else d
  let alone := d.reg Reg.managerCur = 0xFF
  match d.dom.phase with
  | 1 => if 1 ≤ d.reg Reg.svcLevel then d.modDom (fun D => { D with phase := 2 }) else d
  | 2 =>
    if alone then
      (if d.reg Reg.bistState = 1 then d else d.startBist 0xFF).modDom (fun D => { D with phase := 4, restarted := false })
    else d
  | 3 => if alone then d.modDom (fun D => { D with phase := 4, restarted := false }) else d
  | 4 => if alone && d.dom.admitted then d.modDom (fun D => { D with phase := 5 }) else d
  | _ => d

/-- Send a BIST packet (R643). -/
def sendBist (d : Dev) (op toSw pass detail : Nat) : Dev :=
  let m : BistMsg := { op := op, sw := d.dom.swId, toSw := toSw, pass := pass, tick := d.tick, detail := detail }
  d.flood none (d.ctrl 0x08 5 m.bytes)

/-- The manager commands the next phase; into phase 3 it commands self-test on each worker and on itself (R58). -/
def nextPhase (d : Dev) : Dev :=
  if d.reg Reg.managerCur = 0xFF || !d.power.on then d
  else
    let d := d.modDom (fun D => { D with phase := min 5 (D.phase + 1), restarted := D.restarted && D.phase != 3, imaged := 0, led := 0 })
    if d.isManager && d.dom.phase = 3 then
      (d.each ((members 32 d.dom.planeSet).filter (· != d.dom.swId)) (fun d s => d.sendBist 1 s 0 0)).startBist d.dom.swId
    else d

/-- This switch repeats a phase, if it is named and has restarted since it last passed phase 3, or has just passed it again: phase 3 is its
self-test, whose result goes to the switch that leads, and going on from it to 4 or 5 passes it (R58, R59). -/
def repeatPhase (d : Dev) (leader phase targets : Nat) : Dev :=
  let was := d.dom.phase
  if bit targets d.dom.swId && 2 ≤ phase && phase ≤ 5 && (d.dom.restarted || (was = 4 && phase = 5)) then
    let d := d.modDom (fun D => { D with phase := phase, restarted := D.restarted && !(was = 3 && 4 ≤ phase) })
    if phase = 3 then d.startBist leader else d
  else d

/-- The manager leads recovery (R59). -/
def recovery (d : Dev) (commanded : Bool) (phase targets : Nat) : Dev :=
  if !d.isManager || !(commanded || decide (1024 ≤ d.dom.noMaster)) || phase < 2 || 5 < phase then d
  else
    let d := d.modDom (fun D => { D with led := phase, imaged := 0 })
    (d.sendRecovery { op := 3, phase := phase, targets := targets }).repeatPhase d.dom.swId phase targets

/-- A RECOVERY RECOVER arrives (R508). -/
def recoveryRecover (d : Dev) (port : Nat) (m : RecoveryMsg) : Dev :=
  if d.ownId.isNone || d.role port != 1 || !d.isActive port then d.ctrlDrop port
  else
    let r := d.takeNotice port (recoveryId m) { d.ctrl 0x09 5 m.bytes with srcSw := m.sw }
    if r.1 then r.2.repeatPhase m.sw m.phase m.targets else r.2

end Dev

/-- BEACON (R49). -/
def execBeacon (port : Nat) (b : Beacon) (s : State) : Ans := onDev (fun d => (d.ctrlTaken port 0 64).beaconIn port b) s
/-- TICK_MARKER (R63). -/
def execTickMarker (port : Nat) (m : Marker) (arrivalPs : Int) (residencePs : Nat) (s : State) : Ans :=
  onDev (fun d => (d.ctrlTaken port 0 16).markerIn port m arrivalPs residencePs) s
/-- HOLDOVER_ENTRY (R66). -/
def execHoldoverEntry (s : State) : Ans := onDev (fun d => d.holdover) s
/-- MASTER_LOST (R52). -/
def execMasterLost (s : State) : Ans := onDev (fun d => d.masterLost) s
/-- HANDOVER_ANNOUNCE (R54). -/
def execHandoverAnnounce (s : State) : Ans := onDev (fun d => d.announceHandover) s
/-- TICK_IN_EDGE (R68). -/
def execTickInEdge (offsetPs : Int) (s : State) : Ans := onDev (fun d => d.tickIn offsetPs) s
/-- LINK_DELAY_MEASURE (R62). -/
def execLinkDelayMeasure (port rttPs : Nat) (s : State) : Ans :=
  onDev (fun d => if d.isActive port && d.role port = 1 then d.modDom (fun D => { D with linkDelay := Tab.put D.linkDelay port (Dev.halfTrip rttPs) }) else d) s
/-- DOMAIN_RECOVERY (R59). -/
def execDomainRecovery (commanded : Bool) (phase targets : Nat) (s : State) : Ans := onDev (fun d => d.recovery commanded phase targets) s
/-- STARTUP_PHASE (R58). -/
def execStartupPhase (s : State) : Ans := onDev (fun d => d.nextPhase) s
/-- RECOVERY_RECOVER (R508). -/
def execRecoveryRecover (port : Nat) (m : RecoveryMsg) (s : State) : Ans := onDev (fun d => (d.ctrlTaken port 5 m.bytes.length).recoveryRecover port { m with op := 3 }) s
/-- SWITCH_LOST (R503). -/
def execSwitchLost (sw : Nat) (s : State) : Ans := onDev (fun d => d.switchLost sw) s

end Sys2Proof.Machine
end

