-- ==== Sys2Proof/Machine/Yarrow.lean ====
section
/-! DEFINITION. Yarrow's commands (R376 to R393): contributions, time-outs, rounding, acknowledgments, and the registration of groups. -/

namespace Sys2Proof.Machine

namespace Inst

/-- A chunk number is COMPLETE (R380). -/
def isComplete (x : Inst) (c : Nat) : Bool := c < x.low || x.complete.contains c

end Inst

namespace Dev

/-! ### Capacity (R377, R382, R394) -/

/-- Instances of a quadrant. -/
def instsOf (d : Dev) (q : Nat) : List Inst := (Tab.vals d.yar.insts).filter (fun x => x.quad = q)

/-- Slots and chunk records of a quadrant that no group has reserved. -/
def unreservedSlots (d : Dev) (q : Nat) : Nat := 524288 - ((d.instsOf q).map (fun x => GD.minOpen x.desc * GD.elems x.desc)).sum
def unreservedRecs (d : Dev) (q : Nat) : Nat := 1024 - ((d.instsOf q).map (fun x => GD.minOpen x.desc)).sum

/-- Those of them that no open chunk holds. -/
def poolSlotsFree (d : Dev) (q : Nat) : Nat := d.unreservedSlots q - ((d.instsOf q).map (fun x => x.poolChunks * GD.elems x.desc)).sum
def poolRecsFree (d : Dev) (q : Nat) : Nat := d.unreservedRecs q - ((d.instsOf q).map Inst.poolChunks).sum

/-- A quadrant can reserve the whole of a group (R376 step 3, R377). -/
def canReserve (d : Dev) (q g : Nat) : Bool :=
  2 ≤ d.level q && !bit d.health.failedUnits (228 + q) && decide (d.yar.insts.length < 1024) && decide (GD.minOpen g * GD.elems g ≤ d.poolSlotsFree q)
    && decide (GD.minOpen g ≤ d.poolRecsFree q)
    && decide (((d.instsOf q).map (fun x => GD.ncontrib x.desc)).sum + GD.ncontrib g ≤ 65536)

/-- The quadrant a switch places an instance in (R377). -/
def placeFor (d : Dev) (g : Nat) : Option Nat :=
  if GD.hint g < 4 then (if d.canReserve (GD.hint g) g then some (GD.hint g) else none)
  else minBy (fun q => 524288 - d.unreservedSlots q) ([0, 1, 2, 3].filter (fun q => d.canReserve q g))

/-! ### Contributions (R380 to R382) -/

/-- Whether a chunk that is not open can take a record and slots, and whether from the reservation: a chunk other than LOW never takes the
last free record of it (R382). -/
def chunkRoom (d : Dev) (x : Inst) (c : Nat) : Option Bool :=
  let held := Tab.count x.chunks (fun _ k => k.reserved)
  let free := GD.minOpen x.desc - held
  if (c = x.low && 1 ≤ free) || 2 ≤ free then some true
  else if GD.elems x.desc ≤ d.poolSlotsFree x.quad && 1 ≤ d.poolRecsFree x.quad then some false
  else none

/-- The checks of R380, in order; added as R381 and R382 say. `lcl` marks a contribution of a job of this switch, which is what feeds a LOCAL index
until it is substituted (R375, R385). -/
def takeContrib (d : Dev) (q : Nat) (pk : Packet) (lcl : Bool) : Taken × Dev :=
  match d.inst pk.group with
  | none => (.failed St.unmapped, d)
  | some x =>
    let g := x.desc
    let i := pk.contrib
    let c := Tab.look x.chunks pk.chunk
    let e := x.contribs.getD i 0
    let sub := x.isSubst c i
    if x.state != 2 || x.quad != q then (.failed St.unmapped, d)
    else if pk.comp != GD.comp g then (.failed St.rights, d)
    else if GD.ncontrib g ≤ i || pk.ifmt != GD.ifmt g || pk.rop != GD.rop g || pk.nelem != GD.elems g
        || pk.payload.length != inBytes g then (.failed St.badDesc, d)
    else if x.isExcluded c i || (sub && (if CE.isLocal e then lcl else !lcl && pk.src = CE.feid e)) then (.failed St.cancelled, d)
    else if (if lcl then !CE.isLocal e else if sub then pk.src != CE.backup e else CE.isLocal e || pk.src != CE.feid e) then
      (.failed St.rights, d)
    else if pk.chunk < x.low || x.isComplete pk.chunk || c.any (fun c => c.phase != 1) then (.dropped, d.bump (Reg.drops q))
    else if x.low + 4096 ≤ pk.chunk then (.failed St.quota, d.bump (Reg.stalls q))
    else
      let add := fun (c : Chunk) =>
        let c := { c with bits := setBit c.bits i true, slots := addAll g c.slots pk.payload }
        let x := ({ x with chunks := Tab.put x.chunks pk.chunk c }).settle
        (Taken.added, ((d.setInst pk.group x).bump (Reg.contribs q)).bump (Reg.reducedElems (GD.comp g)) (GD.elems g))
      match c with
      | some c => if bit c.bits i then (.dropped, d.bump (Reg.drops q)) else add c
      | none =>
        match d.chunkRoom x pk.chunk with
        | some r => add { slots := List.replicate (GD.elems g) {}, opened := d.tick, reserved := r }
        | none => (.failed St.quota, d.bump (Reg.stalls q))

/-- A contribution of the quantum of a unit that has come through the YARROW queue of the quadrant (R375, R404). One whose quantum has failed is not
taken (R405). -/
def takeLocal (d : Dev) (q u : Nat) (pk : Packet) : Dev :=
  match (Tab.look d.jobs.running u).bind (fun x => x.contribs.find? (fun c => c.queued && c.pkt = pk)) with
  | none => d
  | some c =>
    let r := d.takeContrib q pk true
    r.2.localAnswer u c r.1

/-- A quadrant's Yarrow takes the next contribution of its queue (R380); those of jobs that wait for room in it enter first (R375). -/
def contribTake (d : Dev) (q : Nat) : Dev :=
  let d := d.enterAll
  match if d.level q < 2 then none else d.unitHead (8 + q) (fun e => e.pkt.ptype = .reduceContrib) with
  | none => d
  | some (a, k, e) =>
    let d := d.consume a k e
    match e.unit with
    | some u => d.takeLocal q u e.pkt
    | none =>
      let r := d.takeContrib q e.pkt false
      match r.1 with
      | .failed st => r.2.failPacket e.src e.pkt st
      | _ => r.2

/-! ### Time-outs (R385) -/

/-- An OPEN chunk reaches its time-out. -/
def chunkTimeout (d : Dev) (g n : Nat) : Dev :=
  match d.inst g with
  | none => d
  | some x =>
    match Tab.look x.chunks n with
    | none => d
    | some c =>
      if x.state != 2 || c.phase != 1 || d.tick < c.opened + GD.timeout x.desc + 1 then d
      else
        let gone := members 4096 (x.missing c)
        let fail := fun (d : Dev) =>
          ((d.inst g).map (fun x => d.setInst g { x with chunks := Tab.edit x.chunks n (fun c => { c with phase := 3 }) })).getD d
        match GD.policy x.desc with
        | 1 => d.giveUp g gone
        | 2 =>
          if c.restarted then fail d
          else
            let d := d.giveUp g gone
            if gone.all (fun i => CE.hasBackup (x.contribs.getD i 0)) then
              ((d.inst g).map (fun x =>
                d.setInst g { x with chunks := Tab.edit x.chunks n (fun c => { c with opened := d.tick, restarted := true }) })).getD d
            else fail d
        | _ => fail d

/-! ### Acknowledgments (R391, R392) -/

/-- A control packet of an endpoint comes from its ACTIVE port, or from its host (R132). -/
def fromEndpoint (d : Dev) (src : Ingress) (feid : Nat) : Bool :=
  match src with
  | .port n => d.isActive n && d.role n = 0 && d.reg (Reg.portExpectFeid n) = feid
  | .host h => (d.host h).up && feid = (match h with | .ha => d.reg Reg.hostFeidHa | .hb => d.reg Reg.hostFeidHb)

/-- The journal entry of a chunk of a group, with its quadrant. -/
def entryFor (d : Dev) (g n : Nat) : Option (Nat × JEnt) :=
  (d.inst g).bind (fun x => ((d.journal x.quad).find? (fun e => e.group = g && e.chunk = n)).map (fun e => (x.quad, e)))

/-- Change a journal entry; one whose destinations have all acknowledged is freed (R390). -/
def editEntry (d : Dev) (q : Nat) (e : JEnt) (f : JDest → JDest) : Dev :=
  let e' := { e with dests := e.dests.map f }
  d.setJournal q ((d.journal q).filterMap (fun y => if y = e then (if e'.dests.all (·.acked) then none else some e') else some y))

/-- ACK_TIMEOUT_US passes for a destination (R392). -/
def ackTimeout (d : Dev) (g n dest : Nat) : Dev :=
  match d.entryFor g n with
  | none => d
  | some (q, e) =>
    if e.dests.any (fun x => x.feid = dest && !x.acked && decide (x.tries < d.reg Reg.resultRetries)) then
      let d := d.editEntry q e (fun x => if x.feid = dest then { x with tries := x.tries + 1 } else x)
      (d.sendResult e.pkt dest).bump (Reg.resends q)
    else d

/-- A destination acknowledges a chunk of a group (R391). -/
def reduceAck (d : Dev) (feid g n : Nat) : Dev :=
  match d.entryFor g n with
  | none => d
  | some (q, e) => if e.dests.any (fun x => x.feid = feid) then d.editEntry q e (fun x => if x.feid = feid then { x with acked := true } else x) else d

/-- A destination asks for a chunk again (R392, R393). -/
def reduceNack (d : Dev) (feid g n : Nat) : Dev :=
  match d.inst g with
  | none => d
  | some x =>
    if !x.isComplete n then d
    else
      match d.entryFor g n with
      | some (q, e) => if e.dests.any (fun y => y.feid = feid) then (d.sendResult e.pkt feid).bump (Reg.resends q) else d
      | none =>
        if x.lostChunks.contains n then d.sendResult (resultPacket x.desc n St.ecc (GD.rop x.desc) [0, 0]) feid
        else d.bump (Reg.drops x.quad)

/-- GROUP and CHUNK of a REDUCE_ACK (R391). -/
def ackGroup (p : Packet) : Nat := le p.payload 0 2
def ackChunk (p : Packet) : Nat := le p.payload 2 4

/-- A REDUCE_ACK with KIND ACK arrives. -/
def ackIn (d : Dev) (src : Ingress) (p : Packet) : Dev := d.ctrlIn src p (fun p d => d.reduceAck p.src (ackGroup p) (ackChunk p))

/-- A REDUCE_ACK with KIND NACK arrives. -/
def nackIn (d : Dev) (src : Ingress) (p : Packet) : Dev := d.ctrlIn src p (fun p d => d.reduceNack p.src (ackGroup p) (ackChunk p))

/-! ### The group registry (R376, R378) -/

/-- What a group descriptor must satisfy (R373, R374). -/
def groupOk (d : Dev) (g : Nat) : Bool :=
  let i := GD.ifmt g
  let o := GD.ofmt g
  ((i < 8 && [3, 4, 5, 7].contains o) || ([8, 9].contains i && [8, 9].contains o)) && GD.rop g ≤ 2
    && decide (inBytes g ≤ 16384) && decide (outBytes g + maskBytes g ≤ 16384)
    && (GD.destMode g != 3 || decide (popCount 32 (GD.planes g) ≤ GD.ncontrib g))
    && GD.planes g != 0 && decide (GD.planes g &&& d.dom.planeSet = GD.planes g)
    && GD.gflagsHigh g = 0 && GD.pad g = 0 && GD.rest g = 0
    && GD.policy g ≤ 2 && GD.comp g < 64 && 1 ≤ GD.ncontrib g && GD.ncontrib g ≤ 4096 && (GD.hint g ≤ 3 || GD.hint g = 15)
    && 32 ≤ GD.elems g && GD.elems g ≤ 8192 && GD.elems g % 32 = 0 && 1 ≤ GD.timeout g && 1 ≤ GD.minOpen g && GD.minOpen g ≤ 64
    && 1 ≤ GD.ackUs g && GD.ackUs g ≤ 1000 && GD.dest g < 4096 && (GD.destMode g ≤ 1 || GD.dest g = 0)
    && (if GD.destMode g = 2 then 1 ≤ GD.run g else GD.run g = 0)

/-- Parts of a REGISTER: 4,080 bytes of BODY each at most (R131, R376). -/
def registerParts (g desc : Nat) (contribs : List Nat) : List RegistryMsg :=
  let body := leBytes 64 desc ++ contribs.flatMap (leBytes 4)
  let n := max 1 (ceilDiv body.length 4080)
  (List.range n).map (fun i => { op := 1, groupId := g, part := i, nparts := n, body := (body.drop (4080 * i)).take 4080 })

def sendRegister (d : Dev) (g desc : Nat) (contribs : List Nat) : Dev :=
  d.each (registerParts g desc contribs) (fun d m => d.sendRegistry m)

/-- A refusal reaches the switch that took the command: a REGISTER is REFUSED, any other command leaves the group's state (R378). -/
def refused (d : Dev) (g reason : Nat) : Dev := d.outcome g (if (d.shown g).state = 1 then 3 else (d.shown g).state) reason

/-- An activation is announced for a tick. -/
def activateAt (d : Dev) (g tick : Nat) : Dev :=
  d.modYar (fun Y => { Y with registry := Tab.edit Y.registry g (fun e => { e with phase := 2, tick := tick }),
                              insts := Tab.edit Y.insts g (fun x => { x with active := some tick }) })

/-- A READMIT of an index is announced for a tick. -/
def readmitAt (d : Dev) (g tick idx : Nat) : Dev :=
  let d := d.modYar (fun Y => { Y with insts := Tab.edit Y.insts g (fun x => { x with readmits := x.readmits ++ [(tick, idx)] }) })
  d.outcome g (d.shown g).state 0

/-- A member enters a group into its copy of the registry and reserves its instance; answers 0 or the refusal reason, where it is named
(R376 step 3). -/
def joinGroup (d : Dev) (g desc : Nat) (contribs : List Nat) : Option Nat × Dev :=
  let d := d.setEnt g { desc := desc, contribs := contribs, deadline := d.tick + 64 }
  if !bit (GD.planes desc) d.dom.swId then (none, d)
  else
    match d.placeFor desc with
    | some q => (some 0, (d.setInst g { desc := desc, contribs := contribs, quad := q }).leaveRung (1024 + q))
    | none => (some 3, d)

/-- The master ends a registration: REMOVE to all, REFUSE to the taking switch (R376 step 4). -/
def registrationFails (d : Dev) (g reason : Nat) : Dev :=
  let t := d.tick + 4
  let d := d.sendRegistry { op := 2, reason := reason, groupId := g, tick := t }
  let d := d.sendRegistry { op := 5, reason := reason, groupId := g }
  d.removeAt g t reason

/-- The answer of a switch reaches the registry (R376 step 4): every copy counts it, the master acts. -/
def answered (d : Dev) (g sw reason : Nat) : Dev :=
  match d.regEnt g with
  | none => d
  | some e =>
    if e.phase != 1 then d
    else if reason != 0 then (if d.isMaster then d.registrationFails g reason else d)
    else
      let e := { e with accepted := e.accepted ||| (1 <<< sw) }
      let d := d.setEnt g e
      if d.isMaster && decide (e.accepted &&& GD.planes e.desc = GD.planes e.desc) then
        let t := d.tick + 4
        (d.sendRegistry { op := 6, groupId := g, tick := t }).activateAt g t
      else d

/-- The master takes a REGISTER (R376 step 2). -/
def masterRegister (d : Dev) (g desc : Nat) (contribs : List Nat) : Dev :=
  if (d.regEnt g).isSome then (d.sendRegistry { op := 5, reason := 2, groupId := g }).refused g 2
  else
    let d := d.sendRegister g desc contribs
    match d.joinGroup g desc contribs with
    | (some r, d) => d.answered g d.dom.swId r
    | (none, d) => d

/-- The master takes a REMOVE or READMIT (R378). A REMOVE for a failed instance of a group not registered needs no answer. -/
def masterChange (d : Dev) (op g reason idx : Nat) : Dev :=
  let t := d.tick + 4
  match d.regEnt g with
  | none => if reason = 7 then d else (d.sendRegistry { op := 5, reason := 6, groupId := g }).refused g 6
  | some e =>
    if e.phase = 3 then d
    else if op = 2 then (d.sendRegistry { op := 2, groupId := g, tick := t }).removeAt g t 0
    else (d.sendRegistry { op := 3, groupId := g, tick := t, body := leBytes 2 idx }).readmitAt g t idx

/-! ### Commands (R376, R378) -/

/-- A command written to 0x4800:06: 1 REGISTER, 2 REMOVE, 3 READMIT. Any other value is no command (R610). A descriptor that breaks R374, or a
contributor entry with a bit set that R375 has zero (log 185), is refused with reason 4. -/
def groupCmd (d : Dev) (acc v : Nat) : Option Dev :=
  let g := d.regAs acc Reg.groupSelect
  let idx := d.regAs acc Reg.contribSelect
  let desc := d.reg Reg.groupStage
  let contribs := (List.range (GD.ncontrib desc)).map (fun i => d.reg (Reg.contribStage i))
  let ask := fun (d : Dev) (st : Nat) => d.setShown g { d.shown g with state := st, asked := true, since := d.tick }
  if v = 1 then
    let d := ask d 1
    some (if !d.groupOk desc || GD.id desc != g || contribs.any (fun e => e >>> 26 != 0) then d.refused g 4
      else if d.reg Reg.masterCur = 0xFF then d.refused g 1
      else if d.isMaster then d.masterRegister g desc contribs
      else d.sendRegister g desc contribs)
  else if v = 2 || v = 3 then
    let d := ask d (d.shown g).state
    let body := if v = 3 then leBytes 2 idx else []
    some (if d.reg Reg.masterCur = 0xFF then d.refused g 1
      else if d.isMaster then d.masterChange v g 0 idx
      else d.sendRegistry { op := v, groupId := g, body := body })
  else none

/-! ### REGISTRY packets -/

/-- A REGISTRY packet arrives on a plane port: forwarded before it is acted on (R56), its copies dropped. A switch without a place forwards
too, and does not act (R38, R56). -/
def takeRegistry (d : Dev) (port src : Nat) (m : RegistryMsg) : Bool × Dev :=
  if !d.isActive port || d.role port != 1 || d.ownId = some src then (false, d.ctrlDrop port)
  else if d.yar.seen.any (fun k => k.tail = registryId src m && d.tick ≤ k.headD 0 + 1) then (false, d)
  else (d.ownId.isSome, (d.noteRegistry src m).flood none { d.ctrl 0x04 5 m.bytes with srcSw := src })

/-- The message comes from the master. -/
def isFromMaster (d : Dev) (src : Nat) : Bool := d.reg Reg.masterCur = src && !d.isMaster

/-- The message is a change that the master announces for a tick, or one that the master before it had announced and that was in flight when
the master changed (R55). A command of a taking switch names no tick. -/
def isAnnounced (d : Dev) (src : Nat) (m : RegistryMsg) : Bool := d.isFromMaster src || (d.dom.prevMaster = src && m.tick != 0)

/-- A part of a REGISTER, kept for its sender: the taking switch's set and the master's are two; the last part to arrive completes its set. -/
def onRegister (d : Dev) (src : Nat) (m : RegistryMsg) : Dev :=
  let key := src * 65536 + m.groupId
  let got := (Tab.getD d.yar.parts key []).filter (fun x => x.1 != m.part) ++ [(m.part, m.body)]
  if got.length < m.nparts then d.modYar (fun Y => { Y with parts := Tab.put Y.parts key got })
  else
    let d := d.modYar (fun Y => { Y with parts := Tab.del Y.parts key })
    let body := (List.range m.nparts).flatMap (fun i => ((got.find? (fun x => x.1 = i)).map Prod.snd).getD [])
    let desc := leNat (body.take 64)
    let contribs := (List.range (GD.ncontrib desc)).map (fun i => le body (64 + 4 * i) 4)
    if d.isMaster then d.masterRegister m.groupId desc contribs
    else if d.isFromMaster src then
      match d.joinGroup m.groupId desc contribs with
      | (some 0, d) => (d.sendRegistry { op := 4, groupId := m.groupId }).answered m.groupId d.dom.swId 0
      | (some r, d) => d.sendRegistry { op := 5, reason := r, groupId := m.groupId }
      | (none, d) => d
    else d

/-- Act on a REGISTRY packet of another switch. -/
def onRegistry (d : Dev) (src : Nat) (m : RegistryMsg) : Dev :=
  let g := m.groupId
  match m.op with
  | 1 => d.onRegister src m
  | 2 => if d.isAnnounced src m then d.removeAt g m.tick m.reason else if d.isMaster then d.masterChange 2 g m.reason 0 else d
  | 3 =>
    let idx := leNat (m.body.take 2)
    if d.isAnnounced src m then d.readmitAt g m.tick idx else if d.isMaster then d.masterChange 3 g 0 idx else d
  | 4 => d.answered g src 0
  | 5 => if d.isMaster then d.answered g src m.reason else if d.isFromMaster src then d.refused g m.reason else d
  | 6 => if d.isAnnounced src m then d.activateAt g m.tick else d
  | _ => d

def registry (d : Dev) (port src : Nat) (m : RegistryMsg) : Dev :=
  let r := d.takeRegistry port src m
  if r.1 then r.2.onRegistry src m else r.2

/-- A switch has not answered a REGISTER for 64 ticks (R376 step 4), or the switch that took it has had no outcome for 128 (log 166). -/
def answerTimeout (d : Dev) (g : Nat) : Dev :=
  let late := fun (e : RegEnt) => d.isMaster && e.phase = 1 && decide (e.deadline < d.tick)
  let s := d.shown g
  if (d.regEnt g).any late then d.registrationFails g 5
  else if s.asked && s.state = 1 && decide (s.since + 128 ≤ d.tick) then d.outcome g 3 5
  else d

/-- READMITs due end the exclusion or substitution for chunks that open from now on (R378). -/
def readmitNow (t : Nat) (x : Inst) : Inst :=
  let due := x.readmits.filter (fun r => r.1 ≤ t)
  let x := { x with readmits := x.readmits.filter (fun r => t < r.1) }
  due.foldl (fun x r =>
    let i := r.2
    let keep := fun (c : Chunk) => { c with excl := if bit x.excluded i then setBit c.excl i true else c.excl,
                                            subs := if bit x.subst i then setBit c.subs i true else c.subs }
    { x with excluded := setBit x.excluded i false, subst := setBit x.subst i false, chunks := Tab.mapV x.chunks (fun _ c => keep c) }) x

/-- The edge of an announced tick: the instance becomes ACTIVE, is discarded, or a READMIT applies (R376 step 5, R378). -/
def groupTick (d : Dev) (g : Nat) : Dev :=
  let t := d.tick
  let gone := (d.inst g).any (fun x => x.removeAt.any (fun r => decide (r ≤ t)))
    || (d.regEnt g).any (fun (e : RegEnt) => e.phase = 3 && decide (e.tick ≤ t))
  if gone then
    let d := d.modYar (fun Y => { Y with insts := Tab.del Y.insts g, registry := Tab.del Y.registry g })
    let d := d.freeJournal g
    if (d.shown g).state = 3 then d else d.setShown g { d.shown g with state := 0 }
  else
    let d := d.modYar (fun Y => { Y with insts := Tab.edit Y.insts g (fun x =>
      let x := if x.state = 1 && x.active.any (fun a => a ≤ t) then { x with state := 2, active := none } else x
      readmitNow t x) })
    if (d.regEnt g).any (fun (e : RegEnt) => e.phase = 2 && decide (e.tick ≤ t)) && (d.shown g).state = 1 then d.outcome g 2 0 else d

/-- GROUP_STATE (R397). -/
def groupState (d : Dev) (g : Nat) : Nat :=
  let s := (d.shown g).state
  match d.inst g with
  | some x =>
    if x.state = 5 then 5 else if s = 1 || s = 3 then s else if x.removeAt.isSome then 4 else if x.state = 2 then 2 else 1
  | none => s

end Dev

/-- CONTRIB_TAKE (R380). -/
def execContribTake (q : Nat) (s : State) : Ans := onDev (fun d => d.contribTake q) s
/-- CHUNK_TIMEOUT (R385). -/
def execChunkTimeout (group chunk : Nat) (s : State) : Ans := onDev (fun d => d.chunkTimeout group chunk) s
/-- CHUNK_ROUND (R390). -/
def execChunkRound (group chunk : Nat) (s : State) : Ans := onDev (fun d => d.chunkRound group chunk) s
/-- RESULT_ACK_TIMEOUT (R392). -/
def execResultAckTimeout (group chunk dest : Nat) (s : State) : Ans := onDev (fun d => d.ackTimeout group chunk dest) s
/-- REDUCE_ACK (R391). -/
def execReduceAck (src : Ingress) (srcSw : Nat) (fromSw : Bool) (p : Packet) (s : State) : Ans :=
  onDev (fun d => d.ackIn src (p.asCtrl 5 srcSw fromSw)) s
/-- REDUCE_NACK (R392). -/
def execReduceNack (src : Ingress) (srcSw : Nat) (fromSw : Bool) (p : Packet) (s : State) : Ans :=
  onDev (fun d => d.nackIn src (p.asCtrl 5 srcSw fromSw)) s
/-- GROUP_REGISTER (R376). -/
def execGroupRegister (acc : Nat) (s : State) : Ans :=
  onDev (fun d => d.writeKey acc Reg.groupCmd (fun d => d.orReject (d.groupCmd acc 1))) s
/-- GROUP_REMOVE (R378). -/
def execGroupRemove (acc : Nat) (s : State) : Ans :=
  onDev (fun d => d.writeKey acc Reg.groupCmd (fun d => d.orReject (d.groupCmd acc 2))) s
/-- GROUP_READMIT (R378). -/
def execGroupReadmit (acc : Nat) (s : State) : Ans :=
  onDev (fun d => d.writeKey acc Reg.groupCmd (fun d => d.orReject (d.groupCmd acc 3))) s
/-- REGISTRY_REGISTER (R376). -/
def execRegistryRegister (port src : Nat) (m : RegistryMsg) (s : State) : Ans := onDev (fun d => (d.ctrlTaken port 5 m.bytes.length).registry port src { m with op := 1 }) s
/-- REGISTRY_REMOVE (R378). -/
def execRegistryRemove (port src : Nat) (m : RegistryMsg) (s : State) : Ans := onDev (fun d => (d.ctrlTaken port 5 m.bytes.length).registry port src { m with op := 2 }) s
/-- REGISTRY_READMIT (R378). -/
def execRegistryReadmit (port src : Nat) (m : RegistryMsg) (s : State) : Ans := onDev (fun d => (d.ctrlTaken port 5 m.bytes.length).registry port src { m with op := 3 }) s
/-- REGISTRY_ACCEPT (R376). -/
def execRegistryAccept (port src : Nat) (m : RegistryMsg) (s : State) : Ans := onDev (fun d => (d.ctrlTaken port 5 m.bytes.length).registry port src { m with op := 4 }) s
/-- REGISTRY_REFUSE (R376). -/
def execRegistryRefuse (port src : Nat) (m : RegistryMsg) (s : State) : Ans := onDev (fun d => (d.ctrlTaken port 5 m.bytes.length).registry port src { m with op := 5 }) s
/-- REGISTRY_ACTIVATE (R376). -/
def execRegistryActivate (port src : Nat) (m : RegistryMsg) (s : State) : Ans := onDev (fun d => (d.ctrlTaken port 5 m.bytes.length).registry port src { m with op := 6 }) s
/-- GROUP_ACTIVATION_TICK (R376, R378). -/
def execGroupActivationTick (group : Nat) (s : State) : Ans := onDev (fun d => d.groupTick group) s
/-- REGISTRY_ANSWER_TIMEOUT (R376). -/
def execRegistryAnswerTimeout (group : Nat) (s : State) : Ans := onDev (fun d => d.answerTimeout group) s

end Sys2Proof.Machine
end

