-- ==== Sys2Proof/Machine/Staging.lean ====
section
/-! DEFINITION. The checks that staged entries pass at a write and at PREPARE: Home Map (R142, R470, R491), regions (R195, R230, R241),
stripe groups (R469) and composition records (R559, R561). -/

namespace Sys2Proof.Machine

/-- Two ranges of 2 MiB units, first and last, meet. -/
def meets (a b c d : Nat) : Bool := decide (a ≤ d) && decide (c ≤ b)

namespace Dev

/-! ### Home Map -/

/-- A tray's home port stands on this switch in a quadrant below SL-M (R34). -/
def homeBelow (d : Dev) (feid : Nat) : Bool := (d.homePort feid).any (fun p => decide (d.level (quadOf p) < 2))

/-- The checks of one staged Home Map entry (R34, R142, R491, R610). R142 exempts no entry while its STATE is INVALID, and does not say that
its checks look at the fields of one: DESIGN CHOICE, range, PLANE_MASK, IGRAN and overlap are checked of entries that are not INVALID, so
that an entry can be cleared (log 177). -/
def hmapEntryOk (d : Dev) (e : Nat) : Bool :=
  HMap.state e ≤ 2 && bits e 57 7 = 0 && e >>> 216 = 0
    && (HMap.state e = 0
      || (decide ((HMap.last e + 1) * 2 ^ 21 ≤ tierHBase) && HMap.planes e != 0 && HMap.planes e &&& d.dom.planeSet = HMap.planes e
        && HMap.igran e ≤ 9 && !(HMap.state e = 2 && HMap.stripe e)
        && (HMap.stripe e || !(d.homeBelow (HMap.home e) || (HMap.state e = 2 && d.homeBelow (HMap.next e))))))

/-- Staged Home Map entries whose STATE is not INVALID. -/
def hmapStaged (d : Dev) : List (Nat × Nat) := (d.instances 0x340003).filter (fun e => HMap.state e.2 != 0)

/-- No two entries of a list overlap, or name one group in MODE STRIPE (R142, R470). -/
def hmapApart : List (Nat × Nat) → Bool
  | [] => true
  | x :: xs =>
    xs.all (fun y => !meets (HMap.base x.2) (HMap.last x.2) (HMap.base y.2) (HMap.last y.2)
      && !(HMap.stripe x.2 && HMap.stripe y.2 && HMap.group x.2 = HMap.group y.2)) && hmapApart xs

/-- The whole staged Home Map (R142, R470). -/
def hmapOk (d : Dev) : Bool :=
  (d.instances 0x340003).all (fun e => d.hmapEntryOk e.2) && hmapApart d.hmapStaged
    && d.hmapStaged.all (fun e => !HMap.stripe e.2 || SG.gstate (d.reg (Reg.sgStage (HMap.group e.2))) != 0)

/-! ### Regions -/

/-- First byte and end of a region. -/
def regionLo (r : Nat) : Nat := Region.base r * 2 ^ 21
def regionHi (r : Nat) : Nat := (Region.base r + 2 ^ Region.size r) * 2 ^ 21

/-- A region lies in this switch's window. -/
def regionHere (d : Dev) (r : Nat) : Bool :=
  let b := windowBase d.dom.swId
  decide (b ≤ regionLo r) && decide (regionHi r ≤ b + windowSize)

/-- Some byte of a region lies under a staged Home Map entry in MODE STRIPE (R472). -/
def overStripe (d : Dev) (r : Nat) : Bool :=
  d.hmapStaged.any (fun e => HMap.stripe e.2
    && overlap (regionLo r) (regionHi r - regionLo r) (HMap.base e.2 * 2 ^ 21) ((HMap.last e.2 + 1 - HMap.base e.2) * 2 ^ 21))

/-- A region's key at rest is of its composition and of purpose REST, where it uses one; REST_MAC is not for a range in MODE STRIPE (R472, R550). -/
def regionRestOk (d : Dev) (r : Nat) : Bool :=
  !(Region.restEnc r || Region.restMac r)
    || (d.reg (Reg.slotComp (Region.restSlot r)) = Region.comp r && d.reg (Reg.slotPurpose (Region.restSlot r)) = 1
      && !(Region.restMac r && d.overStripe r))

/-- The checks of one staged region entry (R195, R230, R241, R472, R550). -/
def regionEntryOk (d : Dev) (r : Nat) : Bool :=
  let off := regionLo r - windowBase d.dom.swId
  let len := regionHi r - regionLo r
  Region.state r ≤ 1 && bits r 35 1 = 0 && bits r 42 6 = 0 && r >>> 90 = 0
    && (Region.state r = 0
      || (Region.size r ≤ 25 && Region.base r % 2 ^ Region.size r = 0 && d.regionRestOk r
        && (decide (regionHi r ≤ tierHBase) || (d.regionHere r && !sysOverlap off len && !d.poolOverlap off len))))

/-- Staged VALID regions. -/
def regionsStaged (d : Dev) : List Nat := ((d.instances 0x380003).filter (fun e => Region.state e.2 = 1)).map Prod.snd

/-- No two regions overlap. -/
def regionsApart : List Nat → Bool
  | [] => true
  | x :: xs => xs.all (fun y => !overlap (regionLo x) (regionHi x - regionLo x) (regionLo y) (regionHi y - regionLo y)) && regionsApart xs

/-- The whole staged region table (R195). -/
def regionsOk (d : Dev) : Bool := (d.instances 0x380003).all (fun e => d.regionEntryOk e.2) && regionsApart d.regionsStaged

/-! ### Stripe groups -/

/-- FEIDs of a staged group's members and valid spares. -/
def sgFeids (e : Nat) : List Nat :=
  (List.range (SG.k e + 2)).map (SG.member e) ++ ([0, 1].filter (SG.spareValid e)).map (SG.spare e)

/-- The checks of a staged group entry (R469). -/
def sgEntryOk (d : Dev) (e : Nat) : Bool :=
  SG.gstate e ≤ 1 && bits e 9 7 = 0 && bits e 62 2 = 0 && bits e 314 6 = 0 && e >>> 400 = 0
    && (SG.gstate e = 0
      || (decide (4 ≤ SG.k e ∧ SG.k e ≤ 14) && SG.gbase e % 4096 = 0 && (sgFeids e).eraseDups.length = (sgFeids e).length
        && (List.range 16).all (fun m => m < SG.k e + 2 || SG.mstate e m = 3) && decide (2 ≤ d.level (SG.quad e))))

/-- The whole staged table. -/
def sgOk (d : Dev) : Bool := (d.instances 0x560003).all (fun e => d.sgEntryOk e.2)

/-! ### Compositions -/

/-- Tier H units of a composition's staged VALID regions in this switch's window (R561). -/
def stagedUnits (d : Dev) (c : Nat) : Nat :=
  ((d.regionsStaged.filter (fun r => Region.comp r = c && d.regionHere r)).map (fun r => 2 ^ Region.size r)).foldl (· + ·) 0

/-- Something names a composition that is to be FREE (R561). -/
def compNamed (d : Dev) (c : Nat) : Bool :=
  d.regionsStaged.any (fun r => Region.comp r = c) || d.hmapStaged.any (fun e => HMap.comp e.2 = c)
    || (d.instances 0x540002).any (fun e => CX.valid e.2 && CX.comp e.2 = c)
    || (d.instances 0x60000D).any (fun e => e.2 = c)
    || d.jobs.plans.any (fun (kv : Nat × Plan) => kv.2.state = 1 && kv.2.comp = c)
    || d.yar.registry.any (fun (kv : Nat × RegEnt) => GD.comp kv.2.desc = c)
    || d.jobs.recs.any (fun (kv : Nat × Job) => kv.2.pkt.comp = c)
    || d.tiers.slots.any (fun (kv : Nat × StageSlot) => kv.2.comp = c && !kv.2.gone)

/-- The checks of a composition record (R559, R561). -/
def compRecordOk (d : Dev) (c v : Nat) : Bool :=
  bits v 0 8 ≤ 1 && bits v 9 7 = 0 && bits v 24 8 = 0 && bits v 16 8 ≤ 120 && bits v 32 32 ≤ 288768 && v >>> 160 = 0
    && (bits v 128 16 = 0xFFFF || bits v 140 4 = 0)
    && d.stagedUnits c ≤ bits v 32 32 && (bits v 0 8 = 1 || !d.compNamed c)

/-- Every staged part passes its checks (R566 step 3). -/
def partsOk (d : Dev) : Bool :=
  d.hmapOk && d.regionsOk && d.sgOk && (List.range 64).all (fun c => d.compRecordOk c (d.reg (Reg.compStage c)))

end Dev

end Sys2Proof.Machine
end

