-- ==== Sys2Proof/Machine/Commit.lean ====
section
/-! DEFINITION. The commit sequence and its edge (R55, R143, R469, R491, R493, R509, R558 to R571), and usage reports (R572 to R574). -/

namespace Sys2Proof.Machine

end Sys2Proof.Machine

namespace Sys2Proof
open Machine

/-- COMMIT payload (R566). -/
def CommitMsg.bytes (m : CommitMsg) : Bytes :=
  leBytes 1 m.op ++ leBytes 1 m.reason ++ leBytes 1 m.sw ++ leBytes 5 0 ++ leBytes 8 m.seq ++ leBytes 8 m.tick ++ leBytes 8 m.changed
    ++ padTo 32 m.digest

end Sys2Proof

namespace Sys2Proof.Machine

/-- What tells one COMMIT packet from another. -/
def commitId (src : Nat) (m : CommitMsg) : List Nat := [src, m.op, m.reason, m.sw, m.seq, m.tick, m.changed]

/-- Fields of a Home Map entry that EPOCH follows: STATE, MODE, PLANE_MASK, HOME_FEID, NEXT_FEID, STRIPE_GRP (R143). -/
def epochFields (e : Nat) : List Nat :=
  [HMap.state e, (HMap.stripe e).toNat, HMap.planes e, HMap.home e, HMap.next e, HMap.group e]

/-- A Home Map entry without EPOCH and TRANS_TICK, which a staged entry does not set. -/
def hmapForm (e : Nat) : Nat := setBits (setBits e 136 16 0) 152 64 0

/-- The active form of a staged Home Map entry at a commit tick (R143, R491). -/
def hmapCommit (old staged t : Nat) : Nat :=
  let ep := if epochFields old = epochFields staged then HMap.epoch old else HMap.epoch old + 1
  let tt := if HMap.state staged = 2 && HMap.state old != 2 then t else HMap.transTick old
  setBits (setBits staged 136 16 ep) 152 64 tt

/-- A commit leaves K, GBASE and the member FEIDs of a group as they are (R469). -/
def sgSame (old staged : Nat) : Bool :=
  SG.gstate old != 0 && SG.k old = SG.k staged && SG.gbase old = SG.gbase staged
    && (List.range (SG.k old + 2)).all (fun m => SG.member old m = SG.member staged m)

/-- Stripes of the range of a Home Map entry (R471). -/
def stripesOf (e k : Nat) : Nat := ceilDiv ((HMap.last e + 1 - HMap.base e) * 2 ^ 21) (k * 4096)

/-- The active form of a staged group entry (R469); `range` is the Home Map entry that names it. -/
def sgCommit (old staged : Nat) (range : Option Nat) : Nat :=
  if SG.gstate staged = 0 then staged
  else
    let e :=
      if sgSame old staged then
        let e := SG.setMask (SG.setStripes (SG.setCursor (SG.setGstate staged (SG.gstate old)) (SG.cursor old)) (SG.stripes old)) (SG.mask old)
        (List.range 16).foldl (fun e m => SG.setMstate e m (SG.mstate old m)) e
      else
        let e := SG.setMask (SG.setCursor (SG.setGstate staged 1) 0) 0
        (List.range (SG.k e + 2)).foldl (fun e m => SG.setMstate e m 0) e
    match range with
    | some h => SG.setStripes e (stripesOf h (SG.k e))
    | none => e

namespace Dev

def modCommit (d : Dev) (f : CommitState → CommitState) : Dev := { d with commit := f d.commit }

/-! ### Staged parts -/

/-- Instances at which a staged or an active entry differs from its default. -/
def stagedKeys (d : Dev) (stage active : Nat) : List Nat :=
  ((d.instances stage).map Prod.fst ++ (d.instances active).map Prod.fst).eraseDups

/-- Compositions that differ between staged and active (R566). -/
def changedComps (d : Dev) : Nat :=
  let rec1 := (List.range 64).filter (fun c => d.reg (Reg.compStage c) != d.reg (Reg.compActive c)
    || d.reg (Reg.membersStage c) != d.reg (Reg.membersActive c) || d.reg (Reg.gwStage c) != d.reg (Reg.gwActive c))
  let named := fun (e : Nat) => if HMap.state e = 0 then [] else [HMap.comp e]
  let hm := (d.stagedKeys 0x340003 0x340004).flatMap (fun i =>
    let s := d.reg (Reg.hmapStage i)
    let a := d.reg (Reg.hmapActive i)
    if hmapForm s = hmapForm a then [] else named s ++ named a)
  let owner := fun (r : Nat) => if Region.state r = 1 then [Region.comp r] else []
  let rg := (d.stagedKeys 0x380003 0x380004).flatMap (fun i =>
    let s := d.reg (Reg.regionStage i)
    let a := d.reg (Reg.regionActive i)
    if s = a then [] else owner s ++ owner a)
  let gr := (d.stagedKeys 0x560003 0x560004).flatMap (fun g =>
    let s := d.reg (Reg.sgStage g)
    let a := d.sg g
    if sgCommit a s none = a then []
    else (d.hmapActive.filter (fun e => HMap.state e.2 != 0 && HMap.stripe e.2 && HMap.group e.2 = g)).map (fun e => HMap.comp e.2)
      ++ (d.hmapStaged.filter (fun e => HMap.stripe e.2 && HMap.group e.2 = g)).map (fun e => HMap.comp e.2))
  maskOf ((rec1 ++ hm ++ rg ++ gr).eraseDups)

/-- The staged parts as bytes, each entry that differs from its default with its number (R566; the order is the model's). -/
def stagedBytes (d : Dev) : Bytes :=
  [(0x810003, 64), (0x810005, 512), (0x810007, 48), (0x340003, 32), (0x380003, 16), (0x560003, 64)].flatMap (fun x =>
    (d.instances x.1).flatMap (fun e => leBytes 2 e.1 ++ leBytes x.2 e.2))

/-! ### Packets -/

/-- Note a COMMIT packet as forwarded in this tick. -/
def noteCommit (d : Dev) (src : Nat) (m : CommitMsg) : Dev :=
  let t := d.tick
  d.modCommit (fun C => { C with seen := C.seen.filter (fun k => t ≤ k.headD 0 + 1) ++ [t :: commitId src m] })

/-- Send a COMMIT packet of this switch on every plane port. -/
def sendCommit (d : Dev) (m : CommitMsg) : Dev :=
  let m := { m with sw := d.dom.swId }
  (d.noteCommit d.dom.swId m).flood none (d.ctrl 0x03 5 m.bytes)

/-- A COMMIT packet arrives on a plane port: forwarded before it is acted on (R56), its copies dropped. A switch without a place forwards too,
and does not act (R38, R56). -/
def takeCommit (d : Dev) (port src : Nat) (m : CommitMsg) : Bool × Dev :=
  if !d.isActive port || d.role port != 1 || d.ownId = some src then (false, d.ctrlDrop port)
  else if d.commit.seen.any (fun k => k.tail = commitId src m && d.tick ≤ k.headD 0 + 1) then (false, d)
  else (d.ownId.isSome, (d.noteCommit src m).flood none { d.ctrl 0x03 5 m.bytes with srcSw := src })

/-! ### The sequence (R566 to R569) -/

/-- A commit of this switch's command, or one it had frozen for, is aborted (R566, R567). -/
def aborted (d : Dev) (reason : Nat) : Dev :=
  let d := d.modCommit (fun C => { C with frozen := none, taker := false })
  ((d.setReg Reg.commitState 4).setReg Reg.commitReason reason).bump Reg.commitAborts

/-- The OR of the CHANGED masks after a sequence, or all ones beyond the history (R569). -/
def changedSince (d : Dev) (seq : Nat) : Nat :=
  let cur := d.reg Reg.commitSeq
  let later := d.commit.history.filter (fun h => seq < h.1)
  if cur < seq || later.length < cur - seq then 2 ^ 64 - 1 else later.foldl (fun m h => m ||| h.2) 0

/-- The master ends its sequence without a commit (R566 step 4). -/
def masterAbort (d : Dev) (reason : Nat) : Dev :=
  let d := d.sendCommit { op := 5, reason := reason, seq := d.commit.seq }
  (d.modCommit (fun C => { C with lead := none })).aborted reason

/-- Every switch whose beacon the master has received in the last 4 ticks is READY: the commit is announced (R566 step 4). -/
def tryAnnounce (d : Dev) : Dev :=
  let live := (members 32 d.dom.planeSet).filter (fun s => s = d.dom.swId || (Tab.look d.dom.beacons s).any d.recent)
  if !d.isMaster || d.commit.lead.isNone || d.commit.announced.isSome || !live.all (fun s => bit d.commit.ready s) then d
  else
    let t := d.tick + d.reg Reg.commitLead
    let ch := d.commit.union
    let seq := d.commit.seq
    let d := d.sendCommit { op := 4, seq := seq, tick := t, changed := ch }
    (d.modCommit (fun C => { C with announced := some (t, seq, ch) })).setReg Reg.commitState 2

/-- A READY reaches the master. -/
def onReady (d : Dev) (sw : Nat) (m : CommitMsg) : Dev :=
  if !d.isMaster || d.commit.lead.isNone || m.seq != d.commit.seq then d
  else (d.modCommit (fun C => { C with ready := setBit C.ready sw true, union := C.union ||| m.changed })).tryAnnounce

/-- A NOT_READY reaches the master: ABORT, and DIRTY for a stale switch (R566 step 4, R569). -/
def onNotReady (d : Dev) (m : CommitMsg) : Dev :=
  if !d.isMaster || d.commit.lead.isNone || d.commit.announced.isSome || m.seq != d.commit.seq then d
  else
    let seq := d.commit.seq
    let d := d.masterAbort m.reason
    if m.reason = 4 then d.sendCommit { op := 6, seq := seq, tick := d.reg Reg.commitSeq, changed := d.changedSince m.tick } else d

/-- A switch takes a PREPARE: it freezes, checks and answers (R566 step 3); one whose Campion is down does not answer (R577). -/
def prepare (d : Dev) (seq : Nat) : CommitMsg × Dev :=
  let d := d.modCommit (fun C => { C with frozen := some d.tick, seq := seq, changed := d.changedComps })
  let d := d.setReg Reg.commitState 1
  if d.reg Reg.commitSeq + 1 != seq then ({ op := 3, reason := 4, seq := seq, tick := d.reg Reg.commitSeq }, d)
  else if !d.partsOk then ({ op := 3, reason := 3, seq := seq }, d)
  else
    let dig := Config.shake256 d.stagedBytes 32
    ({ op := 2, seq := seq, changed := d.commit.changed, digest := dig }, d.setReg Reg.stageDigest (leNat (padTo 32 dig)))

/-- The master starts a sequence, or answers that one is in progress: its own, or one announced by a master before it, whose tick is still
to come (R55, R566 step 2). -/
def masterCommit (d : Dev) (own : Bool) : Dev :=
  if d.commit.lead.isSome || d.commit.announced.isSome then
    let d := d.sendCommit { op := 5, reason := 2 }
    if own then (d.setReg Reg.commitReason 2).bump Reg.commitAborts else d
  else
    let seq := d.reg Reg.commitSeq + 1
    let d := d.sendCommit { op := 1, seq := seq }
    let d := d.modCommit (fun C => { C with lead := some d.tick, seq := seq, ready := 0, union := 0, leader := d.dom.swId })
    if !d.campionUp then d
    else
      let r := d.prepare seq
      if r.1.op = 2 then r.2.onReady d.dom.swId r.1 else r.2.onNotReady r.1

/-- COMMIT is written to 0x8100:09 (R566 step 1). -/
def commitCmd (d : Dev) : Dev :=
  let d := if d.commit.frozen.isSome then d else d.setReg Reg.commitState 1
  if d.ownId.isNone || d.reg Reg.masterCur = 0xFF then d.aborted 1
  else if d.isMaster then d.masterCommit true
  else (d.modCommit (fun C => { C with taker := true })).sendCommit { op := 1 }

/-- A PREPARE: of a taking switch for the master, or of the master for every switch. -/
def onPrepare (d : Dev) (src : Nat) (m : CommitMsg) : Dev :=
  if m.seq = 0 then (if d.isMaster then d.masterCommit false else d)
  else if !d.isFromMaster src || !d.campionUp then d
  else
    let r := (d.modCommit (fun C => { C with taker := false, leader := src })).prepare m.seq
    r.2.sendCommit r.1

/-- An ANNOUNCE fixes the commit tick of a switch that has frozen for its sequence (R566 step 4), also where its sender is no longer the master
when it arrives (R55). -/
def onAnnounce (d : Dev) (src : Nat) (m : CommitMsg) : Dev :=
  if !(d.isFromMaster src || d.commit.leader = src) || d.commit.frozen.isNone || m.seq != d.commit.seq then d
  else (d.modCommit (fun C => { C with announced := some (m.tick, m.seq, m.changed) })).setReg Reg.commitState 2

/-- An ABORT: sequence 0 answers a command while a commit is in progress, which goes on (R566). -/
def onAbort (d : Dev) (src : Nat) (m : CommitMsg) : Dev :=
  if !d.isFromMaster src then d
  else if m.seq = 0 then
    if !d.commit.taker then d
    else if d.commit.frozen.isNone then d.aborted m.reason
    else ((d.modCommit (fun C => { C with taker := false })).setReg Reg.commitReason m.reason).bump Reg.commitAborts
  else if d.commit.announced.isNone && d.commit.frozen.isSome && m.seq = d.commit.seq then d.aborted m.reason
  else d

/-- A DIRTY reaches a stale switch: the compositions that changed without it are fenced; the rules give the cause no event code, which is a
free value (R569, log 10). -/
def onDirty (d : Dev) (src : Nat) (m : CommitMsg) : Dev :=
  if !d.isFromMaster src || d.reg Reg.commitSeq = m.tick then d
  else
    let r := d.fresh
    (r.2.modCommit (fun C => { C with dirty := some m.tick })).fenceOwn (r.1 % 65536) (fun c => bit m.changed c)

/-- A COMMIT packet arrives. -/
def commitIn (d : Dev) (port src : Nat) (m : CommitMsg) (f : Dev → Dev) : Dev :=
  let r := d.takeCommit port src m
  if r.1 then f r.2 else r.2

/-- 200 ticks have passed after the master's PREPARE (R566 step 4). -/
def answerLate (d : Dev) : Dev :=
  if d.commit.announced.isSome || !d.commit.lead.any (fun t => decide (t + 200 ≤ d.tick)) then d else d.masterAbort 5

/-- 264 ticks have passed after a PREPARE without ANNOUNCE (R567). -/
def freezeLate (d : Dev) : Dev :=
  if d.commit.announced.isSome || !d.commit.frozen.any (fun t => decide (t + 264 ≤ d.tick)) then d else d.aborted 5

/-! ### The commit edge (R143, R469, R491, R493, R509, R558, R559, R570) -/

/-- Home Map, regions and stripe groups become active at a tick. A stripe keeps its mark where its group's members change (R493), and a spare that
a commit makes valid serves from the next edge on (R480). -/
def applyTables (d : Dev) (t : Nat) : Dev :=
  let was := d.hmapActive
  let oldSg := d.instances 0x560004
  let d := d.each (d.stagedKeys 0x340003 0x340004) (fun d i =>
    d.setReg (Reg.hmapActive i) (hmapCommit (d.reg (Reg.hmapActive i)) (d.reg (Reg.hmapStage i)) t))
  let d := d.each (d.stagedKeys 0x380003 0x380004) (fun d i => d.setReg (Reg.regionActive i) (d.reg (Reg.regionStage i)))
  let d := d.each (d.stagedKeys 0x560003 0x560004) (fun d g =>
    let range := (d.hmapActive.find? (fun e => HMap.state e.2 != 0 && HMap.stripe e.2 && HMap.group e.2 = g)).map Prod.snd
    let old := d.sg g
    let new := d.reg (Reg.sgStage g)
    let d := d.setSg g (sgCommit old new range)
    let d := if sgSame old new then d else d.modGroup g (fun G => { unverified := G.unverified })
    if [0, 1].any (fun i => SG.spareValid new i && !SG.spareValid old i) then d.holdRebuild g else d)
  d.each (d.hmapActive.filter (fun e => HMap.state e.2 != 0 && HMap.stripe e.2)) (fun d e =>
    let g := HMap.group e.2
    let old := (was.find? (fun o => o.1 = e.1)).map Prod.snd
    let kept := old.any (fun o => HMap.state o != 0 && HMap.stripe o && HMap.group o = g && HMap.base o = HMap.base e.2
      && (oldSg.find? (fun x => x.1 = g)).any (fun x => SG.k x.2 = SG.k (d.sg g)))
    if kept && old.any (fun o => HMap.planes o = HMap.planes e.2) then d
    else d.modGroup g (fun G => { G with unverified := if kept then G.unverified ++ [{ old := old.getD 0 }] else [{ old := 0 }] }))

/-- A fencing condition of a composition holds now: its cause (R34, R239, R486, R502, R503, R505, R509). -/
def fenceCause (d : Dev) (c : Nat) : Option Nat :=
  let mine := d.hmapActive.filter (fun e => HMap.state e.2 != 0 && HMap.comp e.2 = c)
  if mine.any (fun e => HMap.stripe e.2 && SG.gstate (d.sg (HMap.group e.2)) = 4) then some Ev.groupLost
  else if [0, 1, 2, 3].any (fun q => decide (d.level q < 2) && mine.any (fun e => d.homesIn e.2 q)) then some Ev.svcChange
  else if mine.any (fun e => !HMap.stripe e.2 && (d.portOfFeid (HMap.tray e.2)).isNone) then some Ev.portDown
  else if (List.range 12).any (fun s => d.reg (Reg.hbmState s) = 4 && (d.compsInStack s).contains c) then some Ev.hbmFailed
  else if [0, 1, 2, 3].any (fun q => bit d.health.deadDies q && (d.compsOfWindow (3 * q * stackBytes) (3 * stackBytes)).contains c) then
    some Ev.dieFailed
  else if (members 32 d.dom.lostSwitches).any (fun s => (d.compsOfSwitch s).contains c) then some (d.fresh.1 % 65536)
  else none

/-- A commit ends a composition's fence, unless its condition still holds (R509, R559). -/
def unfence (d : Dev) (c : Nat) : Dev :=
  if !d.fenced c then d
  else
    let d := (d.setReg Reg.fenced (setBit (d.reg Reg.fenced) c false)).event 4 { code := Ev.compUnfenced, comp := c }
    match d.fenceCause c with
    | some code => d.fresh.2.fence c code d.dom.swId false
    | none => d

/-- New class weights of a composition: what is left of its allowances was refilled at this edge with the old ones, and the new ones apply from the
edge (R564, R570). -/
def reweigh (d : Dev) (c : Nat) (old : Nat → Nat) : Dev :=
  { d with allowance := d.allowance.filterMap (fun (kv : Nat × Int) =>
      if kv.1 / 32 != c then some kv
      else
        let a : Int := d.allowanceOf c (kv.1 / 4 % 8)
        let r := min a (kv.2 - (old (kv.1 / 4 % 8) : Int) + a)
        if a = 0 || r = a then none else some (kv.1, r)) }

/-- Composition records, members and gateway sets become active; UNFENCE acts only at a commit, and a composition that is FREE loses its
jobs (R559, R570). -/
def applyComps (d : Dev) (isCommit : Bool) : Dev :=
  let d := d.each (List.range 64) (fun d c =>
    let s := d.reg (Reg.compStage c)
    let a := setBits s 8 8 0
    let old := fun (cls : Nat) => d.allowanceOf c cls
    let d := (d.setReg (Reg.compActive c) a).setReg (Reg.membersActive c) (d.reg (Reg.membersStage c))
    let d := d.setReg (Reg.gwActive c) (d.reg (Reg.gwStage c))
    let d := if isCommit then d.setReg (Reg.compStage c) a else d
    let d := d.reweigh c old
    let d := if bits a 0 8 = 0 then
        let d := d.each ((d.jobs.recs.filter (fun kv => kv.2.pkt.comp = c)).map Prod.fst) (fun d k => d.endJob k St.rights 0xFF)
        (d.modTiers (fun T => { T with slots := Tab.keep T.slots (fun _ x => x.gone || x.comp != c), waits := T.waits.filter (fun w => w.1 != c),
                                       reqs := T.reqs.filter (fun r => r.comp != c) })).retestWaits
      else d
    if isCommit && bit s 8 then d.unfence c else d)
  d

/-- The edge of an announced commit tick (R566 step 5). -/
def applyCommit (d : Dev) : Dev :=
  match d.commit.announced with
  | none => d
  | some (t, seq, ch) =>
    if d.tick < t then d
    else
      let own := d.commit.changed
      let d := d.modCommit (fun C => { C with frozen := none, announced := none, lead := none, taker := false, dirty := none,
                                              history := ((seq, ch) :: C.history).take 1024 })
      let d := { d with meter := { d.meter with flags := (members 64 own).foldl (fun f c => Tab.upd f c 0 (fun x => setBit x 2 true)) d.meter.flags } }
      let d := ((d.setReg Reg.commitSeq seq).setReg Reg.commitTick t).bump Reg.commits
      ((d.setReg Reg.commitState 3).applyTables t).applyComps true

/-- RESYNC is written: the staged parts apply at the next edge (R569); without a DIRTY there is no sequence to take. -/
def resyncCmd (d : Dev) : Dev := d.modCommit (fun C => { C with resync := C.dirty.isSome })

/-- The edge after a RESYNC (R569). -/
def applyResync (d : Dev) : Dev :=
  match if d.commit.resync then d.commit.dirty else none with
  | none => d
  | some seq =>
    let d := d.modCommit (fun C => { C with resync := false, dirty := none, history := [] })
    ((d.setReg Reg.commitSeq seq).applyTables d.tick).applyComps false

/-! ### Usage reports (R572 to R574) -/

/-- Bytes 0 to 159 of a usage report. -/
def usageBody (d : Dev) (c : Nat) (demand : Bool) (nonce : Bytes) : Bytes :=
  let first := !Tab.has d.meter.lastEnd c
  let flags := demand.toNat + ((Tab.getD d.meter.flags c 0 ||| ((d.fenced c).toNat * 2)) &&& 14) + first.toNat * 16
  leBytes 4 0x45475355 ++ leBytes 2 1 ++ leBytes 2 3469 ++ leBytes 8 (d.reg Reg.serialNumber) ++ leBytes 2 (d.reg Reg.domId)
    ++ leBytes 1 (d.reg Reg.switchId) ++ leBytes 1 c ++ leBytes 8 (d.reg (Reg.reportSeq c) + 1) ++ leBytes 8 (Tab.getD d.meter.lastEnd c 0)
    ++ leBytes 8 d.tick ++ leBytes 4 flags ++ leBytes 8 (d.reg (Reg.tileTicks c)) ++ leBytes 8 (d.reg (Reg.engineTicks c))
    ++ leBytes 8 (d.reg (Reg.tierhTicks c)) ++ leBytes 8 (d.reg (Reg.fabricIn c)) ++ leBytes 8 (d.reg (Reg.fabricOut c))
    ++ leBytes 8 (d.reg (Reg.reducedElems c)) ++ padTo 32 d.measDigest ++ padTo 32 nonce

/-- Sign a report of a composition, keep it and send it where its record names a destination. -/
def signUsage (d : Dev) (c : Nat) (demand : Bool) (nonce : Bytes) : Dev :=
  let body := d.usageBody c demand nonce
  let rep := body ++ padTo 3309 (Config.mldsaSign d.sec.attSeed body)
  let t := d.tick
  let d := (((d.setReg (Reg.lastReport c) (leNat rep)).bump (Reg.reportSeq c)).bump Reg.reportsSigned)
  let d := { d with meter := { d.meter with lastEnd := Tab.put d.meter.lastEnd c t, flags := Tab.del d.meter.flags c } }
  let r := d.reg (Reg.compActive c)
  if bits r 128 16 = 0xFFFF then d
  else d.sendKeyed { ptype := .msg, cls := 6, dst := bits r 128 12, comp := c, mqueue := bits r 144 16, payload := rep }

/-- The edges whose number is a multiple of 2^20. -/
def usagePeriodic (d : Dev) : Dev :=
  if !d.power.on || d.tick % 2 ^ 20 != 0 then d
  else d.each ((List.range 64).filter (fun c => bits (d.reg (Reg.compActive c)) 0 8 = 1)) (fun d c => d.signUsage c false [])

/-- 1 is written to 0x8200:09. -/
def usageDemand (d : Dev) (acc : Nat) : Dev := d.signUsage (d.regAs acc Reg.mtrSelect) true (leBytes 32 (d.regAs acc Reg.usageNonce))

end Dev

/-- COMMIT (R566). -/
def execCommit (acc : Nat) (s : State) : Ans := onDev (fun d => d.writeKey acc Reg.commitCmd (fun d => (Acc.done, d.commitCmd))) s
/-- RESYNC (R569). -/
def execResync (acc : Nat) (s : State) : Ans := onDev (fun d => d.writeKey acc Reg.commitCmd (fun d => (Acc.done, d.resyncCmd))) s
/-- COMMIT_PREPARE (R566). -/
def execCommitPrepare (port src : Nat) (m : CommitMsg) (s : State) : Ans :=
  onDev (fun d => (d.ctrlTaken port 5 m.bytes.length).commitIn port src { m with op := 1 } (fun d => d.onPrepare src m)) s
/-- COMMIT_READY (R566). -/
def execCommitReady (port src : Nat) (m : CommitMsg) (s : State) : Ans :=
  onDev (fun d => (d.ctrlTaken port 5 m.bytes.length).commitIn port src { m with op := 2 } (fun d => d.onReady src m)) s
/-- COMMIT_NOT_READY (R566). -/
def execCommitNotReady (port src : Nat) (m : CommitMsg) (s : State) : Ans :=
  onDev (fun d => (d.ctrlTaken port 5 m.bytes.length).commitIn port src { m with op := 3 } (fun d => d.onNotReady m)) s
/-- COMMIT_ANNOUNCE (R566). -/
def execCommitAnnounce (port src : Nat) (m : CommitMsg) (s : State) : Ans :=
  onDev (fun d => (d.ctrlTaken port 5 m.bytes.length).commitIn port src { m with op := 4 } (fun d => d.onAnnounce src m)) s
/-- COMMIT_ABORT (R566). -/
def execCommitAbort (port src : Nat) (m : CommitMsg) (s : State) : Ans :=
  onDev (fun d => (d.ctrlTaken port 5 m.bytes.length).commitIn port src { m with op := 5 } (fun d => d.onAbort src m)) s
/-- COMMIT_DIRTY (R569). -/
def execCommitDirty (port src : Nat) (m : CommitMsg) (s : State) : Ans :=
  onDev (fun d => (d.ctrlTaken port 5 m.bytes.length).commitIn port src { m with op := 6 } (fun d => d.onDirty src m)) s
/-- COMMIT_ANSWER_TIMEOUT (R566). -/
def execCommitAnswerTimeout (s : State) : Ans := onDev (fun d => d.answerLate) s
/-- COMMIT_FREEZE_TIMEOUT (R567). -/
def execCommitFreezeTimeout (s : State) : Ans := onDev (fun d => d.freezeLate) s
/-- COMMIT_APPLY (R566, R569). -/
def execCommitApply (s : State) : Ans := onDev (fun d => d.applyCommit.applyResync) s
/-- USAGE_REPORT_PERIODIC (R573). -/
def execUsageReportPeriodic (s : State) : Ans := onDev (fun d => d.usagePeriodic) s
/-- REPORT_CMD (R573). -/
def execReportCmd (acc : Nat) (s : State) : Ans := onDev (fun d => d.writeKey acc Reg.reportCmd (fun d => (Acc.done, d.usageDemand acc))) s

end Sys2Proof.Machine
end

