-- ==== Sys2Proof/Machine/Engines.lean ====
section
/-! DEFINITION. The gather and filter engines (R427 to R443), the expander's blocks (R458, R459) and the table buffer (R464). -/

namespace Sys2Proof.Machine

namespace QM

/-! ### GATHER (R428 to R436) -/

/-- Statuses that fail one element under ZERO_FILL (R434). -/
def softFails : List Nat :=
  [St.badDesc, St.unmapped, St.key, St.rights, St.ecc, St.lineLost, St.dataLost, St.keyRetired, St.timeout, St.pageFault]

/-- Index `j` of the list; none for a negative INT32 (R429). -/
def gatherIndex (e : QEnv) (j : Nat) : QM (Option Nat) := do
  let x := leNat (← readRaw e 0 (4 * j) 4)
  return if JD.fmt e.p e.node 0 = 8 && decide (2 ^ 31 ≤ x) then none else some x

/-- Offset of an element in the source, where it is in range (R429). -/
def gatherOff (e : QEnv) (x : Nat) : Option Nat :=
  let es := JD.param e.p e.node 1
  let st := if JD.param e.p e.node 2 = 0 then es else JD.param e.p e.node 2
  if x * st + es ≤ JD.olen e.p e.node 1 then some (x * st) else none

/-- An element fails its quantum: what the quantum has placed before it is written, with the status in the element's place of the error map (R430,
R434). -/
def elementFails (q : Nat) (e : QEnv) (j s : Nat) (stores : List (Nat × Bytes)) : QM Unit := do
  deliver e stores
  if JD.kind e.p e.node 2 = 1 then
    let d ← dev
    let first := ((Tab.look d.jobs.running e.unit).map (·.first)).getD j
    modDev (fun d => d.bump (Reg.gatherBytes q) ((j - first) * JD.param e.p e.node 1))
  if JD.nopnd e.p e.node = 4 && JD.kind e.p e.node 3 = 1 then writeVa e (JD.addr e.p e.node 3 + j) (leBytes 1 s)
  let d ← dev
  writeSectors e (((Tab.look d.jobs.running e.unit).map (·.sectors.length)).getD 0)

/-- The element at the architectural position (R430, R433, R434). -/
def gatherStep (q : Nat) (e : QEnv) (j : Nat) (spec : Option Bytes) : QM Unit := do
  let es := JD.param e.p e.node 1
  let zero := bit (JD.param e.p e.node 3) 0
  let idx ← gatherIndex e j
  let get : QM Bytes := do
    if e.failing != 0 then fail e.failing
    match idx with
    | none => return List.replicate es 0
    | some x =>
      match gatherOff e x with
      | none => fail St.badDesc
      | some off =>
        match spec with
        | some b => return b
        | none => readRaw e 1 off es
  let r : Except Nat Bytes ← tryCatch (do return .ok (← get)) (fun x => match x with
    | .status s => return .error s
    | x => throw x)
  let bs ← match r with
    | .ok b => pure b
    | .error s => do
      modDev (fun d => d.bump (Reg.elemFails q))
      if zero && softFails.contains s then pure (List.replicate es 0)
      else
        if softFails.contains s then
          let d ← dev
          elementFails q e j s (((Tab.look d.jobs.running e.unit).map (·.stores)).getD [])
        fail s
  putBytes e 2 (j * es) bs
  if JD.nopnd e.p e.node = 4 then putBytes e 3 j (leBytes 1 (match r with | .ok _ => 0 | .error s => s))
  modDev (fun d => d.bump (Reg.gatherIndices q))

/-! ### FILTER (R437 to R442) -/

/-- A column's value as a number. -/
def colNum (t v : Nat) : Num :=
  if t ≤ 3 then .fin false v 0
  else if t ≤ 7 then
    let z := toInt (8 * PD.width t) v
    .fin (decide (z < 0)) z.natAbs 0
  else decodeF (ffmt (t - 3)) v

/-- One predicate on a row (R438, R439). -/
def predHolds (pd : Bytes) (j : Nat) (row : Bytes) : Bool :=
  let t := PD.ctype pd j
  let v := le row (PD.col pd j) (PD.width t)
  let x := colNum t v
  let lo := colNum t (PD.lo pd j)
  let hi := colNum t (PD.hi pd j)
  let le' := fun (a b : Num) => !a.isNan && !b.isNan && !b.lt a
  match PD.cmp pd j with
  | 0 => x.eqv lo
  | 1 => !x.eqv lo
  | 2 => x.lt lo
  | 3 => le' x lo
  | 4 => lo.lt x
  | 5 => le' lo x
  | 6 => le' lo x && le' x hi
  | 7 => v &&& PD.lo pd j = PD.lo pd j
  | _ => v &&& PD.lo pd j != 0

/-- A row passes (R439). -/
def rowPasses (pd row : Bytes) : Bool :=
  let l := (List.range (PD.npred pd)).map (fun j => predHolds pd j row)
  let c := if PD.combine pd = 0 then l.all id else l.any id
  if PD.invert pd = 1 then !c else c

/-- Rows from the engine's position are evaluated; those that pass go out while the outputs have room (R440, R441). -/
def filterStep (q : Nat) (e : QEnv) (pos n : Nat) : QM Unit := do
  let p := e.p
  let i := e.node
  let rb := JD.param p i 1
  let pd ← readRaw e 1 0 (JD.olen p i 1)
  if !PD.ok pd rb then fail St.badDesc
  let bs ← readRaw e 0 (pos * rb) (n * rb)
  let d ← dev
  let kept := (((d.job e.job).bind (fun y => y.nodes[i]?)).map (·.kept)).getD 0 + ((Tab.look d.jobs.running e.unit).map (·.kept)).getD 0
  let pass := ((List.range n).map (fun r => (pos + r, slice bs (r * rb) rb))).filter (fun x => rowPasses pd x.2)
  let room := fun k unit => if JD.kind p i k = 1 then JD.olen p i k / unit else kept + pass.length
  pass.zipIdx.forM (fun x => do
    let k := kept + x.2
    if k < room 2 rb then putBytes e 2 (k * rb) x.1.2
    if k < room 3 4 then putBytes e 3 (4 * k) (leBytes 4 x.1.1))
  let total := kept + pass.length
  if pos + n = JD.param p i 0 && JD.kind p i 4 = 1 then putBytes e 4 0 (leBytes 8 total)
  modQuantum e (fun x => { x with kept := x.kept + pass.length })
  modDev (fun d => (d.bump (Reg.filterRowsIn q) n).bump (Reg.filterRowsOut q) pass.length)

end QM

namespace QM

/-- A quantum of a run of units reads a block of a coded operand (R460). -/
def readsBlock (e : QEnv) (w : Run) (k blk : Nat) : Bool :=
  (touches e.p e.node w).any (fun x => x.1 = k && x.2.2.2 = 0 && x.2.2.1 != 0 && decide (x.2.1 / 4096 ≤ blk)
    && decide (blk ≤ (x.2.1 + x.2.2.1 - 1) / 4096))

/-- Of some coded operands, the first whose stream holds these bytes in a block, which is decoded; the streams are read one after the other and no
further than that. -/
def decodeFirst (e : QEnv) (blk waited : Nat) (held : Nat × Nat × Bytes) : List Nat → QM Unit
  | [] => return ()
  | k :: ks => do
    if (← streamBlock e k blk) = held then
      modDev (fun d => d.bump (Reg.expandStall (unitQuad e.unit)) waited)
      let _ ← expandBlock e k blk
    else decodeFirst e blk waited held ks

/-- The block of a coded operand of some length that the quantum reads and whose stream holds these bytes is decoded; nothing where there is none. -/
def decodeAhead (e : QEnv) (w : Run) (len blk waited : Nat) (held : Nat × Nat × Bytes) : QM Unit :=
  decodeFirst e blk waited held ((codedInputs e).filter (fun k => JD.olen e.p e.node k = len && readsBlock e w k blk))

end QM

namespace Dev

/-- Change the quantum of a unit. -/
def modQuantum (d : Dev) (u : Nat) (f : Quantum → Quantum) : Dev := d.modJobs (fun J => { J with running := Tab.edit J.running u f })

/-- A gather engine completes the element at its position, where its reads have returned (R343, R430, R433). -/
def gatherElement (q e index : Nat) (m : Memory) (d : Dev) : Memory × Dev :=
  let u := 128 + 8 * q + e
  match if q < 4 && e < 2 then Tab.look d.jobs.running u else none with
  | none => (m, d)
  | some x =>
    if x.parked || x.first + x.count ≤ x.pos || index != x.pos then (m, d)
    else
      let r := attempt u (fun env _ => QM.gatherStep q env x.pos (Tab.look x.spec x.pos)) 4096 m d
      (r.2.1, if r.1 then r.2.2.modQuantum u (fun y => { y with pos := y.pos + 1, spec := Tab.del y.spec x.pos, failing := 0,
                                                                trays := y.trays.filter (fun a => a.index != some x.pos) }) else r.2.2)

/-- A speculative tier H read leaves its line alone: in M, in LOST or in error it is discarded (R342). -/
def specQuiet (d : Dev) (t : TlbEnt) (va n : Nat) : Bool :=
  let off := d.windowOff (daOf t va)
  isTierP (daOf t va) || (lineParts off n).all (fun x =>
    let l := x.1 / 128
    !(Tab.look d.coh.dir l).any (fun e => e.st = 3) && !d.coh.lost.contains l && !d.tiers.l2err.contains l
      && (d.badSectors x.1 x.2).isEmpty)

/-- Bytes that a speculative read of an index brings: none where there is no such element or where its lines would not be left alone; or why it
brings none yet (R340, R342). -/
def specBytes (u : Nat) (env : QEnv) (j : Nat) (m : Memory) (d : Dev) : Except QErr (Option Bytes) :=
  let es := JD.param env.p env.node 1
  let va := fun off => JD.addr env.p env.node 1 + off
  let quiet := fun off => JD.kind env.p env.node 1 != 1 || (QM.pieces (va off) es).all (fun pc =>
    (d.tlbLook env.ctx { unit := u, va := pc.1, kind := 0 }).1.any (fun t => d.specQuiet t pc.1 pc.2))
  let f : QM (Option Bytes) := do
    match ← QM.gatherIndex env j with
    | none => return none
    | some v => match QM.gatherOff env v with
      | none => return none
      | some off => if quiet off then return some (← QM.readRaw env 1 off es) else return none
  (StateT.run (ExceptT.run f) (m, d)).1

/-- How far ahead a gather engine may read: as many elements as its landing buffers hold, and at most 256 (R340, R427). -/
def specWindow (env : QEnv) : Nat := min 256 (262144 / max 1 (JD.param env.p env.node 1))

/-- A speculative gather read returns: it lands in a buffer of its index, or is discarded without trace; one of tier P is made and returns later
(R340 to R342, R427). -/
def speculative (q e ahead : Nat) (ok : Bool) (m : Memory) (d : Dev) : Dev :=
  let u := 128 + 8 * q + e
  match if q < 4 && e < 2 then Tab.look d.jobs.running u else none with
  | none => d
  | some x =>
    match d.envOf u x with
    | none => d
    | some (env, _) =>
      let j := x.pos + ahead
      let env := { env with index := some j }
      let done := fun (y : Quantum) => { y with trays := y.trays.filter (fun a => a.index != some j) }
      if x.parked || !d.flag Reg.specEnable || ahead = 0 || specWindow env < ahead || x.first + x.count ≤ j then d
      else if !ok then d.modQuantum u done
      else
        match specBytes u env j m d with
        | .ok (some b) => d.modQuantum u (fun y => done { y with spec := Tab.put y.spec j b })
        | .error (.tray l) => d.trayReads env l
        | _ => d.modQuantum u done

/-- The filter engine evaluates rows from its position, where its reads have returned: at most 64 KiB of them at a time, as it reads no further ahead
(R442). -/
def filterRows (q rows first : Nat) (m : Memory) (d : Dev) : Memory × Dev :=
  let u := 130 + 8 * q
  match if q < 4 then Tab.look d.jobs.running u else none with
  | none => (m, d)
  | some x =>
    let rowBytes := (d.job (x.quad * 256 + x.job)).elim 8 (fun j => JD.param j.pkt.payload x.node 1)
    let n := min (min rows (65536 / max 1 rowBytes)) (x.first + x.count - x.pos)
    if x.parked || n = 0 || first != x.pos then (m, d)
    else
      let r := attempt u (fun env _ => QM.filterStep q env x.pos n) 4096 m d
      (r.2.1, if r.1 then r.2.2.modQuantum u (fun y => { y with pos := y.pos + n }) else r.2.2)

/-- A tile's expander checks and decodes a block of its quantum's stream, for which a consumer has waited some cycles (R449, R458, R459). -/
def blockDecode (t nblk blk opLen waited : Nat) (held : Nat × Nat × Bytes) (m : Memory) (d : Dev) : Memory × Dev :=
  match if t < 120 && nblk = nblkOf opLen && blk < nblk then Tab.look d.jobs.running t else none with
  | none => (m, d)
  | some x =>
    if x.parked then (m, d) else (attempt t (fun env _ => QM.decodeAhead env x.cut opLen blk waited held) 4096 m d).2

/-- The job of a tile's slot would start a COMPRESS quantum with a RESULT output. -/
def slotWantsTable (d : Dev) (t : Nat) : Bool :=
  match (Tab.look d.jobs.slots t).bind (fun s => (d.job s.job).map (fun j => (s.job, j))) with
  | some (k, j) =>
    let p := j.pkt.payload
    ((List.range (JD.nnodes p)).find? (d.nodeReady k j t)).any (fun i => wantsTable p i)
  | none => false

end Dev

/-- ENGINE_QUANTUM_START (R425, R427): a gather or filter engine. -/
def execEngineQuantumStart (q e : Nat) (s : State) : Ans :=
  onMem (fun m d => if q < 4 && e < 3 then Dev.startOn (128 + 8 * q + e) m d else (m, d)) s
/-- GATHER_ELEMENT (R433, R434). -/
def execGatherElement (q e index : Nat) (found : Ecc) (s : State) : Ans := onMem (fun m d => Dev.gatherElement q e index m (d.strike found)) s
/-- SPECULATIVE_READ (R340 to R342). -/
def execSpeculativeRead (q e ahead : Nat) (ok : Bool) (found : Ecc) (s : State) : Ans :=
  onDevWith (fun _ m d => (d.strike found).speculative q e ahead ok m) s
/-- FILTER_ROWS (R440, R441). -/
def execFilterRows (q rows first : Nat) (found : Ecc) (s : State) : Ans := onMem (fun m d => Dev.filterRows q rows first m (d.strike found)) s
/-- BLOCK_DECODE (R449, R459). -/
def execBlockDecode (t nblk blk idx idxNext opLen : Nat) (block : Bytes) (waited : Nat) (s : State) : Ans :=
  onMem (Dev.blockDecode t nblk blk opLen waited (idx, idxNext, block)) s
/-- TABLE_BUFFER_WAIT (R464): a COMPRESS quantum with a RESULT output starts once its quadrant's buffer is free, else its wait is counted. -/
def execTableBufferWait (q t : Nat) (s : State) : Ans :=
  onMem (fun m d => if t < 120 && t / 30 = q && d.slotWantsTable t then Dev.startOn t m d else (m, d)) s

end Sys2Proof.Machine
end

