-- ==== Sys2Proof/Machine/Erasure.lean ====
section
/-! DEFINITION. Stripe groups as their own commands see them: failure of a member (R476), rebuild (R480 to R485), reverts (R491), the
resync pass (R493) and step fences (R494). -/

namespace Sys2Proof.Machine

namespace Dev

/-- An edge has passed since the group's last failure (R480, R481, R485). -/
def edgePast (d : Dev) (g : Nat) : Bool := (d.group g).held.all (fun t => t < d.tick)

/-- Bytes that a tick of 5 µs lets rebuild and resync write (R483). -/
def backShare (d : Dev) : Nat := 5 * d.reg Reg.rebuildMbps

/-- The rate lets another step begin. -/
def backReady (d : Dev) : Bool := d.backDebt < d.backShare

/-- At the first edge after a failure with a valid spare the rebuild starts (R480). One of another member that runs already goes on from stripe 0
with both, its stripe in progress given up as R485 gives it up (DEDUCED, log 187). -/
def rebuildStart (d : Dev) (g m : Nat) : Dev :=
  let e := d.sg g
  if !(SG.gstate e = 2 || SG.gstate e = 3) || SG.k e + 2 ≤ m || SG.mstate e m != 1 || (d.group g).restart || (d.freeSpares g).isEmpty
    || !d.groupServed g || !d.edgePast g then d
  else
    let q := SG.quad e
    let d := d.each ((d.groupOps g).filter (fun op => op.kind = .rebuild)) (fun d op => d.dropOp q op.id)
    let d := d.assignSpare g m
    (d.setSg g (SG.setCursor (SG.setGstate (d.sg g) 3) 0)).pump q

/-- The rebuild restarts at stripe 0 for every failed member that a spare remains for (R485). -/
def rebuildRestart (d : Dev) (g : Nat) : Dev :=
  let e := d.sg g
  if !(SG.gstate e = 2 || SG.gstate e = 3) || !(d.group g).restart || !d.groupServed g || !d.edgePast g then d
  else
    let d := (d.modGroup g (fun G => { G with restart := false })).bump Reg.rebuildRestarts
    let d := d.setSg g (SG.setCursor e 0)
    let d := d.each ((List.range (SG.k e + 2)).filter (fun m => SG.mstate e m = 1)) (fun d m => d.assignSpare g m)
    d.setSg g (SG.setGstate (d.sg g) (if SG.mask (d.sg g) = 0 then 2 else 3))

/-- A step of a background pass over a stripe takes its place in the home's order, with every line of the stripe (R473, R481, R493). -/
def backStep (d : Dev) (kind : OpKind) (g no hm s : Nat) : Dev :=
  let q := SG.quad (d.sg g)
  let pk : Packet := { ptype := .read, cls := 7, comp := HMap.comp hm, da := d.unitDa g hm s 0, rlen := SG.k (d.sg g) * 4096 }
  let op : HomeOp :=
    { id := (d.home q).nextOp, kind := kind, pkt := pk, hmapNo := no, hmap := hm, grp := some g, stripe := s, len := 4096, tick := d.tick }
  (d.addOp q { op with keys := keysOf op }).pump q

/-- A background step of the group is under way. -/
def stepping (d : Dev) (g : Nat) (kind : OpKind) : Bool := (d.groupOps g).any (fun o => o.kind = kind)

/-- One step of a rebuild (R481), at the first stripe from the cursor on that the plane holds, under the group's HMAP entry: its READs leave,
and the tray's answers carry it on. Past the last stripe the rebuild is complete. -/
def rebuildStripe (d : Dev) (g i s : Nat) : Dev :=
  let e := d.sg g
  match d.hmapOfGroup g with
  | none => d
  | some (no, hm) =>
    if SG.gstate e != 3 || (d.group g).restart || !d.groupServed g || SG.mask e = 0 || d.stepping g .rebuild
      || i != no || d.ownStripe hm (SG.cursor e) != some s || !d.edgePast g then d
    else if SG.stripes e ≤ s then d.rebuildDone g
    else if !d.backReady then d
    else d.backStep .rebuild g no hm s

/-- An entry still in TRANSITION at the edge of TRANS_TICK + 3 reverts (R491). -/
def transRevert (d : Dev) (i : Nat) : Dev :=
  let e := d.reg (Reg.hmapActive i)
  if HMap.state e != 2 || d.tick < HMap.transTick e + 3 then d
  else
    let e' := setBits (setBits (setBits e 50 2 1) 108 12 0) 136 16 (HMap.epoch e + 1)
    ((d.setReg (Reg.hmapActive i) e').bump Reg.transReverts).event 4
      { code := Ev.transRevert, comp := HMap.comp e, addr := HMap.base e * 2 ^ 21, feid := HMap.home e }

/-- The resync pass visits an unverified stripe (R493), in the group's quadrant and under its HMAP entry with the entry's epoch. -/
def resync (d : Dev) (g s i q ep : Nat) : Dev :=
  let e := d.sg g
  match d.hmapOfGroup g with
  | none => d
  | some (no, hm) =>
    if !(SG.gstate e = 1 || SG.gstate e = 2 || SG.gstate e = 3) || SG.stripes e ≤ s || d.ownStripe hm s != some s
      || !d.stripeUnverified g hm s || !d.groupServed g || d.stepping g .resync || !d.backReady
      || i != no || q != SG.quad e || ep != HMap.epoch hm then d
    else d.backStep .resync g no hm s

/-- A step fence is asked for: its fence tick is the next edge (R494). -/
def askStepFence (d : Dev) (c : Nat) : Option Dev :=
  if 63 < c then none else some { d with stepFences := Tab.put d.stepFences c {} }

/-- Kinds of operations that write for a requester. -/
def writes (k : OpKind) : Bool := k = .write || k = .posted || k = .merge

/-- Tier P writes of a composition that the homes took before an edge and that have not finished (R494). -/
def writesBefore (d : Dev) (c t : Nat) : Bool :=
  d.homes.any (fun (kv : Nat × Home) =>
    kv.2.ops.any (fun o => !o.tierH && o.pkt.comp = c && writes o.kind && decide (o.tick < t) && o.phase < 3)
      || kv.2.merges.any (fun (m : Nat × MergeRec) => !m.2.tierH && (m.2.atoms.any (fun p => p.comp = c)) && decide (m.2.tick < t)))

/-- Every write taken before the fence tick has finished (R494). -/
def stepFenceDone (d : Dev) (c : Nat) : Dev :=
  match (Tab.look d.stepFences c).bind (·.tick) with
  | none => d
  | some t =>
    if d.writesBefore c t then d
    else
      let d := { d with stepFences := Tab.del d.stepFences c }
      (d.setReg (Reg.stepFenceDone c) t).event 4 { code := Ev.stepFence, comp := c, detail := leBytes 8 t }

/-- FAIL_MEMBER of the accessor's group and member (R476). -/
def failMember (d : Dev) (acc : Nat) : Option Dev :=
  let g := d.regAs acc Reg.sgSelect
  let m := d.regAs acc Reg.sgMember
  let e := d.sg g
  if (SG.gstate e = 1 || SG.gstate e = 2 || SG.gstate e = 3) && decide (m < SG.k e + 2) && (SG.mstate e m = 0 || SG.mstate e m = 2) then
    some (d.memberFailed g m)
  else none

end Dev

/-- MEMBER_FAILED (R476, R477). -/
def execMemberFailed (group member : Nat) (s : State) : Ans := onDev (fun d => d.memberFailed group member) s
/-- FAIL_MEMBER (R476). -/
def execFailMember (acc : Nat) (s : State) : Ans := onDev (fun d => d.writeKey acc Reg.sgCmd (fun d => d.orReject (d.failMember acc))) s
/-- REBUILD_START (R480). -/
def execRebuildStart (group member : Nat) (s : State) : Ans := onDev (fun d => d.rebuildStart group member) s
/-- REBUILD_STRIPE (R481). -/
def execRebuildStripe (group entry stripe : Nat) (s : State) : Ans := onDev (fun d => d.rebuildStripe group entry stripe) s
/-- REBUILD_RESTART (R485). -/
def execRebuildRestart (group : Nat) (s : State) : Ans := onDev (fun d => d.rebuildRestart group) s
/-- TRANSITION_REVERT (R491). -/
def execTransitionRevert (entry : Nat) (s : State) : Ans := onDev (fun d => d.transRevert entry) s
/-- RESYNC_STRIPE (R493). -/
def execResyncStripe (group stripe entry quad epoch : Nat) (s : State) : Ans := onDev (fun d => d.resync group stripe entry quad epoch) s
/-- STEP_FENCE_REQ (R494). -/
def execStepFenceReq (acc comp : Nat) (s : State) : Ans :=
  onDev (fun d => d.writeKey acc Reg.stepFenceReq (fun d => d.orReject (d.askStepFence comp))) s
/-- STEP_FENCE_DONE (R494). -/
def execStepFenceDone (comp : Nat) (s : State) : Ans := onDev (fun d => d.stepFenceDone comp) s

end Sys2Proof.Machine
end

