-- ==== Sys2Proof/Machine/Health.lean ====
section
/-! DEFINITION. Health scores, expulsion and readmission (R515 to R523). Items are numbered as the state has them: ports p, endpoint peers
0x1000 + FEID, switch peers 0x2000 + switch ID, which is the coding of 0x7020:08 (R526). -/

namespace Sys2Proof.Machine

/-- Kind and number of an item: 0 port, 1 endpoint peer, 2 switch peer. -/
def itemKind (i : Nat) : Nat := i / 0x1000
def itemNo (i : Nat) : Nat := i % 0x1000

/-- A sum over the samples of the last 2^10 ticks. -/
def sampleSum (f : LinkSample → Nat) (l : List LinkSample) : Nat := l.foldl (fun n s => n + f s) 0

/-- Halvings from the trained width to the present one. -/
def halvingsOf (trained now : Nat) : Nat := if now = 0 then 0 else Nat.log2 trained - Nat.log2 now

/-- The next score (R516). -/
def nextScore (s w : Nat) : Nat := if w < s then s - ceilDiv (s - w) 8 else s + ceilDiv (w - s) 64

namespace Dev

/-! ### Scores (R515, R516) -/

/-- Raw score of a port (R515). -/
def rawScore (d : Dev) (p : Nat) : Nat :=
  let P := d.port p
  let sent := sampleSum (·.sent) P.samples
  let rate := if sent = 0 then 0 else sampleSum (·.resent) P.samples * 1000000 / sent
  1000 - (min 400 (rate / 25) + min 300 (50 * sampleSum (·.timeouts) P.samples) + min 300 (20 * sampleSum (·.uncorr) P.samples)
    + min 200 (P.serWorst / 1250) + min 450 (150 * halvingsOf P.trainedWidth (d.reg (Reg.portWidth p))) + min 400 (100 * P.retrains.length))

/-- Monitored ports, and the peer item of one. -/
def monitoredPorts (d : Dev) : List Nat := d.activePorts.filter (fun p => d.role p ≤ 1)
def peerItem (d : Dev) (p : Nat) : Nat := if d.role p = 0 then 0x1000 + d.reg (Reg.portExpectFeid p) % 0x1000 else 0x2000 + d.reg (Reg.portPeer p) % 0x1000

/-- Monitored peers. -/
def monitoredPeers (d : Dev) : List Nat := (d.monitoredPorts.map d.peerItem).eraseDups

def item (d : Dev) (i : Nat) : Health := Tab.getD d.health.items i {}
def setItem (d : Dev) (i : Nat) (h : Health) : Dev := d.modHealth (fun H => { H with items := Tab.put H.items i h })

/-- An item that is admitted: PROVISIONAL, or GOOD after the provisional period (R522). -/
def firstItem (d : Dev) : Health := { state := d.health.matured.toNat }

/-- The active ports of a peer. -/
def portsOfPeer (d : Dev) (i : Nat) : List Nat := d.monitoredPorts.filter (fun p => d.peerItem p = i)

/-- Every score of this edge. -/
def scoreAll (d : Dev) : Dev :=
  let d := d.each d.monitoredPorts (fun d p =>
    let h := (Tab.look d.health.items p).getD d.firstItem
    d.setItem p { h with score := nextScore h.score (d.rawScore p) })
  d.each d.monitoredPeers (fun d i =>
    let h := (Tab.look d.health.items i).getD d.firstItem
    d.setItem i { h with score := ((d.portsOfPeer i).map (fun p => (d.item p).score)).foldl min 1000 })

/-! ### Crossings (R518, R521) -/

/-- An event about an item. -/
def itemEvent (d : Dev) (code i : Nat) : Dev :=
  let q := if itemKind i = 0 then quadOf i else 4
  d.event q { code := code, unit := itemNo i, feid := if itemKind i = 1 then itemNo i else 0xFFFF, detail := leBytes 1 (itemKind i) }

/-- Items cross below the threshold, or return above it. -/
def crossAll (d : Dev) : Dev :=
  let thr := d.reg Reg.expelThresh
  let t := d.tick
  d.each d.health.items (fun d (kv : Nat × Health) =>
    let h := kv.2
    if h.state = 1 && h.score < thr then
      let d := (d.setItem kv.1 { h with state := 2 }).itemEvent Ev.healthBelow kv.1
      if itemKind kv.1 = 0 then d else d.modHealth (fun H => { H with crossings := H.crossings ++ [t] })
    else if (h.state = 2 || h.state = 4) && thr ≤ h.score then d.setItem kv.1 { h with state := 1 }
    else d)

/-- Monitored peers below the threshold that are not expelled. -/
def peersBelow (d : Dev) : Nat := (d.monitoredPeers.filter (fun i => (d.item i).state = 2 || (d.item i).state = 4)).length

/-- The test of R521. -/
def systemicTest (d : Dev) : Dev :=
  let t := d.tick
  let d := d.modHealth (fun H => { H with crossings := H.crossings.filter (fun c => t < c + d.reg Reg.systemicTicks) })
  let limit := d.reg Reg.systemicPct * d.monitoredPeers.length
  let n := d.health.crossings.length
  let mark := fun (a b : Nat) (d : Dev) =>
    d.modHealth (fun H => { H with items := Tab.mapV H.items (fun _ h => if h.state = a then { h with state := b } else h) })
  if d.flag Reg.systemic then
    if n = 0 && (d.peersBelow * 100 < limit || d.peersBelow = 0) then
      mark 4 2 ((d.setReg Reg.systemic 0).event 4 { code := Ev.systemicOff })
    else mark 2 4 d
  else if limit < n * 100 then mark 2 4 (((d.setReg Reg.systemic 1).bump Reg.systemicEpisodes).event 4 { code := Ev.systemicOn })
  else d

/-! ### Expulsion (R519, R520) -/

/-- A peer every port of which is below. -/
def wholePeer (d : Dev) (i : Nat) : Bool :=
  let ps := d.portsOfPeer i
  !ps.isEmpty && ps.all (fun p => decide ((d.item p).score < d.reg Reg.expelThresh))

/-- The items R519 takes, in its order. -/
def expelList (d : Dev) : List Nat :=
  let low := fun (h : Health) => h.state = 2 || h.state = 4
  let peers := (d.health.items.filter (fun (kv : Nat × Health) => itemKind kv.1 != 0 && low kv.2 && d.wholePeer kv.1)).map Prod.fst
  let ports := (d.health.items.filter (fun (kv : Nat × Health) =>
    itemKind kv.1 = 0 && low kv.2 && d.isActive kv.1 && !peers.contains (d.peerItem kv.1))).map Prod.fst
  sortBy (fun i => (d.item i).score * 0x1000 + itemNo i) (peers ++ ports)

/-- A port enters HELD by an expulsion. -/
def holdPort (d : Dev) (p : Nat) : Dev :=
  let d := if Tab.has d.health.items p then d.setItem p { d.item p with state := 3 } else d
  (d.leaveActive p 8).modPort p (fun P => { P with expelled := true })

/-- The ports of an item that are in service or on the way to it. -/
def portsOfItem (d : Dev) (i : Nat) : List Nat :=
  match itemKind i with
  | 0 => [i]
  | 1 => (d.liveStates.map Prod.fst).filter (fun p => d.role p = 0 && d.portState p != 0 && d.reg (Reg.portExpectFeid p) = itemNo i)
  | _ => (d.liveStates.map Prod.fst).filter (fun p => d.role p = 1 && d.portState p != 0 && d.reg (Reg.portPeer p) = itemNo i)

/-- Expel an item. -/
def expel (d : Dev) (i : Nat) : Dev :=
  let t := d.tick
  let ps := d.portsOfItem i
  let d := (d.setItem i { d.item i with state := 3 }).modHealth (fun H => { H with expulsions := H.expulsions ++ [t] })
  let d := (d.bump Reg.expulsions).itemEvent Ev.expelled i
  let d := d.each ps (fun d p => d.holdPort p)
  d.sendRecovery { op := 2, reason := Ev.expelled, kind := itemKind i, id := itemNo i }

/-- Expel what the budget admits; the rest becomes FLAGGED. -/
def expelAll (d : Dev) : Dev :=
  let t := d.tick
  let d := d.modHealth (fun H => { H with expulsions := H.expulsions.filter (fun e => t < e + 2 ^ d.reg Reg.expelWindowLog2) })
  if !d.flag Reg.healthEnable || d.flag Reg.systemic then d
  else
    d.each d.expelList (fun d i =>
      if d.health.expulsions.length < d.reg Reg.expelBudget then d.expel i
      else if (d.item i).state = 2 then
        ((d.setItem i { d.item i with state := 4 }).bump Reg.expelDeferrals).itemEvent Ev.expelDeferred i
      else d)

/-- The health update of an edge (R515 to R521). -/
def healthEdge (d : Dev) : Dev :=
  let t := d.tick
  let d := { d with ports := Tab.mapV d.ports (fun _ (P : Port) =>
    { P with samples := P.samples.filter (fun s => t < s.tick + 1024), retrains := P.retrains.filter (fun r => t < r + 2 ^ 20) }) }
  d.scoreAll.crossAll.systemicTest.expelAll

/-- The provisional period is over (R522). -/
def provisionalOver (d : Dev) : Dev :=
  if d.health.matured || d.tick < d.health.provisionalEnd then d
  else d.modHealth (fun H =>
    { H with matured := true, items := Tab.mapV H.items (fun _ h => if h.state = 0 then { h with state := 1 } else h) })

/-- A write of an item to 0x7020:0F (R523); a coding 0x7020:08 does not have is refused. -/
def readmit (d : Dev) (i : Nat) : Option Dev :=
  if 0x3000 ≤ i || (itemKind i = 0 && 384 ≤ itemNo i) then none
  else
    let again := fun (d : Dev) (j : Nat) => if Tab.has d.health.items j then d.setItem j { score := 1000, state := 1 } else d
    let ps := (d.portsOfItem i).filter (fun p => (d.port p).expelled)
    let d := again d i
    some (d.each ps (fun d p =>
      let d := (again d p).modPort p (fun P => { P with expelled := false })
      if d.portState p = 8 then d.untrained p 1 else d))

end Dev

/-- PROVISIONAL_END (R522). -/
def execProvisionalEnd (s : State) : Ans := onDev (fun d => d.provisionalOver) s
/-- HEALTH_READMIT (R523). -/
def execHealthReadmit (acc item : Nat) (s : State) : Ans :=
  onDev (fun d => d.writeKey acc Reg.readmit (fun d => d.orReject (d.readmit item))) s

end Sys2Proof.Machine
end

