-- ==== Sys2Proof/Machine/Logs.lean ====
section
/-! DEFINITION. Delivery of records into the hosts' event logs and the hosts' CONS counters (R279, R513, R514). -/

namespace Sys2Proof.Machine

namespace Dev

def evlogProdKey : HostId → Nat
  | .ha => Reg.evlogProdHa
  | .hb => Reg.evlogProdHb
def evlogConsKey : HostId → Nat
  | .ha => Reg.evlogConsHa
  | .hb => Reg.evlogConsHb
def flogConsKey : HostId → Nat
  | .ha => Reg.flogConsHa
  | .hb => Reg.flogConsHb

/-- A host's event log is full (R278, R514). -/
def evlogFull (d : Dev) (h : HostId) : Bool := (d.reg (evlogProdKey h) + 65536 - d.reg (evlogConsKey h)) % 65536 = 4096

/-- The record of a source log that is delivered next to a host: the waiting one of lowest SEQ (R514). -/
def nextForHost (d : Dev) (h : HostId) (l : Nat) : Option (Nat × LogRec) :=
  minBy (fun kv : Nat × LogRec => kv.2.seq) ((d.log l).recs.filter (fun (kv : Nat × LogRec) => d.recWaitsFor kv.2 h))

/-- The delivery engine copies a record into a host's log, and the host hears of it once (R513, R514). -/
def deliver (d : Dev) (h : HostId) (l : Nat) : Dev :=
  match d.nextForHost h l with
  | none => d
  | some (slot, r) =>
    if !(d.host h).up || d.evlogFull h then d
    else
      let p := d.reg (evlogProdKey h)
      let done := match h with
        | .ha => { r with doneHA := true }
        | .hb => { r with doneHB := true }
      let d := d.modLog l (fun L => { L with recs := Tab.put L.recs slot done })
      let d := d.emit (.hostWrite h (d.evlogBase h + p % 4096 * 64) r.bytes)
      let d := d.setReg (evlogProdKey h) ((p + 1) % 65536)
      if (d.host h).armed0 then (d.msix h 0).modHost h (fun H => { H with armed0 := false }) else d

/-- A CONS counter of a host is written: its vector may send again (R279, R514). -/
def evlogCons (d : Dev) (h : HostId) (cons : Nat) : Dev :=
  (d.setReg (evlogConsKey h) (cons % 65536)).modHost h (fun H => { H with armed0 := true })
def flogConsSet (d : Dev) (h : HostId) (cons : Nat) : Dev :=
  (d.setReg (flogConsKey h) (cons % 65536)).modHost h (fun H => { H with armed1 := true })

end Dev

/-- EVENT_DELIVERY (R514). -/
def execEventDelivery (h : HostId) (log : Nat) (s : State) : Ans := onDev (fun d => d.deliver h log) s
/-- EVLOG_CONS_WRITE (R514): by the host, through its mailbox. -/
def execEvlogConsWrite (h : HostId) (cons : Nat) (s : State) : Ans :=
  onDev (fun d => d.writeKey (Dev.hostAcc h) (Dev.evlogConsKey h) (fun d => (Acc.done, d.evlogCons h cons))) s
/-- FLOG_CONS_WRITE (R279): by the host, through its mailbox. -/
def execFlogConsWrite (h : HostId) (cons : Nat) (s : State) : Ans :=
  onDev (fun d => d.writeKey (Dev.hostAcc h) (Dev.flogConsKey h) (fun d => (Acc.done, d.flogConsSet h cons))) s

end Sys2Proof.Machine
end

