-- ==== Sys2Proof/Machine/HostPort.lean ====
section
/-! DEFINITION. The host ports (R587 to R594): link up and reset, send slots, receive rings, MSI-X. -/

namespace Sys2Proof.Machine

/-- Number of a host in the entries of 0x1200: 0 HA, 1 HB (R599). -/
def hostNo : HostId → Nat
  | .ha => 0
  | .hb => 1

namespace Dev

/-- The port's PCIe reference is present (R635, R637). -/
def pcieRef (d : Dev) (h : HostId) : Bool := !bit d.power.pcieLost (hostNo h)

/-- The link is in L0 with Bus Master Enable set (R587); L0 shows the port's reference present. -/
def hostLinkUp (d : Dev) (h : HostId) (width gen : Nat) : Dev :=
  if !d.power.on || d.power.stopping then d
  else
    let d := d.setPower { d.power with pcieLost := setBit d.power.pcieLost (hostNo h) false }
    d.modHost h (fun H => { H with up := true, width := width % 16, gen := gen % 16 })

/-- A Conventional Reset, Function Level Reset or link loss of a host port: send slots, ring counters, mailbox and MSI-X are reset, the HOST
queue is flushed, the mailbox's accessor ends (R587, R604). -/
def hostReset (d : Dev) (h : HostId) : Dev :=
  let n := hostNo h
  let d := d.modHost h (fun _ => {})
  let d := ((d.setReg (Reg.sendBusy n) 0).setReg (Reg.rxringProd n) 0).setReg (Reg.rxringCons n) 0
  let d := { d with waiting := Tab.keep d.waiting (fun k _ => k / 8 != (Ingress.host h).num) }
  (d.flushUnit (hostUnit h)).endAccessor (hostAcc h)

/-! ### Sending (R591) -/

/-- A discard is counted. -/
def sendDrop (d : Dev) (h : HostId) : Dev := d.bump (Reg.sendDrops (hostNo h))

/-- The slot is free and empty again. -/
def dropSlotOf (d : Dev) (h : HostId) (slot : Nat) : Dev := d.modHost h (fun H => { H with slots := Tab.del H.slots slot })

/-- A packet is taken from a send slot, with the host's FEID as its source. A CTRL packet of any other type fails check 1
(R132, R151). -/
def slotPacket (d : Dev) (h : HostId) (slot : Nat) (p : Packet) : Dev :=
  let n := hostNo h
  let feid := d.hostFeid h
  let p := { p with src := feid % 4096 }
  let d := d.modHost h (fun H => { H with slots := Tab.put H.slots slot { busy := true }, taken := Tab.upd H.taken p.cls [] (· ++ [slot]) })
  let d := d.setReg (Reg.sendBusy n) (setBit (d.reg (Reg.sendBusy n)) slot true)
  if p.ptype = .ctrl && p.ctype = 5 then (if le p.payload 6 1 = 0 then d.ackIn (.host h) p else d.nackIn (.host h) p)
  else if p.ptype = .ctrl && p.ctype = 6 then d.cancelIn (.host h) p
  else d.ingest (.host h) p

/-- The bytes in a slot reach byte 8 × HLEN + LEN − 1: the packet is taken, or discarded. -/
def takeSlot (d : Dev) (h : HostId) (slot : Nat) (bs : Bytes) : Dev :=
  let w := le bs 0 16
  let total := 8 * bits w 12 3 + bits w 64 15
  if bs.length < 16 || bs.length < total then d.modHost h (fun H => { H with slots := Tab.put H.slots slot { bytes := bs } })
  else
    let d := d.bump (Reg.hostPackets (hostNo h))
    match if bit w 11 || 16416 < total then none else (frameLen bs).bind (fun _ => packetOf (bs.take total)) with
    | some p => d.slotPacket h slot p
    | none => (d.dropSlotOf h slot).sendDrop h

/-- A write into a send slot. One that continues no packet is without effect. -/
def slotWrite (d : Dev) (h : HostId) (slot off : Nat) (data : Bytes) : Dev :=
  if !(d.host h).up || 4 ≤ slot || 32768 < off + data.length || data.isEmpty then d
  else
    let x := Tab.look (d.host h).slots slot
    if x.any (·.busy) then d.sendDrop h
    else if off = 0 then d.takeSlot h slot data
    else
      match x with
      | some s => d.takeSlot h slot (splice s.bytes off data)
      | none => d

/-! ### Receiving (R593) -/

/-- The ring is full (R278, R593). -/
def ringFull (d : Dev) (h : HostId) : Bool :=
  let n := hostNo h
  decide ((d.reg (Reg.rxringProd n) + 65536 - d.reg (Reg.rxringCons n)) % 65536 = d.reg (Reg.rxringSlots n))

/-- The packet at the head of the HOST queue goes into the ring, in the clear (R592), behind its prefix. -/
def ringWrite (d : Dev) (h : HostId) : Dev :=
  let n := hostNo h
  let u := hostUnit h
  let base := d.reg (Reg.rxringBase n)
  if !(d.host h).up || base = 0 || d.ringFull h then d
  else
    match d.unitHead u (fun _ => true) with
    | none => d
    | some (q, k, e) =>
      let pk := { e.pkt with enc := false }
      let bs := pk.bytes []
      let p := d.reg (Reg.rxringProd n)
      let d := (d.consume q k e).countOut pk
      let d := d.emit (.hostWrite h (base + p % d.reg (Reg.rxringSlots n) * 16448) (padTo 32 (leBytes 4 bs.length ++ leBytes 8 d.tick) ++ bs))
      let d := d.setReg (Reg.rxringProd n) ((p + 1) % 65536)
      if (d.host h).armed2 then (d.msix h 2).modHost h (fun H => { H with armed2 := false }) else d

/-- The ring's CONS is written: there may be room, and vector 2 may send again. -/
def ringCons (d : Dev) (n cons : Nat) : Dev :=
  (d.setReg (Reg.rxringCons n) (cons % 65536)).modHost (if n = 0 then .ha else .hb) (fun H => { H with armed2 := true })

/-- A vector is unmasked: its pending message leaves (R594). -/
def unmask (d : Dev) (h : HostId) (v : Nat) : Dev :=
  if 4 ≤ v then d
  else
    let was := bit (d.host h).pend v
    let d := d.modHost h (fun H => { H with mask := setBit H.mask v false, pend := setBit H.pend v false })
    if was then d.emit (.msix h v) else d

end Dev

/-- SEND_SLOT_WRITE (R591). -/
def execSendSlotWrite (h : HostId) (slot offset : Nat) (data : Bytes) (s : State) : Ans := onDev (fun d => d.slotWrite h slot offset data) s
/-- RXRING_WRITE (R593). -/
def execRxringWrite (h : HostId) (s : State) : Ans := onDev (fun d => d.ringWrite h) s
/-- RXRING_CONS_WRITE (R593): by the host, through its mailbox. -/
def execRxringConsWrite (h : HostId) (cons : Nat) (s : State) : Ans :=
  onDev (fun d => d.writeKey (Dev.hostAcc h) (Reg.rxringCons (hostNo h)) (fun d => (Acc.done, d.ringCons (hostNo h) cons))) s
/-- MSIX_UNMASK (R594). -/
def execMsixUnmask (h : HostId) (vec : Nat) (s : State) : Ans := onDev (fun d => d.unmask h vec) s
/-- HOST_PORT_RESET (R587). -/
def execHostPortReset (h : HostId) (s : State) : Ans := onDev (fun d => d.hostReset h) s
/-- HOST_LINK_UP (R587). -/
def execHostLinkUp (h : HostId) (width gen : Nat) (s : State) : Ans := onDev (fun d => d.hostLinkUp h width gen) s

end Sys2Proof.Machine
end

