-- ==== Sys2Proof/Machine/Power.lean ====
section
/-! DEFINITION. Supply, clocks, rungs, resets, power-up and self-test (R621 to R647), and what each reset keeps (R15, R638). -/

namespace Sys2Proof.Machine

namespace Dev

/-! ### What a reset keeps (R15, R638) -/

/-- Entries of the classes a reset keeps. -/
def keptRegs (d : Dev) (keep : RClass → Bool) : Tab Nat := Tab.keep d.regs (fun k _ => (rowOf k).any (fun e => keep e.rst))

/-- SUPPLY_STATE (R624). -/
def supplyCode (p : PowerState) : Nat :=
  if p.stopping then 3 else match p.dip with | some 2 => 2 | some _ => 1 | none => p.overV.toNat

/-- What the outside imposes on the module stays across a reset: clocks, supply, the level of MOD_RESET_N. -/
def powerKept (d : Dev) : PowerState :=
  { dip := d.power.dip, overV := d.power.overV, pwrOk := d.power.pwrOk, resetLow := d.power.resetLow, refs := d.power.refs, running := d.power.running,
    pcieLost := d.power.pcieLost, suspended := if d.power.dip = some 2 then some 0 else none }

/-- Debug unlocks in force after a reset, those that waited for it among them; their ends move to the tick that starts anew (R555). -/
def debugKept (d : Dev) : List (Nat × Nat) :=
  ((d.sec.unlocks ++ d.sec.debugPending).filter (fun x => decide (d.tick < x.2))).map (fun x => (x.1, x.2 - d.tick))

/-- Everything a power-on or a fundamental reset clears is cleared (R15, R553, R638). -/
def cold (d : Dev) (powerOn : Bool) : Dev :=
  { regs := if powerOn then [] else d.keptRegs (fun c => decide (c = .p)), out := d.out, freeCtr := d.freeCtr, power := d.powerKept,
    mgmt := { clkLost := d.mgmt.clkLost },
    sec := if powerOn then {} else { unlocks := d.debugKept, refuseKds := d.sec.refuseKds } }

/-- A key slot across a warm reset: ticks count from the reset (R538, R551, R638). -/
def keyKept (t : Nat) (k : KeySlot) : KeySlot :=
  { k with gens := k.gens.map (fun (g : KeyGen) => { g with loaded := 0, asked := g.asked.map (fun _ => 0), e0 := g.e0 - t }),
           lastLoad := k.lastLoad.map (fun x => x - t) }

/-- A sector's error outlives the L2: the L2 holds no changed copy of its line, which it writes to the stack before it empties. -/
def keptError (d : Dev) (s : Nat) : Bool := Tab.look d.tiers.l2c (s / 2) != some true

/-- What a warm reset leaves of the device (R15, R509, R512, R638). -/
def warm (d : Dev) : Dev :=
  { regs := d.keptRegs (fun c => decide (c ≠ .w)), out := d.out, freeCtr := d.freeCtr, power := d.powerKept,
    mgmt := { clkLost := d.mgmt.clkLost, alertLow := d.mgmt.alertLow }, logs := d.logs,
    keys := Tab.mapV d.keys (fun _ k => keyKept d.tick k),
    sec := { unlocks := d.debugKept, refuseKds := d.sec.refuseKds, tokenRejects := d.sec.tokenRejects, imageRejects := d.sec.imageRejects,
             nextSession := d.sec.nextSession },
    meter := { lastEnd := d.meter.lastEnd, flags := (List.range 64).map (fun c => (c, setBit (Tab.getD d.meter.flags c 0) 3 true)) },
    coh := { lost := d.coh.lost },
    tiers := { poolBase := d.tiers.poolBase, poolSlots := d.tiers.poolSlots, bad := d.tiers.bad.filter d.keptError,
               soft := d.tiers.soft.filter d.keptError },
    groups := Tab.mapV d.groups (fun _ g => { g with held := some 0 }), health := { failedUnits := d.health.failedUnits },
    cores := Tab.mapV d.cores (fun _ c => { rsv0 := c.rsv0, rsv1 := c.rsv1 }) }

/-! ### Self-test (R642, R647) -/

/-- Quadrant of a unit as 0xF000:03 numbers it. -/
def unitQuad (u : Nat) : Nat :=
  if u < 96 then u / 24 else if u < 216 then (u - 96) / 30 else if u < 228 then (u - 216) / 3 else u % 4

/-- The result of a self-test is reported (R642). -/
def reportBist (d : Dev) (failed : Nat) : Dev :=
  let f := failed % 2 ^ 244
  let d := (d.modHealth (fun H => { H with failedUnits := f })).setReg Reg.bistResult f
  let d := ((d.setReg Reg.bistState (if f = 0 then 2 else 3)).bump Reg.bistRuns).setReg Reg.bistLastTick d.tick
  d.each (members 244 f) (fun d u => d.event (unitQuad u) { code := Ev.bistFail, unit := u })

/-- A commanded self-test completes: failed units leave the working sets, and the manager that asked has its answer (R642, R643). -/
def bistDone (d : Dev) (failed : Nat) : Dev :=
  if d.reg Reg.bistState != 1 then d
  else
    let from' := d.power.bistFor
    let d := (d.reportBist failed).setPower { d.power with bistFor := 0xFF }
    let f := d.health.failedUnits
    let d := d.each (whichOf 12 (fun s => bit f (216 + s))) (fun d s => d.stackFailed s)
    let stands := fun (u : Nat) => if u < 120 then bit f (96 + u) else (u - 128) % 8 < 3 && bit f (236 + (u - 128) / 8)
    let d := d.each ((d.jobs.running.map Prod.fst).filter stands) (fun d u => d.reassign u)
    let d := d.each (d.liveList.filter (fun p => bit f (p / 4))) (fun d p => d.leaveActive p 1)
    let d := d.evalLevels
    if from' = 0xFF then d
    else if from' = d.dom.swId then d.setPower { d.power with bistSeen := Tab.put d.power.bistSeen from' ((decide (f = 0)).toNat, f) }
    else d.sendBist 2 from' (decide (f = 0)).toNat f

/-- A write to 0xF000:01: refused while an ENDPOINT port is ACTIVE (R642). -/
def bistCmd (d : Dev) (v : Nat) : Option Dev :=
  if v != 1 || !d.endpointPorts.isEmpty then none else some (if d.reg Reg.bistState = 1 then d else d.startBist 0xFF)

/-- A BIST packet arrives on a plane port: taken where it is addressed to this switch, else passed on (R56, R643). Every switch on the way
learns from a result whether its sender counts for the quorum (R58 phase 3). -/
def bistPacket (d : Dev) (port : Nat) (m : BistMsg) (run : Bool) : Dev :=
  let d := if run || !d.isActive port || d.role port != 1 then d
    else d.modDom (fun D => { D with testFailed := setBit D.testFailed m.sw (m.pass = 0) })
  if !d.isActive port || d.role port != 1 then d.ctrlDrop port
  else if m.toSw = d.dom.swId then
    if run then (if d.reg Reg.bistState = 1 then d.setPower { d.power with bistFor := m.sw } else d.startBist m.sw)
    else if d.isManager then d.setPower { d.power with bistSeen := Tab.put d.power.bistSeen m.sw (m.pass, m.detail) }
    else d
  else (d.takeNotice port [8, m.op, m.sw, m.toSw, m.tick] { d.ctrl 0x08 5 m.bytes with srcSw := m.sw % 32 }).2

/-! ### Boot (R641) -/

/-- States of the twelve stacks. -/
def stackStates (d : Dev) : List Nat := (List.range 12).map (fun s => d.reg (Reg.hbmState s))

/-- State in which a boot leaves a stack: kept by a warm reset, else trained, still training, or failed; none in a quadrant that is OFF. -/
def bootStack (d : Dev) (b : BootWait) (s : Nat) : Nat :=
  if bit (d.reg Reg.quadOff) (s / 3) then 0
  else if b.keeps.isEmpty then
    (if bit b.failed (216 + s) then 4 else if bit b.untrained s || bit b.attest (s / 3) then 1 else 2)
  else match b.keeps.getD s 0 with | 3 => 2 | x => x

/-- The stacks come up. -/
def bootStacks (d : Dev) (b : BootWait) : Dev :=
  let d := d.each (List.range 12) (fun d s => d.setReg (Reg.hbmState s) (d.bootStack b s))
  let inState := fun (x : Nat) => maskOf (whichOf 12 (fun s => d.reg (Reg.hbmState s) = x && !bit b.attest (s / 3)))
  let d := (d.setReg Reg.svcStacks (inState 2)).setPower { d.power with training := maskOf (whichOf 12 (fun s => d.reg (Reg.hbmState s) = 1)) }
  d.each [0, 1, 2, 3] showSysarea

/-- Values that take force at a power-on or fundamental reset: pool and reserves (R190, R241). -/
def bootPools (d : Dev) : Dev :=
  let d := { d with tiers := { d.tiers with poolBase := d.reg Reg.stageBase, poolSlots := d.reg Reg.stageSlots } }
  let r0 := d.reg Reg.rsvCls0
  let r1 := d.reg Reg.rsvCls1
  d.each [0, 1, 2, 3] (fun d q => d.modCore q (fun c => { c with rsv0 := r0, rsv1 := r1 }))

/-- A tile works: its quadrant is up and it stands in the working set (R30). -/
def tileWorks (d : Dev) (t : Nat) : Bool := d.level (t / 30) != 0 && (d.workingTiles (t / 30)).contains t

/-- Duties and shares of what works are whole (R632, R633; DESIGN CHOICE at the start). -/
def bootShares (d : Dev) : Dev :=
  let duty := (List.range 120).map (fun t => BitVec.ofNat 8 (if d.tileWorks t then 16 else 0))
  let share := (List.range 12).map (fun s => BitVec.ofNat 8 (if bit (d.reg Reg.svcStacks) s then 16 else 0))
  (d.setReg Reg.tileDuty (leNat duty)).setReg Reg.hbmShare (leNat share)

/-- Ports with PORT_ENABLE set and a role other than DISABLED enter DETECT (R102, R641). -/
def bootPorts (d : Dev) : Dev :=
  d.each (whichOf 384 (fun p => d.portExists p && d.flag (Reg.portEnable p) && d.role p != 3)) (fun d p => d.setReg (Reg.portState p) 1)

/-- Stacks and quadrants that a boot finds unusable. -/
def bootDies (d : Dev) (b : BootWait) : Dev :=
  let bad := b.attest % 16
  let d := d.modHealth (fun H => { H with deadDies := bad })
  let d := d.setPower { d.power with rungs := ((members 4 (d.reg Reg.quadOff)).map (fun q => (4 * 1024 + q, 5))) }
  d.each (members 4 bad) (fun d q => d.event 4 { code := Ev.dieAttestFail, unit := q })

/-- The domain entries act from a reset on (R611). -/
def bootDomain (d : Dev) : Dev :=
  let i := d.reg Reg.domId
  let w := d.reg Reg.switchId
  let p := d.reg Reg.planeSet
  d.modDom (fun D => { D with domId := i, swId := w, planeSet := p })

/-- From the boot ROM to service (R529, R531, R533, R640 to R642). -/
def bootUp (f : Fuses) (d : Dev) (b : BootWait) : Dev :=
  let coldBoot := decide (b.cause < 4)
  let r := d.freshBytes 32
  let d := (r.2.setReg Reg.debugChallenge (leNat r.1)).setReg Reg.resetCause b.cause
  let pref := d.reg Reg.refclkPref
  let d := d.setPower { d.power with on := true, boot := none, running := if bit d.power.refs pref then pref else 1 - pref }
  let d := d.setReg Reg.supplyState (supplyCode d.power)
  let d := (d.setReg Reg.campionFwVersion (f.image 1).version).setReg Reg.serdesFwVersion (f.image 2).version
  let d := (Dev.bootSecurity f d).bootDomain.bootStacks b
  let d := d.event 4 { code := Ev.reset, unit := b.cause }
  let d := d.bootDies b
  let d := if coldBoot then (d.bootPools).reportBist b.failed else d
  let d := d.evalLevels.bootShares
  let d := d.modHealth (fun H => { H with provisionalEnd := 2 ^ d.reg Reg.provisionalLog2 })
  d.bootPorts

/-- The boot ROM starts, or waits for MOD_RESET_N or a fabric reference (R638, R641). -/
def tryBoot (f : Fuses) (d : Dev) (b : BootWait) : Dev :=
  if d.power.resetLow || d.power.refs = 0 then d.setPower { d.power with on := false, boot := some b } else bootUp f d b

/-- The module has power. -/
def powered (d : Dev) : Bool := d.power.on || d.power.boot.isSome

/-- The input rises into range after having been off or stopped (R626, R638, R641). -/
def powerOn (mV : Nat) (b : BootWait) (f : Fuses) (m : Memory) (d : Dev) : Fuses × Memory × Dev :=
  if (d.powered && !d.power.stopping) || mV < 40000 || 60000 < mV then (f, m, d)
  else
    let d := d.cold true
    (f, [], tryBoot f (d.setPower { d.power with dip := none, overV := false, suspended := none, pwrOk := true }) b)

/-- MOD_RESET_N goes low or high (R638, R639). -/
def modReset (low : Bool) (b : BootWait) (f : Fuses) (m : Memory) (d : Dev) : Fuses × Memory × Dev :=
  if low then
    if d.power.resetLow || !d.powered || d.power.stopping then (f, m, d.setPower { d.power with resetLow := true })
    else
      let cause := if d.power.boot.any (fun x => decide (x.cause = 1)) then 1 else 2
      let d := d.cold (decide (cause = 1))
      (f, [], d.setPower { d.power with resetLow := true, boot := some { cause := cause } })
  else
    let d := d.setPower { d.power with resetLow := false }
    match d.power.boot with
    | some w => (f, m, tryBoot f d { b with cause := w.cause, keeps := w.keeps })
    | none => (f, m, d)

/-- A commanded reset begins, 20 µs after its DYING (R638, R639). -/
def resetBegin (b : BootWait) (f : Fuses) (m : Memory) (d : Dev) : Fuses × Memory × Dev :=
  match if d.power.on && !d.power.stopping then d.power.reset else none with
  | none => (f, m, d)
  | some c =>
    if c = 3 then (f, [], tryBoot f (d.cold false) { b with cause := 3 })
    else (f, m, tryBoot f d.warm { b with cause := c, keeps := d.stackStates })

/-- A write to 0x9000:1D (R638). -/
def resetCmd (d : Dev) (v : Nat) : Option Dev := if v = 1 then some (d.requestReset 4) else if v = 2 then some (d.requestReset 3) else none

/-- A stack has not trained in time (R641). -/
def trainTimeout (d : Dev) (s : Nat) : Dev := if d.power.on && bit d.power.training s then d.stackFailed s else d

/-! ### Supply (R624 to R626, R634) -/

/-- The module runs and no orderly stop has been decided. -/
def running (d : Dev) : Bool := d.power.on && !d.power.stopping

/-- Change the supply's state and show it. -/
def setSupply (d : Dev) (f : PowerState → PowerState) : Dev :=
  let d := d.setPower (f d.power)
  d.setReg Reg.supplyState (supplyCode d.power)

/-- An orderly stop: DYING on every port that is not DISABLED, every unit and quadrant off, HBM contents lost (R626). -/
def orderlyStop (code reason : Nat) (m : Memory) (d : Dev) : Memory × Dev :=
  if !d.running then (m, d)
  else
    let d := (d.event 4 { code := code }).dyingNow d.liveList reason
    let d := d.setSupply (fun P => { P with stopping := true, reset := none, suspended := none, pwrOk := false })
    ([], d.evalLevels)

/-- A dip begins (R624). -/
def dipStart (d : Dev) (mV : Nat) : Dev :=
  if d.running && d.power.dip.isNone && decide (mV < 40000) then d.setSupply (fun P => { P with dip := some 1 }) else d

/-- A tile that is not deeper enters NAP. -/
def napTiles (d : Dev) : Dev :=
  let ts := whichOf 120 d.tileWorks
  d.setPower { d.power with rungs := ts.foldl (fun r t => Tab.put r t (max 2 (Tab.getD r t 0))) d.power.rungs }

/-- The dip has lasted over 1 ms, and the edge after it has come: Class B (R625). -/
def dipClassB (d : Dev) : Dev :=
  if !d.running || d.power.dip != some 1 then d
  else
    let t := d.tick
    ((d.setSupply (fun P => { P with dip := some 2, suspended := some t })).napTiles).event 4 { code := Ev.dipB }

/-- The input has stayed at 40.5 V or above for 1 ms (R624). -/
def dipEnd (d : Dev) (mV : Nat) : Dev :=
  if !d.running || mV < 40500 then d
  else
    match d.power.dip with
    | none => d
    | some c =>
      let d := d.setSupply (fun P => { P with dip := none })
      if c = 2 then d.bump Reg.dipsB else (d.bump Reg.dipsA).event 4 { code := Ev.dipA }

/-- A dip meets a Class C condition (R624, R626). -/
def supplyStop (m : Memory) (d : Dev) : Memory × Dev :=
  if d.power.dip.isNone then (m, d) else orderlyStop Ev.supplyStop 1 m (if d.running then d.setSupply (fun P => { P with dip := some 3 }) else d)

/-- The input rises above 60 V; above 80 V the module stops (R624). -/
def overvoltage (mV : Nat) (m : Memory) (d : Dev) : Memory × Dev :=
  if !d.running || mV ≤ 60000 then (m, d)
  else
    let d := if d.power.overV then d else (d.bump Reg.overvolts).setSupply (fun P => { P with overV := true })
    if 80000 < mV then orderlyStop Ev.overvoltageStop 1 m d else (m, d)

/-- A die reaches its trip temperature (R634). -/
def thermalTrip (die celsius : Nat) (m : Memory) (d : Dev) : Memory × Dev :=
  if 4 < die || celsius < d.reg Reg.dieTripC then (m, d) else orderlyStop Ev.thermalTrip 2 m d

/-! ### Clocks (R635 to R637) -/

/-- The control die moves to a reference (R636). -/
def moveRef (d : Dev) (b : Nat) : Dev :=
  ((d.setPower { d.power with running := b }).bump Reg.refclkSwitches).event 4 { code := Ev.refclkSwitch, unit := b }

/-- The running reference gives no edge for 100 ns; where the other is absent too, the clocks hold over (R636). -/
def refSwitch (d : Dev) : Dev :=
  if !d.power.on then d
  else
    let b := d.power.running
    let d := d.setPower { d.power with refs := setBit d.power.refs b false }
    if bit d.power.refs (1 - b) then d.moveRef (1 - b) else d

/-- Both references stay lost through the holdover: every port goes down without DYING (R636). -/
def refLost (d : Dev) : Dev :=
  if !d.power.on then d
  else
    let d := (d.setPower { d.power with refs := 0 }).event 4 { code := Ev.refclkLost }
    d.each [0, 1, 2, 3] portsDown

/-- A fabric reference is present again: where none was, the control die runs from it (R636); a waiting boot ROM goes on (R641). -/
def refReturn (b : Bool) (f : Fuses) (d : Dev) : Dev :=
  let n := b.toNat
  let back := decide (d.power.refs = 0)
  let d := d.setPower { d.power with refs := setBit d.power.refs n true }
  let d := if !back || d.power.running = n then d else if d.power.on then d.moveRef n else d.setPower { d.power with running := n }
  match d.power.boot with
  | some w => tryBoot f d w
  | none => d

/-- A write to 0x9000:1B (R636). -/
def refPref (d : Dev) (v : Nat) : Option Dev :=
  if 1 < v then none
  else
    let d := d.setReg Reg.refclkPref v
    some (if bit d.power.refs v && d.power.running != v then d.moveRef v else d)

/-- A PCIe reference is lost (R637). -/
def pcieLoss (d : Dev) (h : HostId) : Dev :=
  (d.setPower { d.power with pcieLost := setBit d.power.pcieLost (hostNo h) true }).hostReset h

/-! ### Quadrants OFF (R630) -/

/-- Something of a composition stands in a quadrant. -/
def quadBusy (d : Dev) (q : Nat) : Bool :=
  d.hmapActive.any (fun e => d.homesIn e.2 q)
    || (d.instances 0x560004).any (fun e => SG.gstate e.2 != 0 && SG.quad e.2 = q)
    || d.regionsActive.any (fun r => Region.state r.2 = 1 && d.inWindow (Region.base r.2 * 2 ^ 21) &&
        overlap (d.windowOff (Region.base r.2 * 2 ^ 21)) (2 ^ (Region.size r.2 + 21)) (3 * q * stackBytes) (3 * stackBytes))
    || d.jobs.recs.any (fun kv => kv.1 / 256 = q) || d.yar.insts.any (fun kv => kv.2.quad = q)

/-- A quadrant goes OFF: DYING with REASON 4, level NONE, its stacks and what they held gone. -/
def quadDown (d : Dev) (q : Nat) : Dev :=
  let d := d.dyingNow (d.liveList.filter (fun p => quadOf p = q)) 4
  let d := d.setPower { d.power with rungs := Tab.put d.power.rungs (4 * 1024 + q) 5, training := d.power.training - (d.power.training &&& (7 <<< (3 * q))) }
  let d := d.event 4 { code := Ev.quadOff, unit := q }
  let d := d.evalLevels
  let d := d.each [3 * q, 3 * q + 1, 3 * q + 2] (fun d s => d.setReg (Reg.hbmState s) 0)
  let d := d.setReg Reg.svcStacks (d.reg Reg.svcStacks - (d.reg Reg.svcStacks &&& (7 <<< (3 * q))))
  let other := fun (off : Nat) => decide (quadAt off ≠ q)
  let d := { d with tiers := { d.tiers with bad := d.tiers.bad.filter (fun x => other (x * 64)),
                                            soft := d.tiers.soft.filter (fun x => other (x * 64)),
                                            l2c := Tab.keep d.tiers.l2c (fun l _ => other (l * 128)),
                                            l2err := d.tiers.l2err.filter (fun l => other (l * 128)),
                                            scrubPos := Tab.keep d.tiers.scrubPos (fun s _ => decide (s / 3 ≠ q)),
                                            scratch := Tab.keep d.tiers.scratch (fun k _ => decide (k / 32 / 30 ≠ q)),
                                            slots := Tab.keep d.tiers.slots (fun i _ => decide (quadAt (d.tiers.poolBase + i * 2 ^ 21) ≠ q)) },
                    coh := { d.coh with lost := d.coh.lost.filter (fun l => decide (quadAt (l * 128) ≠ q)) } }
  d.moveSysarea q

/-- A quadrant comes up again: its stacks train and are zeroed, its level is evaluated. Those of a failed die stay FAILED, out of
SVC_STACKS, and its level stays NONE (R30, R505; DESIGN CHOICE, log 159). -/
def quadUp (d : Dev) (q : Nat) : Dev :=
  let d := d.setPower { d.power with rungs := Tab.del d.power.rungs (4 * 1024 + q) }
  let ok := fun (s : Nat) => !bit d.health.failedUnits (216 + s) && !bit d.health.deadDies q
  let ss := [3 * q, 3 * q + 1, 3 * q + 2]
  let d := d.each ss (fun d s => d.setReg (Reg.hbmState s) (if ok s then 2 else 4))
  let d := d.setReg Reg.svcStacks (d.reg Reg.svcStacks ||| maskOf (ss.filter ok))
  let d := d.each (d.liveList.filter (fun p => quadOf p = q)) (fun d p =>
    d.modPort p (fun P => { P with dying := none, dyingLeft := 0, closing := false }))
  (d.showSysarea q).evalLevels

/-- A write to 0x9000:18 (R630). -/
def quadOffWrite (d : Dev) (v : Nat) : Option Dev :=
  let old := d.reg Reg.quadOff
  let set := (members 4 v).filter (fun q => !bit old q)
  if 16 ≤ v || set.any d.quadBusy then none
  else
    let d := d.setReg Reg.quadOff v
    some ((d.each set quadDown).each ((members 4 old).filter (fun q => !bit v q)) quadUp)

/-- Tier H after a write to 0x9000:18: the stacks of a quadrant that goes OFF lose their contents. -/
def quadMem (m : Memory) (old new : Dev) : Memory :=
  ((members 4 (new.reg Reg.quadOff)).filter (fun q => !bit (old.reg Reg.quadOff) q)).foldl (fun m q =>
    Memory.zero m (3 * q * stackBytes) (3 * stackBytes)) m

/-! ### Rungs (R627, R628) -/

/-- Idle ticks of a domain. -/
def idleTicks (d : Dev) (k : Nat) : Nat := d.tick - Tab.getD d.power.used k 0

/-- The rung the tile counts give, within the quadrant's limit. -/
def tileRung (d : Dev) (q idle : Nat) (deep dormant : Bool) : Nat :=
  let r := if !deep then 1
    else if dormant && decide (d.reg Reg.tileIdleDormant ≤ idle) then 4
    else if d.reg Reg.tileIdleSleep ≤ idle then 3
    else if d.reg Reg.tileIdleNap ≤ idle then 2
    else 1
  min r (bits (d.reg Reg.quadDepthLimit) (8 * q) 8)

/-- A tile is idle: no slot, no quantum. -/
def tileIdle (d : Dev) (t : Nat) : Bool :=
  d.tileWorks t && !Tab.has d.jobs.running t && !((Tab.look d.jobs.slots t).any (fun s => decide (s.tick = d.tick)))

/-- A Yarrow unit is idle: its queue is empty and no chunk rounds. -/
def yarrowIdle (d : Dev) (q : Nat) : Bool :=
  (List.range 4).all (fun i => (List.range 8).all (fun c => ((d.core i).queue (unitKey (8 + q) c)).isEmpty))
    && !d.yar.insts.any (fun kv => kv.2.quad = q && kv.2.chunks.any (fun c => c.2.phase = 2))

/-- No port of a block is beyond DETECT. -/
def blockIdle (d : Dev) (b : Nat) : Bool := (d.portsOfBlock b).all (fun p => decide (d.portState p ≤ 1))

/-- The rung a domain may enter now; 0 for none. -/
def rungFor (d : Dev) (domain unit : Nat) : Nat :=
  let idle := d.idleTicks (domain * 1024 + unit)
  match domain with
  | 0 =>
    if 120 ≤ unit || !d.tileIdle unit then 0
    else d.tileRung (unit / 30) idle true (d.coh.copies.all (fun kv => decide (kv.1 / 2 ^ 33 ≠ unit)))
  | 1 =>
    if 4 ≤ unit || d.level unit < 2 || !d.yarrowIdle unit then 0
    else d.tileRung unit idle (!(d.yar.insts.any (fun kv => kv.2.quad = unit && kv.2.state = 2)) && (d.journal unit).isEmpty) true
  | 2 =>
    if 96 ≤ unit || !d.blockIdle unit then 0
    else if d.reg Reg.pbIdleSleep ≤ idle then 3 else if d.reg Reg.pbIdleNap ≤ idle then 2 else 0
  | 3 =>
    let n := d.reg Reg.hbmIdleSleep
    if 12 ≤ unit || d.reg (Reg.hbmState unit) != 2 || n = 0 || idle < n then 0 else 3
  | _ => 0

/-- A domain enters the deeper rung its idle count gives; a DORMANT tile keeps no state, and a sleeping stack is in self-refresh. -/
def rungEntry (d : Dev) (domain unit : Nat) : Dev :=
  let k := domain * 1024 + unit
  let r := d.rungFor domain unit
  if !d.power.on || r ≤ Tab.getD d.power.rungs k 0 then d
  else
    let d := d.setPower { d.power with rungs := Tab.put d.power.rungs k r }
    match domain with
    | 0 => if r = 4 then { d.clearScratch unit with trans := { d.trans with micro := Tab.del d.trans.micro unit } } else d
    | 3 => d.setReg (Reg.hbmState unit) 3
    | _ => d

/-- A domain leaves its rung; a stack begins to leave self-refresh, which STACK_WAKE completes (R240). -/
def rungWake (d : Dev) (domain unit : Nat) : Dev :=
  let k := domain * 1024 + unit
  if !Tab.has d.power.rungs k || 1024 ≤ unit then d
  else
    match domain with
    | 0 => if d.tileHeld unit then d else if Tab.getD d.power.rungs k 0 ≤ 3 then d.wakeTile unit else d.leaveRung k
    | 1 | 2 => d.leaveRung k
    | 3 => { d with tiers := { d.tiers with waking := setBit d.tiers.waking unit true } }
    | _ => d

end Dev

/-! ### Meanings -/

/-- QUAD_OFF_SET (R630). -/
def execQuadOffSet (acc q : Nat) (s : State) : Ans :=
  onMem (fun m d =>
    let n := d.writeKey acc Reg.quadOff (fun d => d.orReject (if q < 4 then d.quadOffWrite (setBit (d.reg Reg.quadOff) q true) else none))
    (Dev.quadMem m d n, n)) s
/-- QUAD_OFF_CLEAR (R630). -/
def execQuadOffClear (acc q : Nat) (s : State) : Ans :=
  onDev (fun d => d.writeKey acc Reg.quadOff (fun d =>
    d.orReject (if q < 4 then d.quadOffWrite (setBit (d.reg Reg.quadOff) q false) else none))) s
/-- REFCLK_PREF_WRITE (R636). -/
def execRefclkPrefWrite (acc value : Nat) (s : State) : Ans := onDev (fun d => d.writeKey acc Reg.refclkPref (fun d => d.orReject (d.refPref value))) s
/-- BIST_RUN (R642). -/
def execBistRun (acc : Nat) (s : State) : Ans := onDev (fun d => d.writeKey acc Reg.bistCmd (fun d => d.orReject (d.bistCmd 1))) s
/-- BIST_DONE (R642). -/
def execBistDone (failed : Nat) (s : State) : Ans := onMem (failStacks (fun d => d.bistDone failed)) s
/-- BIST_PACKET_RUN (R643). -/
def execBistPacketRun (port : Nat) (m : BistMsg) (s : State) : Ans := onDev (fun d => (d.ctrlTaken port 5 48).bistPacket port { m with op := 1 } true) s
/-- BIST_PACKET_RESULT (R643). -/
def execBistPacketResult (port : Nat) (m : BistMsg) (s : State) : Ans := onDev (fun d => (d.ctrlTaken port 5 48).bistPacket port { m with op := 2 } false) s
/-- DIP_START (R624). -/
def execDipStart (mV : Nat) (s : State) : Ans := onDev (fun d => d.dipStart mV) s
/-- DIP_CLASS_B (R625). -/
def execDipClassB (s : State) : Ans := onDev (fun d => d.dipClassB) s
/-- DIP_END (R624). -/
def execDipEnd (mV : Nat) (s : State) : Ans := onDev (fun d => d.dipEnd mV) s
/-- SUPPLY_STOP (R626). -/
def execSupplyStop (s : State) : Ans := onMem Dev.supplyStop s
/-- OVERVOLTAGE (R624); above 90 V the module may be damaged and no behavior is given (R654). -/
def execOvervoltage (mV : Nat) (s : State) : Ans := if 90000 < mV then .fault .beyondAbsoluteLimits else onMem (Dev.overvoltage mV) s
/-- OVERVOLTAGE_TIMEOUT (R624). -/
def execOvervoltageTimeout (s : State) : Ans :=
  onMem (fun m d => if d.power.overV then Dev.orderlyStop Ev.overvoltageStop 1 m d else (m, d)) s
/-- POWER_ON (R641). -/
def execPowerOn (mV failedUnits untrained dieAttest : Nat) (s : State) : Ans :=
  onAll (Dev.powerOn mV { cause := 1, failed := failedUnits, untrained := untrained, attest := dieAttest }) s
/-- HBM_TRAIN_TIMEOUT (R641). -/
def execHbmTrainTimeout (st : Nat) (s : State) : Ans := onMem (failStacks (fun d => d.trainTimeout st)) s
/-- MOD_RESET_N (R638). -/
def execModResetN (low : Bool) (failedUnits untrained dieAttest : Nat) (s : State) : Ans :=
  onAll (Dev.modReset low { cause := 2, failed := failedUnits, untrained := untrained, attest := dieAttest }) s
/-- WARM_RESET_CMD (R638). -/
def execWarmResetCmd (acc : Nat) (s : State) : Ans := onDev (fun d => d.writeKey acc Reg.resetCmd (fun d => d.orReject (d.resetCmd 1))) s
/-- FUNDAMENTAL_RESET_CMD (R638). -/
def execFundamentalResetCmd (acc : Nat) (s : State) : Ans :=
  onDev (fun d => d.writeKey acc Reg.resetCmd (fun d => d.orReject (d.resetCmd 2))) s
/-- RESET_BEGIN (R639). -/
def execResetBegin (failedUnits untrained dieAttest : Nat) (s : State) : Ans :=
  onAll (Dev.resetBegin { cause := 3, failed := failedUnits, untrained := untrained, attest := dieAttest }) s
/-- THERMAL_TRIP (R634). -/
def execThermalTrip (die celsius : Nat) (s : State) : Ans := onMem (Dev.thermalTrip die celsius) s
/-- REFCLK_SWITCH (R636). -/
def execRefclkSwitch (s : State) : Ans := onDev (fun d => d.refSwitch) s
/-- REFCLK_LOST (R636). -/
def execRefclkLost (s : State) : Ans := onDev (fun d => d.refLost) s
/-- PCIE_REFCLK_LOSS (R637). -/
def execPcieRefclkLoss (h : HostId) (s : State) : Ans := onDev (fun d => d.pcieLoss h) s
/-- MGMT_CLK_LOSS (R637). -/
def execMgmtClkLoss (s : State) : Ans := onDev (fun d => d.modMgmt (fun M => { M with clkLost := true })) s
/-- RUNG_ENTRY (R628). -/
def execRungEntry (domain unit : Nat) (s : State) : Ans := onDev (fun d => d.rungEntry domain unit) s
/-- RUNG_WAKE (R628). -/
def execRungWake (domain unit : Nat) (s : State) : Ans := onDev (fun d => d.rungWake domain unit) s
/-- FABRIC_REFCLK_RETURN (R636, R641). -/
def execFabricRefclkReturn (b : Bool) (s : State) : Ans := onDevWith (fun f _ d => Dev.refReturn b f d) s
/-- MGMT_CLK_RETURN (R637). -/
def execMgmtClkReturn (s : State) : Ans := onDev (fun d => d.modMgmt (fun M => { M with clkLost := false })) s

end Sys2Proof.Machine
end

