-- ==== Sys2Proof/Machine/Speedwell.lean ====
section
/-! DEFINITION. Speedwell: slice plans (R399 to R401), deadline policies and hand-backs (R413 to R415), resent contributions (R405), and
backup arbitration between switches (R417 to R422). -/

namespace Sys2Proof.Machine

/-! ### Slice plans (R399, R400) -/

/-- Elements held by SRC_LEN bytes in SRC_FMT equal those of SHADOW_LEN bytes in MXFP4 (R400). -/
def shadowLenOk (fmt src shadow : Nat) : Bool :=
  match fmt with
  | 0 => src * 17 = shadow * 17
  | 1 | 2 => src * 17 = shadow * 25
  | 3 | 4 => src * 17 = shadow * 33
  | _ => src * 17 = shadow * 64

/-- A weight record obeys its table. -/
def planRecOk (r : Nat) : Bool :=
  PR.srcDa r % 2 ^ 21 = 0 && PR.srcDa r < 2 ^ 46 && isTierP (PR.srcDa r) && PR.srcFmt r ≤ 5 && PR.shadowOff r % 128 = 0
    && bits r 224 32 = 0 && shadowLenOk (PR.srcFmt r) (PR.srcLen r) (PR.shadowLen r)

namespace Dev

def plan (d : Dev) (s : Nat) : Plan := Tab.getD d.jobs.plans s {}
def modPlan (d : Dev) (s : Nat) (f : Plan → Plan) : Dev := d.modJobs (fun J => { J with plans := Tab.upd J.plans s {} f })

/-- Plans ACTIVE or about to be, but that of one slot: composition and records. -/
def otherPlans (d : Dev) (s : Nat) : List (Nat × List Nat) :=
  (d.jobs.plans.filter (fun (kv : Nat × Plan) => kv.1 != s)).filterMap (fun kv =>
    match kv.2.next with
    | some n => some n
    | none => if kv.2.state = 1 then some (kv.2.comp, kv.2.recs) else none)

/-- The shadow of a record lies in a VALID region of the composition in this switch's window, clear of system areas and the pool. -/
def shadowOk (d : Dev) (comp r : Nat) : Bool :=
  let o := PR.shadowOff r
  let n := PR.shadowLen r
  allocatable o n && !d.poolOverlap o n
    && d.regionsActive.any (fun g => Region.comp g.2 = comp && Region.holds g.2 (windowBase d.dom.swId + o)
         && Region.holds g.2 (windowBase d.dom.swId + o + n - 1))

/-- Why Campion refuses a plan of the slot, 0 for none (R400). -/
def planRefused (d : Dev) (s : Nat) (head : Bytes) (recs : List Nat) : Nat :=
  let comp := le head 4 1
  let others := d.otherPlans s
  let das := recs.map PR.srcDa
  let theirs := (others.filter (fun x => x.1 = comp)).flatMap (fun x => x.2.map PR.srcDa)
  if le head 0 4 != 0x53504C4E || 63 < comp || le head 5 1 != 0 || le head 6 2 = 0 || 4096 < le head 6 2 || !zeros head 8 24 then 1
  else if !recs.all planRecOk then 2
  else if 4096 < recs.length + (others.map (fun x => x.2.length)).foldl (· + ·) 0 then 3
  else if das.eraseDups.length != das.length || das.any theirs.contains then 4
  else if !recs.all (d.shadowOk comp) then 5
  else 0

/-- The records of a plan in their bytes. -/
def planRecs (bs : Bytes) : List Nat := (List.range (bs.length / 32)).map (fun i => le bs (32 * i) 32)

/-- Campion reads a plan's header and its records at the L2, a reader in the manner of HREAD (R400, R296; log 158): none of those that cannot be
read. It may have to wait for a line or a stack. -/
def planRead (base : Nat) (m : Memory) (d : Dev) : Except QErr (Option Bytes × Option Bytes) × Memory × Dev :=
  let part := fun off n => QM.atL2 (fun m d =>
    if windowSize < off + n then (.ok none, m, d)
    else match l2ReadAt off n m d with
      | (.ok b, s) => (.ok (some b), s)
      | (.error (.status _), s) => (.ok none, s)
      | (.error x, s) => (.error x, s))
  let f : QM (Option Bytes × Option Bytes) := do
    match ← part base 32 with
    | none => return (none, none)
    | some h => return (some h, ← part (base + 32) (32 * min (le h 6 2) 4096))
  ExceptT.run f (m, d)

/-- Campion has read a plan: accepted, it waits for the edge (R400, R401). A header or records that cannot be read give no data, and so break their
tables (R18, log 158). A refused LOAD leaves an ACTIVE plan. -/
def planTaken (d : Dev) (s : Nat) (head recs : Option Bytes) : Dev :=
  let h := head.getD []
  let l := planRecs (recs.getD [])
  let why := if head.isNone then 1 else if recs.isNone then (if d.planRefused s h [] = 1 then 1 else 2) else d.planRefused s h l
  let d := d.modPlan s (fun P => { P with loading := false })
  if why = 0 then d.modPlan s (fun P => { P with next := some (le h 4 1, l), unload := false, since := d.tick })
  else d.modPlan s (fun P => { P with refusal := why, state := if P.state = 1 then 1 else 2 })

/-- A LOAD goes on where its reads do not wait (R234, R240). -/
def planStep (s : Nat) (m : Memory) (d : Dev) : Memory × Dev :=
  match planRead (d.reg (Reg.planBase s)) m d with
  | (.ok x, m, d) => (m, d.planTaken s x.1 x.2)
  | (.error _, _, d') => (m, (d.modTiers (fun T => { T with waking := T.waking ||| d'.tiers.waking })).modPlan s (fun P => { P with loading := true }))

/-- LOAD: the plan is read at once where that changes no byte of tier H; one that waits for a stack or for a line, or for a line's owner to give
its bytes, is read later (log 158). -/
def planLoad (m : Memory) (d : Dev) (s : Nat) : Dev :=
  let r := planStep s m d
  if r.1 = m then r.2 else d.modPlan s (fun P => { P with loading := true })

/-- A write of PLAN_CMD: 1 LOAD, 2 UNLOAD; none where rejected. -/
def planCmd (m : Memory) (d : Dev) (s v : Nat) : Option Dev :=
  if v = 1 then some (d.planLoad m s)
  else if v = 2 then some (d.modPlan s (fun P => { P with next := none, unload := true, loading := false, since := d.tick }))
  else none

/-- The edge loads or unloads a slot (R401). -/
def planEdge (d : Dev) (s : Nat) : Dev :=
  let P := d.plan s
  if d.tick ≤ P.since then d
  else
    match P.next with
    | some (c, recs) => d.modPlan s (fun P => { P with state := 1, comp := c, recs := recs, next := none, unload := false })
    | none => if P.unload then d.modPlan s (fun P => { refusal := P.refusal }) else d

/-- A LOAD that waits is read, and what was accepted before this tick takes effect at its edge (R401). -/
def planActivate (s : Nat) (m : Memory) (d : Dev) : Memory × Dev :=
  let r := if (d.plan s).loading then planStep s m d else (m, d)
  (r.1, r.2.planEdge s)

/-- The plan slot an accessor's selector names. -/
def planSel (d : Dev) (acc : Nat) : Nat := d.regAs acc Reg.planSelect

/-! ### Deadline policies (R413 to R415) -/

/-- A READ of a range of tier P that a scheduler has made for a node. -/
def backTray (d : Dev) (k i da len : Nat) : Option TrayAccess :=
  (d.job k).bind (fun j => (j.nodes.getD i {}).trays.find? (fun a => a.da = da && a.len = len))

/-- The same is made, and noted with the node (R227, R415). -/
def backRead (d : Dev) (k i comp da len : Nat) : Dev :=
  if (d.backTray k i da len).isSome then d
  else d.homeAccess comp 0 { da := da, len := len, quad := 0, op := 0 } none (fun a d => d.modNode k i (fun n => { n with trays := n.trays ++ [a] }))

end Dev

namespace QM

/-- Bytes of VAs of a job's context as the scheduler reads them, through the page table and the checks of R274, from tier H in the manner of HREAD
or from their trays (R227, R268, R296, R415; log 158). -/
def backVa (k i ctx va n : Nat) : QM Bytes := do
  let ps ← (pieces va n).mapM (fun x => do
    let pte ← atL2 (fun m d => Dev.readPte (CX.ptBase (d.reg (Reg.ctxEntry ctx)) + 16 * pageOf x.1) m d)
    let t := tlbOf ctx (pageOf x.1) pte
    if 2 ^ 46 ≤ x.1 || !PTE.v pte || !PTE.ok pte || !bit t.rights 0 then fail St.unmapped
    let _ ← check (fun d => d.xlatCheck ctx t { unit := 0, va := x.1, kind := 0 })
    return (daOf t x.1, x.2))
  let d ← dev
  let due := ps.filter (fun x => isTierP x.1 && ((d.backTray k i x.1 x.2).bind (·.answer)).isNone)
  if !due.isEmpty then throw (QErr.tray due)
  let bs ← ps.mapM (fun x => do
    if isTierP x.1 then
      match ((d.backTray k i x.1 x.2).bind (·.answer)).getD (0, []) with
      | (0, b) => return padTo x.2 b
      | (s, _) => fail s
    else
      let d ← dev
      atL2 (Dev.l2ReadAt (d.windowOff x.1) x.2))
  return bs.flatten

/-- Stored bytes of a hand-back's operand 0 (R320, R415). -/
def backBytes (k i : Nat) (p : Bytes) : QM Bytes := do
  let va := JD.addr p i 0
  let rd := fun off n => backVa k i (JD.ctx p) (va + off) n
  match JD.kind p i 0 with
  | 1 =>
    if JD.coded p i 0 then
      let at' := 16 * leNat (← rd (4 * (nblkOf (JD.olen p i 0) - 1)) 4)
      rd 0 (at' + 8 + Blk.bodyLen (← rd at' 8))
    else rd 0 (JD.olen p i 0)
  | 3 => return slice p (JD.inlineOff p + va) (JD.olen p i 0)
  | _ => return []

end QM

namespace Dev

/-- A node's input returns to the requester, and the node fails (R415). -/
def handbackSend (d : Dev) (k i : Nat) (bs : Bytes) : Dev :=
  match d.job k with
  | none => d
  | some j =>
    let parts := if bs.isEmpty then [[]] else chunks 16384 bs.length bs
    let d := d.each parts.zipIdx (fun d x => d.jobOutput k (resultOf j (k / 256) i x.2 St.deadline false x.1))
    d.failNode k i St.deadline

/-- A hand-back goes on: it waits for a line, a stack or a tray where its reads do; input that cannot be read gives no bytes (R415, log 158). -/
def handbackStep (k i : Nat) (m : Memory) (d : Dev) : Memory × Dev :=
  match d.job k with
  | none => (m, d)
  | some j =>
    match StateT.run (ExceptT.run (QM.backBytes k i j.pkt.payload)) (m, d) with
    | (.ok bs, m, d) => (m, d.handbackSend k i bs)
    | (.error (.status _), m, d) => (m, d.handbackSend k i [])
    | (.error (.tray l), _) => (m, d.each l.eraseDups (fun d x => d.backRead k i j.pkt.comp x.1 x.2))
    | (.error _, _, d') => (m, d.modTiers (fun T => { T with waking := T.waking ||| d'.tiers.waking }))

/-- A late node is handed back from now on: it does not run (R413, R415). -/
def handback (k i : Nat) (m : Memory) (d : Dev) : Memory × Dev :=
  handbackStep k i m ((d.bump Reg.handbacks).modNode k i (fun n => { n with back := true }))

/-- A node waits past a deadline under WAIT (R413). -/
def waitLate (d : Dev) (k i : Nat) (n : NodeRt) : Dev :=
  if n.late then d else (d.bump Reg.deadlineWaits).modNode k i (fun n => { n with late := true })

/-- A late node takes the shadows of the operands that are not in tier H; none where one of them has no record (R413, R414). -/
def takeShadows (d : Dev) (k i : Nat) (j : Job) (swap : List Nat) : Option Dev :=
  let recs := swap.filterMap (fun o => (QM.shadowOf d j.pkt.comp j.pkt.payload i o).map (fun r => (o, r)))
  if recs.length != swap.length then none
  else
    let d := (d.bump Reg.shadowNodes).modNode k i (fun n => { n with chosen := true, shadows := recs })
    some (d.modJob k (fun j => { j with shadowNodes := setBit j.shadowNodes i true, shadowOps := j.shadowOps + swap.length }))

/-- At an edge a ready node's STAGED operands are not in tier H in time: the job's policy acts (R413, R414). Of nodes that have started only those
wait that may: their slots can still be lost (R336). A hand-back under way goes on. -/
def nodeLate (k i : Nat) (m : Memory) (d : Dev) : Memory × Dev :=
  match d.job k with
  | none => (m, d)
  | some j =>
    let p := j.pkt.payload
    let n := j.nodes.getD i {}
    let ops := JD.stagedOpnds p i
    let slotsOf := fun o => (d.namedUnits j.pkt.comp p i o).map (fun u => (d.slotNamed j.pkt.comp u).map Prod.snd)
    let all := ops.flatMap slotsOf
    let notReady := fun o => (slotsOf o).any (fun s => s.any (fun x => x.state != 2))
    if JD.nnodes p ≤ i || j.ending.isSome then (m, d)
    else if n.back then handbackStep k i m d
    else if 1 < n.st || (n.st = 1 && JD.policy p != 0) || (runsLeft p i n).isEmpty || n.chosen || !depsDone j i || ops.isEmpty
        || d.stagedReady j i then (m, d)
    else if all.any Option.isNone then (m, d.failNode k i St.unmapped)
    else
      let failed := all.filterMap (fun s => s.bind (fun x => if x.state = 3 then some x.status else none))
      let due := all.any (fun s => s.any (fun x => x.state != 2 && decide (x.deadline ≤ d.tick)))
      if failed.isEmpty && !due then (m, d)
      else
        match JD.policy p with
        | 0 => (m, match failed with
          | s :: _ => d.failNode k i s
          | [] => d.waitLate k i n)
        | 1 => match d.takeShadows k i j (ops.filter notReady) with
          | some d => (m, d)
          | none => handback k i m d
        | _ => handback k i m d

/-- A contribution refused with ERR_QUOTA is sent again (R405). -/
def contribRetry (d : Dev) (k group chunk : Nat) : Dev :=
  let mine := fun (c : Contribution) => c.waits && c.pkt.group = group && c.pkt.chunk = chunk
  match d.jobs.running.find? (fun (kv : Nat × Quantum) => kv.2.quad * 256 + kv.2.job = k && kv.2.contribs.any mine) with
  | none => d
  | some (u, _) =>
    ((d.bump Reg.contribRetries).modQuantum u (fun x =>
      { x with contribs := x.contribs.map (fun c => if mine c then { c with waits := false, tries := c.tries + 1 } else c) })).enterContribs u

/-! ### Backups (R418 to R422) -/

/-- A switch's JOB_CANCEL arrives on a plane port: forwarded once, and for this switch's eyes or not (R418). -/
def takeCancel (d : Dev) (port : Nat) (m : CancelMsg) : Bool × Dev :=
  if !d.isActive port || d.role port != 1 || d.ownId.isNone then (false, d.ctrlDrop port)
  else
    let id := (m.sw, m.op, m.workId)
    if d.jobs.seen.contains id then (false, d)
    else
      let d := (d.modJobs (fun J => { J with seen := J.seen ++ [id] })).flood (some port) { d.ctrl 0x06 5 m.bytes with srcSw := m.sw }
      (d.ownId = some m.toSw, d)

/-- Enter or change a claim. -/
def putClaim (d : Dev) (comp : Nat) (m : CancelMsg) (st : Nat) : Dev :=
  let c : Claim := { comp := comp, reply := m.replyFeid, work := m.workId, st := st, peer := m.sw, tick := d.tick }
  let rest := d.jobs.claims.filter (fun x => !(x.comp = comp && x.reply = m.replyFeid && x.work = m.workId))
  if rest.length < 4096 then d.modJobs (fun J => { J with claims := rest ++ [c] }) else d

def answerGrant (d : Dev) (m : CancelMsg) : Dev := (d.sendCancel m.workId m.replyFeid 3 m.sw).bump Reg.backupGrants
def answerDeny (d : Dev) (m : CancelMsg) : Dev := (d.sendCancel m.workId m.replyFeid 4 m.sw).bump Reg.backupDenies

/-- NOTIFY from a backup (R420). -/
def arbNotify (d : Dev) (comp : Nat) (m : CancelMsg) : Dev :=
  match d.claimOf comp m.replyFeid m.workId with
  | some c => if c.st = 2 then d.answerDeny m else d
  | none =>
    if 4096 ≤ d.jobs.claims.length then d
    else if (d.jobOfKey comp m.replyFeid m.workId false).isSome then d.putClaim comp m 1
    else (d.putClaim comp m 3).answerGrant m

/-- CLAIM from a backup (R420). -/
def arbClaim (d : Dev) (comp : Nat) (m : CancelMsg) : Dev :=
  match d.claimOf comp m.replyFeid m.workId with
  | some c =>
    if c.st = 2 then d.answerDeny m
    else if c.st = 3 then d
    else
      let d := (d.putClaim comp m 3).answerGrant m
      match d.jobOfKey comp m.replyFeid m.workId false with
      | some k => d.endJob k St.cancelled 0xFF
      | none => d
  | none =>
    if 4096 ≤ d.jobs.claims.length then d.answerGrant m
    else
      let d := (d.putClaim comp m 3).answerGrant m
      match d.jobOfKey comp m.replyFeid m.workId false with
      | some k => d.endJob k St.cancelled 0xFF
      | none => d

/-- A backup may go on: what it held leaves, its summary last (R419). -/
def backupGo (d : Dev) (k : Nat) : Dev :=
  match d.job k with
  | none => d
  | some j =>
    let d := d.modJob k (fun j => { j with backup := 3, held := [] })
    let d := d.each j.held (fun d pk => d.sendKeyed pk)
    let d := d.each (d.unitsOfJob k) (fun d u => d.enterContribs u)
    if summarized j then d.freeJob k else d

/-- GRANT, DENY or CANCEL reaches the backup of a key (R419). -/
def backupAnswer (d : Dev) (comp : Nat) (m : CancelMsg) (go : Bool) : Dev :=
  match d.jobOfKey comp m.replyFeid m.workId true with
  | none => d
  | some k =>
    if !(d.job k).any (fun j => j.backup = 1 || j.backup = 2) then d
    else if go then d.backupGo k
    else d.endJob k St.cancelled 0xFF

/-- A backup has waited CLAIM_WAIT_TICKS for its answer (R421). -/
def claimTimeout (d : Dev) (k : Nat) : Dev :=
  match d.job k with
  | none => d
  | some j =>
    if j.backup = 2 && decide (j.claimTick + d.reg Reg.claimWaitTicks ≤ d.tick) then (d.bump Reg.claimTimeouts).backupGo k else d

/-- A decided claim has been kept for CLAIM_HOLD_TICKS (R420). -/
def claimExpire (d : Dev) (comp reply work : Nat) : Dev :=
  let old := fun (c : Claim) => c.comp = comp && c.reply = reply && c.work = work && c.st != 1
    && decide (c.tick + d.reg Reg.claimHoldTicks ≤ d.tick)
  d.modJobs (fun J => { J with claims := J.claims.filter (fun c => !old c) })

end Dev

/-- PLAN_LOAD (R400). -/
def execPlanLoad (acc : Nat) (s : State) : Ans :=
  onDevWith (fun _ m d => d.writeKey acc Reg.planCmd (fun d => d.orReject (d.planCmd m (d.planSel acc) 1))) s
/-- PLAN_UNLOAD (R401). -/
def execPlanUnload (acc : Nat) (s : State) : Ans :=
  onDevWith (fun _ m d => d.writeKey acc Reg.planCmd (fun d => d.orReject (d.planCmd m (d.planSel acc) 2))) s
/-- PLAN_ACTIVATE (R401). -/
def execPlanActivate (slot : Nat) (s : State) : Ans := onMem (Dev.planActivate slot) s
/-- NODE_LATE (R413). -/
def execNodeLate (q job node : Nat) (s : State) : Ans := onMem (fun m d => Dev.nodeLate (q * 256 + job) node m d) s
/-- CONTRIB_RETRY (R405). -/
def execContribRetry (q job group chunk : Nat) (s : State) : Ans := onDev (fun d => d.contribRetry (q * 256 + job) group chunk) s
/-- BACKUP_NOTIFY (R420). -/
def execBackupNotify (port comp : Nat) (m : CancelMsg) (s : State) : Ans :=
  onDev (fun d => let r := (d.ctrlTaken port 5 16).takeCancel port { m with op := 1 }; if r.1 then r.2.arbNotify comp { m with op := 1 } else r.2) s
/-- BACKUP_CLAIM (R420). -/
def execBackupClaim (port comp : Nat) (m : CancelMsg) (s : State) : Ans :=
  onDev (fun d => let r := (d.ctrlTaken port 5 16).takeCancel port { m with op := 2 }; if r.1 then r.2.arbClaim comp { m with op := 2 } else r.2) s
/-- BACKUP_GRANT (R419). -/
def execBackupGrant (port comp : Nat) (m : CancelMsg) (s : State) : Ans :=
  onDev (fun d => let r := (d.ctrlTaken port 5 16).takeCancel port { m with op := 3 }; if r.1 then r.2.backupAnswer comp { m with op := 3 } true else r.2) s
/-- BACKUP_DENY (R419). -/
def execBackupDeny (port comp : Nat) (m : CancelMsg) (s : State) : Ans :=
  onDev (fun d => let r := (d.ctrlTaken port 5 16).takeCancel port { m with op := 4 }; if r.1 then r.2.backupAnswer comp { m with op := 4 } false else r.2) s
/-- BACKUP_CANCEL (R419, R420): the primary's switch ends the backup. -/
def execBackupCancel (port comp : Nat) (m : CancelMsg) (s : State) : Ans :=
  onDev (fun d => let r := (d.ctrlTaken port 5 16).takeCancel port { m with op := 0 }; if r.1 then r.2.backupAnswer comp { m with op := 0 } false else r.2) s
/-- CLAIM_WAIT_TIMEOUT (R421). -/
def execClaimWaitTimeout (q job : Nat) (s : State) : Ans := onDev (fun d => d.claimTimeout (q * 256 + job)) s
/-- CLAIM_ENTRY_EXPIRE (R420). -/
def execClaimEntryExpire (comp replyFeid workId : Nat) (s : State) : Ans := onDev (fun d => d.claimExpire comp replyFeid workId) s

end Sys2Proof.Machine
end

