-- ==== Sys2Proof/Machine/Dict.lean ====
section
/-! DEFINITION. Reads and writes of the object dictionary: the values entries show, the rule that each write must pass and what it does
(R11 to R15, R600 to R616 and the rule each table row names), snapshots (R606) and multi-part writes (R580). -/

namespace Sys2Proof.Machine

/-- What a dictionary access can reach: everything but the queue. -/
structure World where
  fuses : Fuses
  mem : Memory
  dev : Dev

/-- A meaning that acts on all but the queue. -/
def onWorld (f : World → World) (s : State) : Ans :=
  let w := f { fuses := s.fuses, mem := s.mem, dev := s.dev }
  .next { s with fuses := w.fuses, mem := w.mem, dev := w.dev }

namespace World
def onDev (w : World) (f : Dev → Dev) : World := { w with dev := f w.dev }
end World

/-! ### Codes of entries -/

/-- First index of the range that holds an index, where units share a table (R600). -/
def indexBase (i : Nat) : Nat :=
  if 0x2100 ≤ i ∧ i < 0x2160 then 0x2100 else if 0x2200 ≤ i ∧ i < 0x2380 then 0x2200 else if 0x5000 ≤ i ∧ i < 0x500C then 0x5000 else i

/-- The table row of a key: index of the first unit, and sub-index. -/
def entryCode (k : Nat) : Nat := indexBase (keyIdx k) * 256 + keySub k

/-- The unit of a per-unit index. -/
def unitNo (k : Nat) : Nat := keyIdx k - indexBase (keyIdx k)

/-! ### What entries show -/

namespace Dev

/-- Entries of one quadrant, by table row of Q0 (R35, R189, R191, R225, R314, R348, R397). -/
def viewQuad (d : Dev) (c q : Nat) : Option Nat :=
  if c = 0x300010 then some (d.core q).used
  else if c = 0x30001C then some ((d.core q).rsv0Used + (d.core q).rsv1Used)
  else if c = 0x300028 then
    some ((([0, 1, 2, 3].map (fun i => Tab.keys (d.core i).withheld)).flatten.filter (fun p => quadOf p = q)).eraseDups).length
  else if c = 0x310018 then some (d.core q).descs.length
  else if c = 0x380020 then some (d.home q).dedup.length
  else if c = 0x520010 then some (d.coh.lost.filter (fun l => sliceOf l = q)).length
  else if c = 0x400024 then some (Tab.count d.jobs.recs (fun k _ => k / 256 = q))
  else if c = 0x480028 then
    some ((d.instsOf q).map (fun x => Tab.count x.chunks (fun _ c => c.phase ≤ 2) * GD.elems x.desc)).sum
  else if c = 0x48002C then some (d.journal q).length
  else none

/-- Entries of the selected group, plan, composition, item or record. -/
def viewSel (d : Dev) (acc c i : Nat) : Option Nat :=
  if c = 0x30000B then
    let v := d.regAs acc Reg.voqSelect
    some ((d.core (bits v 12 2)).qLen (voqKey (bits v 3 9) (bits v 0 3)))
  else if c = 0x480007 then some (d.groupState i)
  else if c = 0x480008 then some (d.shown i).refusal
  else if c = 0x480009 then some (((d.inst i).map Inst.low).getD 0)
  else if c = 0x48000A then some (((d.inst i).map Inst.quad).getD 0xFF)
  else if c = 0x48000B then some (((d.inst i).map Inst.excluded).getD 0)
  else if c = 0x48000C then some (((d.inst i).map Inst.subst).getD 0)
  else if c = 0x4A0005 then some (d.plan i).state
  else if c = 0x4A0006 then some (d.plan i).refusal
  else if c = 0x4A0007 then some (d.plan i).recs.length
  else if c = 0x510006 then some (d.slotsHeld i)
  else if c = 0x60000F then some (leNat ((d.keySlot i).gens.flatMap (fun g => leBytes 1 g.num ++ leBytes 1 g.state)))
  else if c = 0x702009 then some (d.item i).score
  else if c = 0x70200A then some (d.item i).state
  else if c = 0x810012 then some (d.tilesHeldNow i)
  else if c = 0x810013 then some (d.tierhMeasure i)
  else if c = 0x70000A then
    let v := d.regAs acc Reg.logSelect
    some (((Tab.look (d.log (bits v 18 3)).recs (bits v 0 18)).map (fun r => leNat r.bytes)).getD 0)
  else none

/-- 0x1200:07+0x10h (R587, R593). -/
def hostLink (d : Dev) (h : HostId) : Nat :=
  let H := d.host h
  H.width % 16 + H.gen % 16 * 16 + (H.up && d.flag (Reg.rxringBase (hostNo h))).toNat * 256

/-- 0x9000:1A (R636, R637). -/
def refState (d : Dev) : Nat :=
  d.power.refs % 4 + d.power.running % 2 * 4 + (d.pcieRef .ha).toNat * 8 + (d.pcieRef .hb).toNat * 16 + (!d.mgmt.clkLost).toNat * 32

/-- Other entries the block computes from its state. -/
def viewOne (f : Fuses) (d : Dev) (c : Nat) : Option Nat :=
  if c = 0x340005 then some (d.hmapActive.filter (fun e => HMap.state e.2 != 0)).length
  else if c = 0x380005 then some (d.regionsActive.filter (fun e => Region.state e.2 = 1)).length
  else if c = 0x510003 then some ((List.range d.tiers.poolSlots).filter (fun s => !Tab.has d.tiers.slots s && d.slotInPool s)).length
  else if c = 0x4A000A then some d.jobs.claims.length
  else if c = 0x110009 then some d.mgmt.cmp.length
  else if c = 0x110007 then some (leNat (padTo 1952 (Config.mldsaPublic Sec.mgmtKey)))
  else if c = 0x702010 then some d.monitoredPeers.length
  else if c = 0x702011 then some (Tab.count d.health.items (fun _ h => h.state = 2 || h.state = 4))
  else if c = 0x600003 then some (leNat d.measList)
  else if c = 0x600004 then some (leNat d.measDigest)
  else if c = 0x600008 then some (leNat f.counterBytes)
  else if c = 0x60001B then some (f.ownerHash.getD 0)
  else if c = 0x120007 then some (d.hostLink .ha)
  else if c = 0x120017 then some (d.hostLink .hb)
  else if c = 0x90001A then some d.refState
  else none

/-- The value an accessor reads at a key; 0x2200+p:23 shows no peer before the port has trained (R77). What it reads in a port that an
expulsion takes to HELD before its training has ended is open: DESIGN CHOICE, the peer of the training before (log 175). -/
def view (f : Fuses) (d : Dev) (acc k : Nat) : Nat :=
  let c := entryCode k
  match d.viewQuad (c - c % 4) (c % 4) with
  | some v => v
  | none =>
    match d.viewSel acc c (keySel k) with
    | some v => v
    | none =>
      if c = 0x220023 && d.portState (unitNo k) < 5 then 0xFFFF else (viewOne f d c).getD (d.regAs acc k)

/-- The bytes of an entry as an accessor reads them; a report is made for the read (R536). -/
def viewBytes (f : Fuses) (d : Dev) (acc k : Nat) (e : Entry) : Bytes :=
  if k = Reg.report then reportFor f d acc else leBytes e.size (view f d acc k)

end Dev

/-! ### Which values a write may carry -/

/-- Ranges the tables and rules state: row, least and greatest value (R610). -/
def rangeRows : List (Nat × Nat × Nat) :=
  [(0x80000D, 0, 2), (0x80000F, 0, 2), (0x340002, 0, 8191), (0x300007, 100, 10000), (0x310002, 0, 4095), (0x330002, 16, 2 ^ 32),
   (0x380002, 0, 16383), (0x380006, 0, 4096), (0x380007, 1, 1024), (0x38000A, 5, 40), (0x38000B, 0, 3), (0x510004, 0, 63),
   (0x120021, 0, 63), (0x120025, 0, 63), (0x540003, 100, 100000), (0x400001, 5625, 11250), (0x400003, 1, 256), (0x480002, 0, 65535)]
  ++ [(0x480004, 0, 4095), (0x48000D, 0, 1152), (0x48000E, 0, 64), (0x4A0002, 0, 15), (0x4A0008, 64, 2 ^ 32), (0x4A0009, 1, 16),
   (0x4C0001, 100, 10000), (0x560002, 0, 1023), (0x560006, 0, 15), (0x560007, 100, 100000), (0x56000A, 0, 63), (0x702002, 1, 999),
   (0x702004, 20, 40), (0x702005, 1, 50), (0x702007, 0, 30), (0x703002, 0, 63), (0x600011, 0, 63), (0x60000E, 0, 1), (0x810002, 0, 63),
   (0x81000A, 8, 64)]
  ++ [(0x820001, 0, 63), (0x110002, 0, 1), (0x110005, 1024, 65535), (0x900004, 1500, 2750), (0x90000A, 70, 105), (0x90000C, 70, 95),
   (0x210001, 0, 2), (0x210002, 0, 2), (0x220020, 0, 3), (0x30000A, 0, 16383)]

/-- The value lies in the range its row states, and a BOOL is 0 or 1 (R601). -/
def rangeOk (k v : Nat) : Bool :=
  (match rangeRows.find? (fun r => r.1 = entryCode k) with
   | some (_, lo, hi) => decide (lo ≤ v ∧ v ≤ hi)
   | none => true)
    && (match rowOf k with
        | some e => if e.kind = .bool then decide (v ≤ 1) else true
        | none => true)

/-- FEID values: 12 bits, or unassigned. -/
def feidOk (v : Nat) : Bool := decide (v < 4096) || v = 0xFFFF

/-- An item as 0x7020:08 codes it (R526). -/
def itemOk (v : Nat) : Bool :=
  bits v 14 2 = 0 && (match itemKind v with
    | 0 => decide (itemNo v < 384)
    | 1 => true
    | 2 => decide (itemNo v < 32)
    | _ => false)

/-- Dedicated credits of a block (R96). -/
def credOk (v : Nat) : Bool :=
  let bs := (List.range 8).map (fun i => bits v (8 * i) 8)
  bs.all (fun b => b % 4 = 0) && decide (8 ≤ bs.getD 0 0) && decide (16 ≤ bs.getD 1 0) && decide (bs.sum ≤ 256)

/-- Dynamic threshold exponents, each from −6 to +3 (R159). -/
def dtOk (v : Nat) : Bool := (List.range 8).all (fun i => let b := bits v (8 * i) 8; decide (b ≤ 3) || decide (250 ≤ b))

namespace Dev

/-- FEIDs of the switch's ENDPOINT ports but one. -/
def otherFeids (d : Dev) (p : Nat) : List Nat :=
  (whichOf 384 (fun x => x != p && d.portExists x && d.role x = 0)).map (fun x => d.reg (Reg.portExpectFeid x))

/-- A port's FEID entry: no other ENDPOINT port and no host has it, and it is not the key service's (R45, R541). -/
def portFeidOk (d : Dev) (p v : Nat) : Bool :=
  feidOk v && (v = 0xFFFF || d.role p != 0
    || !((d.otherFeids p).contains v || d.reg Reg.hostFeidHa = v || d.reg Reg.hostFeidHb = v || d.reg Reg.kdsFeid = v))

/-- The key service FEID equals no ENDPOINT port's and no host's (R541). -/
def kdsFeidOk (d : Dev) (v : Nat) : Bool :=
  feidOk v && (v = 0xFFFF || !((d.otherFeids 384).contains v || d.reg Reg.hostFeidHa = v || d.reg Reg.hostFeidHb = v))

/-- The staging pool a write would give (R230, R241). -/
def poolOk (d : Dev) (base slots : Nat) : Bool :=
  let len := slots * 2 ^ 21
  let rs := (d.regionsActive.map Prod.snd).filter (fun r => Region.state r = 1) ++ d.regionsStaged
  base % 2 ^ 21 = 0 && decide (slots ≤ 65536) && allocatable base len
    && rs.all (fun r => !(d.regionHere r && overlap (regionLo r - windowBase d.dom.swId) (regionHi r - regionLo r) base len))

/-- Floors that fit the pool (R248). -/
def floorsOk (d : Dev) (c v : Nat) : Bool :=
  decide (((List.range 64).map (fun i => if i = c then v else d.reg (Reg.stageFloor i))).sum ≤ d.reg Reg.stageSlots)

/-- A BAR2 base (R230, R251). -/
def bar2Ok (v : Nat) : Bool := v % 2 ^ 21 = 0 && decide (v % stackBytes ≤ 0x7C0000000) && decide (v + 2 ^ 34 ≤ windowSize)

/-- The rule of an entry's defining chapter that is more than a range, as of now: row, key, value (check 7 of R608). -/
def ruleOk (d : Dev) (k v : Nat) : Bool :=
  let c := entryCode k
  let i := keySel k
  if c = 0x800002 || c = 0x800004 then decide (v < 32) || v = 0xFF
  else if c = 0x800010 || c = 0x800011 then feidOk v && (v = 0xFFFF || d.reg Reg.kdsFeid != v)
  else if c = 0x220021 then d.portFeidOk (unitNo k) v
  else if c = 0x60000A then d.kdsFeidOk v
  else if c = 0x210004 then credOk v
  else if c = 0x300002 then dtOk v
  else if c = 0x300003 then decide (131072 + v + d.reg Reg.rsvCls1 ≤ 196608)
  else if c = 0x300004 then decide (131072 + d.reg Reg.rsvCls0 + v ≤ 196608)
  else if c = 0x310003 then decide (v < 2 ^ 386)
  else if c = 0x30000A then decide (bits v 3 9 < 384)
  else if c = 0x500006 then v = 0 || decide (2 ^ 20 ≤ v)
  else if c = 0x510001 then d.poolOk v (d.reg Reg.stageSlots)
  else if c = 0x510002 then d.poolOk (d.reg Reg.stageBase) v
  else if c = 0x510005 then d.floorsOk i v
  else if c = 0x120020 || c = 0x120024 then bar2Ok v
  else if [0x540007, 0x54000A, 0x700001, 0x700005, 0x120001, 0x120011].contains c then v % 4096 = 0
  else if c = 0x120002 || c = 0x120012 then (List.range 9).any (fun n => v = 2 ^ (n + 4))
  else if c = 0x480005 then v >>> 26 = 0
  else if c = 0x480003 then bits v 28 4 = 0 && bits v 152 8 = 0 && v >>> 208 = 0
  else if c = 0x700009 then bits v 21 11 = 0 && decide (bits v 18 3 ≤ 4)
  else if c = 0x702008 || c = 0x70200F then itemOk v
  else if c = 0x600007 || c = 0x60000D then decide (v < 64) || v = 0xFF
  else if c = 0x900017 then (List.range 4).all (fun n => decide (bits v (8 * n) 8 ≤ 4))
  else if c = 0x340003 then d.hmapEntryOk v
  else if c = 0x380003 then d.regionEntryOk v
  else if c = 0x560003 then d.sgEntryOk v
  else if c = 0x810003 then d.compRecordOk i v
  else true

/-- A key slot's composition and purpose change only while it holds no generation (R537). -/
def slotFixed (d : Dev) (k v : Nat) : Bool :=
  (entryCode k = 0x60000D || entryCode k = 0x60000E) && !((d.keySlot (keySel k)).gens.isEmpty) && d.reg k != v

/-! ### What a write does -/

/-- A write of PB_MODE: the block's ports go to DISABLED, and those of the new mode train (R105). -/
def pbMode (d : Dev) (b v : Nat) : Dev :=
  let d := d.each (d.portsOfBlock b) (fun d p => (d.leaveActive p 0).showTrained p 0)
  let d := d.setReg (Reg.pbMode b) v
  d.each ((d.portsOfBlock b).filter (fun p => d.flag (Reg.portEnable p) && d.role p != 3)) (fun d p => d.setReg (Reg.portState p) 1)

/-- A write of PORT_ENABLE (R102). -/
def portEnable (d : Dev) (p v : Nat) : Dev :=
  let d := d.setReg (Reg.portEnable p) v
  if v = 0 then d.leaveActive p 0
  else if (d.portState p = 0 && d.role p != 3) || d.portState p = 8 then d.untrained p 1
  else d

/-- A write of a port's role, FEID or domain: a port that is not DISABLED goes to DETECT, with the role DISABLED to DISABLED (R102, R611). -/
def portConfig (d : Dev) (k v : Nat) : Dev :=
  let p := unitNo k
  let d := if d.portState p = 0 then d else d.leaveActive p 1
  let d := d.setReg k v
  if d.role p = 3 then d.setReg (Reg.portState p) 0
  else if d.portState p = 0 && d.flag (Reg.portEnable p) then d.setReg (Reg.portState p) 1
  else d

/-- A write of the domain ID, switch ID or plane set: acted on at once while the tick state is FREE (R37, R611). A switch that so
loses its place keeps only its plane ports in service (R38), and ports whose peer no longer fits are held (R42, R71). -/
def domainEntry (d : Dev) (k v : Nat) : Dev :=
  let had := d.ownId.isSome
  let d := d.setReg k v
  let d :=
    if d.reg Reg.tickState != 0 then d
    else if k = Reg.domId then d.modDom (fun D => { D with domId := v })
    else if k = Reg.switchId then d.modDom (fun D => { D with swId := v })
    else d.modDom (fun D => { D with planeSet := v })
  let d := if had && d.ownId.isNone then d.placeLost else d
  if d.reg Reg.tickState = 0 then d.recheckPeers else d

/-- A write of CFG_LOCK (R613). -/
def lockWrite (d : Dev) (acc v : Nat) : Option Dev :=
  if v = 1 then some (d.setReg Reg.cfgLock 1)
  else if v = 0 && acc < 4 then some (d.setReg Reg.cfgLock 0)
  else none

/-- A host's write to a BAR2 entry; one to the other host's is discarded (R254). -/
def bar2Entry (d : Dev) (acc k v : Nat) : Dev :=
  let other := (acc = 0x10 && 4 ≤ keySub k % 16 % 8) || (acc = 0x11 && keySub k % 16 % 8 < 4)
  if other then d else d.setReg k v

/-- Writes that do more than give the entry its value, by row: memory, accessor, key, value. -/
abbrev Act := Memory → Nat → Nat → Nat → Dev → Option Dev

/-- Ports, domain, tiers, translation (R105, R102, R37, R254, R262, R280, R285). -/
def actsA : List (Nat × Act) :=
  [(0x10000D, fun _ acc _ v d => d.lockWrite acc v),
   (0x210001, fun _ _ k v d => some (d.pbMode (unitNo k) v)),
   (0x220004, fun _ _ k v d => some (d.portEnable (unitNo k) v)),
   (0x220020, fun _ _ k v d => some (d.portConfig k v)),
   (0x220021, fun _ _ k v d => some (d.portConfig k v)),
   (0x220022, fun _ _ k v d => some (d.portConfig k v)),
   (0x800001, fun _ _ k v d => some (d.domainEntry k v)),
   (0x800002, fun _ _ k v d => some (d.domainEntry k v)),
   (0x800003, fun _ _ k v d => some (d.domainEntry k v)),
   (0x120004, fun _ _ _ v d => some (d.ringCons 0 v)),
   (0x120014, fun _ _ _ v d => some (d.ringCons 1 v)),
   (0x120020, fun _ acc k v d => some (d.bar2Entry acc k v)),
   (0x120024, fun _ acc k v d => some (d.bar2Entry acc k v)),
   (0x540002, fun _ _ k v d => d.ctxWrite (keySel k) v),
   (0x540004, fun _ _ _ v d => some (d.askInval v)),
   (0x540009, fun _ _ _ v d => some (d.flogConsSet .ha v)),
   (0x54000C, fun _ _ _ v d => some (d.flogConsSet .hb v)),
   (0x54000D, fun _ acc _ v d => some (d.faultResp (if acc = 0x11 then .hb else .ha) v))]

/-- Detector, audits (R181, R185). -/
def actsC : List (Nat × Act) :=
  [(0x300006, fun _ _ k v d => some (if v = 0 then (d.setReg k v).hotOff else d.setReg k v)),
   (0x330001, fun _ _ k v d => some (if d.reg k = 0 && v != 0 then (d.setReg k v).teaselOn else d.setReg k v))]

/-- Jobs, reduction, plans, erasure coding, logs, health, keys, compositions, power (R347, R376, R401, R476, R494, R514, R523, R551, R566, R573,
R636, R638, R642). -/
def actsB : List (Nat × Act) :=
  [(0x400008, fun _ _ _ v d => d.libActivate v),
   (0x480006, fun _ acc _ v d => d.groupCmd acc v),
   (0x4A0004, fun m acc _ v d => d.planCmd m (d.planSel acc) v),
   (0x560005, fun _ acc _ v d => if v = 1 then d.failMember acc else none),
   (0x560009, fun _ _ _ v d => d.askStepFence v),
   (0x600010, fun _ acc _ v d => d.slotCmd acc v),
   (0x700003, fun _ _ _ v d => some (d.evlogCons .ha v)),
   (0x700007, fun _ _ _ v d => some (d.evlogCons .hb v)),
   (0x70200F, fun _ _ _ v d => d.readmit v),
   (0x810009, fun _ _ _ v d => if v = 1 then some d.commitCmd else if v = 2 then some d.resyncCmd else none),
   (0x820009, fun _ acc _ v d => if v = 1 then some (d.usageDemand acc) else none),
   (0x90001B, fun _ _ _ v d => d.refPref v),
   (0x90001D, fun _ _ _ v d => d.resetCmd v),
   (0xF00001, fun _ _ _ v d => d.bistCmd v)]

/-- The effect of a write that passed checks 1 to 6; none where check 7 refuses it. -/
def writeVal (m : Memory) (acc k v : Nat) (d : Dev) : Option Dev :=
  if !rangeOk k v || !d.ruleOk k v || d.slotFixed k v then none
  else
    match (actsA ++ actsC ++ actsB).find? (fun a => a.1 = entryCode k) with
    | some (_, f) => f m acc k v d
    | none => some (d.setAs acc k v)

end Dev

/-- A debug token from its 5,325 bytes (R554); bytes that are not a token's spell one that no check accepts. -/
def tokenOf (bs : Bytes) : DebugToken :=
  let t : DebugToken :=
    { serial := le bs 4 8, challenge := slice bs 12 32, scope := le bs 44 2, authority := le bs 46 1, expiryTicks := le bs 48 8,
      pubkey := slice bs 64 1952, sig := slice bs 2016 3309 }
  if Dev.tokenHead t = bs.take 2016 then t else { t with scope := 16 }

namespace World

/-- A write's effect where it also reaches fuses or tier H (R532, R554, R614, R630). -/
def writeVal (w : World) (acc k v : Nat) : Option World :=
  if k = Reg.svnCommit then
    if 64 ≤ v then none
    else
      let r := Dev.svnCommit v w.fuses w.dev
      some { w with fuses := r.1, dev := r.2 }
  else if k = Reg.debugToken then
    let r := Dev.takeToken (tokenOf (leBytes 5325 v)) w.fuses w.mem w.dev
    some { w with mem := r.1, dev := r.2 }
  else if k = Reg.ownerDebugHash then some { w with fuses := { w.fuses with ownerHash := some v } }
  else if k = Reg.quadOff then (w.dev.quadOffWrite v).map (fun n => { w with mem := Dev.quadMem w.mem w.dev n, dev := n })
  else (Dev.writeVal w.mem acc k v w.dev).map (fun n => { w with dev := n })

/-- The effect with its status; a refusal changes nothing (R579). -/
def tryWrite (w : World) (acc k v : Nat) : Nat × World :=
  match w.writeVal acc k v with
  | some n => (Acc.done, n)
  | none => (Acc.rejected, w)

/-! ### Writes (R580, R605, R608) -/

def setPart (w : World) (k : Nat) (p : Option PartWrite) : World :=
  w.onDev (fun d => d.modMgmt (fun M => { M with parts := match p with | some p => Tab.put M.parts k p | none => Tab.del M.parts k }))

/-- A part of a multi-part write (R580, R613). -/
def writePart (w : World) (acc k off size : Nat) (data : Bytes) : Nat × World :=
  if off = 0 then (Acc.done, w.setPart k (some { accessor := acc, data := data }))
  else
    match Tab.look w.dev.mgmt.parts k with
    | some p =>
      if p.accessor != acc || p.data.length != off then (Acc.badLength, w)
      else if off + data.length < size then (Acc.done, w.setPart k (some { p with data := p.data ++ data }))
      else (w.setPart k none).tryWrite acc k (leNat (p.data ++ data))
    | none => (Acc.badLength, w)

/-- A write access by an accessor: the checks, then its effect (R608 to R611). -/
def writeAcc (w : World) (acc : Nat) (e : EntryRef) (data : Bytes) : Nat × World :=
  let st := w.dev.accCheck w.fuses.ownerHash.isSome acc true e.index e.sub e.offset data.length
  let k := w.dev.keyAs acc e.index e.sub
  let size := ((entryOf e.index e.sub).map (·.size)).getD 0
  let r : Nat × World :=
    if st != 0 then (st, if e.offset + data.length = size then w.setPart k none else w)
    else if w.dev.absentPort e.index then (Acc.done, w)
    else if accessLimit acc < size then w.writePart acc k e.offset size data
    else w.tryWrite acc k (leNat (splice (leBytes size (w.dev.regAs acc k)) e.offset data))
  (r.1, r.2.onDev (fun d => d.wrote acc e.index e.sub r.1))

/-- A write access is taken: by a live accessor, and a fault response once the host's earlier BAR2 writes are in (R280). -/
def writeReady (w : World) (acc : Nat) (e : EntryRef) : Bool :=
  w.dev.accLive acc && !(e.index = 0x5400 && e.sub = 0x0D && (acc = 0x10 || acc = 0x11)
    && !(w.dev.bar2Drained (if acc = 0x11 then .hb else .ha)))

/-- A write as a command of its own. -/
def write (w : World) (acc : Nat) (e : EntryRef) (data : Bytes) : World :=
  if w.writeReady acc e then (w.writeAcc acc e data).2 else w

/-- The same for a scalar or OCTETS entry written whole, one longer than the accessor's access in its parts at once. -/
def writeWhole (w : World) (acc k v : Nat) : World :=
  let idx := keyIdx k
  let sub := keySub k
  if !w.writeReady acc { index := idx, sub := sub } then w
  else
    let size := ((entryOf idx sub).map (·.size)).getD 0
    let st := w.dev.accCheck w.fuses.ownerHash.isSome acc true idx sub 0 (min size (accessLimit acc))
    let r : Nat × World :=
      if st != 0 then (st, w)
      else if w.dev.absentPort idx then (Acc.done, w)
      else w.tryWrite acc (w.dev.keyAs acc idx sub) v
    r.2.onDev (fun d => d.wrote acc idx sub r.1)

/-! ### Reads (R13, R14, R605 to R608) -/

/-- The accessor's snapshot of an entry, taken now where the read starts it or none is held (R606). -/
def snapshot (w : World) (acc k off : Nat) (e : Entry) : Bytes × World :=
  match (Tab.look w.dev.mgmt.snaps acc).bind (fun s => if s.key = k && off != 0 then some s.data else none) with
  | some bs => (bs, w)
  | none =>
    let bs := Dev.viewBytes w.fuses w.dev acc k e
    (bs, w.onDev (fun d => d.modMgmt (fun M => { M with snaps := Tab.put M.snaps acc { key := k, data := bs } })))

/-- What the read of an RC entry leaves (R14): 0, but USED_HIGH goes on from the cells now in use, the highest use since that read (R189). -/
def clearedRc (d : Dev) (k : Nat) : Dev :=
  d.setReg k ((([0, 1, 2, 3].find? (fun q => Reg.usedHigh q = k)).map (fun q => (d.core q).used)).getD 0)

/-- A read access by an accessor: status, bytes, and what it leaves: an RC entry is cleared (R14), a WO entry reads zeros (R610). -/
def readAcc (w : World) (acc : Nat) (r : EntryRef) (len : Nat) : Nat × Bytes × World :=
  let st := w.dev.accCheck w.fuses.ownerHash.isSome acc false r.index r.sub r.offset len
  match entryOf r.index r.sub with
  | none => (Acc.noEntry, [], w)
  | some e =>
    let k := w.dev.keyAs acc r.index r.sub
    if st != 0 then (st, [], w)
    else if w.dev.absentPort r.index then (Acc.done, slice (leBytes e.size (regDefault k)) r.offset len, w)
    else
      match column acc e with
      | .wo => (Acc.done, List.replicate len 0, w)
      | c =>
        let got := if e.octets then w.snapshot acc k r.offset e else (Dev.viewBytes w.fuses w.dev acc k e, w)
        (Acc.done, slice got.1 r.offset len, if c = .rc then got.2.onDev (fun d => clearedRc d k) else got.2)

end World

end Sys2Proof.Machine
end

