-- ==== Sys2Proof/Machine/Mgmt.lean ====
section
/-! DEFINITION. The management paths to the dictionary: Campion's watchdog (R577, R578), CMP sessions (R581 to R586), host mailboxes (R589,
R590), SMBus (R595) and the console (R597), and the dictionary writes with a row of their own (R611). -/

namespace Sys2Proof.Machine

namespace Dev

/-! ### Campion (R578) -/

/-- A CMP session ends, with its accessor (R584, R604). -/
def cmpEnd (d : Dev) (s : Nat) : Dev := (d.modMgmt (fun M => { M with cmp := Tab.del M.cmp s })).endAccessor s

/-- The watchdog restarts Campion. -/
def watchdog (d : Dev) : Dev :=
  if !d.campionUp then d
  else
    let d := (d.setReg Reg.campionState 1).bump Reg.campionRestarts
    let d := d.modMgmt (fun M => { M with restarts := M.restarts.filter (fun t => d.tick < t + 2 ^ 20) ++ [d.tick] })
    (d.each [0, 1, 2, 3] cmpEnd).endAccessor 0x30

/-- The restart completes; after three within 2^20 ticks Campion stays FAILED. -/
def restartDone (d : Dev) : Dev :=
  if !d.power.on || d.reg Reg.campionState != 1 then d
  else if 3 ≤ d.mgmt.restarts.length then d.setReg Reg.campionState 2
  else (d.setReg Reg.campionState 0).evalLevels

/-! ### CMP (R581 to R586) -/

/-- The management port serves CMP: Campion runs and MGMT_CLK is present (R577, R637). -/
def cmpServed (d : Dev) : Bool := d.campionUp && !d.mgmt.clkLost

def cmpSlot (d : Dev) (s : Nat) (f : CmpSession → CmpSession) : Dev := d.modMgmt (fun M => { M with cmp := Tab.edit M.cmp s f })

/-- HELLO: OFFER in a free session slot, or status 2 where four sessions run (R582, R584). -/
def cmpHello (d : Dev) (m : SessMsg) : Dev :=
  if !d.cmpServed || m.body.length < 32 then d
  else
    match (List.range 4).find? (fun s => !Tab.has d.mgmt.cmp s) with
    | none => d.emit (.cmp 0 { op := 2, status := Acc.denied })
    | some s =>
      let r := d.freshBytes 32
      let k := r.2.fresh
      let ek := Config.mlkemEk k.1
      let sig := Config.mldsaSign Sec.mgmtKey (m.body ++ r.1 ++ ek)
      let offer := r.1 ++ ek ++ leBytes 8192 (d.reg Reg.mgmtCert) ++ sig
      let x : CmpSession := { state := 1, helloBody := m.body, offerBody := offer, kem := k.1, last := d.tick }
      (k.2.modMgmt (fun M => { M with cmp := Tab.put M.cmp s x })).emit (.cmp s { op := 2, session := s, body := offer })

/-- ACCEPT: FINISH where the client's certificate and signature hold, else the session ends (R581, R583, R584). -/
def cmpAccept (d : Dev) (m : SessMsg) : Dev :=
  match Tab.look d.mgmt.cmp m.session with
  | none => d
  | some x =>
    if !d.cmpServed || x.state != 1 then d
    else
      let ct := m.body.take 1088
      let h := Config.shake256 (x.helloBody ++ x.offerBody ++ ct) 64
      let key := Config.certChain (x.helloBody.drop 32) (leBytes 32 (d.reg Reg.mgmtCaHash))
      if key.any (fun pk => Config.mldsaVerify pk h (m.body.drop 1088)) then
        let k := Config.shake256 (Config.mlkemDecap x.kem ct ++ h ++ ascii "CRAVAR-CMP") 64
        let d := d.cmpSlot m.session (fun x => { x with state := 2, keyCs := k.take 32, keySc := k.drop 32, last := d.tick })
        d.emit (.cmp m.session { op := 4, session := m.session,
                                 body := Config.gcmSeal (k.drop 32) 0 (cmpHeader 4 0 m.session 16 0) [] })
      else (d.cmpEnd m.session).bump Reg.cmpAuthFails

/-- A message of an open session is new: its counter was not accepted and lies in the window (R583). -/
def counterNew (x : CmpSession) (c : Nat) : Bool :=
  0 < c && !x.accepted.contains c && decide (x.accepted.foldl max 0 < c + 64)

/-- Take the counter of a message, and start the idle time again (R583, R584). -/
def takeCounter (d : Dev) (s c : Nat) : Dev :=
  d.cmpSlot s (fun x =>
    let top := max c (x.accepted.foldl max 0)
    { x with accepted := c :: x.accepted.filter (fun a => top < a + 64), last := d.tick })

/-- The open session a message belongs to; none where it is discarded. -/
def cmpFor (d : Dev) (s c : Nat) : Option CmpSession :=
  match Tab.look d.mgmt.cmp s with
  | some x => if d.cmpServed && x.state = 2 && counterNew x c then some x else none
  | none => none

/-- The body of a RESP (R582). -/
def cmpAnswer (reqId : Nat) (data : Bytes) : Bytes := leBytes 4 reqId ++ leBytes 4 0 ++ data

/-- A RESP, kept among the last 64 (R585). -/
def cmpResp (d : Dev) (s reqId status : Nat) (data : Bytes) (new : Bool) : Dev :=
  let d := if new then d.cmpSlot s (fun x => { x with cache := ((reqId, status, data) :: x.cache).take 64 }) else d
  d.cmpSend s 7 status (cmpAnswer reqId data)

/-- SUBSCRIBE (R586). -/
def cmpSubscribe (d : Dev) (s c mask : Nat) : Dev :=
  match d.cmpFor s c with
  | some _ => (d.takeCounter s c).cmpSlot s (fun x => { x with mask := mask % 256 })
  | none => d

/-- CLOSE (R582). -/
def cmpClose (d : Dev) (s c : Nat) : Dev :=
  match d.cmpFor s c with
  | some _ => d.cmpEnd s
  | none => d

/-- 60 s, which are 12,000,000 ticks, without a message (R584). -/
def cmpIdle (d : Dev) (s : Nat) : Dev :=
  match Tab.look d.mgmt.cmp s with
  | some x => if d.campionUp && x.last + 12000000 ≤ d.tick then d.cmpEnd s else d
  | none => d

/-! ### SMBus (R595) -/

/-- Bytes one block read of a selection returns. -/
def smbusLen (e : EntryRef) : Nat :=
  match entryOf e.index e.sub with
  | some x => if x.octets then max 1 (min 32 (x.size - e.offset)) else x.size
  | none => 0

end Dev

namespace World

/-- A READ or WRITE of a session, answered once and from the cache after that (R585). -/
def cmpRequest (w : World) (s c reqId : Nat) (f : World → Nat × Bytes × World) : World :=
  match w.dev.cmpFor s c with
  | none => w
  | some x =>
    let w := w.onDev (fun d => d.takeCounter s c)
    match x.cache.find? (fun r => r.1 = reqId) with
    | some (_, st, bs) => w.onDev (fun d => d.cmpResp s reqId st bs false)
    | none =>
      let r := f w
      r.2.2.onDev (fun d => d.cmpResp s reqId r.1 r.2.1 true)

/-- A mailbox command completes: its registers, and vector 3 (R589, R594). -/
def mbDone (w : World) (h : HostId) (addr off len status : Nat) (buf : Bytes) : World :=
  w.onDev (fun d => (d.modHost h (fun H =>
    { H with mbAddr := addr, mbOffset := off, mbLen := len, mbStatus := 2 + status * 256, mbData := buf })).msix h 3)

/-- MB_CMD 1 (R589). -/
def mbRead (w : World) (h : HostId) (addr off len : Nat) : World :=
  if !w.dev.accLive (Dev.hostAcc h) then w
  else
    let r := w.readAcc (Dev.hostAcc h) { index := bits addr 0 16, sub := bits addr 16 8, offset := off } len
    let old := (w.dev.host h).mbData
    r.2.2.mbDone h addr off len r.1 (if r.1 = 0 then splice old 0 r.2.1 else old)

/-- MB_CMD 2, with the data buffer filled before (R589). -/
def mbWrite (w : World) (h : HostId) (addr off : Nat) (data : Bytes) : World :=
  let e : EntryRef := { index := bits addr 0 16, sub := bits addr 16 8, offset := off }
  if !w.writeReady (Dev.hostAcc h) e then w
  else
    let r := w.writeAcc (Dev.hostAcc h) e data
    r.2.mbDone h addr off data.length r.1 (splice (w.dev.host h).mbData 0 data)

/-- Block Write 0x01 (R595). -/
def smbusSelect (w : World) (e : EntryRef) : World :=
  if !w.dev.accLive 0x20 then w
  else
    let st := w.dev.accCheck w.fuses.ownerHash.isSome 0x20 false e.index e.sub e.offset (Dev.smbusLen e)
    w.onDev (fun d => d.modMgmt (fun M => { M with smbus := some e, smbusStatus := st }))

/-- Block Read 0x02: at most as many bytes as asked for of an OCTETS entry. -/
def smbusRead (w : World) (len : Nat) : World :=
  match w.dev.mgmt.smbus with
  | none => w
  | some e =>
    if !w.dev.accLive 0x20 then w
    else if w.dev.mgmt.smbusStatus != 0 then w.onDev (fun d => d.emit (.smbus d.mgmt.smbusStatus []))
    else
      let n := if ((entryOf e.index e.sub).any Entry.octets) then max 1 (min len (Dev.smbusLen e)) else Dev.smbusLen e
      let r := w.readAcc 0x20 e n
      r.2.2.onDev (fun d => d.emit (.smbus r.1 r.2.1))

/-- A console read (R597). -/
def consoleRead (w : World) (e : EntryRef) (len : Nat) : World :=
  if !w.dev.accLive 0x30 then w
  else
    let r := w.readAcc 0x30 e len
    r.2.2.onDev (fun d => d.emit (.console r.1 r.2.1))

/-- A console write (R597). -/
def consoleWrite (w : World) (e : EntryRef) (data : Bytes) : World :=
  if !w.dev.accLive 0x30 then w
  else
    let r := w.writeAcc 0x30 e data
    r.2.onDev (fun d => d.emit (.console r.1 []))

/-- A read as a command of its own, of an entry with a given access; its bytes are given out. -/
def readOut (w : World) (acc : Nat) (e : EntryRef) (len : Nat) : World :=
  if !w.dev.accLive acc then w
  else
    let r := w.readAcc acc e len
    if r.1 = 0 then r.2.2.onDev (fun d => d.emit (.report r.2.1)) else r.2.2

/-- A read of an RC entry (R14). -/
def rcRead (w : World) (acc : Nat) (e : EntryRef) : World :=
  match entryOf e.index e.sub with
  | some x => if column acc x = .rc then w.readOut acc e x.size else w
  | none => w

end World

/-- REPORT_READ (R536, R606). -/
def execReportRead (acc offset len : Nat) (s : State) : Ans :=
  onWorld (fun w => w.readOut acc { index := 0x6000, sub := 0x06, offset := offset } len) s
/-- CAMPION_WATCHDOG (R578). -/
def execCampionWatchdog (s : State) : Ans := onDev (fun d => d.watchdog) s
/-- CAMPION_RESTART_DONE (R578). -/
def execCampionRestartDone (s : State) : Ans := onDev (fun d => d.restartDone) s
/-- CMP_HELLO (R582). -/
def execCmpHello (m : SessMsg) (s : State) : Ans := onDev (fun d => d.cmpHello m) s
/-- CMP_ACCEPT (R584). -/
def execCmpAccept (m : SessMsg) (s : State) : Ans := onDev (fun d => d.cmpAccept m) s
/-- CMP_READ (R585). -/
def execCmpRead (session counter reqId : Nat) (e : EntryRef) (len : Nat) (s : State) : Ans :=
  onWorld (fun w => w.cmpRequest session counter reqId (fun w => w.readAcc session e len)) s
/-- CMP_WRITE (R585). -/
def execCmpWrite (session counter reqId : Nat) (e : EntryRef) (data : Bytes) (s : State) : Ans :=
  onWorld (fun w => w.cmpRequest session counter reqId (fun w => let r := w.writeAcc session e data; (r.1, [], r.2))) s
/-- CMP_SUBSCRIBE (R586). -/
def execCmpSubscribe (session counter mask : Nat) (s : State) : Ans := onDev (fun d => d.cmpSubscribe session counter mask) s
/-- CMP_CLOSE (R582). -/
def execCmpClose (session counter : Nat) (s : State) : Ans := onDev (fun d => d.cmpClose session counter) s
/-- CMP_IDLE_TIMEOUT (R584). -/
def execCmpIdleTimeout (session : Nat) (s : State) : Ans := onDev (fun d => d.cmpIdle session) s
/-- MB_READ (R589). -/
def execMbRead (h : HostId) (addr offset len : Nat) (s : State) : Ans := onWorld (fun w => w.mbRead h addr offset len) s
/-- MB_WRITE (R589). -/
def execMbWrite (h : HostId) (addr offset : Nat) (data : Bytes) (s : State) : Ans := onWorld (fun w => w.mbWrite h addr offset data) s
/-- SMBUS_SELECT (R595). -/
def execSmbusSelect (e : EntryRef) (s : State) : Ans := onWorld (fun w => w.smbusSelect e) s
/-- SMBUS_READ (R595). -/
def execSmbusRead (len : Nat) (s : State) : Ans := onWorld (fun w => w.smbusRead len) s
/-- SMBUS_STATUS (R595). -/
def execSmbusStatus (s : State) : Ans :=
  onDev (fun d => if d.accLive 0x20 then d.emit (.smbus d.mgmt.smbusStatus (leBytes 1 d.mgmt.smbusStatus)) else d) s
/-- SMBUS_ALERT_RESPONSE (R595). -/
def execSmbusAlertResponse (s : State) : Ans :=
  onDev (fun d =>
    if d.accLive 0x20 && d.mgmt.alertLow then
      (d.modMgmt (fun M => { M with alertLow := false })).emit (.smbus Acc.done (leBytes 1 (d.reg Reg.smbusAddr)))
    else d) s
/-- CONSOLE_READ (R597). -/
def execConsoleRead (e : EntryRef) (len : Nat) (s : State) : Ans := onWorld (fun w => w.consoleRead e len) s
/-- CONSOLE_WRITE (R597). -/
def execConsoleWrite (e : EntryRef) (data : Bytes) (s : State) : Ans := onWorld (fun w => w.consoleWrite e data) s
/-- RC_READ (R14). -/
def execRcRead (acc : Nat) (e : EntryRef) (s : State) : Ans := onWorld (fun w => w.rcRead acc e) s
/-- CFG_LOCK_SET (R613). -/
def execCfgLockSet (acc : Nat) (s : State) : Ans := onWorld (fun w => w.writeWhole acc Reg.cfgLock 1) s
/-- CFG_LOCK_CLEAR (R613). -/
def execCfgLockClear (acc : Nat) (s : State) : Ans := onWorld (fun w => w.writeWhole acc Reg.cfgLock 0) s
/-- OWNER_DEBUG_HASH_WRITE (R555, R614). -/
def execOwnerDebugHashWrite (acc : Nat) (hash : Bytes) (s : State) : Ans :=
  onWorld (fun w => w.write acc { index := 0x6000, sub := 0x1B } hash) s
/-- PB_MODE_WRITE (R105). -/
def execPbModeWrite (acc block mode : Nat) (s : State) : Ans :=
  onWorld (fun w => if block < 96 then w.writeWhole acc (Reg.pbMode block) (mode % 256) else w) s
/-- PORT_ENABLE_WRITE (R102, R611). -/
def execPortEnableWrite (acc port enable : Nat) (s : State) : Ans :=
  onWorld (fun w => if port < 384 then w.writeWhole acc (Reg.portEnable port) (enable % 256) else w) s
/-- PORT_ROLE_WRITE (R102, R611): sub-entries 0x20 to 0x22. -/
def execPortRoleWrite (acc port sub value : Nat) (s : State) : Ans :=
  onWorld (fun w => if port < 384 && 0x20 ≤ sub && sub ≤ 0x22 then
    w.writeWhole acc (Reg.key 0 (0x2200 + port) sub) (value % (if sub = 0x20 then 256 else 65536)) else w) s
/-- DOMAIN_ID_WRITE (R37, R38, R611): sub-entries 0x01 to 0x03. -/
def execDomainIdWrite (acc sub value : Nat) (s : State) : Ans :=
  onWorld (fun w => if 1 ≤ sub && sub ≤ 3 then
    w.writeWhole acc (Reg.key 0 0x8000 sub) (value % (if sub = 1 then 65536 else if sub = 2 then 256 else 2 ^ 32)) else w) s
/-- HMAP_STAGE (R142). -/
def execHmapStage (acc : Nat) (entry : Bytes) (s : State) : Ans := onWorld (fun w => w.write acc { index := 0x3400, sub := 0x03 } entry) s
/-- REGION_STAGE (R195). -/
def execRegionStage (acc : Nat) (entry : Bytes) (s : State) : Ans := onWorld (fun w => w.write acc { index := 0x3800, sub := 0x03 } entry) s
/-- SG_STAGE (R469). -/
def execSgStage (acc : Nat) (entry : Bytes) (s : State) : Ans := onWorld (fun w => w.write acc { index := 0x5600, sub := 0x03 } entry) s
/-- DICT_WRITE (R611). -/
def execDictWrite (acc : Nat) (e : EntryRef) (data : Bytes) (s : State) : Ans := onWorld (fun w => w.write acc e data) s

end Sys2Proof.Machine
end

