-- ==== Sys2Proof/Machine/Tick.lean ====
section
/-! DEFINITION. The tick edge (R64): the counter advances, the tick that ended is metered (R564, R572), the sensors and the counters of the
tick are taken over (R101, R116, R118, R161, R171, R217, R258, R272, R631), throttling (R632, R633) and resumption after a dip (R625), the
election and its messages (R49 to R57, R61, R69), health (R515 to R521), and the schedulers' slots (R332). -/

namespace Sys2Proof.Machine

namespace Dev

/-! ### The tick that ended -/

/-- Units running now, as masks by composition (R572). -/
def heldNow (d : Dev) : Tab Nat :=
  d.jobs.running.foldl (fun t kv => Tab.upd t (d.compOf kv.2) 0 (fun m => setBit m kv.1 true)) []

/-- Gather, filter and DMA engines among units. -/
def enginesIn (mask : Nat) : Nat :=
  ((List.range 4).map (fun q => (List.range 4).countP (fun e => bit mask (128 + 8 * q + e)))).sum

/-- TILE_TICKS, ENGINE_TICKS and TIERH_TICKS of the tick that ended; fenced compositions are marked for their report (R572, R574). -/
def meterEdge (d : Dev) : Dev :=
  let d := d.each (d.meter.held.filter (fun kv => kv.1 < 64)) (fun d kv =>
    (d.bump (Reg.tileTicks kv.1) (popCount 120 kv.2)).bump (Reg.engineTicks kv.1) (enginesIn kv.2))
  let d := d.each (List.range 64) (fun d c => if d.tierhMeasure c = 0 then d else d.bump (Reg.tierhTicks c) (d.tierhMeasure c))
  let flags := ((List.range 64).filter d.fenced).foldl (fun f c => Tab.upd f c 0 (fun x => setBit x 1 true)) d.meter.flags
  { d with meter := { d.meter with held := d.heldNow, flags := flags } }

/-- Class allowances refill (R564); a whole one is unlisted. -/
def refill (d : Dev) : Dev :=
  let full := fun (k : Nat) => (d.allowanceOf (k / 32) (k / 4 % 8) : Int)
  let more := d.allowance.filterMap (fun (kv : Nat × Int) =>
    let r := min (full kv.1) (kv.2 + full kv.1)
    if full kv.1 = 0 || r = full kv.1 then none else some (kv.1, r))
  { d with allowance := more }

/-! ### What was measured -/

/-- The port a lane belongs to. -/
def portOfLane (d : Dev) (lane : Nat) : Option Nat := (d.portsOfBlock (lane / 8)).find? (fun p => bit (d.portLaneMask p) (lane % 8))

/-- The corrected rate of a lane over the last 1 ms: the port keeps the worst of its lanes (R116), and a lane above its block's limit is declared
failed where it carries an ACTIVE port's flits (R106, R117). -/
def laneRate (d : Dev) (lane ser : Nat) : Dev :=
  match d.portOfLane lane with
  | none => d
  | some p =>
    let d := d.modPort p (fun P => { P with serWorst := max P.serWorst ser })
    if d.reg (Reg.pbSerLimit (lane / 8)) < ser && !bit (d.port p).failed (lane % 8) then d.laneFailed p (lane % 8) else d

/-- Link counters of the tick (R101, R116, R118). -/
def linkEdge (d : Dev) (m : EdgeMeas) : Dev :=
  let lanes := fun (t : Tab Nat) => t.filter (fun (kv : Nat × Nat) => kv.1 < 768)
  let d := d.each (lanes m.fecCorr) (fun d kv => d.bump (Reg.pbFecCorr (kv.1 / 8) (kv.1 % 8)) kv.2)
  let d := d.each (lanes m.fecUncorr) (fun d kv =>
    let d := d.bump (Reg.pbFecUncorr (kv.1 / 8) (kv.1 % 8)) kv.2
    match d.portOfLane kv.1 with
    | some p => d.sample p (fun s => { s with uncorr := s.uncorr + kv.2 })
    | none => d)
  let d := { d with ports := Tab.mapV d.ports (fun _ (P : Port) => { P with serWorst := 0 }) }
  d.each (lanes m.laneSer) (fun d kv => d.laneRate kv.1 kv.2)

/-- Counters of core cycles and bytes (R161, R171, R217, R258, R272, R564). -/
def countEdge (d : Dev) (m : EdgeMeas) : Dev :=
  let quads := [0, 1, 2, 3]
  let d := d.bump Reg.cellEccCorr m.cellCorr
  let d := d.each quads (fun d q => (d.bump (Reg.admitWait q) (m.admitWait.getD q 0)).bump (Reg.dedupWait q) (m.dedupWait.getD q 0))
  let d := d.each (m.classWaits.filter (fun kv => kv.1 < 64)) (fun d kv => d.bump (Reg.classWaits kv.1) kv.2)
  let d := d.bump Reg.walkStallNs m.walkStallNs
  d.each (List.range 12) (fun d s => (d.bump (Reg.hbmBytesRd s) (Tab.getD m.hbmRd s 0)).bump (Reg.hbmBytesWr s) (Tab.getD m.hbmWr s 0))

/-- Voltage, current, power and temperatures (R624, R631). -/
def sensorEdge (d : Dev) (m : EdgeMeas) : Dev :=
  let d := (d.setReg Reg.vinMv (m.vinMv % 2 ^ 32)).setReg Reg.iinMa (m.iinMa % 2 ^ 32)
  let d := d.setReg Reg.pkgPower (leNat ((List.range 6).flatMap (fun i => leBytes 2 (m.consumerW.getD i 0))))
  let d := d.setReg Reg.dieTemp (leNat ((List.range 5).flatMap (fun i => leBytes 1 (m.dieTemp.getD i 0))))
  let d := d.each (List.range 12) (fun d s => d.setReg (Reg.hbmTemp s) (m.stackTemp.getD s 0 % 2 ^ 32))
  if m.vinMv ≤ 60000 then d.setSupply (fun P => { P with overV := false }) else d

/-! ### Throttling (R632, R633) -/

/-- One adjustment: lowered by 1 for each condition that holds, not below 4; raised by 1 where none does and there is room. -/
def adjust (v : Nat) (lowers : List Bool) (room : Bool) : Nat :=
  let n := (lowers.filter id).length
  if n = 0 then (if room then min 16 (v + 1) else v) else max 4 (v - n)

/-- The duty of a tile after this edge; 0 while it does not work, 16 when it starts to. -/
def dutyNext (d : Dev) (m : EdgeMeas) (t : Nat) : Nat :=
  let v := bits (d.reg Reg.tileDuty) (8 * t) 8
  let mw := Tab.getD m.tileMw t 0
  let temp := m.dieTemp.getD (t / 30) 0
  let limit := d.reg Reg.dieThrottleC
  if !d.tileWorks t then 0
  else if v = 0 then 16
  else adjust v [decide (11250 < mw), decide (1350 * d.reg Reg.powerCapW < m.consumerW.getD 0 0 * 2750), decide (limit ≤ temp)]
    (decide (mw * 100 ≤ 11250 * 95) && decide (temp + 3 ≤ limit))

/-- The share of a stack after this edge. -/
def shareNext (d : Dev) (m : EdgeMeas) (s : Nat) : Nat :=
  let v := bits (d.reg Reg.hbmShare) (8 * s) 8
  let w := m.consumerW.getD 3 0
  let temp := m.stackTemp.getD s 0
  let limit := d.reg Reg.hbmThrottleC
  if !bit (d.reg Reg.svcStacks) s then 0
  else if v = 0 then 16
  else adjust v [decide (336 < w) || decide (limit ≤ temp)] (decide (w * 100 ≤ 336 * 95) && decide (temp + 3 ≤ limit))

/-- Something is held below 16 sixteenths. -/
def below16 (l : List Nat) : Bool := l.any (fun v => 0 < v && v < 16)

/-- Duties and shares follow the measurements. -/
def throttle (d : Dev) (m : EdgeMeas) : Dev :=
  let d := if d.power.throttled then d.bump Reg.throttleTicks else d
  let duty := (List.range 120).map (d.dutyNext m)
  let share := (List.range 12).map (d.shareNext m)
  let d := (d.setReg Reg.tileDuty (leNat (duty.flatMap (leBytes 1)))).setReg Reg.hbmShare (leNat (share.flatMap (leBytes 1)))
  let now := below16 duty || below16 share
  if now = d.power.throttled then d
  else (d.setPower { d.power with throttled := now }).event 4 { code := if now then Ev.throttleOn else Ev.throttleOff }

/-! ### Dips and rungs (R625, R628) -/

/-- The tiles leave NAP at the first edge after a Class B dip: suspended quanta go on, and the timers of their jobs were held. -/
def resumeTiles (d : Dev) : Dev :=
  match d.power.suspended with
  | none => d
  | some t0 =>
    if d.power.dip.isSome then d
    else
      let t := d.tick
      let d := d.modJobs (fun J =>
        { J with recs := Tab.mapV J.recs (fun _ (j : Job) => { j with heldTicks := j.heldTicks + (t - max t0 j.admitTick) }),
                 running := Tab.mapV J.running (fun u (x : Quantum) => if u < 120 then { x with slot := t } else x),
                 slots := Tab.mapV J.slots (fun u (x : TickSlot) => if u < 120 && Tab.has J.running u then { x with tick := t } else x) })
      let d := d.modCoh (fun C => { C with waits := Tab.mapV C.waits (fun u (w : AcqWait) =>
        if u < 120 then { w with since := w.since + (t - max t0 w.since) } else w) })
      d.setPower { d.power with suspended := none, rungs := Tab.keep d.power.rungs (fun k r => !(k < 120 && r = 2)) }

/-- Domains used in the tick that ended: their idle counts start again, and a Yarrow unit or port block in use stands in no rung (R628). -/
def noteUse (d : Dev) (m : EdgeMeas) : Dev :=
  let t := d.tick
  let tiles := whichOf 120 (fun u => Tab.has d.jobs.running u || (Tab.look d.jobs.slots u).any (fun s => decide (t ≤ s.tick + 1)))
  let yarrows := (whichOf 4 (fun q => !d.yarrowIdle q)).map (1024 + ·)
  let blocks := (whichOf 96 (fun b => !d.blockIdle b)).map (2048 + ·)
  let hbm := (whichOf 12 (fun s => Tab.getD m.hbmRd s 0 != 0 || Tab.getD m.hbmWr s 0 != 0)).map (3072 + ·)
  let awake := yarrows ++ blocks
  d.setPower { d.power with used := (tiles ++ awake ++ hbm).foldl (fun u k => Tab.put u k t) d.power.used,
                            rungs := Tab.keep d.power.rungs (fun k _ => !awake.contains k) }

/-- Tiles without a slot at this edge enter DOZE, where the quadrant's limit lets them. -/
def dozeTiles (d : Dev) : Dev :=
  if d.power.suspended.isSome then d
  else
    let ts := whichOf 120 (fun u => d.tileIdle u && !Tab.has d.power.rungs u && 1 ≤ bits (d.reg Reg.quadDepthLimit) (8 * (u / 30)) 8)
    d.setPower { d.power with rungs := ts.foldl (fun r u => Tab.put r u 1) d.power.rungs }

/-! ### The edge -/

/-- The counter advances, and 0x8000:0D acts from here (R611); an ACQUIRING switch steps the counter to the master's (R64). -/
def countTick (d : Dev) : Dev :=
  let d := (d.setReg Reg.tickCount ((d.tick + 1) % 2 ^ 64)).modDom (fun D => { D with tickInMode := d.reg Reg.tickInMode })
  let d := if d.reg Reg.tickState = 3 then d.bump Reg.holdoverTicks else d
  d.acquire

/-- TICK_OUT (R69). -/
def tickPulse (d : Dev) : Dev :=
  match d.reg Reg.tickOutMode with
  | 1 => d.emit .tickOut
  | 2 => if d.tick % 200000 = 0 then d.emit .tickOut else d
  | _ => d

/-- Election and the domain's messages of the edge (R49 to R57, R61, R68). -/
def domainEdge (d : Dev) : Dev :=
  let d := d.manage.elect.phases.sendBeacon
  if d.isMaster then
    let d := if d.dom.tickInMode != 0 then d else d.modDom (fun D => { D with formed := true })
    d.sendMarker none d.ownMarker
  else d

/-- A step fence asked for takes this edge's tick (R494). -/
def fenceEdge (d : Dev) : Dev :=
  let t := d.tick
  { d with stepFences := Tab.mapV d.stepFences (fun _ (f : StepFence) => { f with tick := some (f.tick.getD t) }) }

/-- The edge gives rebuild and resync the bytes of another tick (R483). -/
def backEdge (d : Dev) : Dev := { d with backDebt := d.backDebt - d.backShare }

/-- A failed instance tells the master again until it is removed (R393). -/
def reportFailed (d : Dev) : Dev :=
  d.each ((d.yar.insts.filter (fun kv => kv.2.state = 5 && kv.2.removeAt.isNone)).map Prod.fst) reportInst

/-- A tick edge. -/
def tickEdge (d : Dev) (mem : Memory) (m : EdgeMeas) : Dev :=
  if !d.power.on then d
  else
    let d := d.countTick.meterEdge.refill
    let d := ((d.linkEdge m).countEdge m).sensorEdge m
    let d := ((d.throttle m).resumeTiles.noteUse m).domainEdge.tickPulse
    (giveSlots mem (d.healthEdge.tryAnnounce.fenceEdge.backEdge.reportFailed)).dozeTiles.fillReads

end Dev

/-- TICK_EDGE (R64). -/
def execTickEdge (m : EdgeMeas) (s : State) : Ans := onDevWith (fun _ mem d => d.tickEdge mem m) s

end Sys2Proof.Machine
end

