-- ==== Sys2Proof/Machine/Tiers.lean ====
section
/-! DEFINITION. Scrubbing of the stacks (R238) and the staging pool's fills, releases and deadlines (R243 to R250). -/

namespace Sys2Proof.Machine

/-- Sectors of a stack. -/
def sectorsPerStack : Nat := 0x30000000

namespace Dev

/-- The scrubber of a stack reads its next sector through the L2 and writes it back where an error was corrected; it leaves LOST lines and a
sleeping or absent stack alone, and after the last sector starts a new pass (R238, R240, R305). `cancelled`: a write by another agent was
taken between the read and the write-back. -/
def scrub (st : Nat) (cancelled : Bool) (m : Memory) (d : Dev) : Memory × Dev :=
  let sector := Tab.getD d.tiers.scrubPos st 0
  let off := st * stackBytes + sector * 64
  if 11 < st || d.reg (Reg.hbmState st) != 2 || d.reg (Reg.hbmScrubTicks st) = 0 then (m, d)
  else
    let cut := fun (b : Bool) (d : Dev) => d.modTiers (fun T => { T with scrubCut := b })
    let r := if d.coh.lost.contains (off / 128) then (m, d) else runL2 (fun s => s.take (.hread .scrub off 64)) m (cut cancelled d)
    let last := decide (sector + 1 = sectorsPerStack)
    let d := (cut false r.2).modTiers (fun T => { T with scrubPos := Tab.set T.scrubPos st (if last then 0 else sector + 1) 0 })
    (r.1, if last then d.bump (Reg.hbmScrubPasses st) else d)

/-- The READ that the slot's fill has outstanding is that of this block, and its answer has come. -/
def fillAnswered (x : StageSlot) (block status : Nat) (data : Bytes) : Bool :=
  x.read.any (fun r => r.1 = block) && x.answer = some (status, data)

/-- The READ of a fill has returned (R243, R244): its block is written through the L2, a READ lost with its home is sent once more, any other
failed READ fails the slot. The fill goes on with its next block. -/
def fillResp (slot block status : Nat) (data : Bytes) (m : Memory) (d : Dev) : Memory × Dev :=
  match (Tab.look d.tiers.slots slot).filter (fillAnswered · block status data) with
  | none => (m, d)
  | some x =>
    let put := fun (d : Dev) (y : StageSlot) => d.modTiers (fun T => { T with slots := Tab.put T.slots slot y })
    let x := { x with read := none, answer := none }
    if x.state != 1 || x.gone then (m, put d x)
    else if status = 0 then
      let data := padTo 4096 data
      let base := d.slotAddr slot + 4096 * block
      let d := put (d.bump Reg.stageFillBytes 4096) { x with filled := setBit x.filled block true }
      let r := runL2 (fun s => (List.range 32).foldl (fun s i => s.take (.hwrite .fill (base + 128 * i) (slice data (128 * i) 128))) s) m d
      (r.1, r.2.fillReads)
    else if status = St.homeLost && !bit x.retried block then (m, (put d { x with retried := setBit x.retried block true }).fillReads)
    else (m, put d { x with state := 3, status := status })

/-- A request's deadline edge passes: LATE is reported where a unit is not READY (R249). -/
def stageLate (d : Dev) (comp reqId : Nat) : Dev :=
  let due := fun (r : StageReq) =>
    r.comp = comp && r.reqId = reqId && !r.late && decide (r.deadline ≤ d.tick) && decide (d.readyUnits r != r.count)
  match d.tiers.reqs.find? due with
  | none => d
  | some r =>
    let d := d.modTiers (fun T => { T with reqs := T.reqs.map (fun x => if x = r then { x with late := true } else x) })
    (d.bump (Reg.stageLate comp)).emit (stageReport 1 r (d.readyUnits r))

end Dev

/-- SCRUB_SECTOR (R238). -/
def execScrubSector (st : Nat) (soft bad : List Nat) (cancelled : Bool) (s : State) : Ans :=
  onMem (fun m d => Dev.scrub st cancelled m (d.strike { soft := soft, bad := bad })) s
/-- STAGING_FILL_RESP (R243). -/
def execStagingFillResp (slot block status : Nat) (data : Bytes) (s : State) : Ans := onMem (Dev.fillResp slot block status data) s
/-- STAGING_SLOT_RELEASE (R247): the units that wait are tested again. -/
def execStagingSlotRelease (slot : Nat) (s : State) : Ans :=
  onDev (fun d => if (Tab.look d.tiers.slots slot).any (fun x => !x.pins.isEmpty) then d else d.retestWaits.fillReads) s
/-- STAGING_DEADLINE (R249). -/
def execStagingDeadline (comp reqId : Nat) (s : State) : Ans := onDev (fun d => d.stageLate comp reqId) s

end Sys2Proof.Machine
end

