-- ==== Sys2Proof/Machine/Dispatch.lean ====
section
/-! DEFINITION. One arm per command: each calls that command's meaning. -/

namespace Sys2Proof.Machine

/-- The effect of a command on everything but the queue. -/
def exec (i : Instr) (s : State) : Host.Outcome State Fault Refusal :=
  match i with
  | .tickEdge m => Sys2Proof.Machine.execTickEdge m s
  | .beacon port b => Sys2Proof.Machine.execBeacon port b s
  | .tickMarker port m arrivalPs residencePs => Sys2Proof.Machine.execTickMarker port m arrivalPs residencePs s
  | .tickInEdge offsetPs => Sys2Proof.Machine.execTickInEdge offsetPs s
  | .linkDelayMeasure port rttPs => Sys2Proof.Machine.execLinkDelayMeasure port rttPs s
  | .domainRecovery commanded phase targets => Sys2Proof.Machine.execDomainRecovery commanded phase targets s
  | .dataFlit port f => Sys2Proof.Machine.execDataFlit port f s
  | .idleFlit port f => Sys2Proof.Machine.execIdleFlit port f s
  | .alignFlit port lane skewNs f => Sys2Proof.Machine.execAlignFlit port lane skewNs f s
  | .trainFlit port t => Sys2Proof.Machine.execTrainFlit port t s
  | .dyingRcvd port d => Sys2Proof.Machine.execDyingRcvd port d s
  | .dyingHoldEnd port => Sys2Proof.Machine.execDyingHoldEnd port s
  | .linkRetryTimeout port => Sys2Proof.Machine.execLinkRetryTimeout port s
  | .laneFailed port lane => Sys2Proof.Machine.execLaneFailed port lane s
  | .degradeReq port f => Sys2Proof.Machine.execDegradeReq port f s
  | .laneSwitch port mask => Sys2Proof.Machine.execLaneSwitch port mask s
  | .laneRepaired port lane => Sys2Proof.Machine.execLaneRepaired port lane s
  | .restoreReq port f => Sys2Proof.Machine.execRestoreReq port f s
  | .signalDetected port => Sys2Proof.Machine.execSignalDetected port s
  | .equalizeDone port passMask => Sys2Proof.Machine.execEqualizeDone port passMask s
  | .lockDone port polarity => Sys2Proof.Machine.execLockDone port polarity s
  | .paramDone port rttPs => Sys2Proof.Machine.execParamDone port rttPs s
  | .portActive port => Sys2Proof.Machine.execPortActive port s
  | .trainingTimeout port => Sys2Proof.Machine.execTrainingTimeout port s
  | .retrainDone port => Sys2Proof.Machine.execRetrainDone port s
  | .retrainTimeout port => Sys2Proof.Machine.execRetrainTimeout port s
  | .lossOfSignal port => Sys2Proof.Machine.execLossOfSignal port s
  | .read src p => Sys2Proof.Machine.execRead src p s
  | .write src p => Sys2Proof.Machine.execWrite src p s
  | .writePosted src p => Sys2Proof.Machine.execWritePosted src p s
  | .atomic src p => Sys2Proof.Machine.execAtomic src p s
  | .resp src p => Sys2Proof.Machine.execResp src p s
  | .msg src p => Sys2Proof.Machine.execMsg src p s
  | .jobPost src p => Sys2Proof.Machine.execJobPost src p s
  | .jobResult src p => Sys2Proof.Machine.execJobResult src p s
  | .reduceContrib src p => Sys2Proof.Machine.execReduceContrib src p s
  | .reduceResult src p => Sys2Proof.Machine.execReduceResult src p s
  | .packetAdmit src turn => Sys2Proof.Machine.execPacketAdmit src turn s
  | .packetEgressDone port cls uncorrectable => Sys2Proof.Machine.execPacketEgressDone port cls uncorrectable s
  | .hotWindowEnd q => Sys2Proof.Machine.execHotWindowEnd q s
  | .teaselAuditStart q => Sys2Proof.Machine.execTeaselAuditStart q s
  | .teaselAuditDone q => Sys2Proof.Machine.execTeaselAuditDone q s
  | .homeRead q => Sys2Proof.Machine.execHomeRead q s
  | .homeWrite q => Sys2Proof.Machine.execHomeWrite q s
  | .homeAtomic q => Sys2Proof.Machine.execHomeAtomic q s
  | .trayResp port p => Sys2Proof.Machine.execTrayResp port p s
  | .mergeWindowClose q line => Sys2Proof.Machine.execMergeWindowClose q line s
  | .mergeWriteDone q line => Sys2Proof.Machine.execMergeWriteDone q line s
  | .dedupStale q src reqEpoch tag => Sys2Proof.Machine.execDedupStale q src reqEpoch tag s
  | .dedupFree q src reqEpoch tag => Sys2Proof.Machine.execDedupFree q src reqEpoch tag s
  | .staleWindowEnd q => Sys2Proof.Machine.execStaleWindowEnd q s
  | .requestRetryTimeout q tray tag => Sys2Proof.Machine.execRequestRetryTimeout q tray tag s
  | .bar2Read h addr len => Sys2Proof.Machine.execBar2Read h addr len s
  | .bar2Write h addr data => Sys2Proof.Machine.execBar2Write h addr data s
  | .bar2Unsupported h addr len atomicOp => Sys2Proof.Machine.execBar2Unsupported h addr len atomicOp s
  | .stackFailed st thermal => Sys2Proof.Machine.execStackFailed st thermal s
  | .stackWake st => Sys2Proof.Machine.execStackWake st s
  | .scrubSector st soft bad cancelled => Sys2Proof.Machine.execScrubSector st soft bad cancelled s
  | .stagingFillResp slot block status data => Sys2Proof.Machine.execStagingFillResp slot block status data s
  | .stagingSlotRelease slot => Sys2Proof.Machine.execStagingSlotRelease slot s
  | .stagingDeadline comp reqId => Sys2Proof.Machine.execStagingDeadline comp reqId s
  | .pageWalkDone q ctx page => Sys2Proof.Machine.execPageWalkDone q ctx page s
  | .faultRecordWrite h => Sys2Proof.Machine.execFaultRecordWrite h s
  | .faultRespRetry h faultId => Sys2Proof.Machine.execFaultRespRetry h faultId s
  | .faultRespAbort h faultId status => Sys2Proof.Machine.execFaultRespAbort h faultId status s
  | .faultTimeout h faultId => Sys2Proof.Machine.execFaultTimeout h faultId s
  | .invalReq acc tag => Sys2Proof.Machine.execInvalReq acc tag s
  | .ctxEntryWrite acc entry => Sys2Proof.Machine.execCtxEntryWrite acc entry s
  | .gets agent line w => Sys2Proof.Machine.execGets agent line w s
  | .getm agent line w data => Sys2Proof.Machine.execGetm agent line w data s
  | .wfull agent line ctx data => Sys2Proof.Machine.execWfull agent line ctx data s
  | .pute agent line => Sys2Proof.Machine.execPute agent line s
  | .putm agent line => Sys2Proof.Machine.execPutm agent line s
  | .dirtyNotice agent line data => Sys2Proof.Machine.execDirtyNotice agent line data s
  | .hread src off len found => Sys2Proof.Machine.execHread src off len found s
  | .hwrite src off data => Sys2Proof.Machine.execHwrite src off data s
  | .hatom src off aop awidth asigned operand => Sys2Proof.Machine.execHatom src off aop awidth asigned operand s
  | .snoopResponse agent line => Sys2Proof.Machine.execSnoopResponse agent line s
  | .invalidationReceive agent line => Sys2Proof.Machine.execInvalidationReceive agent line s
  | .invalidationApply agent => Sys2Proof.Machine.execInvalidationApply agent s
  | .heartbeat agent slice => Sys2Proof.Machine.execHeartbeat agent slice s
  | .agentDead agent => Sys2Proof.Machine.execAgentDead agent s
  | .acquireWaitMet agent off cond width value => Sys2Proof.Machine.execAcquireWaitMet agent off cond width value s
  | .acquireWaitTimeout agent => Sys2Proof.Machine.execAcquireWaitTimeout agent s
  | .releaseComplete agent line data => Sys2Proof.Machine.execReleaseComplete agent line data s
  | .jobAdmit q => Sys2Proof.Machine.execJobAdmit q s
  | .quantumStart u => Sys2Proof.Machine.execQuantumStart u s
  | .quantumComplete u e => Sys2Proof.Machine.execQuantumComplete u e s
  | .quantumOverrun u => Sys2Proof.Machine.execQuantumOverrun u s
  | .halveRestore q job => Sys2Proof.Machine.execHalveRestore q job s
  | .jobTimeout q job => Sys2Proof.Machine.execJobTimeout q job s
  | .jobCancel src srcSw fromSw p => Sys2Proof.Machine.execJobCancel src srcSw fromSw p s
  | .libVerify bank img => Sys2Proof.Machine.execLibVerify bank img s
  | .libActivateA acc => Sys2Proof.Machine.execLibActivateA acc s
  | .libActivateB acc => Sys2Proof.Machine.execLibActivateB acc s
  | .contribTake q => Sys2Proof.Machine.execContribTake q s
  | .chunkTimeout group chunk => Sys2Proof.Machine.execChunkTimeout group chunk s
  | .chunkRound group chunk => Sys2Proof.Machine.execChunkRound group chunk s
  | .resultAckTimeout group chunk dest => Sys2Proof.Machine.execResultAckTimeout group chunk dest s
  | .reduceAck src srcSw fromSw p => Sys2Proof.Machine.execReduceAck src srcSw fromSw p s
  | .reduceNack src srcSw fromSw p => Sys2Proof.Machine.execReduceNack src srcSw fromSw p s
  | .groupRegister acc => Sys2Proof.Machine.execGroupRegister acc s
  | .groupRemove acc => Sys2Proof.Machine.execGroupRemove acc s
  | .groupReadmit acc => Sys2Proof.Machine.execGroupReadmit acc s
  | .registryRegister port src m => Sys2Proof.Machine.execRegistryRegister port src m s
  | .registryRemove port src m => Sys2Proof.Machine.execRegistryRemove port src m s
  | .registryReadmit port src m => Sys2Proof.Machine.execRegistryReadmit port src m s
  | .registryAccept port src m => Sys2Proof.Machine.execRegistryAccept port src m s
  | .registryRefuse port src m => Sys2Proof.Machine.execRegistryRefuse port src m s
  | .registryActivate port src m => Sys2Proof.Machine.execRegistryActivate port src m s
  | .groupActivationTick group => Sys2Proof.Machine.execGroupActivationTick group s
  | .registryAnswerTimeout group => Sys2Proof.Machine.execRegistryAnswerTimeout group s
  | .gfParityWork q => Sys2Proof.Machine.execGfParityWork q s
  | .planLoad acc => Sys2Proof.Machine.execPlanLoad acc s
  | .planUnload acc => Sys2Proof.Machine.execPlanUnload acc s
  | .planActivate slot => Sys2Proof.Machine.execPlanActivate slot s
  | .nodeLate q job node => Sys2Proof.Machine.execNodeLate q job node s
  | .contribRetry q job group chunk => Sys2Proof.Machine.execContribRetry q job group chunk s
  | .backupNotify port comp m => Sys2Proof.Machine.execBackupNotify port comp m s
  | .backupClaim port comp m => Sys2Proof.Machine.execBackupClaim port comp m s
  | .backupGrant port comp m => Sys2Proof.Machine.execBackupGrant port comp m s
  | .backupDeny port comp m => Sys2Proof.Machine.execBackupDeny port comp m s
  | .backupCancel port comp m => Sys2Proof.Machine.execBackupCancel port comp m s
  | .claimWaitTimeout q job => Sys2Proof.Machine.execClaimWaitTimeout q job s
  | .claimEntryExpire comp replyFeid workId => Sys2Proof.Machine.execClaimEntryExpire comp replyFeid workId s
  | .engineQuantumStart q e => Sys2Proof.Machine.execEngineQuantumStart q e s
  | .gatherElement q e index found => Sys2Proof.Machine.execGatherElement q e index found s
  | .speculativeRead q e ahead ok found => Sys2Proof.Machine.execSpeculativeRead q e ahead ok found s
  | .filterRows q rows first found => Sys2Proof.Machine.execFilterRows q rows first found s
  | .blockDecode t nblk blk idx idxNext opLen block waited => Sys2Proof.Machine.execBlockDecode t nblk blk idx idxNext opLen block waited s
  | .tableBufferWait q t => Sys2Proof.Machine.execTableBufferWait q t s
  | .memberFailed group member => Sys2Proof.Machine.execMemberFailed group member s
  | .failMember acc => Sys2Proof.Machine.execFailMember acc s
  | .rebuildStart group member => Sys2Proof.Machine.execRebuildStart group member s
  | .rebuildStripe group entry stripe => Sys2Proof.Machine.execRebuildStripe group entry stripe s
  | .rebuildRestart group => Sys2Proof.Machine.execRebuildRestart group s
  | .transitionRevert entry => Sys2Proof.Machine.execTransitionRevert entry s
  | .resyncStripe group stripe entry quad epoch => Sys2Proof.Machine.execResyncStripe group stripe entry quad epoch s
  | .stepFenceReq acc comp => Sys2Proof.Machine.execStepFenceReq acc comp s
  | .stepFenceDone comp => Sys2Proof.Machine.execStepFenceDone comp s
  | .dieHeartbeatTimeout die => Sys2Proof.Machine.execDieHeartbeatTimeout die s
  | .agentReset agent => Sys2Proof.Machine.execAgentReset agent s
  | .agentRejoined agent passed => Sys2Proof.Machine.execAgentRejoined agent passed s
  | .recoveryFence port m => Sys2Proof.Machine.execRecoveryFence port m s
  | .recoveryExpel port m => Sys2Proof.Machine.execRecoveryExpel port m s
  | .recoveryRecover port m => Sys2Proof.Machine.execRecoveryRecover port m s
  | .healthReadmit acc item => Sys2Proof.Machine.execHealthReadmit acc item s
  | .eventDelivery h log => Sys2Proof.Machine.execEventDelivery h log s
  | .evlogConsWrite h cons => Sys2Proof.Machine.execEvlogConsWrite h cons s
  | .flogConsWrite h cons => Sys2Proof.Machine.execFlogConsWrite h cons s
  | .imageVerify img atBoot => Sys2Proof.Machine.execImageVerify img atBoot s
  | .image port imgType bank offset totalLen data assembled => Sys2Proof.Machine.execImage port imgType bank offset totalLen data assembled s
  | .svnCommit acc counter => Sys2Proof.Machine.execSvnCommit acc counter s
  | .reportRead acc offset len => Sys2Proof.Machine.execReportRead acc offset len s
  | .kdsHello src feid comp m => Sys2Proof.Machine.execKdsHello src feid comp m s
  | .kdsAccept src feid comp m => Sys2Proof.Machine.execKdsAccept src feid comp m s
  | .kdsLoad src feid comp m => Sys2Proof.Machine.execKdsLoad src feid comp m s
  | .kdsRetire src feid comp m => Sys2Proof.Machine.execKdsRetire src feid comp m s
  | .kdsCerts src feid comp m => Sys2Proof.Machine.execKdsCerts src feid comp m s
  | .kdsClose src feid comp m => Sys2Proof.Machine.execKdsClose src feid comp m s
  | .kdsSessionTimeout session => Sys2Proof.Machine.execKdsSessionTimeout session s
  | .keyLive slot => Sys2Proof.Machine.execKeyLive slot s
  | .keyRetired slot => Sys2Proof.Machine.execKeyRetired slot s
  | .keyZeroized slot gen => Sys2Proof.Machine.execKeyZeroized slot gen s
  | .slotRetire acc => Sys2Proof.Machine.execSlotRetire acc s
  | .debugToken acc t => Sys2Proof.Machine.execDebugToken acc t s
  | .commit acc => Sys2Proof.Machine.execCommit acc s
  | .resync acc => Sys2Proof.Machine.execResync acc s
  | .commitPrepare port src m => Sys2Proof.Machine.execCommitPrepare port src m s
  | .commitReady port src m => Sys2Proof.Machine.execCommitReady port src m s
  | .commitNotReady port src m => Sys2Proof.Machine.execCommitNotReady port src m s
  | .commitAnnounce port src m => Sys2Proof.Machine.execCommitAnnounce port src m s
  | .commitAbort port src m => Sys2Proof.Machine.execCommitAbort port src m s
  | .commitDirty port src m => Sys2Proof.Machine.execCommitDirty port src m s
  | .reportCmd acc => Sys2Proof.Machine.execReportCmd acc s
  | .cmpHello m => Sys2Proof.Machine.execCmpHello m s
  | .cmpAccept m => Sys2Proof.Machine.execCmpAccept m s
  | .cmpRead session counter reqId e len => Sys2Proof.Machine.execCmpRead session counter reqId e len s
  | .cmpWrite session counter reqId e data => Sys2Proof.Machine.execCmpWrite session counter reqId e data s
  | .cmpSubscribe session counter mask => Sys2Proof.Machine.execCmpSubscribe session counter mask s
  | .cmpClose session counter => Sys2Proof.Machine.execCmpClose session counter s
  | .cmpIdleTimeout session => Sys2Proof.Machine.execCmpIdleTimeout session s
  | .mbRead h addr offset len => Sys2Proof.Machine.execMbRead h addr offset len s
  | .mbWrite h addr offset data => Sys2Proof.Machine.execMbWrite h addr offset data s
  | .smbusSelect e => Sys2Proof.Machine.execSmbusSelect e s
  | .smbusRead len => Sys2Proof.Machine.execSmbusRead len s
  | .consoleRead e len => Sys2Proof.Machine.execConsoleRead e len s
  | .consoleWrite e data => Sys2Proof.Machine.execConsoleWrite e data s
  | .sendSlotWrite h slot offset data => Sys2Proof.Machine.execSendSlotWrite h slot offset data s
  | .rxringWrite h => Sys2Proof.Machine.execRxringWrite h s
  | .rxringConsWrite h cons => Sys2Proof.Machine.execRxringConsWrite h cons s
  | .msixUnmask h vec => Sys2Proof.Machine.execMsixUnmask h vec s
  | .hostPortReset h => Sys2Proof.Machine.execHostPortReset h s
  | .rcRead acc e => Sys2Proof.Machine.execRcRead acc e s
  | .cfgLockSet acc => Sys2Proof.Machine.execCfgLockSet acc s
  | .cfgLockClear acc => Sys2Proof.Machine.execCfgLockClear acc s
  | .ownerDebugHashWrite acc hash => Sys2Proof.Machine.execOwnerDebugHashWrite acc hash s
  | .pbModeWrite acc block mode => Sys2Proof.Machine.execPbModeWrite acc block mode s
  | .portEnableWrite acc port enable => Sys2Proof.Machine.execPortEnableWrite acc port enable s
  | .portRoleWrite acc port sub value => Sys2Proof.Machine.execPortRoleWrite acc port sub value s
  | .domainIdWrite acc sub value => Sys2Proof.Machine.execDomainIdWrite acc sub value s
  | .hmapStage acc entry => Sys2Proof.Machine.execHmapStage acc entry s
  | .regionStage acc entry => Sys2Proof.Machine.execRegionStage acc entry s
  | .sgStage acc entry => Sys2Proof.Machine.execSgStage acc entry s
  | .dictWrite acc e data => Sys2Proof.Machine.execDictWrite acc e data s
  | .quadOffSet acc q => Sys2Proof.Machine.execQuadOffSet acc q s
  | .quadOffClear acc q => Sys2Proof.Machine.execQuadOffClear acc q s
  | .refclkPrefWrite acc value => Sys2Proof.Machine.execRefclkPrefWrite acc value s
  | .bistRun acc => Sys2Proof.Machine.execBistRun acc s
  | .bistDone failed => Sys2Proof.Machine.execBistDone failed s
  | .bistPacketRun port m => Sys2Proof.Machine.execBistPacketRun port m s
  | .bistPacketResult port m => Sys2Proof.Machine.execBistPacketResult port m s
  | .dipStart mV => Sys2Proof.Machine.execDipStart mV s
  | .dipEnd mV => Sys2Proof.Machine.execDipEnd mV s
  | .overvoltage mV => Sys2Proof.Machine.execOvervoltage mV s
  | .powerOn mV failedUnits untrained dieAttest => Sys2Proof.Machine.execPowerOn mV failedUnits untrained dieAttest s
  | .hbmTrainTimeout st => Sys2Proof.Machine.execHbmTrainTimeout st s
  | .modResetN low failedUnits untrained dieAttest => Sys2Proof.Machine.execModResetN low failedUnits untrained dieAttest s
  | .warmResetCmd acc => Sys2Proof.Machine.execWarmResetCmd acc s
  | .fundamentalResetCmd acc => Sys2Proof.Machine.execFundamentalResetCmd acc s
  | .resetBegin failedUnits untrained dieAttest => Sys2Proof.Machine.execResetBegin failedUnits untrained dieAttest s
  | .thermalTrip die celsius => Sys2Proof.Machine.execThermalTrip die celsius s
  | .pcieRefclkLoss h => Sys2Proof.Machine.execPcieRefclkLoss h s
  | .rungEntry domain unit => Sys2Proof.Machine.execRungEntry domain unit s
  | .rungWake domain unit => Sys2Proof.Machine.execRungWake domain unit s
  | .flitSlot port => Sys2Proof.Machine.execFlitSlot port s
  | .hostLinkUp h width gen => Sys2Proof.Machine.execHostLinkUp h width gen s
  | .switchLost sw => Sys2Proof.Machine.execSwitchLost sw s
  | .fabricRefclkReturn b => Sys2Proof.Machine.execFabricRefclkReturn b s
  | .holdoverEntry => Sys2Proof.Machine.execHoldoverEntry s
  | .masterLost => Sys2Proof.Machine.execMasterLost s
  | .handoverAnnounce => Sys2Proof.Machine.execHandoverAnnounce s
  | .startupPhase => Sys2Proof.Machine.execStartupPhase s
  | .tlbInvalidate => Sys2Proof.Machine.execTlbInvalidate s
  | .invalDrained => Sys2Proof.Machine.execInvalDrained s
  | .libSwitch => Sys2Proof.Machine.execLibSwitch s
  | .provisionalEnd => Sys2Proof.Machine.execProvisionalEnd s
  | .debugUnlockExpiry => Sys2Proof.Machine.execDebugUnlockExpiry s
  | .commitAnswerTimeout => Sys2Proof.Machine.execCommitAnswerTimeout s
  | .commitFreezeTimeout => Sys2Proof.Machine.execCommitFreezeTimeout s
  | .commitApply => Sys2Proof.Machine.execCommitApply s
  | .usageReportPeriodic => Sys2Proof.Machine.execUsageReportPeriodic s
  | .campionWatchdog => Sys2Proof.Machine.execCampionWatchdog s
  | .campionRestartDone => Sys2Proof.Machine.execCampionRestartDone s
  | .smbusStatus => Sys2Proof.Machine.execSmbusStatus s
  | .smbusAlertResponse => Sys2Proof.Machine.execSmbusAlertResponse s
  | .dipClassB => Sys2Proof.Machine.execDipClassB s
  | .supplyStop => Sys2Proof.Machine.execSupplyStop s
  | .overvoltageTimeout => Sys2Proof.Machine.execOvervoltageTimeout s
  | .refclkSwitch => Sys2Proof.Machine.execRefclkSwitch s
  | .refclkLost => Sys2Proof.Machine.execRefclkLost s
  | .mgmtClkLoss => Sys2Proof.Machine.execMgmtClkLoss s
  | .crossbarGrant => Sys2Proof.Machine.execCrossbarGrant s
  | .mgmtClkReturn => Sys2Proof.Machine.execMgmtClkReturn s

end Sys2Proof.Machine
end

