-- ==== Sys2Proof/Safety.lean ====
section
/-! DEFINITION. The terms in which statements about the block are made: a command that runs, the parts of the state it leaves alone, and
the invariants of the state. -/

namespace Sys2Proof.Machine

/-- The command completes: it answers a next state, of which `P` holds. -/
def Runs (c : Instr) (s : State) (P : State → Prop) : Prop := ∃ t, exec c s = .next t ∧ P t

/-- Only the device changed: the queue, the fuses and every byte of tier H stand. -/
abbrev DeviceOnly (s t : State) : Prop := t.pending = s.pending ∧ t.fuses = s.fuses ∧ t.mem = s.mem

/-- A table's keys rise strictly, so that equal tables are equal data. -/
abbrev Rising {α : Type} (t : Tab α) : Prop := (t.map Prod.fst).Pairwise (· < ·)

/-- The dictionary's values stand in their canonical form: keys rising, no default listed. -/
def RegsCanonical (d : Dev) : Prop := Rising d.regs ∧ ∀ kv ∈ d.regs, kv.2 ≠ regDefault kv.1

/-- No fuse of `a` is undone in `b` (R532, R614): every anti-rollback counter stands at least as high, and a programmed hash stays. -/
def FusesKept (a b : Fuses) : Prop :=
  (∀ n, Tab.getD a.counters n 0 ≤ Tab.getD b.counters n 0) ∧ (∀ h, a.ownerHash = some h → b.ownerHash = some h)

/-- What a part of a unit's quantum makes where every translation and every byte of tier P that it needs is at hand (R227, R274,
R307): memory and device after it. -/
def Dev.partRuns (u : Nat) (f : QEnv → Nat → QM Unit) (m : Memory) (d : Dev) : Option (Memory × Dev) :=
  (Tab.look d.jobs.running u).bind (fun x => (d.envOf u x).bind (fun e =>
    match StateT.run (ExceptT.run (f e.1 e.2)) (m, d) with
    | (.ok _, s) => some s
    | _ => none))

/-- The status with which a part of a unit's quantum fails (R337). -/
def Dev.partFails (u : Nat) (f : QEnv → Nat → QM Unit) (m : Memory) (d : Dev) : Option Nat :=
  (Tab.look d.jobs.running u).bind (fun x => (d.envOf u x).bind (fun e =>
    match StateT.run (ExceptT.run (f e.1 e.2)) (m, d) with
    | (.error (.status s), _) => some s
    | _ => none))

/-- The same of the whole run of units of its quantum. -/
def Dev.unitsRun (u : Nat) (m : Memory) (d : Dev) : Option (Memory × Dev) :=
  (Tab.look d.jobs.running u).bind (fun x => Dev.partRuns u (fun e v => QM.run e v x.cut) m d)

/-- A KDS message of this source passes: the service is on, its port is up, and the checks of R542 let it through. -/
def Dev.kdsPasses (d : Dev) (src : Ingress) (feid comp op : Nat) (m : SessMsg) : Bool :=
  let up := match src with | .port n => d.isActive n | .host _ => true
  let p := match src with | .port _ => d.kdsPacket feid comp op m | .host h => { d.kdsPacket feid comp op m with src := d.hostFeid h % 4096 }
  d.power.on && d.reg Reg.kdsFeid != 0xFFFF && up && !d.hostMute src && (match d.checks src p with | (.go _, _) => true | _ => false)

/-- The FEID a KDS message comes from: a host's own (R46), or the packet's. -/
def Dev.kdsSender (d : Dev) (src : Ingress) (feid : Nat) : Nat := match src with | .port _ => feid | .host h => d.hostFeid h % 4096

/-- The tenant's answer to an OFFER is its own (R543): the key's digest is the composition's, and its signature covers the handshake. -/
def Dev.acceptOk (d : Dev) (comp : Nat) (x : KdsSession) (body : Bytes) : Bool :=
  leNat (Config.shake256 ((body.drop 1088).take 1952) 32) = d.reg (Reg.tenantPkHash comp)
    && Config.mldsaVerify ((body.drop 1088).take 1952) (Config.shake256 (x.helloBody ++ x.offerBody ++ body.take 1088) 64) (body.drop 3040)

/-- A next step exists: the command at the front does not end the run. -/
def Safe (s : State) : Prop := ∃ t, step s = .next t

end Sys2Proof.Machine
end

