-- ==== Sys2Proof/Certificates/Slice0/Obligations.lean ====
section
/-! DEFINITION. The statements for the provers. -/

open Sys2Proof Sys2Proof.Machine

/-- A tick edge of a powered block outside ACQUIRING, whatever it measured, advances TICK_COUNT by exactly one (R60); only an ACQUIRING
  switch steps it otherwise (R64), and an unpowered block's edge changes nothing (log 3). -/
def Obligations.TickEdgeAdvancesByOne : Prop :=
  -- TICK_EDGE (R60, R64)
  (∀ (s : State) (m : EdgeMeas),
      (s.dev.power.on = true) →
      (s.dev.reg Reg.tickState ≠ 1) →
      (s.dev.tick + 1 < 2 ^ 64) →
      Runs (.tickEdge m) s (fun t => t.dev.tick = s.dev.tick + 1)) ∧
  -- TICK_EDGE
  (∀ (s : State) (m : EdgeMeas),
      (s.dev.power.on = false) →
      Runs (.tickEdge m) s (fun t => t = s))

/-- A beacon of another switch of the own domain that arrives first on an ACTIVE plane port becomes that switch's latest beacon, stamped with the
  current tick, and goes out on every other ACTIVE plane port; a later copy changes nothing (R49, R50).
  The only held marker's port becomes the parent, the own depth is the marker's plus one (R63), a FREE switch enters ACQUIRING and one in
  HOLDOVER returns to LOCKED (R64, R66); a LOCKED member that holds no marker of its parent for the tick enters HOLDOVER (R66); a plane link's
  delay is half its round-trip time, taken in steps of 0.25 ns (R62). A switch in FREE that a manager has not yet commanded into phase 4
  keeps a marker and follows none, which is the model's reading of R58 (DEDUCED, log 24). -/
def Obligations.BeaconsMarkersAndHoldover : Prop :=
  -- BEACON (R49, R50)
  (∀ (s : State) (port : Nat) (b : Beacon),
      (Rising s.dev.regs) →
      (s.dev.isActive port = true) →
      (s.dev.role port = 1) →
      (b.domId = s.dev.dom.domId) →
      ((b.switchId, b.serial, b.tick) ∉ s.dev.dom.seenBeacons) →
      (b.switchId ≠ s.dev.dom.swId) →
      Runs (.beacon port b) s (fun t => Tab.look t.dev.dom.beacons b.switchId = some { beacon := b, arrived := s.dev.tick } ∧
        (∀ p ∈ s.dev.planePorts, p ≠ port → Tab.getD (t.dev.port p).txq 0 [] =
          Tab.getD (s.dev.port p).txq 0 [] ++ [{ s.dev.ctrl 0x02 0 b.bytes with srcSw := b.switchId }]))) ∧
  -- BEACON (R49)
  (∀ (s : State) (port : Nat) (b : Beacon),
      (s.dev.role port = 1) →
      ((b.switchId, b.serial, b.tick) ∈ s.dev.dom.seenBeacons) →
      Runs (.beacon port b) s (fun t => t.dev.dom = s.dev.dom ∧ t.dev.regs = s.dev.regs ∧ (∀ p, p ≠ port → t.dev.port p = s.dev.port p) ∧ t.dev.out = s.dev.out)) ∧
  -- TICK_MARKER (R63, R64, R66)
  (∀ (s : State) (port : Nat) (m : Marker) (arrivalPs : Int) (residencePs : Nat),
      (s.dev.isActive port = true) →
      (s.dev.role port = 1) →
      (s.dev.isMaster = false) →
      (s.dev.beforeElection = false) →
      (s.dev.dom.markers = []) →
      (m.depth < 31) →
      Runs (.tickMarker port m arrivalPs residencePs) s (fun t => t.dev.reg Reg.tickParent = port ∧ t.dev.reg Reg.tickDepth = m.depth + 1 ∧
        t.dev.reg Reg.tickState = (if s.dev.reg Reg.tickState = 0 then 1 else if s.dev.reg Reg.tickState = 3 then 2 else s.dev.reg Reg.tickState) ∧
        Tab.look t.dev.dom.markers port = some { marker := m, arrivalPs := arrivalPs, arrived := s.dev.tick })) ∧
  -- TICK_MARKER
  (∀ (s : State) (port : Nat) (m : Marker) (arrivalPs : Int) (residencePs : Nat),
      (s.dev.isActive port = true) →
      (s.dev.role port = 1) →
      (s.dev.isMaster = false) →
      (s.dev.beforeElection = true) →
      Runs (.tickMarker port m arrivalPs residencePs) s (fun t => Tab.look t.dev.dom.markers port = some { marker := m, arrivalPs := arrivalPs, arrived := s.dev.tick } ∧ t.dev.regs = s.dev.regs ∧
        (∀ p, p ≠ port → t.dev.port p = s.dev.port p))) ∧
  -- HOLDOVER_ENTRY (R66)
  (∀ (s : State),
      (s.dev.reg Reg.tickState = 2) →
      (s.dev.isMaster = false) →
      ((∀ x ∈ s.dev.dom.markers, x.2.arrived ≠ s.dev.tick)) →
      Runs (.holdoverEntry) s (fun t => t.dev.reg Reg.tickState = 3 ∧ t.dev.reg Reg.tickParent = 0xFFFF ∧ t.dev.tick = s.dev.tick ∧ t.dev.dom = s.dev.dom)) ∧
  -- LINK_DELAY_MEASURE (R62)
  (∀ (s : State) (port rttPs : Nat),
      (s.dev.isActive port = true) →
      (s.dev.role port = 1) →
      Runs (.linkDelayMeasure port rttPs) s (fun t => Tab.look t.dev.dom.linkDelay port = some (rttPs / 250 * 125)))

/-- A member that has had no beacon of the master for four whole ticks sets 0x8000:05 to 0xFF and counts it as a lost switch (R52, R503), and
  another silent switch of the plane set likewise; a master whose configured successor has stayed a candidate for 2^20 ticks announces the
  handover with its next edge's marker, 8 ticks ahead (R54), that is for the ninth tick from now; the first TICK_IN edge of a forming domain loads 0x8000:0E (R68); the manager's commands move the start-up
  phase (R58), and a restarted switch named in a recovery repeats the phase (R59, R508). -/
def Obligations.MasterChangesAndPhases : Prop :=
  -- MASTER_LOST (R52, R503)
  (∀ (s : State),
      (s.dev.ownId.isSome = true) →
      (s.dev.reg Reg.masterCur < 32) →
      (s.dev.isMaster = false) →
      (s.dev.silent (s.dev.reg Reg.masterCur) = true) →
      Runs (.masterLost) s (fun t => t.dev.reg Reg.masterCur = 0xFF ∧ bit t.dev.dom.lostSwitches (s.dev.reg Reg.masterCur) = true)) ∧
  -- SWITCH_LOST (R503)
  (∀ (s : State) (sw : Nat),
      (s.dev.ownId.isSome = true) →
      (sw < 32) →
      (sw ≠ s.dev.dom.swId) →
      (bit s.dev.dom.planeSet sw = true) →
      (sw ≠ s.dev.reg Reg.masterCur) →
      (bit s.dev.dom.lostSwitches sw = false) →
      (s.dev.silent sw = true) →
      Runs (.switchLost sw) s (fun t => bit t.dev.dom.lostSwitches sw = true ∧ t.dev.reg Reg.masterCur = s.dev.reg Reg.masterCur)) ∧
  -- HANDOVER_ANNOUNCE (R54)
  (∀ (s : State),
      (s.dev.isMaster = true) →
      (s.dev.ownId ≠ some (s.dev.reg Reg.masterCfg)) →
      (s.dev.dom.candOf = s.dev.reg Reg.masterCfg) →
      (2 ^ 20 ≤ s.dev.dom.candStreak) →
      (s.dev.dom.handoverAt = none) →
      Runs (.handoverAnnounce) s (fun t => t.dev.dom.handoverAt = some (s.dev.tick + 9))) ∧
  -- TICK_IN_EDGE (R67, R68)
  (∀ (s : State) (offsetPs : Int),
      (s.dev.isMaster = true) →
      (s.dev.dom.tickInMode ≠ 0) →
      (s.dev.dom.formed = false) →
      Runs (.tickInEdge offsetPs) s (fun t => t.dev.tick = s.dev.reg Reg.tickInCount ∧ t.dev.dom.formed = true)) ∧
  -- STARTUP_PHASE (R58)
  (∀ (s : State),
      (s.dev.power.on = true) →
      (s.dev.reg Reg.managerCur ≠ 0xFF) →
      Runs (.startupPhase) s (fun t => t.dev.dom.phase = min 5 (s.dev.dom.phase + 1))) ∧
  -- DOMAIN_RECOVERY (R59)
  (∀ (s : State) (phase targets : Nat),
      (s.dev.isManager = true) →
      (2 ≤ phase) →
      (phase ≤ 5) →
      (s.dev.dom.restarted = true) →
      (bit targets s.dev.dom.swId = true) →
      Runs (.domainRecovery true phase targets) s (fun t => t.dev.dom.phase = phase)) ∧
  -- RECOVERY_RECOVER (R59, R508)
  (∀ (s : State) (port : Nat) (m : RecoveryMsg),
      (s.dev.ownId.isSome = true) →
      (s.dev.isActive port = true) →
      (s.dev.role port = 1) →
      (s.dev.dom.seenNotices = []) →
      (m.sw ≠ s.dev.dom.swId) →
      (2 ≤ m.phase) →
      (m.phase ≤ 5) →
      (s.dev.dom.restarted = true) →
      (bit m.targets s.dev.dom.swId = true) →
      Runs (.recoveryRecover port m) s (fun t => t.dev.dom.phase = m.phase))

/-- At an ACTIVE port a DATA flit in sequence advances the expected number modulo 4,096, becomes acknowledged and ends any replay request (R87,
  R89, R90); one whose CRC fails is counted and asks for replay from the number expected (R89, R92); a repeat of one of the last 2,048 is not
  taken again (R89). A flit that is not DATA changes no sequence number, and its credit fields raise the credits held (R86, R99). -/
def Obligations.DataFlitsInSequence : Prop :=
  -- DATA_FLIT (R87, R89, R90)
  (∀ (s : State) (port : Nat) (f : Flit),
      (port < 384) →
      (s.dev.isActive port = true) →
      (f.crcOk = true) →
      (f.ftype = 1) →
      (((s.dev.port port).laneReq = none ∨ (s.dev.port port).restoring = true)) →
      (f.seq = (s.dev.port port).rxSeq) →
      Runs (.dataFlit port f) s (fun t => (t.dev.port port).rxSeq = ((s.dev.port port).rxSeq + 1) % 4096 ∧ (t.dev.port port).ackValid = true ∧ (t.dev.port port).nak = false ∧
        t.dev.reg (Reg.flitsRx port) = (s.dev.bump (Reg.flitsRx port)).reg (Reg.flitsRx port))) ∧
  -- DATA_FLIT (R89, R92)
  (∀ (s : State) (port : Nat) (f : Flit),
      (port < 384) →
      (s.dev.isActive port = true) →
      (f.crcOk = false) →
      Runs (.dataFlit port f) s (fun t => (t.dev.port port).rxSeq = (s.dev.port port).rxSeq ∧ (t.dev.port port).nak = true ∧ (t.dev.port port).rx = (s.dev.port port).rx ∧
        t.dev.reg (Reg.crcErrors port) = (s.dev.bump (Reg.crcErrors port)).reg (Reg.crcErrors port))) ∧
  -- DATA_FLIT (R89)
  (∀ (s : State) (port : Nat) (f : Flit),
      (port < 384) →
      (s.dev.isActive port = true) →
      (f.crcOk = true) →
      (f.ftype = 1) →
      (((s.dev.port port).laneReq = none ∨ (s.dev.port port).restoring = true)) →
      (1 ≤ ((s.dev.port port).rxSeq + 4096 - f.seq) % 4096) →
      (((s.dev.port port).rxSeq + 4096 - f.seq) % 4096 ≤ 2048) →
      Runs (.dataFlit port f) s (fun t => (t.dev.port port).rxSeq = (s.dev.port port).rxSeq ∧ (t.dev.port port).rx = (s.dev.port port).rx ∧ (t.dev.port port).nak = (s.dev.port port).nak)) ∧
  -- IDLE_FLIT (R86, R99)
  (∀ (s : State) (port : Nat) (f : Flit),
      (port < 384) →
      (s.dev.isActive port = true) →
      (f.crcOk = true) →
      (f.ftype < 5) →
      (f.craSel ≤ 8) →
      (f.crbSel = 15) →
      ((s.dev.port port).credits.length = 9) →
      ((s.dev.port port).crSeen.length = 9) →
      Runs (.idleFlit port f) s (fun t => (t.dev.port port).credits.getD f.craSel 0 = (s.dev.port port).credits.getD f.craSel 0 +
          (f.craCnt + 256 - (s.dev.port port).crSeen.getD f.craSel 0 % 256) % 256 ∧
        (t.dev.port port).rxSeq = (s.dev.port port).rxSeq)) ∧
  -- ALIGN_FLIT (R81, R84)
  (∀ (s : State) (port lane skewNs : Nat) (f : Flit),
      (port < 384) →
      (s.dev.isActive port = true) →
      (f.crcOk = true) →
      (f.ftype < 5) →
      (skewNs ≤ 64) →
      Runs (.alignFlit port lane skewNs f) s (fun t => (t.dev.port port).peerPort = le f.payload 2 2 ∧ (t.dev.port port).rxSeq = (s.dev.port port).rxSeq))

/-- An expiry of the retry timer replays the buffer, and the fourth in a row enters RETRAIN (R92); a failed lane is marked in the port and in
  LANE_OK (R106); DEGRADE_REQ makes the transmitter move, from the next slot round, to the largest aligned group inside the requested
  set (inside both sets, where this side asked too) and then resend what is unacknowledged, a repeat of one already met changes nothing, and
  RESTORE_REQ does the same with no replay (R109, R112); two degrades without a common group end in RETRAIN (the model's choice, log 175); a
  SWITCH moves the receiver to its lane set and reports it, and where it answers this side's request the own transmitter follows (R109, R110);
  one to a set with a lane failed since asks for a smaller one at once (R113); a slot in PARAM carries the own values in a TRAIN flit with the
  header of every flit (R42, R86, R102); a repaired lane is marked good and asked back (R112). -/
def Obligations.ReplayAndLaneChanges : Prop :=
  -- LINK_RETRY_TIMEOUT (R91, R92)
  (∀ (s : State) (port : Nat),
      (port < 384) →
      (s.dev.isActive port = true) →
      ((s.dev.port port).replay ≠ []) →
      ((s.dev.port port).expiries < 3) →
      Runs (.linkRetryTimeout port) s (fun t => (t.dev.port port).resend = (s.dev.port port).replay ∧ (t.dev.port port).expiries = (s.dev.port port).expiries + 1 ∧
        t.dev.portState port = 6)) ∧
  -- LINK_RETRY_TIMEOUT (R92)
  (∀ (s : State) (port : Nat),
      (port < 384) →
      (s.dev.isActive port = true) →
      ((s.dev.port port).replay ≠ []) →
      (3 ≤ (s.dev.port port).expiries) →
      Runs (.linkRetryTimeout port) s (fun t => t.dev.portState port = 7 ∧ (t.dev.port port).replay = (s.dev.port port).replay)) ∧
  -- LANE_FAILED (R106)
  (∀ (s : State) (port lane : Nat),
      (port < 384) →
      (lane < 8) →
      (s.dev.isActive port = true) →
      (bit (s.dev.portLaneMask port) lane = true) →
      Runs (.laneFailed port lane) s (fun t => bit (t.dev.port port).failed lane = true ∧ bit (t.dev.reg (Reg.pbLaneOk (port / 4))) lane = false)) ∧
  -- LANE_REPAIRED (R112)
  (∀ (s : State) (port lane : Nat),
      (port < 384) →
      (lane < 8) →
      (bit (s.dev.port port).failed lane = true) →
      Runs (.laneRepaired port lane) s (fun t => bit (t.dev.port port).failed lane = false ∧ bit (t.dev.reg (Reg.pbLaneOk (port / 4))) lane = true)) ∧
  -- LANE_REPAIRED (R112)
  (∀ (s : State) (port lane g : Nat),
      (port < 384) →
      (lane < 8) →
      (s.dev.isActive port = true) →
      (bit (s.dev.port port).failed lane = true) →
      (s.dev.flag (Reg.pbAutoRestore (port / 4)) = true) →
      ((s.dev.port port).laneReq = none) →
      ((s.dev.port port).switchSent = false) →
      ((s.dev.port port).switchDue = none) →
      ((s.dev.port port).switching = false) →
      (largestGroup 8 (s.dev.soundLanes port (setBit (s.dev.port port).failed lane false)) = some g) →
      (laneCount (s.dev.port port).rxLanes < laneCount g) →
      Runs (.laneRepaired port lane) s (fun t => (t.dev.port port).laneReq = some g ∧ (t.dev.port port).restoring = true ∧ (t.dev.port port).restoreDue = false)) ∧
  -- DEGRADE_REQ (R109)
  (∀ (s : State) (port : Nat) (f : Flit) (g : Nat),
      (port < 384) →
      (s.dev.isActive port = true) →
      (f.crcOk = true) →
      (f.ftype < 5) →
      ((s.dev.port port).restoring = false) →
      (largestGroup 8 (f.lmask &&& s.dev.portLaneMask port) ≠ none) →
      (Dev.txSet (s.dev.port port) &&& (f.lmask &&& s.dev.portLaneMask port) ≠ Dev.txSet (s.dev.port port)) →
      (largestGroup 8 (f.lmask &&& s.dev.portLaneMask port &&& (s.dev.port port).laneReq.getD 0xFF) = some g) →
      Runs (.degradeReq port f) s (fun t => (t.dev.port port).switchDue = some g ∧ (t.dev.port port).switchReplay = true ∧ (t.dev.port port).switchSent = true ∧
        (t.dev.port port).txLanes = (s.dev.port port).txLanes ∧ (t.dev.port port).laneReq = (s.dev.port port).laneReq)) ∧
  -- DEGRADE_REQ (R109)
  (∀ (s : State) (port : Nat) (f : Flit),
      (port < 384) →
      (s.dev.isActive port = true) →
      (f.crcOk = true) →
      (f.ftype < 5) →
      (Dev.txSet (s.dev.port port) &&& (f.lmask &&& s.dev.portLaneMask port) = Dev.txSet (s.dev.port port)) →
      Runs (.degradeReq port f) s (fun t => (t.dev.port port).switchDue = (s.dev.port port).switchDue ∧ (t.dev.port port).txLanes = (s.dev.port port).txLanes ∧
        (t.dev.port port).switchSent = (s.dev.port port).switchSent ∧ t.dev.portState port = 6)) ∧
  -- DEGRADE_REQ
  (∀ (s : State) (port : Nat) (f : Flit),
      (port < 384) →
      (s.dev.isActive port = true) →
      (f.crcOk = true) →
      (f.ftype < 5) →
      ((s.dev.port port).restoring = false) →
      (largestGroup 8 (f.lmask &&& s.dev.portLaneMask port) ≠ none) →
      (Dev.txSet (s.dev.port port) &&& (f.lmask &&& s.dev.portLaneMask port) ≠ Dev.txSet (s.dev.port port)) →
      (largestGroup 8 (f.lmask &&& s.dev.portLaneMask port &&& (s.dev.port port).laneReq.getD 0xFF) = none) →
      Runs (.degradeReq port f) s (fun t => t.dev.portState port = 7 ∧ (t.dev.port port).laneReq = none)) ∧
  -- RESTORE_REQ (R112)
  (∀ (s : State) (port : Nat) (f : Flit) (g : Nat),
      (port < 384) →
      (s.dev.isActive port = true) →
      (f.crcOk = true) →
      (f.ftype < 5) →
      (((s.dev.port port).laneReq = none ∨ (s.dev.port port).restoring = true)) →
      (largestGroup 8 (f.lmask &&& s.dev.portLaneMask port &&& (s.dev.port port).laneReq.getD 0xFF) = some g) →
      (Dev.txSet (s.dev.port port) ≠ g) →
      Runs (.restoreReq port f) s (fun t => (t.dev.port port).switchDue = some g ∧ (t.dev.port port).switchReplay = false ∧ (t.dev.port port).switchSent = true)) ∧
  -- LANE_SWITCH (R109, R110)
  (∀ (s : State) (port mask m : Nat),
      (port < 384) →
      (s.dev.isActive port = true) →
      (mask ≠ 0) →
      (mask &&& (s.dev.port port).failed = 0) →
      ((s.dev.port port).restoreDue = false) →
      ((s.dev.port port).laneReq = some m) →
      (m &&& mask = mask) →
      (Dev.txSet (s.dev.port port) ≠ mask) →
      Runs (.laneSwitch port mask) s (fun t => (t.dev.port port).rxLanes = mask ∧ (t.dev.port port).laneReq = none ∧ (t.dev.port port).switchDue = some mask ∧
        (t.dev.port port).switchReplay = !(s.dev.port port).restoring ∧ t.dev.reg (Reg.portLanes port) = mask ∧
        t.dev.reg (Reg.portWidth port) = laneCount mask)) ∧
  -- LANE_SWITCH (R110)
  (∀ (s : State) (port mask : Nat),
      (port < 384) →
      (s.dev.isActive port = true) →
      (mask ≠ 0) →
      (mask &&& (s.dev.port port).failed = 0) →
      ((s.dev.port port).restoreDue = false) →
      ((s.dev.port port).laneReq = none) →
      Runs (.laneSwitch port mask) s (fun t => (t.dev.port port).rxLanes = mask ∧ (t.dev.port port).laneReq = none ∧ (t.dev.port port).txLanes = (s.dev.port port).txLanes ∧
        (t.dev.port port).switchDue = (s.dev.port port).switchDue ∧ t.dev.reg (Reg.portLanes port) = mask ∧
        t.dev.reg (Reg.portWidth port) = laneCount mask)) ∧
  -- LANE_SWITCH (R109)
  (∀ (s : State) (port mask m : Nat),
      (port < 384) →
      (s.dev.isActive port = true) →
      (mask ≠ 0) →
      ((s.dev.port port).laneReq = some m) →
      (m &&& mask ≠ mask) →
      Runs (.laneSwitch port mask) s (fun t => (t.dev.port port).rxLanes = mask ∧ (t.dev.port port).laneReq = some m ∧ (t.dev.port port).switchDue = (s.dev.port port).switchDue)) ∧
  -- LANE_SWITCH (R113)
  (∀ (s : State) (port mask g : Nat),
      (port < 384) →
      (s.dev.isActive port = true) →
      (mask ≠ 0) →
      (mask &&& (s.dev.port port).failed ≠ 0) →
      ((s.dev.port port).laneReq = none) →
      (largestGroup (laneCount mask / 2) (s.dev.soundLanes port (s.dev.port port).failed) = some g) →
      Runs (.laneSwitch port mask) s (fun t => (t.dev.port port).rxLanes = mask ∧ (t.dev.port port).laneReq = some g ∧ (t.dev.port port).restoring = false)) ∧
  -- FLIT_SLOT (R42, R84, R86, R102)
  (∀ (s : State) (port : Nat),
      (s.dev.portState port = 4) →
      ((s.dev.port port).dyingLeft = 0) →
      ((s.dev.port port).closing = false) →
      Runs (.flitSlot port) s (fun t => t.dev.out = s.dev.out ++ [.train port (Dev.laneAt (s.dev.port port).txLanes (s.dev.port port).slot) (Dev.stamp (s.dev.port port) { ftype := 4 }) (s.dev.ownTrain port) (Config.freeValue s.dev.freeCtr)] ∧
        (s.dev.ownTrain port).domId = s.dev.dom.domId ∧ (s.dev.ownTrain port).switchId = s.dev.dom.swId ∧
        (s.dev.ownTrain port).credits = s.dev.trainAlloc port))

/-- Signal takes a port from DETECT to EQUALIZE with the allocation that then stands (R96), lanes that pass take it to LOCK with the largest aligned group of them and none back to DETECT,
  lock to PARAM with a fresh salt, the peer's announcement is kept there, and an exchange whose checks hold takes an ENDPOINT port to ADMIT and
  another to ACTIVE; an ENDPOINT port in ADMIT enters ACTIVE once the tick has been LOCKED and, under a manager, in phase 5; an expired limit returns it to DETECT; a fast
  retrain keeps the replay buffer, and one that fails ends in DETECT. -/
def Obligations.PortTraining : Prop :=
  -- SIGNAL_DETECTED (R96, R102)
  (∀ (s : State) (port : Nat),
      (s.dev.portState port = 1) →
      (s.dev.portExists port = true) →
      ((s.dev.port port).dyingHold = false) →
      (s.dev.level (Dev.quadOf port) ≠ 0) →
      (bit s.dev.health.failedUnits (port / 4) = false) →
      (s.dev.power.refs ≠ 0) →
      Runs (.signalDetected port) s (fun t => t.dev.portState port = 2 ∧ (t.dev.port port).alloc = s.dev.ownAllocation port)) ∧
  -- EQUALIZE_DONE (R103)
  (∀ (s : State) (port passMask g : Nat),
      (port < 384) →
      (s.dev.portState port = 2) →
      (largestGroup 8 (passMask &&& s.dev.portLaneMask port) = some g) →
      Runs (.equalizeDone port passMask) s (fun t => t.dev.portState port = 3 ∧ (t.dev.port port).rxLanes = g ∧ (t.dev.port port).txLanes = g ∧
        (t.dev.port port).failed = s.dev.portLaneMask port - (passMask &&& s.dev.portLaneMask port))) ∧
  -- EQUALIZE_DONE (R103)
  (∀ (s : State) (port passMask : Nat),
      (port < 384) →
      (s.dev.portState port = 2) →
      (passMask &&& s.dev.portLaneMask port = 0) →
      Runs (.equalizeDone port passMask) s (fun t => t.dev.portState port = 1)) ∧
  -- LOCK_DONE (R102, R546)
  (∀ (s : State) (port polarity : Nat),
      (port < 384) →
      (s.dev.portState port = 3) →
      Runs (.lockDone port polarity) s (fun t => t.dev.portState port = 4 ∧ (t.dev.port port).salt = Config.freeBytes s.dev.freeCtr 16 ∧ (t.dev.port port).peer = none)) ∧
  -- TRAIN_FLIT (R102)
  (∀ (s : State) (port : Nat) (i : TrainInfo),
      (s.dev.portState port = 4) →
      Runs (.trainFlit port i) s (fun t => (t.dev.port port).peer = some i ∧ t.dev.portState port = 4)) ∧
  -- PARAM_DONE (R102)
  (∀ (s : State) (port rttPs : Nat) (i : TrainInfo),
      (port < 384) →
      (s.dev.portState port = 4) →
      ((s.dev.port port).peer = some i) →
      (leNat (s.dev.port port).salt ≠ i.salt) →
      (i.malformed = false) →
      (i.laneSet = (s.dev.port port).rxLanes) →
      (i.credits = s.dev.trainAlloc port) →
      (s.dev.role port = 0) →
      (s.dev.reg (Reg.portExpectFeid port) = i.feid) →
      (i.feid ≠ 0xFFFF) →
      Runs (.paramDone port rttPs) s (fun t => t.dev.portState port = 5 ∧ t.dev.reg (Reg.portPeer port) = i.feid ∧ t.dev.reg (Reg.rttNs port) = min (rttPs / 1000) 0xFFFF)) ∧
  -- PORT_ACTIVE (R58, R102)
  (∀ (s : State) (port : Nat),
      (port < 384) →
      (s.dev.portState port = 5) →
      (s.dev.level (Dev.quadOf port) ≠ 0) →
      (s.dev.ownId.isSome = true) →
      (s.dev.dom.admitted = true) →
      (s.dev.dom.phase = 5 ∨ s.dev.reg Reg.managerCur = 0xFF) →
      Runs (.portActive port) s (fun t => t.dev.portState port = 6 ∧ (t.dev.port port).txSeq = 0 ∧ (t.dev.port port).rxSeq = 0 ∧ t.dev.reg (Reg.portLanes port) = (s.dev.port port).rxLanes)) ∧
  -- TRAINING_TIMEOUT (R102)
  (∀ (s : State) (port : Nat),
      (2 ≤ s.dev.portState port) →
      (s.dev.portState port ≤ 4) →
      Runs (.trainingTimeout port) s (fun t => t.dev.portState port = 1)) ∧
  -- RETRAIN_DONE (R102)
  (∀ (s : State) (port : Nat),
      (s.dev.portState port = 7) →
      Runs (.retrainDone port) s (fun t => t.dev.portState port = 6 ∧ (t.dev.port port).resend = (s.dev.port port).replay ∧ (t.dev.port port).txSeq = (s.dev.port port).txSeq)) ∧
  -- RETRAIN_TIMEOUT (R102, R104)
  (∀ (s : State) (port : Nat),
      (port < 384) →
      (s.dev.portState port = 7) →
      Runs (.retrainTimeout port) s (fun t => t.dev.portState port = 1 ∧ (t.dev.port port).replay = [] ∧ (t.dev.port port).rx = []))

/-- Loss of signal takes an ACTIVE port to DETECT with its buffers discarded (R102, R104); a DYING flit does the same, is kept in LAST_DYING and
  holds the port in DETECT until the hold ends (R115); after the block's own decision each slot carries a DYING flit until eight per lane have
  gone, and IDLE from then on (R114). -/
def Obligations.PortsGoDownAndFlitsLeave : Prop :=
  -- LOSS_OF_SIGNAL (R102, R104)
  (∀ (s : State) (port : Nat),
      (port < 384) →
      (s.dev.isActive port = true) →
      Runs (.lossOfSignal port) s (fun t => t.dev.portState port = 1 ∧ (t.dev.port port).replay = [] ∧ (t.dev.port port).rx = [] ∧ (t.dev.port port).txq = [])) ∧
  -- DYING_RCVD (R115)
  (∀ (s : State) (port : Nat) (m : Dying),
      (port < 384) →
      (s.dev.isActive port = true) →
      Runs (.dyingRcvd port m) s (fun t => t.dev.portState port = 1 ∧ (t.dev.port port).dyingHold = true ∧ t.dev.reg (Reg.lastDying port) = leNat m.bytes)) ∧
  -- DYING_HOLD_END (R115)
  (∀ (s : State) (port : Nat),
      Runs (.dyingHoldEnd port) s (fun t => (t.dev.port port).dyingHold = false)) ∧
  -- FLIT_SLOT (R114)
  (∀ (s : State) (port : Nat),
      (s.dev.portState port ≠ 0) →
      (s.dev.portState port ≠ 1 ∨ s.dev.level (Dev.quadOf port) ≠ 0) →
      (0 < (s.dev.port port).dyingLeft) →
      Runs (.flitSlot port) s (fun t => t.dev.out = s.dev.out ++ [.flit port (Dev.laneAt (s.dev.portLaneMask port) (s.dev.port port).slot)
            (Dev.stamp (s.dev.port port) { ftype := 3, payload := ((s.dev.port port).dying.map (·.bytes)).getD [] })] ∧
        (t.dev.port port).dyingLeft = (s.dev.port port).dyingLeft - 1)) ∧
  -- FLIT_SLOT (R114)
  (∀ (s : State) (port : Nat),
      (s.dev.portState port ≠ 0) →
      (s.dev.portState port ≠ 1 ∨ s.dev.level (Dev.quadOf port) ≠ 0) →
      ((s.dev.port port).dyingLeft = 0) →
      ((s.dev.port port).closing = true) →
      Runs (.flitSlot port) s (fun t => t.dev.out = s.dev.out ++ [.flit port (Dev.laneAt (s.dev.portLaneMask port) (s.dev.port port).slot) (Dev.stamp (s.dev.port port) {})]))

/-- A request, message, job packet, reduction packet or response that arrives at an ACTIVE ENDPOINT port of its quadrant, whose tag holds, whose
  checks pass with one destination, and for which its allowance and a pool have room, becomes the youngest entry of that destination's queue
  of its class in the quadrant of its port; a waiting packet that is retested with room does the same and leaves the wait. -/
def Obligations.PacketsAreAdmitted : Prop :=
  -- READ (R139, R151, R155)
  (∀ (s : State) (n : Nat) (p : Packet) (r : Routed) (k : Nat),
      (s.dev.isActive n = true) →
      (s.dev.role n = 0) →
      (p.ptype = .read) →
      (p.cls ≠ 7) →
      (p.mc = false) →
      (p.srcDomain = 0xFFFF) →
      (p.tagOk = true) →
      ((s.dev.checks (.port n) p).1 = .go r) →
      (r.dests = [k]) →
      (k < 8192) →
      (k / 8 < 384 → s.dev.role (k / 8) ≠ 2) →
      (Tab.has s.dev.waiting (Dev.waitKey (.port n) p.cls) = false) →
      (s.dev.isWithheld n = false) →
      (s.dev.allowed p.comp p.cls (Dev.quadOf n) = true) →
      ((poolFor s.dev (Dev.quadOf n) (k + p.cls) p.cls p.cells).isSome = true) →
      Runs (.read (.port n) p) s (fun t => ((t.dev.core (Dev.quadOf n)).queue (k + p.cls)).getLast?.map (fun e => (e.pkt, e.src)) = some (p, .port n))) ∧
  -- WRITE (R139, R151, R155)
  (∀ (s : State) (n : Nat) (p : Packet) (r : Routed) (k : Nat),
      (s.dev.isActive n = true) →
      (s.dev.role n = 0) →
      (p.ptype = .write) →
      (p.cls ≠ 7) →
      (p.mc = false) →
      (p.srcDomain = 0xFFFF) →
      (p.tagOk = true) →
      ((s.dev.checks (.port n) p).1 = .go r) →
      (r.dests = [k]) →
      (k < 8192) →
      (k / 8 < 384 → s.dev.role (k / 8) ≠ 2) →
      (Tab.has s.dev.waiting (Dev.waitKey (.port n) p.cls) = false) →
      (s.dev.isWithheld n = false) →
      (s.dev.allowed p.comp p.cls (Dev.quadOf n) = true) →
      ((poolFor s.dev (Dev.quadOf n) (k + p.cls) p.cls p.cells).isSome = true) →
      Runs (.write (.port n) p) s (fun t => ((t.dev.core (Dev.quadOf n)).queue (k + p.cls)).getLast?.map (fun e => (e.pkt, e.src)) = some (p, .port n))) ∧
  -- WRITE_POSTED (R139, R151, R155)
  (∀ (s : State) (n : Nat) (p : Packet) (r : Routed) (k : Nat),
      (s.dev.isActive n = true) →
      (s.dev.role n = 0) →
      (p.ptype = .writePosted) →
      (p.cls ≠ 7) →
      (p.mc = false) →
      (p.srcDomain = 0xFFFF) →
      (p.tagOk = true) →
      ((s.dev.checks (.port n) p).1 = .go r) →
      (r.dests = [k]) →
      (k < 8192) →
      (k / 8 < 384 → s.dev.role (k / 8) ≠ 2) →
      (Tab.has s.dev.waiting (Dev.waitKey (.port n) p.cls) = false) →
      (s.dev.isWithheld n = false) →
      (s.dev.allowed p.comp p.cls (Dev.quadOf n) = true) →
      ((poolFor s.dev (Dev.quadOf n) (k + p.cls) p.cls p.cells).isSome = true) →
      Runs (.writePosted (.port n) p) s (fun t => ((t.dev.core (Dev.quadOf n)).queue (k + p.cls)).getLast?.map (fun e => (e.pkt, e.src)) = some (p, .port n))) ∧
  -- ATOMIC (R139, R151, R155)
  (∀ (s : State) (n : Nat) (p : Packet) (r : Routed) (k : Nat),
      (s.dev.isActive n = true) →
      (s.dev.role n = 0) →
      (p.ptype = .atomic) →
      (p.cls ≠ 7) →
      (p.mc = false) →
      (p.srcDomain = 0xFFFF) →
      (p.tagOk = true) →
      ((s.dev.checks (.port n) p).1 = .go r) →
      (r.dests = [k]) →
      (k < 8192) →
      (k / 8 < 384 → s.dev.role (k / 8) ≠ 2) →
      (Tab.has s.dev.waiting (Dev.waitKey (.port n) p.cls) = false) →
      (s.dev.isWithheld n = false) →
      (s.dev.allowed p.comp p.cls (Dev.quadOf n) = true) →
      ((poolFor s.dev (Dev.quadOf n) (k + p.cls) p.cls p.cells).isSome = true) →
      Runs (.atomic (.port n) p) s (fun t => ((t.dev.core (Dev.quadOf n)).queue (k + p.cls)).getLast?.map (fun e => (e.pkt, e.src)) = some (p, .port n))) ∧
  -- MSG (R139, R151, R155)
  (∀ (s : State) (n : Nat) (p : Packet) (r : Routed) (k : Nat),
      (s.dev.isActive n = true) →
      (s.dev.role n = 0) →
      (p.ptype = .msg) →
      (p.cls ≠ 7) →
      (p.mc = false) →
      (p.srcDomain = 0xFFFF) →
      (p.tagOk = true) →
      ((s.dev.checks (.port n) p).1 = .go r) →
      (r.dests = [k]) →
      (k < 8192) →
      (k / 8 < 384 → s.dev.role (k / 8) ≠ 2) →
      (Tab.has s.dev.waiting (Dev.waitKey (.port n) p.cls) = false) →
      (s.dev.isWithheld n = false) →
      (s.dev.allowed p.comp p.cls (Dev.quadOf n) = true) →
      ((poolFor s.dev (Dev.quadOf n) (k + p.cls) p.cls p.cells).isSome = true) →
      Runs (.msg (.port n) p) s (fun t => ((t.dev.core (Dev.quadOf n)).queue (k + p.cls)).getLast?.map (fun e => (e.pkt, e.src)) = some (p, .port n))) ∧
  -- JOB_POST (R139, R151, R155)
  (∀ (s : State) (n : Nat) (p : Packet) (r : Routed) (k : Nat),
      (s.dev.isActive n = true) →
      (s.dev.role n = 0) →
      (p.ptype = .jobPost) →
      (p.cls ≠ 7) →
      (p.mc = false) →
      (p.srcDomain = 0xFFFF) →
      (p.tagOk = true) →
      ((s.dev.checks (.port n) p).1 = .go r) →
      (r.dests = [k]) →
      (k < 8192) →
      (k / 8 < 384 → s.dev.role (k / 8) ≠ 2) →
      (Tab.has s.dev.waiting (Dev.waitKey (.port n) p.cls) = false) →
      (s.dev.isWithheld n = false) →
      (s.dev.allowed p.comp p.cls (Dev.quadOf n) = true) →
      ((poolFor s.dev (Dev.quadOf n) (k + p.cls) p.cls p.cells).isSome = true) →
      Runs (.jobPost (.port n) p) s (fun t => ((t.dev.core (Dev.quadOf n)).queue (k + p.cls)).getLast?.map (fun e => (e.pkt, e.src)) = some (p, .port n))) ∧
  -- JOB_RESULT (R139, R151, R155)
  (∀ (s : State) (n : Nat) (p : Packet) (r : Routed) (k : Nat),
      (s.dev.isActive n = true) →
      (s.dev.role n = 0) →
      (p.ptype = .jobResult) →
      (p.cls ≠ 7) →
      (p.mc = false) →
      (p.srcDomain = 0xFFFF) →
      (p.tagOk = true) →
      ((s.dev.checks (.port n) p).1 = .go r) →
      (r.dests = [k]) →
      (k < 8192) →
      (k / 8 < 384 → s.dev.role (k / 8) ≠ 2) →
      (Tab.has s.dev.waiting (Dev.waitKey (.port n) p.cls) = false) →
      (s.dev.isWithheld n = false) →
      (s.dev.allowed p.comp p.cls (Dev.quadOf n) = true) →
      ((poolFor s.dev (Dev.quadOf n) (k + p.cls) p.cls p.cells).isSome = true) →
      Runs (.jobResult (.port n) p) s (fun t => ((t.dev.core (Dev.quadOf n)).queue (k + p.cls)).getLast?.map (fun e => (e.pkt, e.src)) = some (p, .port n))) ∧
  -- REDUCE_CONTRIB (R139, R151, R155)
  (∀ (s : State) (n : Nat) (p : Packet) (r : Routed) (k : Nat),
      (s.dev.isActive n = true) →
      (s.dev.role n = 0) →
      (p.ptype = .reduceContrib) →
      (p.cls ≠ 7) →
      (p.mc = false) →
      (p.srcDomain = 0xFFFF) →
      (p.tagOk = true) →
      ((s.dev.checks (.port n) p).1 = .go r) →
      (r.dests = [k]) →
      (k < 8192) →
      (k / 8 < 384 → s.dev.role (k / 8) ≠ 2) →
      (Tab.has s.dev.waiting (Dev.waitKey (.port n) p.cls) = false) →
      (s.dev.isWithheld n = false) →
      (s.dev.allowed p.comp p.cls (Dev.quadOf n) = true) →
      ((poolFor s.dev (Dev.quadOf n) (k + p.cls) p.cls p.cells).isSome = true) →
      Runs (.reduceContrib (.port n) p) s (fun t => ((t.dev.core (Dev.quadOf n)).queue (k + p.cls)).getLast?.map (fun e => (e.pkt, e.src)) = some (p, .port n))) ∧
  -- REDUCE_RESULT (R139, R151, R155)
  (∀ (s : State) (n : Nat) (p : Packet) (r : Routed) (k : Nat),
      (s.dev.isActive n = true) →
      (s.dev.role n = 0) →
      (p.ptype = .reduceResult) →
      (p.cls ≠ 7) →
      (p.mc = false) →
      (p.srcDomain = 0xFFFF) →
      (p.tagOk = true) →
      ((s.dev.checks (.port n) p).1 = .go r) →
      (r.dests = [k]) →
      (k < 8192) →
      (k / 8 < 384 → s.dev.role (k / 8) ≠ 2) →
      (Tab.has s.dev.waiting (Dev.waitKey (.port n) p.cls) = false) →
      (s.dev.isWithheld n = false) →
      (s.dev.allowed p.comp p.cls (Dev.quadOf n) = true) →
      ((poolFor s.dev (Dev.quadOf n) (k + p.cls) p.cls p.cells).isSome = true) →
      Runs (.reduceResult (.port n) p) s (fun t => ((t.dev.core (Dev.quadOf n)).queue (k + p.cls)).getLast?.map (fun e => (e.pkt, e.src)) = some (p, .port n))) ∧
  -- RESP (R127, R140)
  (∀ (s : State) (n : Nat) (p : Packet) (r : Routed) (k : Nat),
      (s.dev.isActive n = true) →
      (s.dev.role n = 0) →
      (p.ptype = .resp) →
      (p.cls = 1) →
      (p.mc = false) →
      (p.tagOk = true) →
      (s.dev.findSub n p = none) →
      (p.dst ≠ 0) →
      ((s.dev.checks (.port n) p).1 = .go r) →
      (r.dests = [k]) →
      (k < 8192) →
      (Tab.has s.dev.waiting (Dev.waitKey (.port n) p.cls) = false) →
      (s.dev.allowed p.comp p.cls (Dev.quadOf n) = true) →
      ((poolFor s.dev (Dev.quadOf n) (k + p.cls) p.cls p.cells).isSome = true) →
      Runs (.resp (.port n) p) s (fun t => ((t.dev.core (Dev.quadOf n)).queue (k + p.cls)).getLast?.map (fun e => (e.pkt, e.src)) = some (p, .port n))) ∧
  -- PACKET_ADMIT (R161)
  (∀ (s : State) (n cls cycle : Nat) (w : Waiting) (rest : List Waiting) (r : Routed) (k : Nat),
      (Tab.look s.dev.waiting (Dev.waitKey (.port n) cls) = some (w :: rest)) →
      (rest ≠ []) →
      (w.pkt.cls = cls) →
      (w.pkt.ptype ≠ .msg) →
      (w.pkt.mc = false) →
      (s.dev.route (.port n) w.pkt = .go r) →
      ((cls = 2 → s.dev.paceHolds n (s.dev.coreCycle cycle) = false)) →
      (r.dests = [k]) →
      (k < 8192) →
      (s.dev.allowed w.pkt.comp cls (Dev.quadOf n) = true) →
      ((poolFor s.dev (Dev.quadOf n) (k + cls) cls w.pkt.cells).isSome = true) →
      Runs (.packetAdmit (.port n) { cls := cls, cycle := cycle }) s (fun t => ((t.dev.core (Dev.quadOf n)).queue (k + cls)).getLast?.map (fun e => (e.pkt, e.src)) = some (w.pkt, .port n) ∧
        Tab.look t.dev.waiting (Dev.waitKey (.port n) cls) = some rest))

/-- For every packet and every state of the device: a breach of the field rules, a host's packet in class 7 among
  them, gives ERR_BADDESC; else a dead generation of an encrypted packet
  ERR_KEY_RETIRED; else a slot or source foreign to the composition ERR_RIGHTS; else a fenced composition ERR_FENCED; else a missing
  destination the status of its route; else for a memory request a region that is missing ERR_UNMAPPED, another key ERR_KEY, and a missing
  right ERR_RIGHTS (R197). -/
def Obligations.ChecksDecideInOrder : Prop :=
  -- R151
  ∀ (d : Dev) (src : Ingress) (p : Packet),
      (fieldsOk p = false → (d.checks src p).1 = .fail 0x10) ∧
      (Dev.hostCls7 src p = true → (d.checks src p).1 = .fail 0x10) ∧
      (fieldsOk p = true → Dev.hostCls7 src p = false → p.enc = true → d.liveGen p.kslot p.kgen = false → (d.checks src p).1 = .fail 0x0C) ∧
      (fieldsOk p = true → Dev.hostCls7 src p = false → (p.enc = true → d.liveGen p.kslot p.kgen = true) →
        (d.rightsOk src p = false → (d.checks src p).1 = .fail 0x02) ∧
        (d.rightsOk src p = true → d.fenced p.comp = true → (d.checks src p).1 = .fail 0x0E) ∧
        (d.rightsOk src p = true → d.fenced p.comp = false →
          (∀ st, d.route src p = .fail st → (d.checks src p).1 = .fail st) ∧
          (∀ r, d.route src p = .go r → p.ptype.isMem = true →
            (d.regionFor p.comp p.da = none → (d.checks src p).1 = .fail 0x03) ∧
            (∀ e, d.regionFor p.comp p.da = some e →
              (Region.rkey e ≠ p.rkey → (d.checks src p).1 = .fail 0x01) ∧
              (Region.rkey e = p.rkey → Dev.rightOk e (Dev.rightOf p.ptype) = false → (d.checks src p).1 = .fail 0x02) ∧
              (Region.rkey e = p.rkey → Dev.rightOk e (Dev.rightOf p.ptype) = true → Dev.inMacArea e p.da = false →
                (d.checks src p).1 = .go { r with region := e })))))

/-- A READ, WRITE, WRITE_POSTED, ATOMIC, MSG or REDUCE_CONTRIB whose first failing check gives a status draws a RESP with that status to its
  source, in class 1, and a JOB_POST a JOB_RESULT; no ingress queue takes the packet. A RESP, JOB_RESULT or REDUCE_RESULT that fails is
  discarded unanswered and counted in UNROUTABLE. -/
def Obligations.RequestsThatFailAreAnswered : Prop :=
  -- READ (R127, R152)
  (∀ (s : State) (n m : Nat) (p : Packet) (st : Nat),
      (s.dev.isActive n = true) →
      (s.dev.role n = 0) →
      (p.ptype = .read) →
      (p.cls ≠ 7) →
      (p.srcDomain = 0xFFFF) →
      ((s.dev.checks (.port n) p).1 = .fail st) →
      (s.dev.portOfFeid p.src = some m) →
      Runs (.read (.port n) p) s (fun t => Tab.getD (t.dev.port m).txq 1 [] = Tab.getD (s.dev.port m).txq 1 [] ++ [s.dev.respTo p st []] ∧
        ∀ q, (t.dev.core q).queues = (s.dev.core q).queues)) ∧
  -- WRITE (R127, R152)
  (∀ (s : State) (n m : Nat) (p : Packet) (st : Nat),
      (s.dev.isActive n = true) →
      (s.dev.role n = 0) →
      (p.ptype = .write) →
      (p.cls ≠ 7) →
      (p.srcDomain = 0xFFFF) →
      ((s.dev.checks (.port n) p).1 = .fail st) →
      (s.dev.portOfFeid p.src = some m) →
      Runs (.write (.port n) p) s (fun t => Tab.getD (t.dev.port m).txq 1 [] = Tab.getD (s.dev.port m).txq 1 [] ++ [s.dev.respTo p st []] ∧
        ∀ q, (t.dev.core q).queues = (s.dev.core q).queues)) ∧
  -- WRITE_POSTED (R127, R152)
  (∀ (s : State) (n m : Nat) (p : Packet) (st : Nat),
      (s.dev.isActive n = true) →
      (s.dev.role n = 0) →
      (p.ptype = .writePosted) →
      (p.cls ≠ 7) →
      (p.srcDomain = 0xFFFF) →
      ((s.dev.checks (.port n) p).1 = .fail st) →
      (s.dev.portOfFeid p.src = some m) →
      Runs (.writePosted (.port n) p) s (fun t => Tab.getD (t.dev.port m).txq 1 [] = Tab.getD (s.dev.port m).txq 1 [] ++ [s.dev.respTo p st []] ∧
        ∀ q, (t.dev.core q).queues = (s.dev.core q).queues)) ∧
  -- ATOMIC (R127, R152)
  (∀ (s : State) (n m : Nat) (p : Packet) (st : Nat),
      (s.dev.isActive n = true) →
      (s.dev.role n = 0) →
      (p.ptype = .atomic) →
      (p.cls ≠ 7) →
      (p.srcDomain = 0xFFFF) →
      ((s.dev.checks (.port n) p).1 = .fail st) →
      (s.dev.portOfFeid p.src = some m) →
      Runs (.atomic (.port n) p) s (fun t => Tab.getD (t.dev.port m).txq 1 [] = Tab.getD (s.dev.port m).txq 1 [] ++ [s.dev.respTo p st []] ∧
        ∀ q, (t.dev.core q).queues = (s.dev.core q).queues)) ∧
  -- MSG (R127, R152)
  (∀ (s : State) (n m : Nat) (p : Packet) (st : Nat),
      (s.dev.isActive n = true) →
      (s.dev.role n = 0) →
      (p.ptype = .msg) →
      (p.cls ≠ 7) →
      (p.srcDomain = 0xFFFF) →
      ((s.dev.checks (.port n) p).1 = .fail st) →
      (s.dev.portOfFeid p.src = some m) →
      Runs (.msg (.port n) p) s (fun t => Tab.getD (t.dev.port m).txq 1 [] = Tab.getD (s.dev.port m).txq 1 [] ++ [s.dev.respTo p st []] ∧
        ∀ q, (t.dev.core q).queues = (s.dev.core q).queues)) ∧
  -- REDUCE_CONTRIB (R127, R152)
  (∀ (s : State) (n m : Nat) (p : Packet) (st : Nat),
      (s.dev.isActive n = true) →
      (s.dev.role n = 0) →
      (p.ptype = .reduceContrib) →
      (p.cls ≠ 7) →
      (p.srcDomain = 0xFFFF) →
      ((s.dev.checks (.port n) p).1 = .fail st) →
      (s.dev.portOfFeid p.src = some m) →
      Runs (.reduceContrib (.port n) p) s (fun t => Tab.getD (t.dev.port m).txq 1 [] = Tab.getD (s.dev.port m).txq 1 [] ++ [s.dev.respTo p st []] ∧
        ∀ q, (t.dev.core q).queues = (s.dev.core q).queues)) ∧
  -- JOB_POST (R129, R152)
  (∀ (s : State) (n m : Nat) (p : Packet) (st : Nat),
      (s.dev.isActive n = true) →
      (s.dev.role n = 0) →
      (p.ptype = .jobPost) →
      (p.cls ≠ 7) →
      ((s.dev.checks (.port n) p).1 = .fail st) →
      (s.dev.portOfFeid p.src = some m) →
      Runs (.jobPost (.port n) p) s (fun t => Tab.getD (t.dev.port m).txq 5 [] = Tab.getD (s.dev.port m).txq 5 [] ++ [Dev.refusalOf p st 15] ∧
        ∀ q, (t.dev.core q).queues = (s.dev.core q).queues)) ∧
  -- JOB_RESULT (R152)
  (∀ (s : State) (n : Nat) (p : Packet) (st : Nat),
      (s.dev.isActive n = true) →
      (s.dev.role n = 0) →
      (p.ptype = .jobResult) →
      (p.cls ≠ 7) →
      ((s.dev.checks (.port n) p).1 = .fail st) →
      Runs (.jobResult (.port n) p) s (fun t => t.dev.reg Reg.unroutable = (s.dev.bump Reg.unroutable).reg Reg.unroutable ∧ (∀ q, (t.dev.core q).queues = (s.dev.core q).queues) ∧
        ∀ m c, Tab.getD (t.dev.port m).txq c [] = Tab.getD (s.dev.port m).txq c [])) ∧
  -- REDUCE_RESULT (R152)
  (∀ (s : State) (n : Nat) (p : Packet) (st : Nat),
      (s.dev.isActive n = true) →
      (s.dev.role n = 0) →
      (p.ptype = .reduceResult) →
      (p.cls ≠ 7) →
      ((s.dev.checks (.port n) p).1 = .fail st) →
      Runs (.reduceResult (.port n) p) s (fun t => t.dev.reg Reg.unroutable = (s.dev.bump Reg.unroutable).reg Reg.unroutable ∧ (∀ q, (t.dev.core q).queues = (s.dev.core q).queues) ∧
        ∀ m c, Tab.getD (t.dev.port m).txq c [] = Tab.getD (s.dev.port m).txq c []))

/-- With one block proposing and its bridge idle, a core cycle of the crossbar moves one cell of the head packet into the staging of its port and
  class (R164, R166), and with nothing else proposed one cell of the only packet bound for a unit other than Yarrow (R164, R169); when the last cell of a unicast packet has been read its cells return to the free counter and the packet leaves its queue
  (R158). -/
def Obligations.CellsLeaveTheBuffer : Prop :=
  -- CROSSBAR_GRANT (R164, R166)
  (∀ (s : State) (b : Nat) (x : Proposal) (e : QEnt) (bs : Bytes),
      (s.dev.mcHeld = []) →
      ((List.range 18).flatMap s.dev.unitProposal = []) →
      ((s.dev.activePorts.map (· / 4)).eraseDups = [b]) →
      (s.dev.propose b = some x) →
      (x.quad < 4) →
      ((∀ q < 4, (s.dev.core q).bridge = [])) →
      (Tab.look (s.dev.port x.port).inProgress x.cls = none) →
      (s.dev.nextEntry x.quad x.port x.cls = some e) →
      ((s.dev.sealPkt x.port e.pkt (!e.pkt.tagOk)).1 = some bs) →
      Runs (.crossbarGrant) s (fun t => (Tab.getD (t.dev.port x.port).staged x.cls []).getLast? = some { bytes := bs.take 256, sop := true, eop := decide (e.n ≤ e.granted + 1), key := if e.pkt.enc then 1 + e.pkt.kslot * 256 + e.pkt.kgen else 0 })) ∧
  -- CROSSBAR_GRANT (R164, R169)
  (∀ (s : State) (u q cls : Nat) (e : QEnt),
      (s.dev.mcHeld = []) →
      (s.dev.activePorts = []) →
      (u < 16) →
      (u / 4 ≠ 2) →
      (q < 4) →
      (cls < 8) →
      (s.dev.health.deadDies = 0) →
      (s.dev.cores = [(q, { queues := [(unitKey u cls, [e])] })]) →
      (e.granted < e.n) →
      Runs (.crossbarGrant) s (fun t => (t.dev.core q).queue (unitKey u cls) = [{ e with granted := e.granted + 1 }])) ∧
  -- PACKET_EGRESS_DONE (R158)
  (∀ (s : State) (port cls q : Nat) (e : QEnt),
      (port < 384) →
      (s.dev.firstDone port cls = some (q, e)) →
      (q < 4) →
      (e.desc = none) →
      (e.pool = 0) →
      ((s.dev.core q).shared = []) →
      Runs (.packetEgressDone port cls false) s (fun t => (t.dev.core q).freeCnt = (s.dev.core q).freeCnt + e.n ∧
        (t.dev.core q).queue (voqKey port cls) = removeFirst (fun x => x.id = e.id) ((s.dev.core q).queue (voqKey port cls))))

/-- At the end of a window every tracked line whose stores reached the threshold is hot and its count starts again (R179); a due audit of an
  enabled Teasel starts, or waits for the end of the running one (R182), and one that completes is counted, ends (the waiting one starts),
  and leaves the next one no baseline (R184). -/
def Obligations.WatchersOfTheBuffer : Prop :=
  -- HOT_WINDOW_END (R178, R179)
  (∀ (s : State) (q : Nat) (h : HotLine),
      (q < 4) →
      (s.dev.flag Reg.hotEnable = true) →
      (h ∈ (s.dev.core q).hot) →
      (s.dev.reg Reg.hotThresh ≤ h.count) →
      Runs (.hotWindowEnd q) s (fun t => ∃ h' ∈ (t.dev.core q).hot, h'.line = h.line ∧ h'.hot = true ∧ h'.count = 0)) ∧
  -- TEASEL_AUDIT_START (R182)
  (∀ (s : State) (q : Nat),
      (q < 4) →
      (s.dev.flag Reg.teaselEnable = true) →
      ((s.dev.core q).auditing = false) →
      ((s.dev.core q).auditDue ≤ s.dev.tick) →
      Runs (.teaselAuditStart q) s (fun t => (t.dev.core q).auditing = true ∧ (t.dev.core q).auditDue = Dev.dueAfter (s.dev.core q).auditDue (s.dev.reg Reg.teaselPeriod) s.dev.tick ∧ (t.dev.core q).free = (s.dev.core q).free)) ∧
  -- TEASEL_AUDIT_START (R182)
  (∀ (s : State) (q : Nat),
      (q < 4) →
      (s.dev.flag Reg.teaselEnable = true) →
      ((s.dev.core q).auditing = true) →
      ((s.dev.core q).auditDue ≤ s.dev.tick) →
      Runs (.teaselAuditStart q) s (fun t => (t.dev.core q).auditing = true ∧ (t.dev.core q).auditWaits = true ∧ (t.dev.core q).seen = (s.dev.core q).seen)) ∧
  -- TEASEL_AUDIT_DONE (R184)
  (∀ (s : State) (q : Nat),
      ((s.dev.core q).auditing = true) →
      (q < 4) →
      Runs (.teaselAuditDone q) s (fun t => (t.dev.core q).auditing = (s.dev.core q).auditWaits ∧ (t.dev.core q).auditWaits = false ∧ (t.dev.core q).baseline = false ∧ t.dev.reg (Reg.audits q) = (s.dev.bump (Reg.audits q)).reg (Reg.audits q)))

/-- With nothing held in the order, a home function that takes a READ, WRITE or WRITE_POSTED of a MODE SINGLE range at rest in the clear hands
  the port of its tray that request with DST the tray's FEID and EPOCH the entry's (R126, R203); a tray RESP with the entry's current EPOCH is
  answered to the requester with its status (a code of 0x13 to 0xFF as ERR_TIMEOUT, log 148) and, where that is OK, its data (R18, R127); an expired retry timer sends a request the home
  originated once more, a WRITE under the newest LIVE key of its composition (R220, R475, R548), and one of a request already completed with
  ERR_HOME_LOST is not sent again (R488). -/
def Obligations.HomesForwardAndAnswer : Prop :=
  -- HOME_READ (R126, R200)
  (∀ (s : State) (q a k m : Nat) (e : QEnt),
      (q < 4) →
      (2 ≤ s.dev.level q) →
      (s.dev.homeHead q (fun p => p.ptype = .read) = some (a, k, e, false)) →
      ((s.dev.home q).ops = []) →
      ((s.dev.home q).merges = []) →
      (HMap.stripe e.hmap = false) →
      (Region.restEnc e.region = false) →
      (Region.restMac e.region = false) →
      ((∀ b ∈ (s.dev.home q).subs, b.op ≠ 0 ∧ (b.fwd = true ∨ b.tag ≠ e.pkt.tag ∨ e.pkt.src ≠ 0))) →
      (s.dev.portOfFeid (HMap.tray e.hmap) = some m) →
      Runs (.homeRead q) s (fun t => Tab.getD (t.dev.port m).txq e.pkt.cls [] = Tab.getD (s.dev.port m).txq e.pkt.cls [] ++
          [{ e.pkt with dst := HMap.tray e.hmap, epoch := HMap.epoch e.hmap }])) ∧
  -- HOME_WRITE (R126, R203)
  (∀ (s : State) (q a k m : Nat) (e : QEnt),
      (q < 4) →
      (2 ≤ s.dev.level q) →
      (s.dev.homeHead q (fun p => p.ptype = .write || p.ptype = .writePosted) = some (a, k, e, false)) →
      ((s.dev.home q).ops = []) →
      ((s.dev.home q).merges = []) →
      (HMap.stripe e.hmap = false) →
      (Region.restEnc e.region = false) →
      (Region.restMac e.region = false) →
      ((∀ b ∈ (s.dev.home q).subs, b.op ≠ 0 ∧ (b.fwd = true ∨ b.tag ≠ e.pkt.tag ∨ e.pkt.src ≠ 0))) →
      (s.dev.portOfFeid (HMap.tray e.hmap) = some m) →
      Runs (.homeWrite q) s (fun t => Tab.getD (t.dev.port m).txq e.pkt.cls [] = Tab.getD (s.dev.port m).txq e.pkt.cls [] ++
          [{ e.pkt with ptype := .write, dst := HMap.tray e.hmap, epoch := HMap.epoch e.hmap }])) ∧
  -- TRAY_RESP (R126, R127)
  (∀ (s : State) (n m q : Nat) (p : Packet) (b : TraySub) (op : HomeOp),
      (s.dev.isActive n = true) →
      (s.dev.role n = 0) →
      (p.ptype = .resp) →
      (fieldsOk p = true) →
      (p.cls ≠ 7) →
      (p.enc = false) →
      (p.tagOk = true) →
      (s.dev.rightsOk (.port n) p = true) →
      (s.dev.findSub n p = some (q, b)) →
      (s.dev.opOf q b.op = some op) →
      ((s.dev.home q).ops = [op]) →
      (op.kind = .read ∨ op.kind = .write) →
      (op.atoms = []) →
      (op.own = false) →
      (op.fill = none) →
      (op.grp = none) →
      (op.tierH = false) →
      (Region.restEnc op.region = false) →
      (Region.restMac op.region = false) →
      (p.epoch = HMap.epoch (s.dev.reg (Reg.hmapActive b.hmapNo))) →
      (p.status ≠ 3) →
      (s.dev.portOfFeid op.pkt.src = some m) →
      Runs (.trayResp n p) s (fun t => Tab.getD (t.dev.port m).txq 1 [] = Tab.getD (s.dev.port m).txq 1 [] ++
          [s.dev.respTo op.pkt (Dev.knownStatus p.status) (if op.kind = .read ∧ Dev.knownStatus p.status = 0 then p.payload else [])] ∧ (t.dev.home q).ops = [])) ∧
  -- REQUEST_RETRY_TIMEOUT (R220, R475)
  (∀ (s : State) (q feid tag m : Nat) (b : TraySub),
      (s.dev.ownSub q feid tag = some b) →
      (b.tries < s.dev.reg Reg.reqRetryMax) →
      (b.stopped = false) →
      (b.data = []) →
      (s.dev.portOfFeid b.feid = some m) →
      Runs (.requestRetryTimeout q feid tag) s (fun t => Tab.getD (t.dev.port m).txq b.cls [] = Tab.getD (s.dev.port m).txq b.cls [] ++ [Dev.ownPacket b] ∧
        ∃ x ∈ (t.dev.home q).subs, x.tag = b.tag ∧ x.tries = b.tries + 1)) ∧
  -- REQUEST_RETRY_TIMEOUT (R220, R475, R548)
  (∀ (s : State) (q feid tag m g : Nat) (b : TraySub),
      (s.dev.ownSub q feid tag = some b) →
      (b.tries < s.dev.reg Reg.reqRetryMax) →
      (b.stopped = false) →
      (b.write = true) →
      (b.data ≠ []) →
      (s.dev.portOfFeid b.feid = some m) →
      (s.dev.linkSlotOf (s.dev.reg (Reg.linkSlot b.comp)) b.comp = true) →
      (s.dev.newestLive (s.dev.reg (Reg.linkSlot b.comp)) = some g) →
      Runs (.requestRetryTimeout q feid tag) s (fun t => Tab.getD (t.dev.port m).txq b.cls [] = Tab.getD (s.dev.port m).txq b.cls [] ++
          [{ Dev.ownPacket b with enc := true, kslot := s.dev.reg (Reg.linkSlot b.comp), kgen := g }])) ∧
  -- REQUEST_RETRY_TIMEOUT (R488)
  (∀ (s : State) (q feid tag : Nat) (b : TraySub),
      (s.dev.ownSub q feid tag = some b) →
      (b.tries < s.dev.reg Reg.reqRetryMax) →
      (b.stopped = true) →
      Runs (.requestRetryTimeout q feid tag) s (fun t => (∀ m c, Tab.getD (t.dev.port m).txq c [] = Tab.getD (s.dev.port m).txq c []) ∧ t.dev.regs = s.dev.regs ∧
        ∃ x ∈ (t.dev.home q).subs, x.tag = b.tag ∧ x.tries = b.tries + 1))

/-- Out of the stale period an ATOMIC with no dedup record enters the window and joins the open record of its line (R211, R215); within it, it is
  answered ERR_ATOMIC_STALE (R219). A record whose window has expired closes and, for tier H, goes to the L2 (R212); when its write is done its
  atomics are answered with their prior values (R214); a dedup record turns STALE from the 17th tick after the application and is freed from
  the 65th (R215), and the stale period ends at its tick (R219). -/
def Obligations.AtomicsCombineExactlyOnce : Prop :=
  -- HOME_ATOMIC (R211, R215)
  (∀ (s : State) (q a k : Nat) (e : QEnt) (tierH : Bool),
      (q < 4) →
      (2 ≤ s.dev.level q) →
      (s.dev.homeHead q (fun p => p.ptype = .atomic && s.dev.atomicFits q p) = some (a, k, e, tierH)) →
      ((s.dev.home q).staleArmed = false) →
      ((s.dev.home q).staleUntil = none) →
      (Tab.look (s.dev.home q).dedup (Dev.tripleOf e.pkt) = none) →
      ((s.dev.home q).dedup.length < 1048576) →
      ((s.dev.home q).ops = []) →
      ((s.dev.home q).merges = []) →
      (HMap.stripe e.hmap = false) →
      (Region.restEnc e.region = false) →
      (Region.restMac e.region = false) →
      (s.dev.reg Reg.combWindowNs ≠ 0) →
      (2 ≤ s.dev.reg Reg.combMaxOps) →
      Runs (.homeAtomic q) s (fun t => (Tab.look (t.dev.home q).dedup (Dev.tripleOf e.pkt)).map (fun r => (r.state, r.payload)) = some (0, e.pkt.payload) ∧
        (Tab.look (t.dev.home q).merges (e.pkt.da / 128)).map (·.atoms) = some [e.pkt])) ∧
  -- HOME_ATOMIC (R219)
  (∀ (s : State) (q a k u m : Nat) (e : QEnt) (tierH : Bool),
      (q < 4) →
      (2 ≤ s.dev.level q) →
      (s.dev.homeHead q (fun p => p.ptype = .atomic && s.dev.atomicFits q p) = some (a, k, e, tierH)) →
      ((s.dev.home q).staleArmed = false) →
      ((s.dev.home q).staleUntil = some u) →
      (s.dev.tick < u) →
      (s.dev.portOfFeid e.pkt.src = some m) →
      Runs (.homeAtomic q) s (fun t => Tab.getD (t.dev.port m).txq 1 [] = Tab.getD (s.dev.port m).txq 1 [] ++ [s.dev.respTo e.pkt 0x08 []] ∧
        (t.dev.home q).dedup = (s.dev.home q).dedup)) ∧
  -- MERGE_WINDOW_CLOSE (R212)
  (∀ (s : State) (q line : Nat) (r : MergeRec) (a : Packet) (rest : List Packet),
      (Tab.look (s.dev.home q).merges line = some r) →
      (r.atoms = a :: rest) →
      (r.tierH = true) →
      ((s.dev.home q).ops = []) →
      Runs (.mergeWindowClose q line) s (fun t => Tab.look (t.dev.home q).merges line = none ∧
        (Tab.getD t.dev.l2 q []).map (fun x => (x.kind, x.off, x.op)) = (Tab.getD s.dev.l2 q []).map (fun x => (x.kind, x.off, x.op)) ++
          [(2, s.dev.windowOff a.da, (s.dev.home q).nextOp)])) ∧
  -- MERGE_WRITE_DONE (R214, R216)
  (∀ (s : State) (q line m : Nat) (op : HomeOp) (a : Packet) (x : Bytes),
      ((s.dev.home q).ops = [op]) →
      (op.kind = .merge) →
      (op.phase = 3) →
      (op.pkt.da / 128 = line) →
      (op.atoms = [a]) →
      (op.priors = [x]) →
      (op.status = 0) →
      ((op.grp = none ∨ (op.ecc = [] ∧ s.dev.subsOf q op.id = []))) →
      (Tab.look (s.dev.home q).dedup (Dev.tripleOf a) = none) →
      (s.dev.portOfFeid a.src = some m) →
      Runs (.mergeWriteDone q line) s (fun t => Tab.getD (t.dev.port m).txq 1 [] = Tab.getD (s.dev.port m).txq 1 [] ++ [s.dev.respTo a 0 x] ∧ (t.dev.home q).ops = [])) ∧
  -- DEDUP_STALE (R215)
  (∀ (s : State) (q src reqEpoch tag : Nat) (r : Dedup),
      (Tab.look (s.dev.home q).dedup (src * 2 ^ 24 + reqEpoch * 2 ^ 16 + tag) = some r) →
      (r.state = 1) →
      (r.tick + 17 ≤ s.dev.tick) →
      Runs (.dedupStale q src reqEpoch tag) s (fun t => Tab.look (t.dev.home q).dedup (src * 2 ^ 24 + reqEpoch * 2 ^ 16 + tag) = some { r with state := 2, prior := [] })) ∧
  -- DEDUP_FREE (R215)
  (∀ (s : State) (q src reqEpoch tag : Nat) (r : Dedup),
      (Tab.look (s.dev.home q).dedup (src * 2 ^ 24 + reqEpoch * 2 ^ 16 + tag) = some r) →
      (r.state = 2) →
      (r.tick + 65 ≤ s.dev.tick) →
      Runs (.dedupFree q src reqEpoch tag) s (fun t => Tab.look (t.dev.home q).dedup (src * 2 ^ 24 + reqEpoch * 2 ^ 16 + tag) = none)) ∧
  -- STALE_WINDOW_END (R219)
  (∀ (s : State) (q u : Nat),
      ((s.dev.home q).staleUntil = some u) →
      (u ≤ s.dev.tick) →
      Runs (.staleWindowEnd q) s (fun t => (t.dev.home q).staleUntil = none ∧ (t.dev.home q).dedup = (s.dev.home q).dedup))

/-- On a line of a working stack that no agent holds, that waits for nothing, is not LOST and holds no error, and for which the agent has a place, GETS is granted in E with the bytes of memory,
  GETM and WFULL in M, GETM with the access made to the bytes of the L2 (R297, R298), and the directory names the agent as owner (R296); an
  atomic of the owner of an M line executes on its own copy (R298); PUTE of an E line and PUTM of an M line leave no copy and no entry,
  and PUTM writes the owner's bytes to the line (R296), unless its stack has FAILED, when they are gone (R239), and a quadrant below SL-M
  takes no write-back, which leaves the line with its owner (R32, log 153); a DIRTY_NOTICE makes the owner's E line M (R295). No other byte of tier H changes. -/
def Obligations.AgentsTakeAndGiveLines : Prop :=
  -- GETS (R296)
  (∀ (s : State) (a l ctx : Nat),
      (a < 124) →
      (l < windowSize / 128) →
      (s.dev.isDead a = false) →
      (s.dev.copyOf a l = none) →
      (s.dev.lineBusy l = false) →
      (s.dev.l2Refuses l = none) →
      (s.dev.stackSleeps l = false) →
      (s.dev.roomFor a l = true) →
      (l ∉ s.dev.coh.lost) →
      (s.dev.coh.dir = []) →
      (l ∉ s.dev.tiers.l2err) →
      (s.dev.badSectors (l * 128) 128 = []) →
      Runs (.gets a l { ctx := ctx }) s (fun t => t.mem = s.mem ∧ Tab.look t.dev.coh.dir l = some { st := 2, agents := 1 <<< a } ∧
        t.dev.out = s.dev.out ++ [.grant a l 2 (s.mem.read (l * 128) 128)])) ∧
  -- GETM (R296, R297, R298)
  (∀ (s : State) (a l : Nat) (w : AgentAccess) (data : Bytes),
      (a < 124) →
      (l < windowSize / 128) →
      (w.found = {}) →
      (s.dev.isDead a = false) →
      (s.dev.copyOf a l = none) →
      (s.dev.lineBusy l = false) →
      (s.dev.l2Refuses l = none) →
      (s.dev.stackSleeps l = false) →
      (s.dev.roomFor a l = true) →
      (l ∉ s.dev.coh.lost) →
      (s.dev.coh.dir = []) →
      (l ∉ s.dev.tiers.l2err) →
      (s.dev.badSectors (l * 128) 128 = []) →
      (Tab.getD s.dev.coh.invq a [] = []) →
      (Tab.getD s.dev.coh.held a [] = []) →
      Runs (.getm a l w data) s (fun t => t.mem = s.mem ∧ Tab.look t.dev.coh.dir l = some { st := 3, agents := 1 <<< a } ∧
        t.dev.out = s.dev.out ++ [.grant a l 3 (L1Op.on { off := w.off, data := data, atomic := w.atomic } (s.mem.read (l * 128) 128))])) ∧
  -- GETM (R296, R298)
  (∀ (s : State) (a l : Nat) (w : AgentAccess) (data : Bytes) (c : Copy),
      (a < 124) →
      (l < windowSize / 128) →
      (w.found = {}) →
      (s.dev.isDead a = false) →
      (s.dev.copyOf a l = some c) →
      (c.ctx = w.ctx) →
      (Tab.look s.dev.coh.dir l = some { st := 3, agents := 1 <<< a }) →
      (s.dev.lineBusy l = false) →
      (s.dev.l2Refuses l = none) →
      (s.dev.stackSleeps l = false) →
      (l ∉ s.dev.coh.lost) →
      (Tab.getD s.dev.coh.invq a [] = []) →
      (Tab.getD s.dev.coh.held a [] = []) →
      Runs (.getm a l w data) s (fun t => t.mem = s.mem ∧ t.dev.copyOf a l = some { c with st := 3, data := padTo 128 (L1Op.on { off := w.off, data := data, atomic := w.atomic } c.data) })) ∧
  -- WFULL (R296)
  (∀ (s : State) (a l ctx : Nat) (data : Bytes),
      (a < 124) →
      (l < windowSize / 128) →
      (s.dev.isDead a = false) →
      (s.dev.copyOf a l = none) →
      (s.dev.lineBusy l = false) →
      (s.dev.l2Refuses l = none) →
      (s.dev.stackSleeps l = false) →
      (s.dev.roomFor a l = true) →
      (l ∉ s.dev.coh.lost) →
      (s.dev.coh.dir = []) →
      (Tab.getD s.dev.coh.invq a [] = []) →
      Runs (.wfull a l ctx data) s (fun t => t.mem = s.mem ∧ Tab.look t.dev.coh.dir l = some { st := 3, agents := 1 <<< a } ∧
        (Tab.look t.dev.coh.copies (copyKey a l)).map (·.data) = some (padTo 128 data))) ∧
  -- PUTE (R296)
  (∀ (s : State) (a l : Nat) (c : Copy),
      (s.dev.copyOf a l = some c) →
      (c.st = 2) →
      (s.dev.isDead a = false) →
      (s.dev.l2Refuses l ≠ some St.unmapped) →
      (s.dev.coh.snoops = []) →
      (s.dev.coh.blocked = []) →
      Runs (.pute a l) s (fun t => t.mem = s.mem ∧ Tab.look t.dev.coh.dir l = none ∧ t.dev.copyOf a l = none)) ∧
  -- PUTM (R296)
  (∀ (s : State) (a l : Nat) (c : Copy),
      (s.dev.copyOf a l = some c) →
      (c.st = 3) →
      (s.dev.isDead a = false) →
      (s.dev.l2Refuses l = none) →
      (s.dev.coh.snoops = []) →
      (s.dev.coh.blocked = []) →
      Runs (.putm a l) s (fun t => t.mem = s.mem.write (l * 128) c.data ∧ Tab.look t.dev.coh.dir l = none ∧ t.dev.copyOf a l = none)) ∧
  -- PUTM (R239)
  (∀ (s : State) (a l : Nat) (c : Copy),
      (s.dev.copyOf a l = some c) →
      (c.st = 3) →
      (s.dev.isDead a = false) →
      (s.dev.l2Refuses l = some St.ecc) →
      (s.dev.coh.snoops = []) →
      (s.dev.coh.blocked = []) →
      Runs (.putm a l) s (fun t => t.mem = s.mem ∧ Tab.look t.dev.coh.dir l = none ∧ t.dev.copyOf a l = none)) ∧
  -- PUTM (R32)
  (∀ (s : State) (a l : Nat) (c : Copy),
      (s.dev.copyOf a l = some c) →
      (c.st = 3) →
      (s.dev.isDead a = false) →
      (s.dev.l2Refuses l = some St.unmapped) →
      Runs (.putm a l) s (fun t => t.mem = s.mem ∧ t.dev.coh = s.dev.coh ∧ t.dev.out = s.dev.out ++ [.refuse a l St.unmapped])) ∧
  -- DIRTY_NOTICE (R295)
  (∀ (s : State) (a l : Nat) (c : Copy) (data : Bytes),
      (s.dev.copyOf a l = some c) →
      (c.st = 2) →
      (s.dev.isDead a = false) →
      Runs (.dirtyNotice a l data) s (fun t => t.mem = s.mem ∧ Tab.look t.dev.coh.dir l = some { st := 3, agents := 1 <<< a } ∧
        t.dev.copyOf a l = some { c with st := 3, data := padTo 128 data }))

/-- An owner of an E line that answers the snoop of another agent's GETS keeps it in S, and with nothing else waiting both share the line (R302);
  an invalidation joins its agent's queue, which acknowledges it, while fewer than 256 wait (R299), and applying the oldest one drops the
  agent's S copy of its line (R299); a heartbeat of a living agent that a slice watches is noted with the tick (R303). -/
def Obligations.SnoopsAndInvalidations : Prop :=
  -- SNOOP_RESPONSE (R302)
  (∀ (s : State) (a b l ctx : Nat) (c : Copy),
      (a < 124) →
      (b < 124) →
      (a ≠ b) →
      (s.dev.isDead a = false) →
      (s.dev.coh.noData = []) →
      (s.dev.coh.posted = []) →
      (s.dev.coh.blocked = []) →
      (s.dev.coh.lost = []) →
      (l ∉ s.dev.tiers.l2err) →
      (s.dev.badSectors (l * 128) 128 = []) →
      (Tab.getD s.dev.coh.invq a [] = []) →
      (s.dev.coh.snoops = [{ agent := a, line := l, req := .gets b l ctx }]) →
      (s.dev.copyOf a l = some c) →
      (c.st = 2) →
      (s.dev.l2Refuses l = none) →
      (s.dev.stackSleeps l = false) →
      Runs (.snoopResponse a l) s (fun t => t.mem = s.mem ∧ Tab.look t.dev.coh.dir l = some { st := 1, agents := (1 <<< a) ||| (1 <<< b) } ∧
        (t.dev.copyOf a l).map (·.st) = some 1 ∧ (t.dev.copyOf b l).map (·.st) = some 1 ∧ t.dev.coh.snoops = [])) ∧
  -- INVALIDATION_RECEIVE (R299)
  (∀ (s : State) (a l : Nat),
      (s.dev.isDead a = false) →
      (s.dev.coh.posted = [(a, l)]) →
      (Tab.getD s.dev.coh.held a [] = []) →
      ((Tab.getD s.dev.coh.invq a []).length < 256) →
      (s.dev.coh.blocked = []) →
      Runs (.invalidationReceive a l) s (fun t => Tab.getD t.dev.coh.invq a [] = Tab.getD s.dev.coh.invq a [] ++ [l] ∧ t.dev.coh.posted = [] ∧ t.mem = s.mem)) ∧
  -- INVALIDATION_APPLY (R299)
  (∀ (s : State) (a l : Nat) (rest : List Nat) (c : Copy),
      (Tab.getD s.dev.coh.invq a [] = l :: rest) →
      (rest.length < 256) →
      (Tab.getD s.dev.coh.held a [] = []) →
      (s.dev.copyOf a l = some c) →
      (c.st = 1) →
      (s.dev.coh.blocked = []) →
      Runs (.invalidationApply a) s (fun t => t.dev.copyOf a l = none ∧ Tab.getD t.dev.coh.invq a [] = rest ∧ t.mem = s.mem)) ∧
  -- HEARTBEAT (R303)
  (∀ (s : State) (a slice : Nat),
      (slice < 4) →
      (s.dev.isDead a = false) →
      (s.dev.watched a slice = true) →
      Runs (.heartbeat a slice) s (fun t => Tab.look t.dev.coh.beats (a * 4 + slice) = some s.dev.tick))

/-- On a line that no agent holds and whose stack works, a walker's read is answered with the bytes of memory, an uncorrectable sector fails it
  with ERR_ECC (R236), and a fill's write changes exactly its bytes (R237, R296); the next line of a merge record is applied once (R210). A
  BAR2 access within R253 that passes its checks joins the requests of the owning quadrant's L2 (R252); one that R253 does not accept draws
  Unsupported Request. -/
def Obligations.TierHAccesses : Prop :=
  -- HREAD (R296)
  (∀ (s : State) (off len : Nat),
      (0 < len) →
      (off % 128 + len ≤ 128) →
      (off + len ≤ windowSize) →
      (s.dev.lineBusy (off / 128) = false) →
      (s.dev.l2Refuses (off / 128) = none) →
      (s.dev.stackSleeps (off / 128) = false) →
      (off / 128 ∉ s.dev.tiers.l2err) →
      (off / 128 ∉ s.dev.coh.lost) →
      (Tab.look s.dev.coh.dir (off / 128) = none) →
      (s.dev.badSectors off len = []) →
      Runs (.hread .walker off len .clean) s (fun t => t.mem = s.mem ∧ t.dev.out = s.dev.out ++ [.l2data off (s.mem.read off len)])) ∧
  -- HREAD (R236)
  (∀ (s : State) (off len : Nat),
      (0 < len) →
      (off % 64 + len ≤ 64) →
      (off + len ≤ windowSize) →
      (s.dev.lineBusy (off / 128) = false) →
      (s.dev.l2Refuses (off / 128) = none) →
      (s.dev.stackSleeps (off / 128) = false) →
      (off / 128 ∉ s.dev.tiers.l2err) →
      (off / 128 ∉ s.dev.coh.lost) →
      (Tab.look s.dev.coh.dir (off / 128) = none) →
      (s.dev.tiers.bad = []) →
      (s.dev.inL2 (off / 128) = false) →
      Runs (.hread .walker off len { bad := [off / 64] }) s (fun t => t.mem = s.mem ∧ t.dev.tiers.bad = [off / 64] ∧ t.dev.reg (Reg.hbmUeLast (Dev.stackAt off)) = off / 64 * 64)) ∧
  -- HWRITE (R237, R296)
  (∀ (s : State) (off : Nat) (data : Bytes),
      (data ≠ []) →
      (off % 128 + data.length ≤ 128) →
      (off + data.length ≤ windowSize) →
      (s.dev.lineBusy (off / 128) = false) →
      (s.dev.l2Refuses (off / 128) = none) →
      (s.dev.stackSleeps (off / 128) = false) →
      (off / 128 ∉ s.dev.tiers.l2err) →
      (off / 128 ∉ s.dev.coh.lost) →
      (Tab.look s.dev.coh.dir (off / 128) = none) →
      (s.dev.badPartials off data.length = []) →
      Runs (.hwrite .fill off data) s (fun t => t.mem.read off data.length = data ∧ ∀ k, k < off ∨ off + data.length ≤ k → t.mem.byte k = s.mem.byte k)) ∧
  -- HATOM (R210, R296)
  (∀ (s : State) (off : Nat) (x : L2Req) (op : HomeOp) (a : Packet),
      (Tab.getD s.dev.l2 (sliceOf (off / 128)) [] = [x]) →
      (x.kind = 2) →
      (x.off = off) →
      (x.asked = false) →
      (x.host = none) →
      (s.dev.opOf (sliceOf (off / 128)) x.op = some op) →
      (op.kind = .merge) →
      (op.atoms = [a]) →
      ((s.dev.home (sliceOf (off / 128))).ops = [op]) →
      (s.dev.lineBusy (off / 128) = false) →
      (s.dev.l2Refuses (off / 128) = none) →
      (s.dev.stackSleeps (off / 128) = false) →
      (off / 128 ∉ s.dev.tiers.l2err) →
      (off / 128 ∉ s.dev.coh.lost) →
      (Tab.look s.dev.coh.dir (off / 128) = none) →
      (s.dev.badSectors (off / 128 * 128) 128 = []) →
      Runs (.hatom .home off 0 0 false []) s (fun t => t.mem = s.mem.write (off / 128 * 128) (applyAtomic (s.mem.read (off / 128 * 128) 128) (a.da % 128) a).1)) ∧
  -- BAR2_READ (R252, R253)
  (∀ (s : State) (h : HostId) (addr len off : Nat) (r : Nat),
      ((s.dev.host h).up = true) →
      (Dev.bar2Bad addr len = false) →
      (off = s.dev.bar2Base h + addr) →
      ((s.dev.bar2Check h off 0).1 = .ok r) →
      Runs (.bar2Read h addr len) s (fun t => Tab.getD t.dev.l2 (Dev.quadAt off) [] = Tab.getD s.dev.l2 (Dev.quadAt off) [] ++ [{ kind := 0, off := off, len := len, host := some h, seq := s.dev.tiers.bar2Seq + 1 }])) ∧
  -- BAR2_WRITE (R252, R253)
  (∀ (s : State) (h : HostId) (addr off : Nat) (data : Bytes) (r : Nat),
      ((s.dev.host h).up = true) →
      (Dev.bar2Bad addr data.length = false) →
      (off = s.dev.bar2Base h + addr) →
      ((s.dev.bar2Check h off 1).1 = .ok r) →
      Runs (.bar2Write h addr data) s (fun t => Tab.getD t.dev.l2 (Dev.quadAt off) [] = Tab.getD s.dev.l2 (Dev.quadAt off) [] ++
          [{ kind := 1, off := off, len := data.length, data := data, host := some h, seq := s.dev.tiers.bar2Seq + 1 }])) ∧
  -- BAR2_UNSUPPORTED (R253)
  (∀ (s : State) (h : HostId) (addr len : Nat) (atomicOp : Bool),
      ((s.dev.host h).up = true) →
      ((atomicOp || Dev.bar2Bad addr len) = true) →
      Runs (.bar2Unsupported h addr len atomicOp) s (fun t => t.dev.out = s.dev.out ++ [.completion h 1 []]))

/-- The sector at a stack's scrub position that reads clean leaves every byte of tier H and every line alone and moves the position on, and an
  uncorrectable one becomes bad (R236, R238). A fill whose READ was answered OK writes its 4 KiB block of the slot and no other byte and marks it filled (R243); one answered ERR_HOME_LOST is asked once
  more, any other status makes the slot FAILED with that status (R244). A released slot lets the oldest waiting unit begin its fill (R247), a
  slot still pinned changes nothing, and a deadline that passes with units not READY reports LATE once (R249). -/
def Obligations.ScrubAndStaging : Prop :=
  -- SCRUB_SECTOR (R238)
  (∀ (s : State) (st : Nat) (cancelled : Bool),
      (st ≤ 11) →
      (Tab.getD s.dev.tiers.scrubPos st 0 < sectorsPerStack) →
      (s.dev.reg (Reg.hbmState st) = 2) →
      (s.dev.l2Refuses ((st * stackBytes + Tab.getD s.dev.tiers.scrubPos st 0 * 64) / 128) = none) →
      (s.dev.reg (Reg.hbmScrubTicks st) ≠ 0) →
      ((st * stackBytes + Tab.getD s.dev.tiers.scrubPos st 0 * 64) / 128 ∉ s.dev.coh.lost) →
      (s.dev.lineBusy ((st * stackBytes + Tab.getD s.dev.tiers.scrubPos st 0 * 64) / 128) = false) →
      (Tab.look s.dev.coh.dir ((st * stackBytes + Tab.getD s.dev.tiers.scrubPos st 0 * 64) / 128) = none) →
      ((st * stackBytes + Tab.getD s.dev.tiers.scrubPos st 0 * 64) / 128 ∉ s.dev.tiers.l2err) →
      (s.dev.badSectors (st * stackBytes + Tab.getD s.dev.tiers.scrubPos st 0 * 64) 64 = []) →
      Runs (.scrubSector st [] [] cancelled) s (fun t => t.mem = s.mem ∧ t.dev.coh = s.dev.coh ∧
        Tab.getD t.dev.tiers.scrubPos st 0 =
          (if Tab.getD s.dev.tiers.scrubPos st 0 + 1 = sectorsPerStack then 0 else Tab.getD s.dev.tiers.scrubPos st 0 + 1))) ∧
  -- SCRUB_SECTOR (R236, R238)
  (∀ (s : State) (st : Nat) (cancelled : Bool),
      (st ≤ 11) →
      (Tab.getD s.dev.tiers.scrubPos st 0 < sectorsPerStack) →
      (s.dev.reg (Reg.hbmState st) = 2) →
      (s.dev.l2Refuses ((st * stackBytes + Tab.getD s.dev.tiers.scrubPos st 0 * 64) / 128) = none) →
      (s.dev.reg (Reg.hbmScrubTicks st) ≠ 0) →
      ((st * stackBytes + Tab.getD s.dev.tiers.scrubPos st 0 * 64) / 128 ∉ s.dev.coh.lost) →
      (s.dev.lineBusy ((st * stackBytes + Tab.getD s.dev.tiers.scrubPos st 0 * 64) / 128) = false) →
      (Tab.look s.dev.coh.dir ((st * stackBytes + Tab.getD s.dev.tiers.scrubPos st 0 * 64) / 128) = none) →
      ((st * stackBytes + Tab.getD s.dev.tiers.scrubPos st 0 * 64) / 128 ∉ s.dev.tiers.l2err) →
      (s.dev.tiers.bad = []) →
      (s.dev.inL2 ((st * stackBytes + Tab.getD s.dev.tiers.scrubPos st 0 * 64) / 128) = false) →
      Runs (.scrubSector st [] [(st * stackBytes + Tab.getD s.dev.tiers.scrubPos st 0 * 64) / 64] cancelled) s (fun t => t.mem = s.mem ∧ t.dev.tiers.bad = [(st * stackBytes + Tab.getD s.dev.tiers.scrubPos st 0 * 64) / 64])) ∧
  -- STAGING_FILL_RESP (R243)
  (∀ (s : State) (slot block id : Nat) (data : Bytes) (x : StageSlot),
      (Tab.look s.dev.tiers.slots slot = some x) →
      (x.state = 1) →
      (x.gone = false) →
      (block < 512) →
      (x.read = some (block, id)) →
      (x.answer = some (0, data)) →
      (s.dev.tiers.poolBase % 2 ^ 21 = 0) →
      (∀ i < 32, s.dev.l2Refuses ((s.dev.slotAddr slot + 4096 * block) / 128 + i) = none ∧ s.dev.stackSleeps ((s.dev.slotAddr slot + 4096 * block) / 128 + i) = false) →
      (s.dev.coh.dir = []) →
      (s.dev.coh.lost = []) →
      (s.dev.coh.snoops = []) →
      (s.dev.coh.posted = []) →
      (s.dev.coh.blocked = []) →
      Runs (.stagingFillResp slot block 0 data) s (fun t => t.mem = s.mem.write (s.dev.slotAddr slot + 4096 * block) (padTo 4096 data) ∧
        (Tab.look t.dev.tiers.slots slot).map (·.filled) = some (setBit x.filled block true))) ∧
  -- STAGING_FILL_RESP (R244)
  (∀ (s : State) (slot block id : Nat) (data : Bytes) (x : StageSlot),
      (Tab.look s.dev.tiers.slots slot = some x) →
      (x.state = 1) →
      (x.gone = false) →
      (block < 512) →
      (x.read = some (block, id)) →
      (x.answer = some (St.homeLost, data)) →
      (bit x.retried block = false) →
      Runs (.stagingFillResp slot block St.homeLost data) s (fun t => t.mem = s.mem ∧ (Tab.look t.dev.tiers.slots slot).map (fun y => (y.retried, y.filled)) = some (setBit x.retried block true, x.filled))) ∧
  -- STAGING_FILL_RESP (R244)
  (∀ (s : State) (slot block id status : Nat) (data : Bytes) (x : StageSlot),
      (Tab.look s.dev.tiers.slots slot = some x) →
      (x.state = 1) →
      (x.gone = false) →
      (block < 512) →
      (x.read = some (block, id)) →
      (x.answer = some (status, data)) →
      (status ≠ 0) →
      (status = St.homeLost → bit x.retried block = true) →
      Runs (.stagingFillResp slot block status data) s (fun t => t.mem = s.mem ∧ Tab.look t.dev.tiers.slots slot = some { x with read := none, answer := none, state := 3, status := status })) ∧
  -- STAGING_SLOT_RELEASE (R247)
  (∀ (s : State) (slot k c u dl : Nat),
      ((Tab.look s.dev.tiers.slots slot).any (fun x => !x.pins.isEmpty) = false) →
      (s.dev.tiers.waits = [(c, u, dl)]) →
      (s.dev.freeSlot = some k) →
      (s.dev.slotOf c u = none) →
      (s.dev.unitHomeHere u = true) →
      Runs (.stagingSlotRelease slot) s (fun t => t.dev.tiers.waits = [] ∧ (Tab.look t.dev.tiers.slots k).map (fun x => (x.comp, x.unit, x.state)) = some (c, u, 1))) ∧
  -- STAGING_SLOT_RELEASE (R248)
  (∀ (s : State) (slot : Nat) (x : StageSlot),
      (Tab.look s.dev.tiers.slots slot = some x) →
      (x.pins ≠ []) →
      Runs (.stagingSlotRelease slot) s (fun t => t = s)) ∧
  -- STAGING_DEADLINE (R249)
  (∀ (s : State) (comp reqId : Nat) (r : StageReq),
      (s.dev.tiers.reqs = [r]) →
      (r.comp = comp) →
      (r.reqId = reqId) →
      (r.late = false) →
      (s.dev.readyUnits r ≠ r.count) →
      (r.deadline ≤ s.dev.tick) →
      Runs (.stagingDeadline comp reqId) s (fun t => t.dev.tiers.reqs = [{ r with late := true }] ∧ t.dev.out = s.dev.out ++ [Dev.stageReport 1 r (s.dev.readyUnits r)]))

/-- A stack declared failed reads FAILED and leaves the working stacks, whatever its state among those in which it can fail, and, with no
  access waiting at the L2, no byte of tier H changes (R239); a stack woken from SLEEP reads WORKING (R240). A quadrant die without heartbeat takes its quadrant to level NONE, and
  the control die every quadrant (R30, R505). An agent overdue at some slice is dead, its M line is LOST and out of the directory (R303 to
  R305); its reset begins self-test, whose pass ends its death and whose third failure keeps it out (R506). -/
def Obligations.StacksDiesAndAgentsFail : Prop :=
  -- STACK_FAILED (R239)
  (∀ (s : State) (st : Nat) (thermal : Bool),
      (st ≤ 11) →
      (s.dev.reg (Reg.hbmState st) ≠ 0) →
      (s.dev.reg (Reg.hbmState st) ≠ 4) →
      (thermal = true ∨ s.dev.reg (Reg.hbmState st) ≠ 1) →
      Runs (.stackFailed st thermal) s (fun t => t.dev.reg (Reg.hbmState st) = 4 ∧ bit (t.dev.reg Reg.svcStacks) st = false ∧ (s.dev.coh.blocked = [] → t.mem = s.mem))) ∧
  -- STACK_WAKE (R240)
  (∀ (s : State) (st : Nat),
      (s.dev.reg (Reg.hbmState st) = 3) →
      (s.dev.coh.blocked = []) →
      Runs (.stackWake st) s (fun t => t.mem = s.mem ∧ t.dev.reg (Reg.hbmState st) = 2 ∧ Tab.look t.dev.power.rungs (3 * 1024 + st) = none)) ∧
  -- DIE_HEARTBEAT_TIMEOUT (R30, R505)
  (∀ (s : State) (die : Nat),
      (die < 4) →
      (s.dev.power.on = true) →
      (bit s.dev.health.deadDies die = false) →
      Runs (.dieHeartbeatTimeout die) s (fun t => t.mem = s.mem ∧ bit t.dev.health.deadDies die = true ∧ t.dev.level die = 0)) ∧
  -- DIE_HEARTBEAT_TIMEOUT (R30, R505)
  (∀ (s : State),
      (s.dev.power.on = true) →
      (s.dev.health.controlDead = false) →
      (bit s.dev.health.deadDies 4 = false) →
      Runs (.dieHeartbeatTimeout 4) s (fun t => t.mem = s.mem ∧ t.dev.health.controlDead = true ∧ ∀ q, q < 4 → t.dev.level q = 0)) ∧
  -- AGENT_DEAD (R303, R304, R305)
  (∀ (s : State) (a l : Nat),
      (a ≤ 123) →
      (s.dev.overdue a = true) →
      (s.dev.coh.dir = [(l, { st := 3, agents := 1 <<< a })]) →
      (s.dev.coh.lost = []) →
      (s.dev.coh.snoops = []) →
      (s.dev.coh.blocked = []) →
      (s.dev.agentUnits a = []) →
      Runs (.agentDead a) s (fun t => t.mem = s.mem ∧ t.dev.isDead a = true ∧ l ∈ t.dev.coh.lost ∧ t.dev.coh.dir = [] ∧ t.dev.copyOf a l = none)) ∧
  -- AGENT_RESET (R506)
  (∀ (s : State) (a : Nat),
      (s.dev.isDead a = true) →
      (bit s.dev.health.agentsOut a = false) →
      (bit s.dev.health.resetting a = false) →
      (s.dev.agentEdge a = true) →
      Runs (.agentReset a) s (fun t => t.mem = s.mem ∧ bit t.dev.health.resetting a = true ∧ Tab.look t.dev.trans.micro a = none ∧ (∀ l < 2 ^ 33, t.dev.copyOf a l = none) ∧ (a < 120 → ∀ k, k / 32 = a → Tab.look t.dev.tiers.scratch k = none))) ∧
  -- AGENT_REJOINED (R506)
  (∀ (s : State) (a : Nat),
      (bit s.dev.health.resetting a = true) →
      (s.dev.agentEdge a = true) →
      Runs (.agentRejoined a true) s (fun t => t.mem = s.mem ∧ bit t.dev.health.resetting a = false ∧ t.dev.isDead a = false)) ∧
  -- AGENT_REJOINED (R506)
  (∀ (s : State) (a : Nat),
      (bit s.dev.health.resetting a = true) →
      (s.dev.agentEdge a = true) →
      Runs (.agentRejoined a false) s (fun t => t.mem = s.mem ∧ bit t.dev.health.resetting a = false ∧
        Tab.look t.dev.health.failedTests a = some (Tab.getD s.dev.health.failedTests a 0 + 1) ∧
        (Tab.getD s.dev.health.failedTests a 0 = 2 → bit t.dev.health.agentsOut a = true)))

/-- A walk that reads a valid PTE puts its translation first in the quadrant's TLB and ends (R271); one that reads a PTE with V clear parks the
  quantum of its access and raises a fault (R269, R276). The record of the oldest fault goes to its host's log at PROD, which advances by one, with
  the next number (R277, R279). RETRY walks the page again and ABORT, like the timeout, fails the quantum of the access (R280, R281, R283). -/
def Obligations.PagesAreWalkedAndFault : Prop :=
  -- PAGE_WALK_DONE (R266, R271)
  (∀ (s : State) (q ctx page pte : Nat) (w : PageWalk),
      (Tab.getD s.dev.trans.walks q [] = [w]) →
      (w.ctx = ctx) →
      (w.page = page) →
      (w.running = true) →
      (w.stale = false) →
      (s.dev.ctxLive ctx = true) →
      ((Dev.readPte (CX.ptBase (s.dev.reg (Reg.ctxEntry ctx)) + 16 * page) s.mem s.dev).1 = .ok pte) →
      (PTE.v pte = true) →
      (PTE.ok pte = true) →
      Runs (.pageWalkDone q ctx page) s (fun t => (Tab.getD t.dev.trans.quad q []).head? = some (tlbOf ctx page pte) ∧ Tab.getD t.dev.trans.walks q [] = [] ∧ t.mem = (Dev.readPte (CX.ptBase (s.dev.reg (Reg.ctxEntry ctx)) + 16 * page) s.mem s.dev).2.1)) ∧
  -- PAGE_WALK_DONE (R269, R276)
  (∀ (s : State) (q ctx page pte : Nat) (w : PageWalk) (a : XAccess) (x : Quantum),
      (Tab.getD s.dev.trans.walks q [] = [w]) →
      (w.ctx = ctx) →
      (w.page = page) →
      (w.running = true) →
      (w.stale = false) →
      (w.accs = [a]) →
      (s.dev.ctxLive ctx = true) →
      ((Dev.readPte (CX.ptBase (s.dev.reg (Reg.ctxEntry ctx)) + 16 * page) s.mem s.dev).1 = .ok pte) →
      (PTE.v pte = false) →
      (s.dev.trans.faults.any (Dev.faultOn ctx page) = false) →
      (Tab.look s.dev.jobs.running a.unit = some x) →
      (s.dev.attemptsOf a.unit page < 8) →
      Runs (.pageWalkDone q ctx page) s (fun t => (t.dev.trans.faults.getLast?).map (fun f => (f.ctx, f.page, f.reason, f.accs)) = some (ctx, page, 1, [a]) ∧
        (Tab.look t.dev.jobs.running a.unit).map (·.parked) = some true ∧ t.mem = (Dev.readPte (CX.ptBase (s.dev.reg (Reg.ctxEntry ctx)) + 16 * page) s.mem s.dev).2.1)) ∧
  -- FAULT_RECORD_WRITE (R277, R279)
  (∀ (s : State) (h : HostId) (f : PageFault) (n : Nat),
      (s.dev.trans.faults = [f]) →
      (f.host = h) →
      (f.id = 0) →
      ((s.dev.host h).up = true) →
      (s.dev.flogFull h = false) →
      ((match h with | .ha => s.dev.trans.idA | .hb => s.dev.trans.idB) = n) →
      Runs (.faultRecordWrite h) s (fun t => t.dev.trans.faults = [{ f with id := (n + 1) % 2 ^ 32 }] ∧
        .hostWrite h (s.dev.flogBase h + s.dev.flogProd h % 4096 * 64) (Dev.faultBytes { f with id := (n + 1) % 2 ^ 32 }) ∈ t.dev.out ∧
        t.dev.flogProd h = (s.dev.flogProd h + 1) % 65536)) ∧
  -- FAULT_RESP_RETRY (R280, R281)
  (∀ (s : State) (h : HostId) (id : Nat) (f : PageFault),
      (s.dev.mayWriteKey (Dev.hostAcc h) Reg.faultResp = true) →
      (s.dev.bar2Drained h = true) →
      (s.dev.trans.faults = [f]) →
      (f.host = h) →
      (f.id ≠ 0) →
      (f.id = id % 2 ^ 32) →
      (Tab.getD s.dev.trans.walks f.q [] = []) →
      Runs (.faultRespRetry h id) s (fun t => t.dev.trans.faults = [] ∧ Tab.getD t.dev.trans.walks f.q [] = [{ ctx := f.ctx, page := f.page, accs := f.accs, running := true }])) ∧
  -- FAULT_RESP_ABORT (R280, R281)
  (∀ (s : State) (h : HostId) (id st : Nat) (f : PageFault) (a : XAccess),
      (s.dev.mayWriteKey (Dev.hostAcc h) Reg.faultResp = true) →
      (s.dev.bar2Drained h = true) →
      (s.dev.trans.faults = [f]) →
      (f.host = h) →
      (f.id ≠ 0) →
      (f.id = id % 2 ^ 32) →
      (f.accs = [a]) →
      (st ∈ [0, St.rights, St.unmapped, St.pageFault]) →
      (s.dev.elementAccess a = false) →
      Runs (.faultRespAbort h id st) s (fun t => t.dev.trans.faults = [] ∧ Tab.look t.dev.jobs.running a.unit = none ∧ t.mem = s.mem)) ∧
  -- FAULT_TIMEOUT (R283)
  (∀ (s : State) (h : HostId) (id : Nat) (f : PageFault) (a : XAccess),
      (s.dev.trans.faults = [f]) →
      (f.host = h) →
      (f.id = id) →
      (f.tick + s.dev.reg Reg.faultTimeoutUs / 5 ≤ s.dev.tick) →
      (f.accs = [a]) →
      (s.dev.elementAccess a = false) →
      Runs (.faultTimeout h id) s (fun t => t.dev.trans.faults = [] ∧ Tab.look t.dev.jobs.running a.unit = none ∧ t.mem = s.mem))

/-- A write of INVAL_REQ asks for a tag (R285); at the edge every tag asked for loses all its entries in every micro-TLB and quadrant TLB
  (R285), while the running quanta keep what they have obtained, on which their accesses complete, and one list of units to wait for is noted for
  each (R286); an invalidation whose accesses have finished is taken off the list (R286). A context entry that R262 to R264 accept takes the
  value written. -/
def Obligations.InvalidationRemovesEveryEntry : Prop :=
  -- INVAL_REQ (R285)
  (∀ (s : State) (acc tag : Nat),
      (s.dev.mayWriteKey acc Reg.invalReq = true) →
      Runs (.invalReq acc tag) s (fun t => t.dev.trans.inval = s.dev.trans.inval ++ [tag % 256] ∧ t.dev.trans.micro = s.dev.trans.micro ∧ t.dev.trans.quad = s.dev.trans.quad)) ∧
  -- TLB_INVALIDATE (R285)
  (∀ (s : State),
      Runs (.tlbInvalidate) s (fun t => t.dev.trans.inval = [] ∧ (∀ tag ∈ s.dev.trans.inval,
        (∀ u, ∀ e ∈ Tab.getD t.dev.trans.micro u [], e.ctx ≠ tag) ∧ (∀ q, ∀ e ∈ Tab.getD t.dev.trans.quad q [], e.ctx ≠ tag)) ∧
        t.dev.jobs.running = s.dev.jobs.running ∧ t.dev.trans.draining.length = s.dev.trans.draining.length + s.dev.trans.inval.length)) ∧
  -- INVAL_DRAINED (R286)
  (∀ (s : State) (rest : List (List Nat)),
      (s.dev.trans.draining = [] :: rest) →
      Runs (.invalDrained) s (fun t => t.dev.trans.draining = rest)) ∧
  -- CTX_ENTRY_WRITE (R262, R263, R264)
  (∀ (s : State) (acc e : Nat),
      (s.dev.mayWriteKey acc (Reg.ctxEntry 0) = true) →
      (bits e 66 6 = 0) →
      (e >>> 80 = 0) →
      (CX.comp e ≤ 63) →
      (CX.ptBase e >>> 40 = 0) →
      (CX.ptBase e % 2 ^ 21 = 0) →
      (Dev.allocatable (CX.ptBase e) (2 ^ 21) = true) →
      (s.dev.poolOverlap (CX.ptBase e) (2 ^ 21) = false) →
      ((CX.valid (s.dev.reg (Reg.ctxEntry (s.dev.ctxSel acc))) && CX.valid e) = false) →
      Runs (.ctxEntryWrite acc e) s (fun t => t.dev.reg (Reg.ctxEntry (s.dev.ctxSel acc)) = e))

/-- A JOB_POST that passes the checks of R324 becomes the resident job of the lowest free record with its reply endpoint and the tick (R325); a
  refused one leaves the job state as it was. A unit with a slot of this tick starts the next run of its job's first ready node (R329, R333). A
  quantum whose units have run leaves its unit and what its units wrote stands in memory (R329), one whose microcode reports a status fails
  (R337), a gather or filter engine's quantum ends once its position has passed its run, and delivers
  then what it has placed; a quantum whose work is done stays until its writes of tier P have completed (R308). A quantum that still runs after its slot is late once (R334). -/
def Obligations.JobsRunTheirQuanta : Prop :=
  -- JOB_ADMIT (R318, R323, R325)
  (∀ (s : State) (q a k r : Nat) (e : QEnt),
      (q < 4) →
      (s.dev.level q = 3) →
      (s.dev.unitHead (12 + q) (fun e => e.pkt.ptype = .jobPost) = some (a, k, e)) →
      ((List.range 256).find? (fun r => !Tab.has s.dev.jobs.recs (q * 256 + r)) = some r) →
      (s.dev.admitCheck q e.pkt = none) →
      (s.dev.claimOf e.pkt.comp (Dev.replyOf e.pkt) e.pkt.workId = none) →
      (s.dev.jobs.activate = none) →
      Runs (.jobAdmit q) s (fun t => t.mem = s.mem ∧ (Tab.look t.dev.jobs.recs (q * 256 + r)).map (fun j => (j.pkt, j.reply, j.admitTick)) = some (e.pkt, Dev.replyOf e.pkt, s.dev.tick))) ∧
  -- JOB_ADMIT (R324)
  (∀ (s : State) (q a k r st : Nat) (e : QEnt),
      (q < 4) →
      (s.dev.level q = 3) →
      (s.dev.unitHead (12 + q) (fun e => e.pkt.ptype = .jobPost) = some (a, k, e)) →
      ((List.range 256).find? (fun r => !Tab.has s.dev.jobs.recs (q * 256 + r)) = some r) →
      (s.dev.admitCheck q e.pkt = some st) →
      (s.dev.jobs.activate = none) →
      Runs (.jobAdmit q) s (fun t => t.mem = s.mem ∧ t.dev.jobs = s.dev.jobs)) ∧
  -- QUANTUM_START (R307, R329, R330, R333)
  (∀ (s : State) (u : RunUnit) (sl : TickSlot) (j : Job) (i : Nat) (n : NodeRt),
      (RunUnit.ok u = true) →
      (s.dev.tileHeld (RunUnit.num u) = false) →
      (Tab.look s.dev.jobs.slots (RunUnit.num u) = some sl) →
      (s.dev.job sl.job = some j) →
      (sl.tick = s.dev.tick) →
      (sl.used = 0) →
      ((s.dev.freeUnits (sl.job / 256)).contains (RunUnit.num u) = true) →
      (s.dev.jobReady sl.job j (RunUnit.num u) = true) →
      ((List.range (JD.nnodes j.pkt.payload)).find? (s.dev.nodeReady sl.job j (RunUnit.num u)) = some i) →
      (j.nodes.getD i {} = n) →
      (Dev.wantsTable j.pkt.payload i = false) →
      (JD.opcode j.pkt.payload i ≠ 8) →
      ((List.range 260).all (fun k => JD.kind j.pkt.payload i k != 1) = true) →
      Runs (.quantumStart u) s (fun t => (Tab.look t.dev.jobs.running (RunUnit.num u)).map (fun x => (x.quad * 256 + x.job, x.node, x.cut, x.slot)) =
          some (sl.job, i, s.dev.chooseUnits sl.job j.pkt.payload i (s.dev.sourceFar s.mem j.pkt.payload i) j.halvings (Dev.nextRun j.pkt.payload i n), s.dev.tick))) ∧
  -- QUANTUM_COMPLETE (R329)
  (∀ (s : State) (u : RunUnit) (e : QuantumEnd) (x : Quantum),
      (RunUnit.ok u = true) →
      (Tab.look s.dev.jobs.running (RunUnit.num u) = some x) →
      (x.parked = false) →
      (x.contribs = []) →
      (s.dev.tileHeld (RunUnit.num u) = false) →
      (Tab.has s.dev.coh.waits (RunUnit.num u) = false) →
      (e.status = 0) →
      ((engineOf (RunUnit.num u)).any (fun n => n ≤ 2) = false) →
      (s.dev.unitWaits (RunUnit.num u) = false) →
      (x.worked = false) →
      (((Dev.unitsRun (RunUnit.num u) s.mem (s.dev.strike e.found)).bind (fun r => Tab.look r.2.jobs.running (RunUnit.num u))).map (fun y => (y.contribs, y.sectors, y.trays.filter (·.write))) = some ([], [], [])) →
      Runs (.quantumComplete u e) s (fun t => Tab.look t.dev.jobs.running (RunUnit.num u) = none ∧ (Dev.unitsRun (RunUnit.num u) s.mem (s.dev.strike e.found)).map Prod.fst = some t.mem)) ∧
  -- QUANTUM_COMPLETE (R337)
  (∀ (s : State) (u : RunUnit) (e : QuantumEnd) (x : Quantum),
      (RunUnit.ok u = true) →
      (Tab.look s.dev.jobs.running (RunUnit.num u) = some x) →
      (x.parked = false) →
      (x.contribs = []) →
      (s.dev.tileHeld (RunUnit.num u) = false) →
      (Tab.has s.dev.coh.waits (RunUnit.num u) = false) →
      (e.status ≠ 0) →
      Runs (.quantumComplete u e) s (fun t => Tab.look t.dev.jobs.running (RunUnit.num u) = none ∧ t.mem = s.mem)) ∧
  -- QUANTUM_COMPLETE (R329)
  (∀ (s : State) (q n : Nat) (e : QuantumEnd) (x : Quantum),
      (q < 4) →
      (n ≤ 2) →
      (Tab.look s.dev.jobs.running (128 + 8 * q + n) = some x) →
      (Tab.has s.dev.coh.waits (128 + 8 * q + n) = false) →
      (x.parked = false) →
      (x.contribs = []) →
      (e.status = 0) →
      (x.first + x.count ≤ x.pos) →
      (s.dev.unitWaits (128 + 8 * q + n) = false) →
      (x.worked = false) →
      (((Dev.partRuns (128 + 8 * q + n) (fun env _ => QM.deliver env x.stores) s.mem (s.dev.strike e.found)).bind (fun r => Tab.look r.2.jobs.running (128 + 8 * q + n))).map (fun y => (y.contribs, y.sectors, y.trays.filter (·.write))) = some ([], [], [])) →
      Runs (.quantumComplete (.engine q n) e) s (fun t => Tab.look t.dev.jobs.running (128 + 8 * q + n) = none ∧
        (Dev.partRuns (128 + 8 * q + n) (fun env _ => QM.deliver env x.stores) s.mem (s.dev.strike e.found)).map Prod.fst = some t.mem)) ∧
  -- QUANTUM_COMPLETE (R308, R337)
  (∀ (s : State) (u : RunUnit) (e : QuantumEnd) (x : Quantum),
      (RunUnit.ok u = true) →
      (Tab.look s.dev.jobs.running (RunUnit.num u) = some x) →
      (x.parked = false) →
      (x.contribs = []) →
      (s.dev.tileHeld (RunUnit.num u) = false) →
      (Tab.has s.dev.coh.waits (RunUnit.num u) = false) →
      (x.sectors = []) →
      (e.status = 0) →
      (x.worked = true) →
      (((engineOf (RunUnit.num u)).any (fun n => n ≤ 2) && decide (x.pos < x.first + x.count)) = false) →
      (x.trays.any (fun a => a.write && a.answer.isNone) = true) →
      (x.trays.all (fun a => !a.write || a.answer.all (fun r => r.1 = 0)) = true) →
      Runs (.quantumComplete u e) s (fun t => Tab.look t.dev.jobs.running (RunUnit.num u) = some x ∧ t.mem = s.mem)) ∧
  -- GF_PARITY_WORK (R329)
  (∀ (s : State) (q : Nat) (x : Quantum),
      (q < 4) →
      (Tab.look s.dev.jobs.running (132 + 8 * q) = some x) →
      (Tab.has s.dev.coh.waits (132 + 8 * q) = false) →
      (x.parked = false) →
      (x.contribs = []) →
      (s.dev.unitWaits (132 + 8 * q) = false) →
      (x.worked = false) →
      (((Dev.unitsRun (132 + 8 * q) s.mem s.dev).bind (fun r => Tab.look r.2.jobs.running (132 + 8 * q))).map (fun y => (y.contribs, y.sectors, y.trays.filter (·.write))) = some ([], [], [])) →
      Runs (.gfParityWork q) s (fun t => Tab.look t.dev.jobs.running (132 + 8 * q) = none ∧ (Dev.unitsRun (132 + 8 * q) s.mem s.dev).map Prod.fst = some t.mem)) ∧
  -- QUANTUM_OVERRUN (R334, R335)
  (∀ (s : State) (u : RunUnit) (x : Quantum) (j : Job),
      (Tab.look s.dev.jobs.running (RunUnit.num u) = some x) →
      (x.parked = false) →
      (x.late = false) →
      (x.excused = false) →
      (x.slot < s.dev.tick) →
      (s.dev.tileHeld (RunUnit.num u) = false) →
      (s.dev.job (x.quad * 256 + x.job) = some j) →
      Runs (.quantumOverrun u) s (fun t => Tab.look t.dev.jobs.running (RunUnit.num u) = some { x with late := true } ∧
        (t.dev.job (x.quad * 256 + x.job)).map (·.lateTicks) = some (j.lateTicks + 1) ∧ t.mem = s.mem)) ∧
  -- HALVE_RESTORE (R335)
  (∀ (s : State) (q k : Nat) (j : Job),
      (s.dev.job (q * 256 + k) = some j) →
      (s.dev.reg Reg.halveRestore ≠ 0) →
      (j.calm + s.dev.reg Reg.halveRestore ≤ s.dev.tick) →
      (JD.qshift j.pkt.payload < j.halvings) →
      Runs (.halveRestore q k) s (fun t => t.dev.job (q * 256 + k) = some { j with halvings := j.halvings - 1, calm := s.dev.tick } ∧ t.mem = s.mem))

/-- A job past TIMEOUT_TICKS, or cancelled by the endpoint that posted it or receives its results, is no longer resident once none of its quanta
  runs (R338, R423). A tile whose acquire-wait is met holds no S line of its context any more and waits no longer, one whose condition does not hold
  waits on, and one whose time is up, and not before, loses its quantum (R309). A release waits for the agent's earlier writes; then it leaves a line of
  tier H with its agent in M with the bytes written, and makes a write of tier P of a line of tier P (R308). -/
def Obligations.JobsEndEarly : Prop :=
  -- JOB_TIMEOUT (R338)
  (∀ (s : State) (q k : Nat) (j : Job),
      (s.dev.job (q * 256 + k) = some j) →
      (s.dev.unitsOfJob (q * 256 + k) = []) →
      (JD.timeout j.pkt.payload ≠ 0) →
      (j.admitTick + JD.timeout j.pkt.payload + j.heldTicks ≤ s.dev.tick) →
      (s.dev.power.suspended = none) →
      (j.backup = 0) →
      (j.held = []) →
      Runs (.jobTimeout q k) s (fun t => t.dev.job (q * 256 + k) = none ∧ t.mem = s.mem)) ∧
  -- JOB_CANCEL (R338, R423)
  (∀ (s : State) (n k w : Nat) (f : Bool) (p : Packet) (m : CancelMsg) (r : Routed) (j : Job),
      (s.dev.isActive n = true) →
      (s.dev.role n = 0) →
      (p.cls ≠ 7) →
      (p.enc = true → p.tagOk = true) →
      ((s.dev.checks (.port n) (p.asCtrl 6 w f)).1 = .go r) →
      (m = cancelOf p.payload) →
      (m.op = 0) →
      (m.replyFeid < 4096) →
      (s.dev.jobs.recs.find? (fun (kv : Nat × Job) => kv.2.pkt.comp = p.comp && kv.2.reply = m.replyFeid && kv.2.pkt.workId = m.workId && (kv.2.pkt.src = p.src || kv.2.reply = p.src)) = some (k, j)) →
      (s.dev.unitsOfJob k = []) →
      Runs (.jobCancel (.port n) w f p) s (fun t => t.dev.job k = none ∧ t.mem = s.mem)) ∧
  -- ACQUIRE_WAIT_MET (R309)
  (∀ (s : State) (a off cond width value : Nat) (x : Quantum) (j : Job) (d : Dev) (bs : Bytes),
      (a < 120) →
      (s.dev.isDead a = false) →
      (Tab.look s.dev.jobs.running a = some x) →
      (s.dev.job (x.quad * 256 + x.job) = some j) →
      (x.parked = false) →
      (x.worked = false) →
      (0 < width) →
      (width ≤ 8) →
      (off + width ≤ windowSize) →
      (s.dev.enterWait a off cond width value = some d) →
      ((Dev.l2ReadBy a off width s.mem d).1 = .ok bs) →
      (Dev.waitHolds cond (leNat bs) value = true) →
      (s.dev.coh.blocked = []) →
      Runs (.acquireWaitMet a off cond width value) s (fun t => t.mem = (Dev.l2ReadBy a off width s.mem d).2.1 ∧ Tab.has t.dev.coh.waits a = false ∧
        ∀ l c, l < 2 ^ 33 → t.dev.copyOf a l = some c → ¬ (c.st = 1 ∧ c.ctx = JD.ctx j.pkt.payload))) ∧
  -- ACQUIRE_WAIT_MET (R309)
  (∀ (s : State) (a off cond width value : Nat) (x : Quantum) (j : Job) (bs : Bytes) (w : AcqWait),
      (a < 120) →
      (s.dev.isDead a = false) →
      (Tab.look s.dev.jobs.running a = some x) →
      (s.dev.job (x.quad * 256 + x.job) = some j) →
      (x.parked = false) →
      (x.worked = false) →
      (0 < width) →
      (width ≤ 8) →
      (off + width ≤ windowSize) →
      (Tab.look s.dev.coh.waits a = some w) →
      (w.off = off) →
      (w.cond = cond) →
      (w.width = width) →
      (w.value = value) →
      ((Dev.l2ReadBy a off width s.mem s.dev).1 = .ok bs) →
      (Dev.waitHolds cond (leNat bs) value = false) →
      (s.dev.coh.blocked = []) →
      Runs (.acquireWaitMet a off cond width value) s (fun t => t.mem = (Dev.l2ReadBy a off width s.mem s.dev).2.1 ∧ Tab.look t.dev.coh.waits a = some w ∧ Tab.has t.dev.jobs.running a = true)) ∧
  -- ACQUIRE_WAIT_TIMEOUT (R309, R337)
  (∀ (s : State) (a : Nat) (w : AcqWait),
      (a < 120) →
      (Tab.has s.dev.jobs.running a = true) →
      (s.dev.tileHeld a = false) →
      (Tab.look s.dev.coh.waits a = some w) →
      (w.since + w.ticks ≤ s.dev.tick) →
      Runs (.acquireWaitTimeout a) s (fun t => Tab.look t.dev.jobs.running a = none ∧ Tab.look t.dev.coh.waits a = none ∧ t.mem = s.mem)) ∧
  -- ACQUIRE_WAIT_TIMEOUT (R309)
  (∀ (s : State) (a : Nat) (w : AcqWait),
      (Tab.look s.dev.coh.waits a = some w) →
      (s.dev.tick < w.since + w.ticks) →
      Runs (.acquireWaitTimeout a) s (fun t => t = s)) ∧
  -- RELEASE_COMPLETE (R308)
  (∀ (s : State) (a l : Nat) (data : Bytes) (c : Copy),
      (s.dev.isDead a = false) →
      (s.dev.unseen a = false) →
      (l < 2 ^ 33) →
      (s.dev.copyOf a l = some c) →
      (c.st ≠ 1) →
      Runs (.releaseComplete a l data) s (fun t => t.mem = s.mem ∧ t.dev.copyOf a l = some { c with st := 3, data := padTo 128 data } ∧ Tab.look t.dev.coh.dir l = some { st := 3, agents := 1 <<< a })) ∧
  -- RELEASE_COMPLETE (R308)
  (∀ (s : State) (a l : Nat) (data : Bytes),
      (s.dev.unseen a = true) →
      Runs (.releaseComplete a l data) s (fun t => t = s)) ∧
  -- RELEASE_COMPLETE (R308)
  (∀ (s : State) (l : Nat) (data : Bytes) (x : Quantum) (j : Job) (e : TlbEnt),
      (s.dev.isDead 123 = false) →
      (s.dev.unseen 123 = false) →
      (2 ^ 33 ≤ l) →
      (data ≠ []) →
      (s.dev.agentUnits 123 = [155]) →
      (Tab.look s.dev.jobs.running 155 = some x) →
      (s.dev.job (x.quad * 256 + x.job) = some j) →
      (Tab.getD s.dev.trans.micro 155 [] = []) →
      (Tab.getD s.dev.trans.quad 3 [] = [e]) →
      (e.ctx = JD.ctx j.pkt.payload) →
      (bit e.rights 1 = true) →
      (e.big = false) →
      (e.target * 2 ^ 29 ≤ (l - 2 ^ 33) * 128) →
      ((l - 2 ^ 33) * 128 < (e.target + 1) * 2 ^ 29) →
      (s.dev.fenced j.pkt.comp = true) →
      Runs (.releaseComplete 123 l data) s (fun t => (Tab.look t.dev.jobs.running 155).map (fun y => (y.committed, y.trays.getLast?.map (fun a => (a.write, a.da, a.len, a.answer)))) =
          some (true, some (true, (l - 2 ^ 33) * 128, data.length, some (St.fenced, []))) ∧ t.mem = s.mem))

/-- An EMPTY or VERIFIED bank that is checked holds the new image where it is a library the rules accept, and is EMPTY otherwise; an ACTIVE or
  DRAINING bank stands (R346). A VERIFIED bank can be asked for and becomes the ACTIVE one at an edge after the tick of the write, not within it
  (R347). A checked image is installed exactly where it is accepted (R531), and so is the image that the bytes of a single whole part make; a part that
  is not the last is kept (R535). A commit advances an anti-rollback counter to the running image's SVN,
  and lowers none (R532). -/
def Obligations.ImagesAndBanks : Prop :=
  -- LIB_VERIFY (R346)
  (∀ (s : State) (b : Nat) (i : Image),
      (b = 1 ∨ b = 2) →
      ((s.dev.bankOf b).state < 2) →
      Runs (.libVerify b i) s (fun t => t.fuses = s.fuses ∧ t.mem = s.mem ∧ t.dev.bankOf b = if i.imgType = 3 ∧ imageOk s.fuses i = true then i.bank else {})) ∧
  -- LIB_VERIFY (R346)
  (∀ (s : State) (b : Nat) (i : Image),
      (2 ≤ (s.dev.bankOf b).state) →
      Runs (.libVerify b i) s (fun t => t = s)) ∧
  -- LIB_ACTIVATE_A (R347)
  (∀ (s : State) (acc : Nat),
      (s.dev.mayWriteKey acc Reg.libActivate = true) →
      (s.dev.jobs.bankA.state = 1) →
      (s.dev.jobs.bankB.state ≠ 3) →
      Runs (.libActivateA acc) s (fun t => t.dev.jobs.activate = some 1 ∧ t.dev.jobs.activateTick = s.dev.tick ∧ t.dev.jobs.bankA = s.dev.jobs.bankA ∧ t.dev.jobs.bankB = s.dev.jobs.bankB)) ∧
  -- LIB_ACTIVATE_B (R347)
  (∀ (s : State) (acc : Nat),
      (s.dev.mayWriteKey acc Reg.libActivate = true) →
      (s.dev.jobs.bankB.state = 1) →
      (s.dev.jobs.bankA.state ≠ 3) →
      Runs (.libActivateB acc) s (fun t => t.dev.jobs.activate = some 2 ∧ t.dev.jobs.activateTick = s.dev.tick ∧ t.dev.jobs.bankA = s.dev.jobs.bankA ∧ t.dev.jobs.bankB = s.dev.jobs.bankB)) ∧
  -- LIB_SWITCH (R347)
  (∀ (s : State) (b : Nat),
      (s.dev.jobs.activate = some b) →
      (b = 1 ∨ b = 2) →
      (s.dev.jobs.activateTick < s.dev.tick) →
      Runs (.libSwitch) s (fun t => (t.dev.bankOf b).state = 2 ∧ (t.dev.bankOf (3 - b)).state ≠ 2 ∧ t.dev.jobs.activate = none ∧
        t.dev.reg Reg.libVersionCur = (s.dev.bankOf b).version)) ∧
  -- LIB_SWITCH (R347)
  (∀ (s : State),
      (s.dev.tick ≤ s.dev.jobs.activateTick) →
      Runs (.libSwitch) s (fun t => t = s)) ∧
  -- IMAGE_VERIFY (R531)
  (∀ (s : State) (i : Image) (atBoot : Bool),
      (s.dev.power.on = true) →
      Runs (.imageVerify i atBoot) s (fun t => t.mem = s.mem ∧ t.fuses = if imageOk s.fuses i = true then Dev.install s.fuses i else s.fuses)) ∧
  -- IMAGE (R535)
  (∀ (s : State) (port imgType bank off total : Nat) (data : Bytes) (img : Option Image),
      (s.dev.isActive port = true) →
      (s.dev.role port = 1) →
      (s.dev.isManager = false) →
      (1 ≤ imgType) →
      (imgType ≤ 3) →
      (48 ≤ data.length) →
      (data.length ≤ 16368) →
      (off + data.length ≤ total) →
      (data.length < total) →
      (Tab.look s.dev.sec.assembly (imgType * 4 + bank) = none) →
      Runs (.image port imgType bank off total data img) s (fun t => t.fuses = s.fuses ∧ t.mem = s.mem ∧ Tab.look t.dev.sec.assembly (imgType * 4 + bank) = some { total := total, got := [(off, data.length)], parts := [(off, data)] })) ∧
  -- IMAGE (R531, R535)
  (∀ (s : State) (port imgType bank : Nat) (data : Bytes) (img : Option Image),
      (s.dev.isActive port = true) →
      (s.dev.role port = 1) →
      (s.dev.isManager = false) →
      (1 ≤ imgType) →
      (imgType ≤ 3) →
      (48 ≤ data.length) →
      (data.length ≤ 16368) →
      (Tab.look s.dev.sec.assembly (imgType * 4 + bank) = none) →
      Runs (.image port imgType bank 0 data.length data img) s (fun t => t.mem = s.mem ∧ t.fuses = (match Image.parse data with
          | some i => if imageOk s.fuses i = true ∧ i.imgType = imgType ∧ (imgType = 3 → s.dev.bankFree bank = true) then Dev.install s.fuses i else s.fuses
          | none => s.fuses))) ∧
  -- SVN_COMMIT (R532)
  (∀ (s : State) (acc c : Nat),
      (s.dev.mayWriteKey acc Reg.svnCommit = true) →
      (c < 2) →
      Runs (.svnCommit acc c) s (fun t => t.fuses.counter c = max (s.fuses.counter c) (min 64 ((Tab.look s.dev.sec.meas (c + 1)).getD {}).svn) ∧
        (∀ x, x ≠ c → t.fuses.counter x = s.fuses.counter x) ∧ t.mem = s.mem))

/-- A member's HELLO opens a session (R541); ACCEPT by the tenant takes it to state 2 and any other answer ends it (R543); a LOAD that opens
  under the session's key gives the slot a PENDING generation numbered one above the last (R538, R540), a RETIRE marks the generations named and
  answers nothing (R551), and neither does anything where its seal does not open (R544). CERTS is answered with the device certificate, and CLOSE
  and 1,024 ticks without a message end a session (R545). -/
def Obligations.KeysAreDelivered : Prop :=
  -- KDS_HELLO (R541, R542)
  (∀ (s : State) (src : Ingress) (feid comp : Nat) (m : SessMsg),
      (s.dev.kdsPasses src feid comp 1 m = true) →
      (m.body.length = 40) →
      (le m.body 0 1 = comp) →
      (s.dev.sec.refuseKds = false) →
      (s.dev.sec.sessions.length < 8) →
      Runs (.kdsHello src feid comp m) s (fun t => t.mem = s.mem ∧ (Tab.look t.dev.sec.sessions s.dev.sec.nextSession).map (fun x => (x.comp, x.tenant, x.state, x.helloBody)) =
          some (comp, s.dev.kdsSender src feid, 1, m.body))) ∧
  -- KDS_ACCEPT (R543)
  (∀ (s : State) (src : Ingress) (feid comp : Nat) (m : SessMsg) (x : KdsSession),
      (s.dev.kdsPasses src feid comp 3 m = true) →
      (s.dev.kdsSession m.session = some x) →
      (x.comp = comp) →
      (x.state = 1) →
      (m.body.length = 1088 + 1952 + 3309) →
      Runs (.kdsAccept src feid comp m) s (fun t => t.mem = s.mem ∧ (Tab.look t.dev.sec.sessions m.session).map (·.state) = if s.dev.acceptOk comp x m.body = true then some 2 else none)) ∧
  -- KDS_LOAD (R538, R540, R544)
  (∀ (s : State) (src : Ingress) (feid comp : Nat) (m : SessMsg) (x : KdsSession),
      (s.dev.kdsPasses src feid comp 5 m = true) →
      (s.dev.kdsSession m.session = some x) →
      (x.comp = comp) →
      Runs (.kdsLoad src feid comp m) s (fun t => t.mem = s.mem ∧ (match Dev.kdsOpenBody x { m with op := 5 } with
        | none => t.dev.keys = s.dev.keys
        | some b =>
          if s.dev.kdsSlot comp (le b 0 1) = true ∧ (b.drop 8).length = (if s.dev.reg (Reg.slotPurpose (le b 0 1)) = 1 then 96 else 32) ∧
              s.dev.loadRefused (le b 0 1) = false then
            (t.dev.keySlot (le b 0 1)).gens = (s.dev.keySlot (le b 0 1)).gens ++
              [{ num := (s.dev.keySlot (le b 0 1)).last % 255 + 1, state := 3, key := b.drop 8, loaded := s.dev.tick }]
          else t.dev.keys = s.dev.keys))) ∧
  -- KDS_RETIRE (R544, R551)
  (∀ (s : State) (src : Ingress) (feid comp : Nat) (m : SessMsg) (x : KdsSession),
      (s.dev.kdsPasses src feid comp 7 m = true) →
      (s.dev.kdsSession m.session = some x) →
      (x.comp = comp) →
      Runs (.kdsRetire src feid comp m) s (fun t => t.mem = s.mem ∧ (match Dev.kdsOpenBody x { m with op := 7 } with
        | none => t.dev.keys = s.dev.keys
        | some b =>
          if s.dev.kdsSlot comp (le b 0 1) = true then
            (t.dev.keySlot (le b 0 1)).gens = (s.dev.keySlot (le b 0 1)).gens.map (fun g =>
              if (le b 1 1 = 0 ∨ g.num = le b 1 1) ∧ g.state ≠ 2 ∧ g.asked = none then { g with asked := some s.dev.tick } else g)
          else t.dev.keys = s.dev.keys))) ∧
  -- KDS_CERTS (R541)
  (∀ (s : State) (src : Ingress) (feid comp n : Nat) (m : SessMsg),
      (s.dev.kdsPasses src feid comp 8 m = true) →
      (m.session = 0) →
      (le m.body 0 1 = 0) →
      (s.dev.portOfFeid (s.dev.kdsSender src feid) = some n) →
      Runs (.kdsCerts src feid comp m) s (fun t => t.mem = s.mem ∧ ∃ pk, pk.ptype = .msg ∧ pk.dst = s.dev.kdsSender src feid ∧ pk.comp = comp ∧
          pk.payload = Dev.kdsHeader 8 0 0 8192 ++ leBytes 8192 (s.dev.reg Reg.deviceCert) ∧
          Tab.getD (t.dev.port n).txq 5 [] = Tab.getD (s.dev.port n).txq 5 [] ++ [pk])) ∧
  -- KDS_CLOSE (R545)
  (∀ (s : State) (src : Ingress) (feid comp : Nat) (m : SessMsg) (x : KdsSession),
      (s.dev.kdsPasses src feid comp 9 m = true) →
      (s.dev.kdsSession m.session = some x) →
      (x.comp = comp) →
      Runs (.kdsClose src feid comp m) s (fun t => t.dev.kdsSession m.session = none ∧ t.dev.keys = s.dev.keys ∧ t.mem = s.mem)) ∧
  -- KDS_SESSION_TIMEOUT (R545)
  (∀ (s : State) (n : Nat) (x : KdsSession),
      (s.dev.kdsSession n = some x) →
      (x.last + 1024 ≤ s.dev.tick) →
      Runs (.kdsSessionTimeout n) s (fun t => t.dev.kdsSession n = none ∧ t.dev.keys = s.dev.keys ∧ t.mem = s.mem))

/-- The first edge after a LOAD makes the generation LIVE (R538) and the first after a RETIRE makes it RETIRING with that edge as E0 (R551); from
  the fourth tick after E0 on its zeroization leaves no generation of that number (R551). A retirement over the dictionary marks every
  generation of the selected slot. A checked debug token replaces the challenge whether or not it is accepted (R554), and an expiry leaves only
  unlocks whose ticks have not elapsed (R555). -/
def Obligations.GenerationsLiveAndDie : Prop :=
  -- KEY_LIVE (R538)
  (∀ (s : State) (k : Nat) (g : KeyGen),
      ((s.dev.keySlot k).gens = [g]) →
      (g.state = 3) →
      (g.loaded < s.dev.tick) →
      (g.asked = none) →
      Runs (.keyLive k) s (fun t => (t.dev.keySlot k).gens = [{ g with state := 1 }] ∧ t.mem = s.mem)) ∧
  -- KEY_RETIRED (R551)
  (∀ (s : State) (k a : Nat) (g : KeyGen),
      ((s.dev.keySlot k).gens = [g]) →
      (g.state = 1) →
      (g.asked = some a) →
      (a < s.dev.tick) →
      Runs (.keyRetired k) s (fun t => (t.dev.keySlot k).gens = [{ g with state := 2, e0 := s.dev.tick }] ∧ t.mem = s.mem)) ∧
  -- KEY_ZEROIZED (R538, R551)
  (∀ (s : State) (k n : Nat) (g : KeyGen),
      (s.dev.keyGen k n = some g) →
      (g.state = 2) →
      (g.e0 + 4 ≤ s.dev.tick) →
      Runs (.keyZeroized k n) s (fun t => ∀ x ∈ (t.dev.keySlot k).gens, x.num ≠ n)) ∧
  -- SLOT_RETIRE (R551)
  (∀ (s : State) (acc : Nat),
      (s.dev.mayWriteKey acc Reg.slotCmd = true) →
      Runs (.slotRetire acc) s (fun t => t.mem = s.mem ∧ ∀ g ∈ (t.dev.keySlot (s.dev.regAs acc Reg.slotSelect)).gens, g.state = 2 ∨ g.asked.isSome = true)) ∧
  -- DEBUG_TOKEN (R554)
  (∀ (s : State) (acc : Nat) (k : DebugToken),
      (s.dev.mayWriteKey acc Reg.debugToken = true) →
      Runs (.debugToken acc k) s (fun t => t.fuses = s.fuses ∧ t.dev.reg Reg.debugChallenge = leNat (Config.freeBytes s.dev.freeCtr 32) ∧
        (Dev.tokenOk s.fuses s.dev k = false → t.mem = s.mem ∧ t.dev.keys = s.dev.keys ∧ t.dev.sec.unlocks = s.dev.sec.unlocks ∧
          t.dev.sec.tokenRejects = s.dev.sec.tokenRejects + 1))) ∧
  -- DEBUG_UNLOCK_EXPIRY (R555)
  (∀ (s : State),
      Runs (.debugUnlockExpiry) s (fun t => t.mem = s.mem ∧ (∀ x ∈ t.dev.sec.unlocks, s.dev.tick < x.2) ∧ t.dev.reg Reg.debugState = t.dev.debugScopes))

/-- A contribution that passes R380 sets its bit in its open chunk and adds its elements to the slots (R381), and one of a job's quantum ends that quantum
  where it was its last (R404); a chunk past its time-out fails under
  POLICY STRICT and begins to round without its missing contributors under EXCLUDE (R385, R386). A rounded chunk is COMPLETE and its result stands
  in the journal for its destinations (R388, R390), or, as a multicast that must wait for room, without them until it is placed (R389); the acknowledgment of the last destination frees the entry (R391), an unacknowledged one is
  sent again on its time-out and on a NACK (R392). -/
def Obligations.ReductionAddsEachContributionOnce : Prop :=
  -- CONTRIB_TAKE (R380, R381)
  (∀ (s : State) (q a k : Nat) (e : QEnt) (x : Inst) (c : Chunk),
      (2 ≤ s.dev.level q) →
      (s.dev.enterAll = s.dev) →
      (s.dev.unitHead (8 + q) (fun e => e.pkt.ptype = .reduceContrib) = some (a, k, e)) →
      (e.unit = none) →
      (s.dev.inst e.pkt.group = some x) →
      (x.state = 2) →
      (x.quad = q) →
      (e.pkt.comp = GD.comp x.desc) →
      (e.pkt.contrib < GD.ncontrib x.desc) →
      (e.pkt.ifmt = GD.ifmt x.desc) →
      (e.pkt.rop = GD.rop x.desc) →
      (e.pkt.nelem = GD.elems x.desc) →
      (e.pkt.payload.length = inBytes x.desc) →
      (Tab.look x.chunks e.pkt.chunk = some c) →
      (c.phase = 1) →
      (bit c.bits e.pkt.contrib = false) →
      (x.isExcluded (some c) e.pkt.contrib = false) →
      (x.isSubst (some c) e.pkt.contrib = false) →
      (CE.isLocal (x.contribs.getD e.pkt.contrib 0) = false) →
      (e.pkt.src = CE.feid (x.contribs.getD e.pkt.contrib 0)) →
      (x.isComplete e.pkt.chunk = false) →
      (e.pkt.chunk < x.low + 4096) →
      Runs (.contribTake q) s (fun t => t.mem = s.mem ∧ ((t.dev.inst e.pkt.group).bind (fun y => Tab.look y.chunks e.pkt.chunk)).map (fun c => (c.bits, c.slots)) =
          some (setBit c.bits e.pkt.contrib true, addAll x.desc c.slots e.pkt.payload))) ∧
  -- CONTRIB_TAKE (R375, R404)
  (∀ (s : State) (q a k u : Nat) (e : QEnt) (y : Quantum) (c : Contribution),
      (2 ≤ s.dev.level q) →
      (s.dev.enterAll = s.dev) →
      (s.dev.unitHead (8 + q) (fun e => e.pkt.ptype = .reduceContrib) = some (a, k, e)) →
      (e.unit = some u) →
      (Tab.look s.dev.jobs.running u = some y) →
      (y.contribs = [c]) →
      (c.queued = true) →
      (c.pkt = e.pkt) →
      (((s.dev.consume a k e).takeContrib q e.pkt true).1 = .added) →
      Runs (.contribTake q) s (fun t => t.mem = s.mem ∧ Tab.look t.dev.jobs.running u = none ∧
        t.dev.inst e.pkt.group = ((s.dev.consume a k e).takeContrib q e.pkt true).2.inst e.pkt.group)) ∧
  -- CHUNK_TIMEOUT (R385)
  (∀ (s : State) (g n : Nat) (x : Inst) (c : Chunk),
      (s.dev.inst g = some x) →
      (Tab.look x.chunks n = some c) →
      (x.state = 2) →
      (c.phase = 1) →
      (c.opened + GD.timeout x.desc + 1 ≤ s.dev.tick) →
      (GD.policy x.desc = 0) →
      Runs (.chunkTimeout g n) s (fun t => t.mem = s.mem ∧ (t.dev.inst g).bind (fun y => Tab.look y.chunks n) = some { c with phase := 3 })) ∧
  -- CHUNK_TIMEOUT (R385, R386)
  (∀ (s : State) (g n : Nat) (x : Inst) (c : Chunk),
      (s.dev.inst g = some x) →
      (Tab.look x.chunks n = some c) →
      (x.state = 2) →
      (c.phase = 1) →
      (c.opened + GD.timeout x.desc + 1 ≤ s.dev.tick) →
      (GD.policy x.desc = 1) →
      (GD.ncontrib x.desc ≤ 4096) →
      (x.missing c ≠ 0) →
      Runs (.chunkTimeout g n) s (fun t => t.mem = s.mem ∧ ((t.dev.inst g).bind (fun y => Tab.look y.chunks n)).map (·.phase) = some 2)) ∧
  -- CHUNK_ROUND (R382, R388, R390)
  (∀ (s : State) (g n f : Nat) (fs : List Nat) (x : Inst) (c : Chunk),
      (s.dev.inst g = some x) →
      (Tab.look x.chunks n = some c) →
      (x.state = 2) →
      (c.phase = 2) →
      ((s.dev.journal x.quad).length < 32768) →
      (GD.policy x.desc ≠ 1) →
      (GD.destMode x.desc ≠ 0) →
      (s.dev.destinations x n = f :: fs) →
      Runs (.chunkRound g n) s (fun t => t.mem = s.mem ∧ (t.dev.inst g).map (fun y => y.isComplete n) = some true ∧
        ∃ e, t.dev.journal x.quad = s.dev.journal x.quad ++ [e] ∧ e.group = g ∧ e.chunk = n ∧ e.pkt.status = 0 ∧
          e.pkt.payload = (roundSlots x.desc c.slots).1 ∧ e.dests = (f :: fs).map (fun f => { feid := f }))) ∧
  -- CHUNK_ROUND (R177, R388, R389, R390)
  (∀ (s : State) (g n f q gen : Nat) (fs : List Nat) (x : Inst) (c : Chunk) (pk : Packet),
      (s.dev.inst g = some x) →
      (Tab.look x.chunks n = some c) →
      (x.state = 2) →
      (c.phase = 2) →
      (s.dev.journal x.quad = []) →
      (GD.policy x.desc ≠ 1) →
      (GD.destMode x.desc = 0) →
      (GD.id x.desc = g) →
      (s.dev.destinations x n = f :: fs) →
      (s.dev.linkSlotOf (s.dev.reg (Reg.linkSlot (GD.comp x.desc))) (GD.comp x.desc) = true) →
      (s.dev.newestLive (s.dev.reg (Reg.linkSlot (GD.comp x.desc))) = some gen) →
      (s.dev.mcHeld = [(q, pk)]) →
      (q = x.quad) →
      Runs (.chunkRound g n) s (fun t => t.mem = s.mem ∧ (t.dev.inst g).map (fun y => y.isComplete n) = some true ∧
        ∃ e, t.dev.journal x.quad = [e] ∧ e.group = g ∧ e.chunk = n ∧ e.dests = [] ∧ e.pkt.payload = (roundSlots x.desc c.slots).1 ∧
          t.dev.mcHeld = [(q, pk), (q, { e.pkt with enc := true, kslot := s.dev.reg (Reg.linkSlot (GD.comp x.desc)), kgen := gen })])) ∧
  -- RESULT_ACK_TIMEOUT (R392)
  (∀ (s : State) (g n dest q : Nat) (e : JEnt) (y : JDest),
      (s.dev.entryFor g n = some (q, e)) →
      (e.dests = [y]) →
      (y.feid = dest) →
      (y.acked = false) →
      (y.tries < s.dev.reg Reg.resultRetries) →
      Runs (.resultAckTimeout g n dest) s (fun t => t.mem = s.mem ∧ (t.dev.entryFor g n).map (fun z => z.2.dests) = some [{ y with tries := y.tries + 1 }])) ∧
  -- REDUCE_ACK (R390, R391)
  (∀ (s : State) (n q w : Nat) (f : Bool) (p : Packet) (r : Routed) (e : JEnt) (y : JDest),
      (s.dev.isActive n = true) →
      (s.dev.role n = 0) →
      (p.cls ≠ 7) →
      (p.enc = true → p.tagOk = true) →
      ((s.dev.checks (.port n) (p.asCtrl 5 w f)).1 = .go r) →
      (s.dev.entryFor (Dev.ackGroup p) (Dev.ackChunk p) = some (q, e)) →
      (s.dev.journal q = [e]) →
      (e.dests = [y]) →
      (y.feid = p.src) →
      Runs (.reduceAck (.port n) w f p) s (fun t => t.mem = s.mem ∧ t.dev.journal q = [])) ∧
  -- REDUCE_NACK (R392)
  (∀ (s : State) (n q m gen w : Nat) (f : Bool) (p : Packet) (r : Routed) (e : JEnt) (y : JDest) (x : Inst),
      (s.dev.isActive n = true) →
      (s.dev.role n = 0) →
      (p.cls ≠ 7) →
      (p.enc = true → p.tagOk = true) →
      ((s.dev.checks (.port n) (p.asCtrl 5 w f)).1 = .go r) →
      (s.dev.inst (Dev.ackGroup p) = some x) →
      (x.isComplete (Dev.ackChunk p) = true) →
      (s.dev.entryFor (Dev.ackGroup p) (Dev.ackChunk p) = some (q, e)) →
      (e.dests = [y]) →
      (y.feid = p.src) →
      (s.dev.portOfFeid p.src = some m) →
      (e.pkt.payload ≠ []) →
      (s.dev.linkSlotOf (s.dev.reg (Reg.linkSlot e.pkt.comp)) e.pkt.comp = true) →
      (s.dev.newestLive (s.dev.reg (Reg.linkSlot e.pkt.comp)) = some gen) →
      Runs (.reduceNack (.port n) w f p) s (fun t => t.mem = s.mem ∧ t.dev.journal q = s.dev.journal q ∧ Tab.getD (t.dev.port m).txq e.pkt.cls [] = Tab.getD (s.dev.port m).txq e.pkt.cls [] ++
          [{ e.pkt with mc := false, dst := p.src, enc := true, kslot := s.dev.reg (Reg.linkSlot e.pkt.comp), kgen := gen }]))

/-- A REGISTER, REMOVE or READMIT written on a switch that is not the master is PENDING there or keeps the group's state, and goes out on every
  plane port. A worker that takes the master's REGISTER reserves the instance where it has room; the master that has every acceptance announces the
  activation four ticks ahead, and one refusal or a time-out makes it announce the removal; the others follow an announced activation, removal or
  readmission at its tick. -/
def Obligations.GroupsAreRegisteredThroughTheMaster : Prop :=
  -- GROUP_REGISTER (R376)
  (∀ (s : State) (acc : Nat),
      (Rising s.dev.regs) →
      (s.dev.mayWriteKey acc Reg.groupCmd = true) →
      (s.dev.groupOk (s.dev.reg Reg.groupStage) = true) →
      (GD.id (s.dev.reg Reg.groupStage) = s.dev.regAs acc Reg.groupSelect) →
      (((List.range (GD.ncontrib (s.dev.reg Reg.groupStage))).any fun i => s.dev.reg (Reg.contribStage i) >>> 26 != 0) = false) →
      (s.dev.reg Reg.masterCur ≠ 0xFF) →
      (s.dev.isMaster = false) →
      Runs (.groupRegister acc) s (fun t => (t.dev.shown (s.dev.regAs acc Reg.groupSelect)).state = 1 ∧ t.dev.yar.insts = s.dev.yar.insts ∧
        ∀ p ∈ s.dev.planePorts, Tab.getD (t.dev.port p).txq 5 [] = Tab.getD (s.dev.port p).txq 5 [] ++
          (Dev.registerParts (s.dev.regAs acc Reg.groupSelect) (s.dev.reg Reg.groupStage)
            ((List.range (GD.ncontrib (s.dev.reg Reg.groupStage))).map (fun i => s.dev.reg (Reg.contribStage i)))).map (fun m => s.dev.ctrl 0x04 5 m.bytes))) ∧
  -- GROUP_REGISTER (R375, R376)
  (∀ (s : State) (acc i : Nat),
      (s.dev.mayWriteKey acc Reg.groupCmd = true) →
      (i < GD.ncontrib (s.dev.reg Reg.groupStage)) →
      (s.dev.reg (Reg.contribStage i) >>> 26 ≠ 0) →
      Runs (.groupRegister acc) s (fun t => (t.dev.shown (s.dev.regAs acc Reg.groupSelect)).state = 3 ∧ t.dev.yar.insts = s.dev.yar.insts)) ∧
  -- GROUP_REMOVE (R378)
  (∀ (s : State) (acc : Nat),
      (Rising s.dev.regs) →
      (s.dev.mayWriteKey acc Reg.groupCmd = true) →
      (s.dev.reg Reg.masterCur ≠ 0xFF) →
      (s.dev.isMaster = false) →
      Runs (.groupRemove acc) s (fun t => (t.dev.shown (s.dev.regAs acc Reg.groupSelect)).asked = true ∧ t.dev.yar.insts = s.dev.yar.insts ∧
        ∀ p ∈ s.dev.planePorts, Tab.getD (t.dev.port p).txq 5 [] = Tab.getD (s.dev.port p).txq 5 [] ++
          [s.dev.ctrl 0x04 5 ({ op := 2, groupId := s.dev.regAs acc Reg.groupSelect } : RegistryMsg).bytes])) ∧
  -- GROUP_READMIT (R378)
  (∀ (s : State) (acc : Nat),
      (Rising s.dev.regs) →
      (s.dev.mayWriteKey acc Reg.groupCmd = true) →
      (s.dev.reg Reg.masterCur ≠ 0xFF) →
      (s.dev.isMaster = false) →
      Runs (.groupReadmit acc) s (fun t => (t.dev.shown (s.dev.regAs acc Reg.groupSelect)).asked = true ∧ t.dev.yar.insts = s.dev.yar.insts ∧
        ∀ p ∈ s.dev.planePorts, Tab.getD (t.dev.port p).txq 5 [] = Tab.getD (s.dev.port p).txq 5 [] ++
          [s.dev.ctrl 0x04 5 ({ op := 3, groupId := s.dev.regAs acc Reg.groupSelect, body := leBytes 2 (s.dev.regAs acc Reg.contribSelect) } : RegistryMsg).bytes])) ∧
  -- REGISTRY_REGISTER (R376)
  (∀ (s : State) (port src q : Nat) (m : RegistryMsg),
      (s.dev.isActive port = true) →
      (s.dev.role port = 1) →
      (s.dev.ownId.isSome = true) →
      (s.dev.ownId ≠ some src) →
      (s.dev.yar.seen = []) →
      (s.dev.isMaster = false) →
      (s.dev.reg Reg.masterCur = src) →
      (m.part = 0) →
      (m.nparts = 1) →
      (Tab.look s.dev.yar.parts (src * 65536 + m.groupId) = none) →
      (bit (GD.planes (leNat (m.body.take 64))) s.dev.dom.swId = true) →
      (s.dev.placeFor (leNat (m.body.take 64)) = some q) →
      Runs (.registryRegister port src m) s (fun t => t.mem = s.mem ∧ (t.dev.inst m.groupId).map (fun x => (x.desc, x.quad, x.state)) = some (leNat (m.body.take 64), q, 1) ∧
        (t.dev.inst m.groupId).map (·.contribs) =
          some ((List.range (GD.ncontrib (leNat (m.body.take 64)))).map (fun i => le m.body (64 + 4 * i) 4)))) ∧
  -- REGISTRY_REMOVE (R55, R378)
  (∀ (s : State) (port src : Nat) (m : RegistryMsg) (x : Inst),
      (s.dev.isActive port = true) →
      (s.dev.role port = 1) →
      (s.dev.ownId.isSome = true) →
      (s.dev.ownId ≠ some src) →
      (s.dev.yar.seen = []) →
      ((s.dev.isMaster = false ∧ s.dev.reg Reg.masterCur = src) ∨ (s.dev.dom.prevMaster = src ∧ m.tick ≠ 0)) →
      (s.dev.inst m.groupId = some x) →
      Runs (.registryRemove port src m) s (fun t => t.mem = s.mem ∧ t.dev.inst m.groupId = some { x with removeAt := some m.tick })) ∧
  -- REGISTRY_READMIT (R55, R378)
  (∀ (s : State) (port src : Nat) (m : RegistryMsg) (x : Inst),
      (s.dev.isActive port = true) →
      (s.dev.role port = 1) →
      (s.dev.ownId.isSome = true) →
      (s.dev.ownId ≠ some src) →
      (s.dev.yar.seen = []) →
      ((s.dev.isMaster = false ∧ s.dev.reg Reg.masterCur = src) ∨ (s.dev.dom.prevMaster = src ∧ m.tick ≠ 0)) →
      (s.dev.inst m.groupId = some x) →
      Runs (.registryReadmit port src m) s (fun t => t.mem = s.mem ∧ t.dev.inst m.groupId = some { x with readmits := x.readmits ++ [(m.tick, leNat (m.body.take 2))] })) ∧
  -- REGISTRY_ACCEPT (R376)
  (∀ (s : State) (port src : Nat) (m : RegistryMsg) (x : Inst) (e : RegEnt),
      (s.dev.isActive port = true) →
      (s.dev.role port = 1) →
      (s.dev.ownId.isSome = true) →
      (s.dev.ownId ≠ some src) →
      (s.dev.yar.seen = []) →
      (s.dev.isMaster = true) →
      (s.dev.inst m.groupId = some x) →
      (s.dev.regEnt m.groupId = some e) →
      (e.phase = 1) →
      ((e.accepted ||| (1 <<< src)) &&& GD.planes e.desc = GD.planes e.desc) →
      Runs (.registryAccept port src m) s (fun t => t.mem = s.mem ∧ t.dev.inst m.groupId = some { x with active := some (s.dev.tick + 4) } ∧
        (t.dev.regEnt m.groupId).map (fun e => (e.phase, e.tick)) = some (2, s.dev.tick + 4))) ∧
  -- REGISTRY_REFUSE (R376)
  (∀ (s : State) (port src : Nat) (m : RegistryMsg) (e : RegEnt),
      (s.dev.isActive port = true) →
      (s.dev.role port = 1) →
      (s.dev.ownId.isSome = true) →
      (s.dev.ownId ≠ some src) →
      (s.dev.yar.seen = []) →
      (s.dev.isMaster = true) →
      (s.dev.regEnt m.groupId = some e) →
      (e.phase = 1) →
      (m.reason ≠ 0) →
      Runs (.registryRefuse port src m) s (fun t => t.mem = s.mem ∧ (t.dev.regEnt m.groupId).map (fun e => (e.phase, e.tick)) = some (3, s.dev.tick + 4))) ∧
  -- REGISTRY_ACTIVATE (R55, R376)
  (∀ (s : State) (port src : Nat) (m : RegistryMsg) (x : Inst),
      (s.dev.isActive port = true) →
      (s.dev.role port = 1) →
      (s.dev.ownId.isSome = true) →
      (s.dev.ownId ≠ some src) →
      (s.dev.yar.seen = []) →
      ((s.dev.isMaster = false ∧ s.dev.reg Reg.masterCur = src) ∨ (s.dev.dom.prevMaster = src ∧ m.tick ≠ 0)) →
      (s.dev.inst m.groupId = some x) →
      Runs (.registryActivate port src m) s (fun t => t.mem = s.mem ∧ t.dev.inst m.groupId = some { x with active := some m.tick })) ∧
  -- GROUP_ACTIVATION_TICK (R376)
  (∀ (s : State) (g a : Nat) (x : Inst),
      (s.dev.inst g = some x) →
      (x.state = 1) →
      (x.active = some a) →
      (a ≤ s.dev.tick) →
      (x.removeAt = none) →
      (x.readmits = []) →
      ((s.dev.regEnt g).any (fun e => e.phase = 3) = false) →
      Runs (.groupActivationTick g) s (fun t => t.mem = s.mem ∧ t.dev.inst g = some { x with state := 2, active := none })) ∧
  -- GROUP_ACTIVATION_TICK (R378)
  (∀ (s : State) (g a : Nat) (x : Inst),
      (s.dev.inst g = some x) →
      (x.removeAt = some a) →
      (a ≤ s.dev.tick) →
      Runs (.groupActivationTick g) s (fun t => t.mem = s.mem ∧ t.dev.inst g = none ∧ t.dev.regEnt g = none)) ∧
  -- REGISTRY_ANSWER_TIMEOUT (R376)
  (∀ (s : State) (g : Nat) (e : RegEnt),
      (s.dev.isMaster = true) →
      (s.dev.regEnt g = some e) →
      (e.phase = 1) →
      (e.deadline < s.dev.tick) →
      Runs (.registryAnswerTimeout g) s (fun t => t.mem = s.mem ∧ (t.dev.regEnt g).map (fun e => (e.phase, e.tick)) = some (3, s.dev.tick + 4)))

/-- A LOAD of a plan that R400 accepts keeps its records for the edge, one whose reads would take a line from its owner goes on until PLAN_ACTIVATE, an UNLOAD is kept for it, and the edge makes the waiting plan ACTIVE (R401). At
  its deadline a node under WAIT whose slot is not READY is late, one under SHADOW takes its operand's record, and one under HANDBACK ends its job
  once its operand has been read (R413 to R415). A contribution Yarrow had no room for enters the queue again where that has room (R405). -/
def Obligations.PlansAndDeadlines : Prop :=
  -- PLAN_LOAD (R400)
  (∀ (s : State) (acc k : Nat) (head bs : Bytes) (recs : List Nat),
      (s.dev.mayWriteKey acc Reg.planCmd = true) →
      (s.dev.planSel acc = k) →
      ((Dev.planRead (s.dev.reg (Reg.planBase k)) s.mem s.dev).1 = .ok (some head, some bs)) →
      ((Dev.planRead (s.dev.reg (Reg.planBase k)) s.mem s.dev).2.1 = s.mem) →
      (Dev.planRecs bs = recs) →
      ((Dev.planRead (s.dev.reg (Reg.planBase k)) s.mem s.dev).2.2.planRefused k head recs = 0) →
      Runs (.planLoad acc) s (fun t => t.mem = s.mem ∧ (t.dev.plan k).next = some (le head 4 1, recs) ∧ (t.dev.plan k).loading = false ∧ (t.dev.plan k).state = (s.dev.plan k).state)) ∧
  -- PLAN_LOAD (R296, R400)
  (∀ (s : State) (acc k : Nat),
      (s.dev.mayWriteKey acc Reg.planCmd = true) →
      (s.dev.planSel acc = k) →
      ((Dev.planStep k s.mem s.dev).1 ≠ s.mem) →
      Runs (.planLoad acc) s (fun t => t.mem = s.mem ∧ t.dev.plan k = { s.dev.plan k with loading := true } ∧ t.dev.coh = s.dev.coh)) ∧
  -- PLAN_UNLOAD (R401)
  (∀ (s : State) (acc : Nat),
      (s.dev.mayWriteKey acc Reg.planCmd = true) →
      Runs (.planUnload acc) s (fun t => t.mem = s.mem ∧ (t.dev.plan (s.dev.planSel acc)).unload = true ∧ (t.dev.plan (s.dev.planSel acc)).next = none)) ∧
  -- PLAN_ACTIVATE (R401)
  (∀ (s : State) (k c : Nat) (recs : List Nat),
      ((s.dev.plan k).loading = false) →
      ((s.dev.plan k).next = some (c, recs)) →
      ((s.dev.plan k).since < s.dev.tick) →
      Runs (.planActivate k) s (fun t => t.mem = s.mem ∧ t.dev.plan k = { s.dev.plan k with state := 1, comp := c, recs := recs, next := none, unload := false })) ∧
  -- PLAN_ACTIVATE (R401)
  (∀ (s : State) (k : Nat),
      ((s.dev.plan k).loading = false) →
      ((s.dev.plan k).next = none) →
      ((s.dev.plan k).unload = true) →
      ((s.dev.plan k).since < s.dev.tick) →
      Runs (.planActivate k) s (fun t => t.mem = s.mem ∧ (t.dev.plan k).state = 0 ∧ (t.dev.plan k).recs = [])) ∧
  -- PLAN_ACTIVATE (R296, R400)
  (∀ (s : State) (k : Nat) (head bs : Bytes),
      ((s.dev.plan k).loading = true) →
      ((Dev.planRead (s.dev.reg (Reg.planBase k)) s.mem s.dev).1 = .ok (some head, some bs)) →
      ((Dev.planRead (s.dev.reg (Reg.planBase k)) s.mem s.dev).2.2.planRefused k head (Dev.planRecs bs) = 0) →
      Runs (.planActivate k) s (fun t => t.mem = (Dev.planRead (s.dev.reg (Reg.planBase k)) s.mem s.dev).2.1 ∧ (t.dev.plan k).next = some (le head 4 1, Dev.planRecs bs) ∧ (t.dev.plan k).loading = false ∧ (t.dev.plan k).since = s.dev.tick)) ∧
  -- NODE_LATE (R413)
  (∀ (s : State) (q r i o u sl : Nat) (j : Job) (x : StageSlot),
      (s.dev.job (q * 256 + r) = some j) →
      (i < JD.nnodes j.pkt.payload) →
      (i < j.nodes.length) →
      (j.ending = none) →
      ((j.nodes.getD i {}).st ≤ 1) →
      ((j.nodes.getD i {}).back = false) →
      (Dev.runsLeft j.pkt.payload i (j.nodes.getD i {}) ≠ []) →
      ((j.nodes.getD i {}).chosen = false) →
      ((j.nodes.getD i {}).late = false) →
      (Dev.depsDone j i = true) →
      (JD.policy j.pkt.payload = 0) →
      (JD.stagedOpnds j.pkt.payload i = [o]) →
      (s.dev.namedUnits j.pkt.comp j.pkt.payload i o = [u]) →
      (s.dev.slotNamed j.pkt.comp u = some (sl, x)) →
      (s.dev.stagedReady j i = false) →
      (x.state = 1) →
      (x.deadline ≤ s.dev.tick) →
      Runs (.nodeLate q r i) s (fun t => t.mem = s.mem ∧ (t.dev.job (q * 256 + r)).map (fun j => (j.nodes.getD i {}).late) = some true)) ∧
  -- NODE_LATE (R413, R414)
  (∀ (s : State) (q r i o u sl sh : Nat) (j : Job) (x : StageSlot),
      (s.dev.job (q * 256 + r) = some j) →
      (i < JD.nnodes j.pkt.payload) →
      (i < j.nodes.length) →
      (j.ending = none) →
      ((j.nodes.getD i {}).st = 0) →
      ((j.nodes.getD i {}).back = false) →
      (Dev.runsLeft j.pkt.payload i (j.nodes.getD i {}) ≠ []) →
      ((j.nodes.getD i {}).chosen = false) →
      (Dev.depsDone j i = true) →
      (JD.policy j.pkt.payload = 1) →
      (JD.stagedOpnds j.pkt.payload i = [o]) →
      (s.dev.namedUnits j.pkt.comp j.pkt.payload i o = [u]) →
      (s.dev.slotNamed j.pkt.comp u = some (sl, x)) →
      (s.dev.stagedReady j i = false) →
      (x.state = 1) →
      (x.deadline ≤ s.dev.tick) →
      (QM.shadowOf s.dev j.pkt.comp j.pkt.payload i o = some sh) →
      Runs (.nodeLate q r i) s (fun t => t.mem = s.mem ∧ (t.dev.job (q * 256 + r)).map (fun j => ((j.nodes.getD i {}).chosen, (j.nodes.getD i {}).shadows)) = some (true, [(o, sh)]) ∧
        t.dev.reg Reg.shadowNodes = (s.dev.bump Reg.shadowNodes).reg Reg.shadowNodes)) ∧
  -- NODE_LATE (R413, R415)
  (∀ (s : State) (q r i o u sl : Nat) (j : Job) (x : StageSlot),
      (s.dev.job (q * 256 + r) = some j) →
      (i < JD.nnodes j.pkt.payload) →
      (i < j.nodes.length) →
      (j.ending = none) →
      ((j.nodes.getD i {}).st = 0) →
      ((j.nodes.getD i {}).back = false) →
      (Dev.runsLeft j.pkt.payload i (j.nodes.getD i {}) ≠ []) →
      ((j.nodes.getD i {}).chosen = false) →
      (Dev.depsDone j i = true) →
      (JD.policy j.pkt.payload = 2) →
      (JD.stagedOpnds j.pkt.payload i = [o]) →
      (s.dev.namedUnits j.pkt.comp j.pkt.payload i o = [u]) →
      (s.dev.slotNamed j.pkt.comp u = some (sl, x)) →
      (s.dev.stagedReady j i = false) →
      (x.state = 1) →
      (x.deadline ≤ s.dev.tick) →
      (JD.kind j.pkt.payload i 0 ≠ 1) →
      (s.dev.claimOf j.pkt.comp j.reply j.pkt.workId = none ∨ j.output = true) →
      Runs (.nodeLate q r i) s (fun t => t.mem = s.mem ∧ (t.dev.job (q * 256 + r)).all (fun j => j.ending = some (St.deadline, i)) = true ∧
        t.dev.reg Reg.handbacks = (s.dev.bump Reg.handbacks).reg Reg.handbacks)) ∧
  -- NODE_LATE (R415)
  (∀ (s : State) (q r i : Nat) (j : Job) (bs : Bytes) (m : Memory) (d : Dev),
      (s.dev.job (q * 256 + r) = some j) →
      (i < JD.nnodes j.pkt.payload) →
      (j.ending = none) →
      ((j.nodes.getD i {}).back = true) →
      (StateT.run (ExceptT.run (QM.backBytes (q * 256 + r) i j.pkt.payload)) (s.mem, s.dev) = (.ok bs, m, d)) →
      (s.dev.claimOf j.pkt.comp j.reply j.pkt.workId = none ∨ j.output = true) →
      Runs (.nodeLate q r i) s (fun t => t.mem = m ∧ (t.dev.job (q * 256 + r)).all (fun j => j.ending = some (St.deadline, i)) = true)) ∧
  -- CONTRIB_RETRY (R375, R405)
  (∀ (s : State) (q r g n u : Nat) (x : Quantum) (c : Contribution) (j : Job) (i : Inst),
      (s.dev.jobs.running = [(u, x)]) →
      (x.quad * 256 + x.job = q * 256 + r) →
      (x.contribs = [c]) →
      (c.waits = true) →
      (c.queued = false) →
      (c.pkt.group = g) →
      (c.pkt.chunk = n) →
      (s.dev.job (q * 256 + r) = some j) →
      (j.backup = 0 ∨ j.backup = 3) →
      (s.dev.inst g = some i) →
      (i.state = 2) →
      (2 ≤ s.dev.level i.quad) →
      ((poolFor s.dev i.quad (unitKey (8 + i.quad) c.pkt.cls) c.pkt.cls c.pkt.cells).isSome = true) →
      Runs (.contribRetry q r g n) s (fun t => t.mem = s.mem ∧ (Tab.look t.dev.jobs.running u).map (·.contribs) = some [{ c with waits := false, queued := true, tries := c.tries + 1 }] ∧
        (((t.dev.core i.quad).queue (unitKey (8 + i.quad) c.pkt.cls)).getLast?).map (fun e => (e.pkt, e.unit)) = some (c.pkt, some u))) ∧
  -- CONTRIB_RETRY (R405)
  (∀ (s : State) (q r g n u : Nat) (x : Quantum) (c : Contribution) (i : Inst),
      (s.dev.jobs.running = [(u, x)]) →
      (x.quad * 256 + x.job = q * 256 + r) →
      (x.contribs = [c]) →
      (c.waits = true) →
      (c.pkt.group = g) →
      (c.pkt.chunk = n) →
      (s.dev.inst g = some i) →
      (i.state = 2) →
      (2 ≤ s.dev.level i.quad) →
      (poolFor s.dev i.quad (unitKey (8 + i.quad) c.pkt.cls) c.pkt.cls c.pkt.cells = none) →
      Runs (.contribRetry q r g n) s (fun t => t.mem = s.mem ∧ (Tab.look t.dev.jobs.running u).map (·.contribs) = some [{ c with waits := false, tries := c.tries + 1 }]))

/-- A NOTIFY for a key without a claim waits where the primary is resident and is granted where it is not; a CLAIM on a waiting key takes it for the
  backup (R420). A backup that hears GRANT, or has waited long enough, may go on (R419, R421); one that hears DENY or CANCEL and has no running
  quantum is no longer resident (R419). A decided claim expires (R420). -/
def Obligations.BackupsAreArbitrated : Prop :=
  -- BACKUP_NOTIFY (R420)
  (∀ (s : State) (port comp : Nat) (m : CancelMsg),
      (s.dev.isActive port = true) →
      (s.dev.role port = 1) →
      (s.dev.ownId = some m.toSw) →
      ((m.sw, 1, m.workId) ∉ s.dev.jobs.seen) →
      (s.dev.claimOf comp m.replyFeid m.workId = none) →
      (s.dev.jobs.claims.length < 4096) →
      Runs (.backupNotify port comp m) s (fun t => t.mem = s.mem ∧ (t.dev.claimOf comp m.replyFeid m.workId).map (fun c => (c.st, c.peer)) =
          some (if (s.dev.jobOfKey comp m.replyFeid m.workId false).isSome = true then 1 else 3, m.sw))) ∧
  -- BACKUP_CLAIM (R420)
  (∀ (s : State) (port comp : Nat) (m : CancelMsg) (c : Claim),
      (s.dev.isActive port = true) →
      (s.dev.role port = 1) →
      (s.dev.ownId = some m.toSw) →
      ((m.sw, 2, m.workId) ∉ s.dev.jobs.seen) →
      (s.dev.claimOf comp m.replyFeid m.workId = some c) →
      (c.st = 1) →
      (s.dev.jobs.claims.length ≤ 4096) →
      Runs (.backupClaim port comp m) s (fun t => t.mem = s.mem ∧ (t.dev.claimOf comp m.replyFeid m.workId).map (fun c => (c.st, c.peer)) = some (3, m.sw))) ∧
  -- BACKUP_GRANT (R419)
  (∀ (s : State) (port comp k : Nat) (m : CancelMsg) (j : Job),
      (s.dev.isActive port = true) →
      (s.dev.role port = 1) →
      (s.dev.ownId = some m.toSw) →
      ((m.sw, 3, m.workId) ∉ s.dev.jobs.seen) →
      (s.dev.jobOfKey comp m.replyFeid m.workId true = some k) →
      (s.dev.job k = some j) →
      (j.backup = 2) →
      (j.held = []) →
      (∀ u ∈ s.dev.unitsOfJob k, (Tab.look s.dev.jobs.running u).all (fun x => x.contribs.isEmpty) = true) →
      Runs (.backupGrant port comp m) s (fun t => t.mem = s.mem ∧ t.dev.job k = some { j with backup := 3 })) ∧
  -- BACKUP_DENY (R419)
  (∀ (s : State) (port comp k : Nat) (m : CancelMsg) (j : Job),
      (s.dev.isActive port = true) →
      (s.dev.role port = 1) →
      (s.dev.ownId = some m.toSw) →
      ((m.sw, 4, m.workId) ∉ s.dev.jobs.seen) →
      (s.dev.jobOfKey comp m.replyFeid m.workId true = some k) →
      (s.dev.job k = some j) →
      (j.backup = 2) →
      (s.dev.unitsOfJob k = []) →
      Runs (.backupDeny port comp m) s (fun t => t.mem = s.mem ∧ t.dev.job k = none)) ∧
  -- BACKUP_CANCEL (R419, R420)
  (∀ (s : State) (port comp k : Nat) (m : CancelMsg) (j : Job),
      (s.dev.isActive port = true) →
      (s.dev.role port = 1) →
      (s.dev.ownId = some m.toSw) →
      ((m.sw, 0, m.workId) ∉ s.dev.jobs.seen) →
      (s.dev.jobOfKey comp m.replyFeid m.workId true = some k) →
      (s.dev.job k = some j) →
      (j.backup = 1 ∨ j.backup = 2) →
      (s.dev.unitsOfJob k = []) →
      Runs (.backupCancel port comp m) s (fun t => t.mem = s.mem ∧ t.dev.job k = none)) ∧
  -- CLAIM_WAIT_TIMEOUT (R421)
  (∀ (s : State) (q r : Nat) (j : Job),
      (s.dev.job (q * 256 + r) = some j) →
      (j.backup = 2) →
      (j.claimTick + s.dev.reg Reg.claimWaitTicks ≤ s.dev.tick) →
      (j.held = []) →
      (∀ u ∈ s.dev.unitsOfJob (q * 256 + r), (Tab.look s.dev.jobs.running u).all (fun x => x.contribs.isEmpty) = true) →
      Runs (.claimWaitTimeout q r) s (fun t => t.mem = s.mem ∧ t.dev.job (q * 256 + r) = some { j with backup := 3 })) ∧
  -- CLAIM_ENTRY_EXPIRE (R420)
  (∀ (s : State) (comp reply work : Nat) (c : Claim),
      (s.dev.jobs.claims = [c]) →
      (c.comp = comp) →
      (c.reply = reply) →
      (c.work = work) →
      (c.st ≠ 1) →
      (c.tick + s.dev.reg Reg.claimHoldTicks ≤ s.dev.tick) →
      Runs (.claimEntryExpire comp reply work) s (fun t => t.mem = s.mem ∧ t.dev.jobs.claims = []))

/-- A gather or filter engine with a slot of this tick starts its job's quantum, a gather one with the landing tile found for it (R425, R427). An element
  or a run of rows that is done moves the engine's position by just that (R430, R440), and memory is what its part made it; an element that fails without ZERO_FILL fails the quantum (R434); a speculative read
  that is discarded leaves no trace, and one that brings its bytes lands in a buffer of its own (R340, R341, R342). A block of the quantum's
  stream that decodes is counted and noted, and one that fails its checks fails the quantum (R449, R459); a quantum whose table buffer is taken spends its slot waiting (R464). -/
def Obligations.EnginesRunTheirParts : Prop :=
  -- ENGINE_QUANTUM_START (R425)
  (∀ (s : State) (q e i : Nat) (sl : TickSlot) (j : Job) (n : NodeRt),
      (q < 4) →
      (e < 3) →
      (Tab.look s.dev.jobs.slots (128 + 8 * q + e) = some sl) →
      (s.dev.job sl.job = some j) →
      (sl.tick = s.dev.tick) →
      (sl.used = 0) →
      ((s.dev.freeUnits (sl.job / 256)).contains (128 + 8 * q + e) = true) →
      (s.dev.jobReady sl.job j (128 + 8 * q + e) = true) →
      ((List.range (JD.nnodes j.pkt.payload)).find? (s.dev.nodeReady sl.job j (128 + 8 * q + e)) = some i) →
      (j.nodes.getD i {} = n) →
      (JD.opcode j.pkt.payload i = 9) →
      ((List.range 260).all (fun k => JD.kind j.pkt.payload i k != 1) = true) →
      Runs (.engineQuantumStart q e) s (fun t => (Tab.look t.dev.jobs.running (128 + 8 * q + e)).map (fun x => (x.quad * 256 + x.job, x.node, x.first, x.pos, x.slot)) =
          some (sl.job, i, (Dev.nextRun j.pkt.payload i n).first, (Dev.nextRun j.pkt.payload i n).first, s.dev.tick))) ∧
  -- ENGINE_QUANTUM_START (R425, R427)
  (∀ (s : State) (q e i lt : Nat) (sl : TickSlot) (j : Job) (n : NodeRt),
      (q < 4) →
      (e < 3) →
      (Tab.look s.dev.jobs.slots (128 + 8 * q + e) = some sl) →
      (s.dev.job sl.job = some j) →
      (sl.tick = s.dev.tick) →
      (sl.used = 0) →
      ((s.dev.freeUnits (sl.job / 256)).contains (128 + 8 * q + e) = true) →
      (s.dev.jobReady sl.job j (128 + 8 * q + e) = true) →
      ((List.range (JD.nnodes j.pkt.payload)).find? (s.dev.nodeReady sl.job j (128 + 8 * q + e)) = some i) →
      (j.nodes.getD i {} = n) →
      (JD.opcode j.pkt.payload i = 8) →
      (s.dev.landingTile (sl.job / 256) = some lt) →
      ((List.range 260).all (fun k => JD.kind j.pkt.payload i k != 1) = true) →
      Runs (.engineQuantumStart q e) s (fun t => (Tab.look t.dev.jobs.running (128 + 8 * q + e)).map (fun x => (x.quad * 256 + x.job, x.node, x.pos, x.landing)) =
          some (sl.job, i, (Dev.nextRun j.pkt.payload i n).first, some lt))) ∧
  -- GATHER_ELEMENT (R429, R430, R433)
  (∀ (s : State) (q e : Nat) (found : Ecc) (x y : Quantum),
      (q < 4) →
      (e < 2) →
      (Tab.look s.dev.jobs.running (128 + 8 * q + e) = some x) →
      (x.parked = false) →
      (x.pos < x.first + x.count) →
      (s.dev.unitWaits (128 + 8 * q + e) = false) →
      ((Dev.partRuns (128 + 8 * q + e) (fun env _ => QM.gatherStep q env x.pos (Tab.look x.spec x.pos)) s.mem (s.dev.strike found)).bind (fun r => Tab.look r.2.jobs.running (128 + 8 * q + e)) = some y) →
      Runs (.gatherElement q e x.pos found) s (fun t => Tab.look t.dev.jobs.running (128 + 8 * q + e) = some { y with pos := y.pos + 1, spec := Tab.del y.spec x.pos, failing := 0, xlat := [], translated := true, trays := (y.trays.filter (fun a => a.write || a.index.isSome)).filter (fun a => a.index != some x.pos) } ∧
        (Dev.partRuns (128 + 8 * q + e) (fun env _ => QM.gatherStep q env x.pos (Tab.look x.spec x.pos)) s.mem (s.dev.strike found)).map Prod.fst = some t.mem)) ∧
  -- GATHER_ELEMENT (R434)
  (∀ (s : State) (q e st : Nat) (found : Ecc) (x : Quantum),
      (q < 4) →
      (e < 2) →
      (Tab.look s.dev.jobs.running (128 + 8 * q + e) = some x) →
      (x.parked = false) →
      (x.pos < x.first + x.count) →
      (s.dev.unitWaits (128 + 8 * q + e) = false) →
      (Dev.partFails (128 + 8 * q + e) (fun env _ => QM.gatherStep q env x.pos (Tab.look x.spec x.pos)) s.mem (s.dev.strike found) = some st) →
      Runs (.gatherElement q e x.pos found) s (fun t => Tab.look t.dev.jobs.running (128 + 8 * q + e) = none)) ∧
  -- SPECULATIVE_READ (R342)
  (∀ (s : State) (q e ahead : Nat) (found : Ecc),
      Runs (.speculativeRead q e ahead false found) s (fun t => t.mem = s.mem ∧ t.dev.regs = s.dev.regs ∧ t.dev.coh = s.dev.coh ∧ t.dev.trans = s.dev.trans ∧
        t.dev.jobs.running.map (fun kv => (kv.1, kv.2.pos, kv.2.spec, kv.2.out, kv.2.stores)) =
          s.dev.jobs.running.map (fun kv => (kv.1, kv.2.pos, kv.2.spec, kv.2.out, kv.2.stores)))) ∧
  -- SPECULATIVE_READ (R340, R427)
  (∀ (s : State) (q e ahead k : Nat) (found : Ecc) (b : Bytes) (x : Quantum) (env : QEnv),
      (q < 4) →
      (e < 2) →
      (Tab.look s.dev.jobs.running (128 + 8 * q + e) = some x) →
      ((s.dev.strike found).envOf (128 + 8 * q + e) x = some (env, k)) →
      (x.parked = false) →
      (s.dev.flag Reg.specEnable = true) →
      (1 ≤ ahead) →
      (ahead ≤ Dev.specWindow env) →
      (x.pos + ahead < x.first + x.count) →
      (Dev.specBytes (128 + 8 * q + e) { env with index := some (x.pos + ahead) } (x.pos + ahead) s.mem (s.dev.strike found) = .ok (some b)) →
      Runs (.speculativeRead q e ahead true found) s (fun t => t.mem = s.mem ∧ Tab.look t.dev.jobs.running (128 + 8 * q + e) = some { x with spec := Tab.put x.spec (x.pos + ahead) b, trays := x.trays.filter (fun a => a.index != some (x.pos + ahead)) })) ∧
  -- FILTER_ROWS (R440, R441)
  (∀ (s : State) (q rows n : Nat) (found : Ecc) (j : Job) (x y : Quantum),
      (q < 4) →
      (Tab.look s.dev.jobs.running (130 + 8 * q) = some x) →
      (x.parked = false) →
      (s.dev.job (x.quad * 256 + x.job) = some j) →
      (n = min (min rows (65536 / max 1 (JD.param j.pkt.payload x.node 1))) (x.first + x.count - x.pos)) →
      (0 < n) →
      (s.dev.unitWaits (130 + 8 * q) = false) →
      ((Dev.partRuns (130 + 8 * q) (fun env _ => QM.filterStep q env x.pos n) s.mem (s.dev.strike found)).bind (fun r => Tab.look r.2.jobs.running (130 + 8 * q)) = some y) →
      Runs (.filterRows q rows x.pos found) s (fun t => Tab.look t.dev.jobs.running (130 + 8 * q) = some { y with pos := y.pos + n, xlat := [], translated := true, trays := y.trays.filter (fun a => a.write || a.index.isSome) } ∧
        (Dev.partRuns (130 + 8 * q) (fun env _ => QM.filterStep q env x.pos n) s.mem (s.dev.strike found)).map Prod.fst = some t.mem)) ∧
  -- BLOCK_DECODE (R449, R459)
  (∀ (s : State) (tile nblk blk idx idxNext opLen waited : Nat) (block : Bytes) (x y : Quantum),
      (tile < 120) →
      (Tab.look s.dev.jobs.running tile = some x) →
      (x.parked = false) →
      (s.dev.unitWaits tile = false) →
      (nblk = nblkOf opLen) →
      (blk < nblk) →
      ((Dev.partRuns tile (fun env _ => QM.decodeAhead env x.cut opLen blk waited (idx, idxNext, block)) s.mem s.dev).bind (fun r => Tab.look r.2.jobs.running tile) = some y) →
      Runs (.blockDecode tile nblk blk idx idxNext opLen block waited) s (fun t => Tab.look t.dev.jobs.running tile = some { y with xlat := [], translated := true, trays := y.trays.filter (fun a => a.write || a.index.isSome) } ∧
        (Dev.partRuns tile (fun env _ => QM.decodeAhead env x.cut opLen blk waited (idx, idxNext, block)) s.mem s.dev).map Prod.fst = some t.mem ∧
        (Dev.partRuns tile (fun env _ => QM.decodeAhead env x.cut opLen blk waited (idx, idxNext, block)) s.mem s.dev).map (fun r => r.2.reg (Reg.blocksExpanded (tile / 30))) =
          some (t.dev.reg (Reg.blocksExpanded (tile / 30))))) ∧
  -- BLOCK_DECODE (R449, R459)
  (∀ (s : State) (tile nblk blk idx idxNext opLen waited st : Nat) (block : Bytes) (x : Quantum),
      (tile < 120) →
      (Tab.look s.dev.jobs.running tile = some x) →
      (x.parked = false) →
      (s.dev.unitWaits tile = false) →
      (nblk = nblkOf opLen) →
      (blk < nblk) →
      (Dev.partFails tile (fun env _ => QM.decodeAhead env x.cut opLen blk waited (idx, idxNext, block)) s.mem s.dev = some st) →
      Runs (.blockDecode tile nblk blk idx idxNext opLen block waited) s (fun t => Tab.look t.dev.jobs.running tile = none)) ∧
  -- TABLE_BUFFER_WAIT (R464)
  (∀ (s : State) (q tile i : Nat) (sl : TickSlot) (j : Job),
      (tile < 120) →
      (tile / 30 = q) →
      (s.dev.tileHeld tile = false) →
      (Tab.look s.dev.jobs.slots tile = some sl) →
      (s.dev.job sl.job = some j) →
      (sl.tick = s.dev.tick) →
      ((s.dev.freeUnits (sl.job / 256)).contains tile = true) →
      (s.dev.jobReady sl.job j tile = true) →
      ((List.range (JD.nnodes j.pkt.payload)).find? (s.dev.nodeReady sl.job j tile) = some i) →
      (Dev.wantsTable j.pkt.payload i = true) →
      (i < j.nodes.length) →
      (s.dev.tableFree sl.job i = false) →
      Runs (.tableBufferWait q tile) s (fun t => t.mem = s.mem ∧ t.dev.jobs.running = s.dev.jobs.running ∧ Tab.look t.dev.jobs.slots tile = some { sl with used := tickCycles } ∧
        (t.dev.job sl.job).map (fun j => (j.nodes.getD i {}).tableWait) = some true))

/-- A PRESENT member declared failed reads FAILED and takes a REDUNDANT group to DEGRADED (R476), whether a home or the dictionary declares it,
  one under rebuild too, which then restarts (R485), and with two others FAILED the group is LOST (R486). A tray that disputes the entry's version
  ends the request (R492). The
  edge after gives it the lowest free spare and starts the rebuild at stripe 0 (R480); a step reads K units of the next stripe,
  and the cursor moves past it once its writes have completed (R481), a
  restart returns it to 0 (R485). An entry still in TRANSITION three ticks after its tick is STABLE again at its old home with a new EPOCH (R491); a
  stripe of the resync pass is read whole and is
  verified once its writes have completed (R493); a step fence is asked for and ends with its tick shown (R494). -/
def Obligations.StripeGroupsFailAndRebuild : Prop :=
  -- MEMBER_FAILED (R476)
  (∀ (s : State) (g m : Nat),
      (SG.gstate (s.dev.sg g) = 1) →
      (SG.k (s.dev.sg g) ≤ 14) →
      (m < SG.k (s.dev.sg g) + 2) →
      ((List.range (SG.k (s.dev.sg g) + 2)).all (fun n => SG.mstate (s.dev.sg g) n = 0) = true) →
      ((s.dev.home (SG.quad (s.dev.sg g))).ops = []) →
      Runs (.memberFailed g m) s (fun t => t.mem = s.mem ∧ SG.mstate (t.dev.sg g) m = 1 ∧ SG.gstate (t.dev.sg g) = 2 ∧ SG.member (t.dev.sg g) m = SG.member (s.dev.sg g) m)) ∧
  -- MEMBER_FAILED (R476, R485)
  (∀ (s : State) (g m n : Nat),
      (SG.gstate (s.dev.sg g) = 3) →
      (SG.k (s.dev.sg g) ≤ 14) →
      (m < SG.k (s.dev.sg g) + 2) →
      (n < SG.k (s.dev.sg g) + 2) →
      (n ≠ m) →
      ((List.range (SG.k (s.dev.sg g) + 2)).all (fun x => x = n || SG.mstate (s.dev.sg g) x = 0) = true) →
      (SG.mstate (s.dev.sg g) n = 2) →
      ((s.dev.home (SG.quad (s.dev.sg g))).ops = []) →
      Runs (.memberFailed g m) s (fun t => t.mem = s.mem ∧ SG.mstate (t.dev.sg g) m = 1 ∧ SG.gstate (t.dev.sg g) = 2 ∧ (t.dev.group g).restart = true ∧
        (t.dev.group g).held = some s.dev.tick)) ∧
  -- MEMBER_FAILED (R476, R486)
  (∀ (s : State) (g m : Nat),
      (SG.gstate (s.dev.sg g) = 2) →
      (SG.k (s.dev.sg g) ≤ 14) →
      (m < SG.k (s.dev.sg g) + 2) →
      (SG.mstate (s.dev.sg g) m = 0) →
      (((List.range (SG.k (s.dev.sg g) + 2)).filter (fun n => SG.mstate (s.dev.sg g) n = 1)).length = 2) →
      ((s.dev.home (SG.quad (s.dev.sg g))).ops = []) →
      ((s.dev.home (SG.quad (s.dev.sg g))).merges = []) →
      Runs (.memberFailed g m) s (fun t => t.mem = s.mem ∧ SG.mstate (t.dev.sg g) m = 1 ∧ SG.gstate (t.dev.sg g) = 4)) ∧
  -- FAIL_MEMBER (R476)
  (∀ (s : State) (acc g m : Nat),
      (s.dev.mayWriteKey acc Reg.sgCmd = true) →
      (g = s.dev.regAs acc Reg.sgSelect) →
      (m = s.dev.regAs acc Reg.sgMember) →
      (SG.gstate (s.dev.sg g) = 1) →
      (SG.k (s.dev.sg g) ≤ 14) →
      (m < SG.k (s.dev.sg g) + 2) →
      ((List.range (SG.k (s.dev.sg g) + 2)).all (fun n => SG.mstate (s.dev.sg g) n = 0) = true) →
      ((s.dev.home (SG.quad (s.dev.sg g))).ops = []) →
      Runs (.failMember acc) s (fun t => t.mem = s.mem ∧ SG.mstate (t.dev.sg g) m = 1 ∧ SG.gstate (t.dev.sg g) = 2)) ∧
  -- REBUILD_START (R480)
  (∀ (s : State) (g m i : Nat) (rest : List Nat),
      (SG.gstate (s.dev.sg g) = 2) →
      (SG.k (s.dev.sg g) ≤ 14) →
      (m < SG.k (s.dev.sg g) + 2) →
      (SG.mstate (s.dev.sg g) m = 1) →
      ((s.dev.group g).restart = false) →
      (s.dev.edgePast g = true) →
      (s.dev.freeSpares g = i :: rest) →
      (s.dev.groupServed g = true) →
      Runs (.rebuildStart g m) s (fun t => t.mem = s.mem ∧ SG.mstate (t.dev.sg g) m = 2 ∧ SG.gstate (t.dev.sg g) = 3 ∧ SG.cursor (t.dev.sg g) = 0 ∧
        Tab.look (t.dev.group g).spareOf m = some i)) ∧
  -- REBUILD_STRIPE (R481)
  (∀ (s : State) (g no hm st q k : Nat),
      (s.dev.hmapOfGroup g = some (no, hm)) →
      (SG.gstate (s.dev.sg g) = 3) →
      (SG.mask (s.dev.sg g) ≠ 0) →
      ((s.dev.group g).restart = false) →
      (s.dev.edgePast g = true) →
      (s.dev.backReady = true) →
      (s.dev.groupServed g = true) →
      (s.dev.ownStripe hm (SG.cursor (s.dev.sg g)) = some st) →
      (st < SG.stripes (s.dev.sg g)) →
      (q = SG.quad (s.dev.sg g)) →
      (k = SG.k (s.dev.sg g)) →
      (1 ≤ k) →
      ((s.dev.home q).ops = []) →
      ((s.dev.home q).subs = []) →
      ((List.range k).any (s.dev.pastEnd g hm st) = false) →
      (k ≤ ((List.range (k + 2)).filter (fun u => (s.dev.unitTray g st u).isSome)).length) →
      Runs (.rebuildStripe g no st) s (fun t => t.mem = s.mem ∧ t.dev.sg g = s.dev.sg g ∧ (t.dev.home q).subs.map (fun b => (b.op, b.role, b.write, b.addr, b.len, b.cls)) =
          (((List.range (k + 2)).filter (fun u => (s.dev.unitTray g st u).isSome)).take k).map (fun u =>
            ((s.dev.home q).nextOp, u, false, SG.gbase (s.dev.sg g) + st * 4096, 4096, 7)))) ∧
  -- TRAY_RESP (R481)
  (∀ (s : State) (n q g m : Nat) (p : Packet) (b : TraySub) (op : HomeOp),
      (s.dev.isActive n = true) →
      (s.dev.role n = 0) →
      (p.ptype = .resp) →
      (p.cls ≠ 7) →
      (fieldsOk p = true) →
      (p.enc = false) →
      (s.dev.rightsOk (.port n) p = true) →
      (s.dev.findSub n p = some (q, b)) →
      (s.dev.opOf q b.op = some op) →
      ((s.dev.home q).ops = [op]) →
      ((s.dev.home q).subs = [b]) →
      (op.kind = .rebuild) →
      (op.atoms = []) →
      (op.grp = some g) →
      (op.phase = 2) →
      (b.role < 200) →
      (p.epoch = HMap.epoch (s.dev.reg (Reg.hmapActive b.hmapNo))) →
      (p.status = 0) →
      (s.dev.ownStripe op.hmap (op.stripe + 1) = some m) →
      (m < SG.stripes (s.dev.sg g)) →
      Runs (.trayResp n p) s (fun t => t.mem = s.mem ∧ SG.cursor (t.dev.sg g) = op.stripe + 1 ∧ SG.gstate (t.dev.sg g) = SG.gstate (s.dev.sg g) ∧ (t.dev.home q).ops = [])) ∧
  -- TRAY_RESP (R492)
  (∀ (s : State) (n q : Nat) (p : Packet) (b : TraySub) (op : HomeOp),
      (s.dev.isActive n = true) →
      (s.dev.role n = 0) →
      (p.ptype = .resp) →
      (p.cls ≠ 7) →
      (fieldsOk p = true) →
      (p.enc = false) →
      (s.dev.rightsOk (.port n) p = true) →
      (s.dev.findSub n p = some (q, b)) →
      (s.dev.opOf q b.op = some op) →
      ((s.dev.home q).ops = [op]) →
      (op.kind = .read) →
      (op.atoms = []) →
      (op.grp = none) →
      (op.phase = 1) →
      (p.epoch = HMap.epoch (s.dev.reg (Reg.hmapActive b.hmapNo))) →
      (p.status = St.unmapped) →
      Runs (.trayResp n p) s (fun t => t.mem = s.mem ∧ (t.dev.home q).ops = [] ∧ t.dev.reg Reg.epochDisputes = (s.dev.bump Reg.epochDisputes).reg Reg.epochDisputes ∧
        t.dev.reg Reg.homeLost = (s.dev.bump Reg.homeLost).reg Reg.homeLost)) ∧
  -- REBUILD_RESTART (R485)
  (∀ (s : State) (g : Nat),
      (SG.gstate (s.dev.sg g) = 2 ∨ SG.gstate (s.dev.sg g) = 3) →
      ((s.dev.group g).restart = true) →
      (s.dev.edgePast g = true) →
      (s.dev.groupServed g = true) →
      (SG.mask (s.dev.sg g) ≠ 0) →
      ((List.range (SG.k (s.dev.sg g) + 2)).any (fun m => SG.mstate (s.dev.sg g) m = 1) = false) →
      Runs (.rebuildRestart g) s (fun t => t.mem = s.mem ∧ SG.cursor (t.dev.sg g) = 0 ∧ SG.gstate (t.dev.sg g) = 3 ∧ (t.dev.group g).restart = false)) ∧
  -- TRANSITION_REVERT (R491)
  (∀ (s : State) (i e : Nat),
      (s.dev.reg (Reg.hmapActive i) = e) →
      (HMap.state e = 2) →
      (HMap.transTick e + 3 ≤ s.dev.tick) →
      Runs (.transitionRevert i) s (fun t => t.mem = s.mem ∧ HMap.state (t.dev.reg (Reg.hmapActive i)) = 1 ∧ HMap.home (t.dev.reg (Reg.hmapActive i)) = HMap.home e ∧
        HMap.epoch (t.dev.reg (Reg.hmapActive i)) = (HMap.epoch e + 1) % 2 ^ 16)) ∧
  -- RESYNC_STRIPE (R493)
  (∀ (s : State) (g st no hm q k : Nat),
      (s.dev.hmapOfGroup g = some (no, hm)) →
      (SG.gstate (s.dev.sg g) = 1) →
      (s.dev.backReady = true) →
      (st < SG.stripes (s.dev.sg g)) →
      (s.dev.ownStripe hm st = some st) →
      (s.dev.stripeUnverified g hm st = true) →
      (s.dev.groupServed g = true) →
      (q = SG.quad (s.dev.sg g)) →
      (k = SG.k (s.dev.sg g)) →
      (1 ≤ k) →
      ((s.dev.home q).ops = []) →
      ((s.dev.home q).subs = []) →
      ((List.range k).any (s.dev.pastEnd g hm st) = false) →
      ((List.range k).all (fun u => (s.dev.unitTray g st u).isSome) = true) →
      Runs (.resyncStripe g st no q (HMap.epoch hm)) s (fun t => t.mem = s.mem ∧ t.dev.sg g = s.dev.sg g ∧ (t.dev.home q).subs.map (fun b => (b.op, b.role, b.write, b.addr, b.len, b.cls)) =
          ((List.range (k + 2)).filter (fun u => (s.dev.unitTray g st u).isSome)).map (fun u =>
            ((s.dev.home q).nextOp, u, false, SG.gbase (s.dev.sg g) + st * 4096, 4096, 7)))) ∧
  -- TRAY_RESP (R493)
  (∀ (s : State) (n q g : Nat) (p : Packet) (b : TraySub) (op : HomeOp),
      (s.dev.isActive n = true) →
      (s.dev.role n = 0) →
      (p.ptype = .resp) →
      (p.cls ≠ 7) →
      (fieldsOk p = true) →
      (p.enc = false) →
      (s.dev.rightsOk (.port n) p = true) →
      (s.dev.findSub n p = some (q, b)) →
      (s.dev.opOf q b.op = some op) →
      ((s.dev.home q).ops = [op]) →
      ((s.dev.home q).subs = [b]) →
      (op.kind = .resync) →
      (op.atoms = []) →
      (op.grp = some g) →
      (op.phase = 2) →
      (b.role < 200) →
      (p.epoch = HMap.epoch (s.dev.reg (Reg.hmapActive b.hmapNo))) →
      (p.status = 0) →
      Runs (.trayResp n p) s (fun t => t.mem = s.mem ∧ t.dev.sg g = s.dev.sg g ∧ (t.dev.home q).ops = [] ∧ ∀ u ∈ (t.dev.group g).unverified, op.stripe ∈ u.done)) ∧
  -- STEP_FENCE_REQ (R494)
  (∀ (s : State) (acc c : Nat),
      (s.dev.mayWriteKey acc Reg.stepFenceReq = true) →
      (c < 64) →
      Runs (.stepFenceReq acc c) s (fun t => t.mem = s.mem ∧ Tab.look t.dev.stepFences c = some {})) ∧
  -- STEP_FENCE_DONE (R494)
  (∀ (s : State) (c n : Nat),
      (Tab.look s.dev.stepFences c = some { tick := some n }) →
      (s.dev.writesBefore c n = false) →
      Runs (.stepFenceDone c) s (fun t => t.mem = s.mem ∧ t.dev.reg (Reg.stepFenceDone c) = n ∧ Tab.look t.dev.stepFences c = none))

/-- A RECOVERY FENCE not yet seen fences its composition for the cause it names, at this tick (R507, R508); an EXPEL notice is noted and touches no
  composition and no port state (R661). At the end of the provisional period every provisional item is good (R522), and a readmitted item starts
  again at 1,000 (R523). The delivery engine writes the record of lowest SEQ into the host's log at PROD, which advances by one (R513, R514); a
  CONS write takes its value and lets the vector send again (R279, R514). -/
def Obligations.FencesHealthAndLogs : Prop :=
  -- RECOVERY_FENCE (R507, R508)
  (∀ (s : State) (port : Nat) (m : RecoveryMsg),
      (s.dev.ownId.isSome = true) →
      (s.dev.isActive port = true) →
      (s.dev.role port = 1) →
      (m.comp < 64) →
      (recoveryId { m with op := 1 } ∉ s.dev.dom.seenNotices) →
      (s.dev.fenced m.comp = false) →
      Runs (.recoveryFence port m) s (fun t => t.mem = s.mem ∧ t.dev.fenced m.comp = true ∧ t.dev.reg (Reg.fenceReason m.comp) = m.reason ∧ t.dev.reg (Reg.fenceTick m.comp) = s.dev.tick)) ∧
  -- RECOVERY_EXPEL (R508, R661)
  (∀ (s : State) (port : Nat) (m : RecoveryMsg),
      (s.dev.ownId.isSome = true) →
      (s.dev.isActive port = true) →
      (s.dev.role port = 1) →
      (recoveryId { m with op := 2 } ∉ s.dev.dom.seenNotices) →
      Runs (.recoveryExpel port m) s (fun t => t.mem = s.mem ∧ recoveryId { m with op := 2 } ∈ t.dev.dom.seenNotices ∧ t.dev.reg Reg.fenced = s.dev.reg Reg.fenced ∧ t.dev.health = s.dev.health ∧
        ∀ p, t.dev.portState p = s.dev.portState p)) ∧
  -- PROVISIONAL_END (R522)
  (∀ (s : State),
      (s.dev.health.matured = false) →
      (s.dev.health.provisionalEnd ≤ s.dev.tick) →
      Runs (.provisionalEnd) s (fun t => t.mem = s.mem ∧ t.dev.health.matured = true ∧ ∀ i h, Tab.look t.dev.health.items i = some h → h.state ≠ 0)) ∧
  -- HEALTH_READMIT (R523)
  (∀ (s : State) (acc i : Nat) (h : Health),
      (s.dev.mayWriteKey acc Reg.readmit = true) →
      (i < 0x3000) →
      (itemKind i = 0 → itemNo i < 384) →
      (Tab.look s.dev.health.items i = some h) →
      Runs (.healthReadmit acc i) s (fun t => t.mem = s.mem ∧ Tab.look t.dev.health.items i = some { score := 1000, state := 1 })) ∧
  -- EVENT_DELIVERY (R513, R514)
  (∀ (s : State) (h : HostId) (l slot : Nat) (r : LogRec),
      (s.dev.nextForHost h l = some (slot, r)) →
      ((s.dev.host h).up = true) →
      (s.dev.evlogFull h = false) →
      Runs (.eventDelivery h l) s (fun t => t.mem = s.mem ∧ .hostWrite h (s.dev.evlogBase h + s.dev.reg (Dev.evlogProdKey h) % 4096 * 64) r.bytes ∈ t.dev.out ∧
        t.dev.reg (Dev.evlogProdKey h) = (s.dev.reg (Dev.evlogProdKey h) + 1) % 65536)) ∧
  -- EVLOG_CONS_WRITE (R514)
  (∀ (s : State) (h : HostId) (c : Nat),
      (s.dev.mayWriteKey (Dev.hostAcc h) (Dev.evlogConsKey h) = true) →
      Runs (.evlogConsWrite h c) s (fun t => t.mem = s.mem ∧ t.dev.reg (Dev.evlogConsKey h) = c % 65536 ∧ (t.dev.host h).armed0 = true)) ∧
  -- FLOG_CONS_WRITE (R279)
  (∀ (s : State) (h : HostId) (c : Nat),
      (s.dev.mayWriteKey (Dev.hostAcc h) (Dev.flogConsKey h) = true) →
      Runs (.flogConsWrite h c) s (fun t => t.mem = s.mem ∧ t.dev.reg (Dev.flogConsKey h) = c % 65536 ∧ (t.dev.host h).armed1 = true))

/-- The watchdog's restart ends every session (R578) and, unless it was the third of 2^20 ticks, Campion runs again. HELLO takes the lowest free
  session slot (R582, R584), ACCEPT opens it exactly where the client's chain and signature hold (R581, R583). A request of an open session with a
  new counter is answered with what its access gives, one with a REQ_ID still held from the cache with no second effect (R585), in a RESP sealed with
  the session's key under its next counter (R582, R583). SUBSCRIBE sets the
  mask (R586); CLOSE and 60 s of silence end the session (R582, R584). -/
def Obligations.ManagementSessions : Prop :=
  -- CAMPION_WATCHDOG (R578)
  (∀ (s : State),
      (s.dev.campionUp = true) →
      Runs (.campionWatchdog) s (fun t => t.mem = s.mem ∧ t.dev.reg Reg.campionState = 1 ∧ ∀ k, k < 4 → Tab.look t.dev.mgmt.cmp k = none)) ∧
  -- CAMPION_RESTART_DONE (R578)
  (∀ (s : State),
      (s.dev.power.on = true) →
      (s.dev.reg Reg.campionState = 1) →
      Runs (.campionRestartDone) s (fun t => t.mem = s.mem ∧ t.dev.reg Reg.campionState = if 3 ≤ s.dev.mgmt.restarts.length then 2 else 0)) ∧
  -- CMP_HELLO (R582, R584)
  (∀ (s : State) (m : SessMsg) (k : Nat),
      (s.dev.cmpServed = true) →
      (32 ≤ m.body.length) →
      ((List.range 4).find? (fun k => !Tab.has s.dev.mgmt.cmp k) = some k) →
      Runs (.cmpHello m) s (fun t => t.mem = s.mem ∧ (Tab.look t.dev.mgmt.cmp k).map (fun x => (x.state, x.helloBody)) = some (1, m.body))) ∧
  -- CMP_ACCEPT (R581, R583)
  (∀ (s : State) (m : SessMsg) (x : CmpSession),
      (Tab.look s.dev.mgmt.cmp m.session = some x) →
      (s.dev.cmpServed = true) →
      (x.state = 1) →
      Runs (.cmpAccept m) s (fun t => t.mem = s.mem ∧ (Tab.look t.dev.mgmt.cmp m.session).map (·.state) =
        if (Config.certChain (x.helloBody.drop 32) (leBytes 32 (s.dev.reg Reg.mgmtCaHash))).any (fun pk => Config.mldsaVerify pk
            (Config.shake256 (x.helloBody ++ x.offerBody ++ m.body.take 1088) 64) (m.body.drop 1088)) = true then some 2 else none)) ∧
  -- CMP_READ (R583, R585)
  (∀ (s : State) (n c id len : Nat) (e : EntryRef) (x : CmpSession),
      (s.dev.cmpFor n c = some x) →
      (x.cache.find? (fun r => r.1 = id) = none) →
      Runs (.cmpRead n c id e len) s (fun t => (∀ y, Tab.look ((World.mk s.fuses s.mem (s.dev.takeCounter n c)).readAcc n e len).2.2.dev.mgmt.cmp n = some y →
          .cmp n (Dev.cmpMsg y n 7 ((World.mk s.fuses s.mem (s.dev.takeCounter n c)).readAcc n e len).1 (Dev.cmpAnswer id ((World.mk s.fuses s.mem (s.dev.takeCounter n c)).readAcc n e len).2.1)) ∈ t.dev.out) ∧
        t.mem = s.mem ∧ t.fuses = s.fuses)) ∧
  -- CMP_READ (R585)
  (∀ (s : State) (n c id len : Nat) (e : EntryRef) (x : CmpSession) (st : Nat) (bs : Bytes),
      (s.dev.cmpFor n c = some x) →
      (x.cache.find? (fun r => r.1 = id) = some (id, st, bs)) →
      Runs (.cmpRead n c id e len) s (fun t => .cmp n (Dev.cmpMsg x n 7 st (Dev.cmpAnswer id bs)) ∈ t.dev.out ∧ t.dev.regs = s.dev.regs ∧ t.mem = s.mem ∧ t.fuses = s.fuses)) ∧
  -- CMP_WRITE (R583, R585)
  (∀ (s : State) (n c id : Nat) (e : EntryRef) (data : Bytes) (x : CmpSession),
      (s.dev.cmpFor n c = some x) →
      (x.cache.find? (fun r => r.1 = id) = none) →
      Runs (.cmpWrite n c id e data) s (fun t => (∀ y, Tab.look ((World.mk s.fuses s.mem (s.dev.takeCounter n c)).writeAcc n e data).2.dev.mgmt.cmp n = some y →
          .cmp n (Dev.cmpMsg y n 7 ((World.mk s.fuses s.mem (s.dev.takeCounter n c)).writeAcc n e data).1 (Dev.cmpAnswer id [])) ∈ t.dev.out) ∧
        t.mem = ((World.mk s.fuses s.mem (s.dev.takeCounter n c)).writeAcc n e data).2.mem ∧
        t.fuses = ((World.mk s.fuses s.mem (s.dev.takeCounter n c)).writeAcc n e data).2.fuses)) ∧
  -- CMP_WRITE (R585)
  (∀ (s : State) (n c id : Nat) (e : EntryRef) (data : Bytes) (x : CmpSession) (st : Nat) (bs : Bytes),
      (s.dev.cmpFor n c = some x) →
      (x.cache.find? (fun r => r.1 = id) = some (id, st, bs)) →
      Runs (.cmpWrite n c id e data) s (fun t => .cmp n (Dev.cmpMsg x n 7 st (Dev.cmpAnswer id bs)) ∈ t.dev.out ∧ t.dev.regs = s.dev.regs ∧ t.mem = s.mem ∧ t.fuses = s.fuses)) ∧
  -- CMP_SUBSCRIBE (R586)
  (∀ (s : State) (n c mask : Nat) (x : CmpSession),
      (s.dev.cmpFor n c = some x) →
      Runs (.cmpSubscribe n c mask) s (fun t => t.mem = s.mem ∧ (Tab.look t.dev.mgmt.cmp n).map (·.mask) = some (mask % 256))) ∧
  -- CMP_CLOSE (R582)
  (∀ (s : State) (n c : Nat) (x : CmpSession),
      (s.dev.cmpFor n c = some x) →
      Runs (.cmpClose n c) s (fun t => t.mem = s.mem ∧ Tab.look t.dev.mgmt.cmp n = none)) ∧
  -- CMP_IDLE_TIMEOUT (R584)
  (∀ (s : State) (n : Nat) (x : CmpSession),
      (Tab.look s.dev.mgmt.cmp n = some x) →
      (s.dev.campionUp = true) →
      (x.last + 12000000 ≤ s.dev.tick) →
      Runs (.cmpIdleTimeout n) s (fun t => t.mem = s.mem ∧ Tab.look t.dev.mgmt.cmp n = none))

/-- A mailbox command is DONE with the status of its access, and a good read leaves the data in its buffer (R589). An SMBus selection keeps the entry
  and the status of the checks, a read answers that status or the data, and the alert response releases ALERT_N (R595). The console answers its
  reads and writes (R597). A report read gives out the report made for the accessor's nonce and composition (R536, R606). -/
def Obligations.HostsSmbusAndConsoleReachTheDictionary : Prop :=
  -- REPORT_READ (R536, R606)
  (∀ (s : State) (acc len : Nat),
      (s.dev.mayRead s.fuses.ownerHash.isSome acc 0x6000 0x06 0 len = true) →
      Runs (.reportRead acc 0 len) s (fun t => t.mem = s.mem ∧ t.dev.out = s.dev.out ++ [.report (slice (Dev.reportFor s.fuses s.dev acc) 0 len)])) ∧
  -- MB_READ (R589, R608)
  (∀ (s : State) (h : HostId) (addr off len : Nat),
      (s.dev.accLive (Dev.hostAcc h) = true) →
      Runs (.mbRead h addr off len) s (fun t => t.mem = s.mem ∧ t.fuses = s.fuses ∧
        (t.dev.host h).mbStatus = 2 + ((World.mk s.fuses s.mem s.dev).readAcc (Dev.hostAcc h) { index := bits addr 0 16, sub := bits addr 16 8, offset := off } len).1 * 256 ∧
        (((World.mk s.fuses s.mem s.dev).readAcc (Dev.hostAcc h) { index := bits addr 0 16, sub := bits addr 16 8, offset := off } len).1 = 0 →
          (t.dev.host h).mbData = splice (s.dev.host h).mbData 0
            ((World.mk s.fuses s.mem s.dev).readAcc (Dev.hostAcc h) { index := bits addr 0 16, sub := bits addr 16 8, offset := off } len).2.1))) ∧
  -- MB_WRITE (R589, R608)
  (∀ (s : State) (h : HostId) (addr off : Nat) (data : Bytes),
      ((World.mk s.fuses s.mem s.dev).writeReady (Dev.hostAcc h) { index := bits addr 0 16, sub := bits addr 16 8, offset := off } = true) →
      Runs (.mbWrite h addr off data) s (fun t => t.mem = ((World.mk s.fuses s.mem s.dev).writeAcc (Dev.hostAcc h) { index := bits addr 0 16, sub := bits addr 16 8, offset := off } data).2.mem ∧
        t.fuses = ((World.mk s.fuses s.mem s.dev).writeAcc (Dev.hostAcc h) { index := bits addr 0 16, sub := bits addr 16 8, offset := off } data).2.fuses ∧
        (t.dev.host h).mbStatus = 2 + ((World.mk s.fuses s.mem s.dev).writeAcc (Dev.hostAcc h) { index := bits addr 0 16, sub := bits addr 16 8, offset := off } data).1 * 256)) ∧
  -- SMBUS_SELECT (R595)
  (∀ (s : State) (e : EntryRef),
      (s.dev.accLive 0x20 = true) →
      Runs (.smbusSelect e) s (fun t => t.mem = s.mem ∧ t.dev.mgmt.smbus = some e ∧
        t.dev.mgmt.smbusStatus = s.dev.accCheck s.fuses.ownerHash.isSome 0x20 false e.index e.sub e.offset (Dev.smbusLen e))) ∧
  -- SMBUS_READ (R595)
  (∀ (s : State) (len : Nat) (e : EntryRef),
      (s.dev.accLive 0x20 = true) →
      (s.dev.mgmt.smbus = some e) →
      (s.dev.mgmt.smbusStatus = 0) →
      ((entryOf e.index e.sub).any Entry.octets = false) →
      Runs (.smbusRead len) s (fun t => t.mem = s.mem ∧ t.dev.out = s.dev.out ++ [.smbus ((World.mk s.fuses s.mem s.dev).readAcc 0x20 e (Dev.smbusLen e)).1
          ((World.mk s.fuses s.mem s.dev).readAcc 0x20 e (Dev.smbusLen e)).2.1])) ∧
  -- SMBUS_READ (R595)
  (∀ (s : State) (len : Nat) (e : EntryRef),
      (s.dev.accLive 0x20 = true) →
      (s.dev.mgmt.smbus = some e) →
      (s.dev.mgmt.smbusStatus ≠ 0) →
      Runs (.smbusRead len) s (fun t => t.mem = s.mem ∧ t.dev.out = s.dev.out ++ [.smbus s.dev.mgmt.smbusStatus []])) ∧
  -- SMBUS_STATUS (R595)
  (∀ (s : State),
      (s.dev.accLive 0x20 = true) →
      Runs (.smbusStatus) s (fun t => t.mem = s.mem ∧ t.dev.out = s.dev.out ++ [.smbus s.dev.mgmt.smbusStatus (leBytes 1 s.dev.mgmt.smbusStatus)])) ∧
  -- SMBUS_ALERT_RESPONSE (R595)
  (∀ (s : State),
      (s.dev.accLive 0x20 = true) →
      (s.dev.mgmt.alertLow = true) →
      Runs (.smbusAlertResponse) s (fun t => t.mem = s.mem ∧ t.dev.mgmt.alertLow = false ∧ t.dev.out = s.dev.out ++ [.smbus 0 (leBytes 1 (s.dev.reg Reg.smbusAddr))])) ∧
  -- CONSOLE_READ (R597)
  (∀ (s : State) (e : EntryRef) (len : Nat),
      (s.dev.accLive 0x30 = true) →
      Runs (.consoleRead e len) s (fun t => t.mem = s.mem ∧ t.dev.out = s.dev.out ++ [.console ((World.mk s.fuses s.mem s.dev).readAcc 0x30 e len).1 ((World.mk s.fuses s.mem s.dev).readAcc 0x30 e len).2.1])) ∧
  -- CONSOLE_WRITE (R597)
  (∀ (s : State) (e : EntryRef) (data : Bytes),
      (s.dev.accLive 0x30 = true) →
      Runs (.consoleWrite e data) s (fun t => t.mem = ((World.mk s.fuses s.mem s.dev).writeAcc 0x30 e data).2.mem ∧ t.fuses = ((World.mk s.fuses s.mem s.dev).writeAcc 0x30 e data).2.fuses ∧
        t.dev.out = ((World.mk s.fuses s.mem s.dev).writeAcc 0x30 e data).2.dev.out ++ [.console ((World.mk s.fuses s.mem s.dev).writeAcc 0x30 e data).1 []]))

/-- The lock is set and, by a CMP session, cleared (R613). The owner's debug hash is programmed once (R614). A mode write takes the block's ports
  down, an enable and a role write move the port as R102 says, the domain entries act while the tick state is FREE (R37). Staged entries that keep
  their rules take their value (R142, R195, R469), as does any entry without an effect of its own (R611). A refused write leaves every entry
  but the three that record it (R617, R619), and reading an RC entry clears it (R14). -/
def Obligations.DictionaryWritesTakeEffect : Prop :=
  -- RC_READ (R14)
  (∀ (s : State) (acc : Nat) (e : EntryRef) (x : Entry),
      (entryOf e.index e.sub = some x) →
      (column acc x = .rc) →
      (x.octets = false) →
      (s.dev.mayRead s.fuses.ownerHash.isSome acc e.index e.sub e.offset x.size = true) →
      Runs (.rcRead acc e) s (fun t => t.mem = s.mem ∧ t.dev.reg (s.dev.keyAs acc e.index e.sub) = 0 ∧
        .report (slice (Dev.viewBytes s.fuses s.dev acc (s.dev.keyAs acc e.index e.sub) x) e.offset x.size) ∈ t.dev.out)) ∧
  -- CFG_LOCK_SET (R613)
  (∀ (s : State) (acc : Nat),
      (s.dev.mayWrite s.fuses.ownerHash.isSome acc 0x1000 0x0D = true) →
      Runs (.cfgLockSet acc) s (fun t => t.mem = s.mem ∧ t.fuses = s.fuses ∧ t.dev.reg Reg.cfgLock = 1)) ∧
  -- CFG_LOCK_CLEAR (R613)
  (∀ (s : State) (acc : Nat),
      (s.dev.mayWrite s.fuses.ownerHash.isSome acc 0x1000 0x0D = true) →
      (acc < 4) →
      Runs (.cfgLockClear acc) s (fun t => t.mem = s.mem ∧ t.fuses = s.fuses ∧ t.dev.reg Reg.cfgLock = 0)) ∧
  -- OWNER_DEBUG_HASH_WRITE (R614)
  (∀ (s : State) (acc : Nat) (hash : Bytes),
      (s.fuses.ownerHash = none) →
      (s.dev.mayWrite false acc 0x6000 0x1B = true) →
      (hash.length = 32) →
      Runs (.ownerDebugHashWrite acc hash) s (fun t => t.mem = s.mem ∧ t.fuses = { s.fuses with ownerHash := some (leNat hash) })) ∧
  -- PB_MODE_WRITE (R105)
  (∀ (s : State) (acc b mode : Nat),
      (b < 96) →
      (mode ≤ 2) →
      (s.dev.mayWrite s.fuses.ownerHash.isSome acc (keyIdx (Reg.pbMode b)) (keySub (Reg.pbMode b)) = true) →
      Runs (.pbModeWrite acc b mode) s (fun t => t.mem = s.mem ∧ t.dev.reg (Reg.pbMode b) = mode ∧ ∀ p ∈ s.dev.portsOfBlock b, t.dev.portState p ≤ 1)) ∧
  -- PORT_ENABLE_WRITE (R102)
  (∀ (s : State) (acc p : Nat),
      (p < 384) →
      (s.dev.mayWrite s.fuses.ownerHash.isSome acc (keyIdx (Reg.portEnable p)) (keySub (Reg.portEnable p)) = true) →
      Runs (.portEnableWrite acc p 0) s (fun t => t.mem = s.mem ∧ t.dev.reg (Reg.portEnable p) = 0 ∧ t.dev.portState p = 0)) ∧
  -- PORT_ENABLE_WRITE (R102)
  (∀ (s : State) (acc p : Nat),
      (p < 384) →
      (s.dev.mayWrite s.fuses.ownerHash.isSome acc (keyIdx (Reg.portEnable p)) (keySub (Reg.portEnable p)) = true) →
      (s.dev.role p ≠ 3) →
      (s.dev.portState p = 0) →
      Runs (.portEnableWrite acc p 1) s (fun t => t.mem = s.mem ∧ t.dev.reg (Reg.portEnable p) = 1 ∧ t.dev.portState p = 1)) ∧
  -- PORT_ROLE_WRITE (R102, R611)
  (∀ (s : State) (acc p v : Nat),
      (p < 384) →
      (v ≤ 2) →
      (s.dev.mayWrite s.fuses.ownerHash.isSome acc (keyIdx (Reg.portRole p)) (keySub (Reg.portRole p)) = true) →
      (s.dev.portState p = 6) →
      Runs (.portRoleWrite acc p 0x20 v) s (fun t => t.mem = s.mem ∧ t.dev.role p = v ∧ t.dev.portState p = 1)) ∧
  -- DOMAIN_ID_WRITE (R37, R611)
  (∀ (s : State) (acc v : Nat),
      (v < 65536) →
      (s.dev.mayWrite s.fuses.ownerHash.isSome acc 0x8000 1 = true) →
      Runs (.domainIdWrite acc 1 v) s (fun t => t.mem = s.mem ∧ t.dev.reg Reg.domId = v ∧ t.dev.dom.domId = if s.dev.reg Reg.tickState = 0 then v else s.dev.dom.domId)) ∧
  -- DOMAIN_ID_WRITE (R37, R611)
  (∀ (s : State) (acc v : Nat),
      (v < 32) →
      (s.dev.mayWrite s.fuses.ownerHash.isSome acc 0x8000 2 = true) →
      Runs (.domainIdWrite acc 2 v) s (fun t => t.mem = s.mem ∧ t.dev.reg Reg.switchId = v ∧ t.dev.dom.swId = if s.dev.reg Reg.tickState = 0 then v else s.dev.dom.swId)) ∧
  -- HMAP_STAGE (R142)
  (∀ (s : State) (acc : Nat) (x : Bytes),
      (s.dev.mayWrite s.fuses.ownerHash.isSome acc 0x3400 3 = true) →
      ((entryOf 0x3400 3).map (·.size) = some x.length) →
      (s.dev.hmapEntryOk (leNat x) = true) →
      Runs (.hmapStage acc x) s (fun t => t.mem = s.mem ∧ t.dev.reg (s.dev.keyAs acc 0x3400 3) = leNat x)) ∧
  -- REGION_STAGE (R195)
  (∀ (s : State) (acc : Nat) (x : Bytes),
      (s.dev.mayWrite s.fuses.ownerHash.isSome acc 0x3800 3 = true) →
      ((entryOf 0x3800 3).map (·.size) = some x.length) →
      (s.dev.regionEntryOk (leNat x) = true) →
      Runs (.regionStage acc x) s (fun t => t.mem = s.mem ∧ t.dev.reg (s.dev.keyAs acc 0x3800 3) = leNat x)) ∧
  -- SG_STAGE (R469)
  (∀ (s : State) (acc : Nat) (x : Bytes),
      (s.dev.mayWrite s.fuses.ownerHash.isSome acc 0x5600 3 = true) →
      ((entryOf 0x5600 3).map (·.size) = some x.length) →
      (s.dev.sgEntryOk (leNat x) = true) →
      Runs (.sgStage acc x) s (fun t => t.mem = s.mem ∧ t.dev.reg (s.dev.keyAs acc 0x5600 3) = leNat x)) ∧
  -- DICT_WRITE (R611)
  (∀ (s : State) (acc k : Nat) (e : EntryRef) (data : Bytes) (x : Entry),
      (entryOf e.index e.sub = some x) →
      (e.offset = 0) →
      (data.length = x.size) →
      (x.size ≤ accessLimit acc) →
      (s.dev.mayWrite s.fuses.ownerHash.isSome acc e.index e.sub = true) →
      (s.dev.keyAs acc e.index e.sub = k) →
      (k ∉ [Reg.svnCommit, Reg.debugToken, Reg.ownerDebugHash, Reg.quadOff, Reg.faultResp]) →
      ((Dev.actsA ++ Dev.actsC ++ Dev.actsB).all (fun a => a.1 != entryCode k) = true) →
      (rangeOk k (leNat data) = true) →
      (s.dev.ruleOk k (leNat data) = true) →
      (s.dev.slotFixed k (leNat data) = false) →
      Runs (.dictWrite acc e data) s (fun t => t.mem = s.mem ∧ t.fuses = s.fuses ∧ t.dev.regAs acc k = leNat data)) ∧
  -- DICT_WRITE (R608, R617, R619)
  (∀ (s : State) (acc : Nat) (e : EntryRef) (data : Bytes),
      (s.dev.accLive acc = true) →
      (s.dev.accCheck s.fuses.ownerHash.isSome acc true e.index e.sub e.offset data.length ≠ 0) →
      Runs (.dictWrite acc e data) s (fun t => t.mem = s.mem ∧ t.fuses = s.fuses ∧ ∀ k, k ∉ [Reg.lastReject, Reg.lockedWrites, Reg.rejectedWrites] → t.dev.reg k = s.dev.reg k))

/-- The write of COMMIT is ABORTED with no master known, else PREPARE goes to the master, which takes the next sequence or answers busy (R566). Each
  switch freezes and answers; an announced commit stands under a new master, as does an ANNOUNCE in flight of the one that led, and of no other switch (R55); every READY of the switches heard in the last 4 ticks announces the commit its lead ahead, a NOT_READY or 200 ticks
  without every answer aborts it, and 264 ticks without ANNOUNCE unfreeze a switch (R566, R567). At the edge of the commit tick the staged parts are
  active and the sequence stands (R566, R570). DIRTY fences what changed without a stale switch, and RESYNC waits for its edge (R569). -/
def Obligations.CommitSequence : Prop :=
  -- COMMIT (R566)
  (∀ (s : State) (acc : Nat),
      (s.dev.mayWriteKey acc Reg.commitCmd = true) →
      (s.dev.ownId.isNone = true ∨ s.dev.reg Reg.masterCur = 0xFF) →
      Runs (.commit acc) s (fun t => DeviceOnly s t ∧ t.dev.reg Reg.commitState = 4 ∧ t.dev.reg Reg.commitReason = 1 ∧ t.dev.commit.frozen = none)) ∧
  -- COMMIT (R566)
  (∀ (s : State) (acc : Nat),
      (Rising s.dev.regs) →
      (s.dev.mayWriteKey acc Reg.commitCmd = true) →
      (s.dev.ownId.isSome = true) →
      (s.dev.reg Reg.masterCur ≠ 0xFF) →
      (s.dev.isMaster = false) →
      Runs (.commit acc) s (fun t => DeviceOnly s t ∧ t.dev.commit.taker = true ∧ ∀ p ∈ s.dev.planePorts, Tab.getD (t.dev.port p).txq 5 [] =
        Tab.getD (s.dev.port p).txq 5 [] ++ [s.dev.ctrl 0x03 5 ({ op := 1, sw := s.dev.dom.swId } : CommitMsg).bytes])) ∧
  -- COMMIT (R566)
  (∀ (s : State) (acc : Nat),
      (Rising s.dev.regs) →
      (s.dev.mayWriteKey acc Reg.commitCmd = true) →
      (s.dev.reg Reg.masterCur ≠ 0xFF) →
      (s.dev.isMaster = true) →
      (s.dev.commit.lead = none) →
      (s.dev.commit.announced = none) →
      (s.dev.campionUp = true) →
      Runs (.commit acc) s (fun t => DeviceOnly s t ∧ t.dev.commit.seq = s.dev.reg Reg.commitSeq + 1 ∧
        (∀ p ∈ s.dev.planePorts, ∃ rest, Tab.getD (t.dev.port p).txq 5 [] = Tab.getD (s.dev.port p).txq 5 [] ++
          s.dev.ctrl 0x03 5 ({ op := 1, sw := s.dev.dom.swId, seq := s.dev.reg Reg.commitSeq + 1 } : CommitMsg).bytes :: rest) ∧
        (s.dev.partsOk = true → t.dev.commit.frozen = some s.dev.tick) ∧
        (s.dev.partsOk = false → t.dev.commit.frozen = none ∧ t.dev.reg Reg.commitState = 4 ∧ t.dev.reg Reg.commitReason = 3))) ∧
  -- COMMIT (R55, R566)
  (∀ (s : State) (acc : Nat),
      (Rising s.dev.regs) →
      (s.dev.mayWriteKey acc Reg.commitCmd = true) →
      (s.dev.reg Reg.masterCur ≠ 0xFF) →
      (s.dev.isMaster = true) →
      (s.dev.commit.lead.isSome = true ∨ s.dev.commit.announced.isSome = true) →
      Runs (.commit acc) s (fun t => DeviceOnly s t ∧ t.dev.reg Reg.commitReason = 2 ∧ t.dev.commit.lead = s.dev.commit.lead ∧ t.dev.commit.announced = s.dev.commit.announced ∧ ∀ p ∈ s.dev.planePorts,
        Tab.getD (t.dev.port p).txq 5 [] = Tab.getD (s.dev.port p).txq 5 [] ++
          [s.dev.ctrl 0x03 5 ({ op := 5, reason := 2, sw := s.dev.dom.swId } : CommitMsg).bytes])) ∧
  -- COMMIT_PREPARE (R56, R566)
  (∀ (s : State) (port src : Nat) (m : CommitMsg),
      (Rising s.dev.regs) →
      (s.dev.isActive port = true) →
      (s.dev.role port = 1) →
      (s.dev.ownId.isSome = true) →
      (s.dev.ownId ≠ some src) →
      (s.dev.commit.seen = []) →
      (s.dev.isMaster = false) →
      (s.dev.reg Reg.masterCur = src) →
      (s.dev.campionUp = true) →
      (m.seq ≠ 0) →
      (m.seq = s.dev.reg Reg.commitSeq + 1) →
      (s.dev.partsOk = true) →
      Runs (.commitPrepare port src m) s (fun t => DeviceOnly s t ∧ t.dev.commit.frozen = some s.dev.tick ∧ t.dev.commit.seq = m.seq ∧ t.dev.commit.changed = s.dev.changedComps ∧
        t.dev.reg Reg.commitState = 1 ∧ ∀ p ∈ s.dev.planePorts, Tab.getD (t.dev.port p).txq 5 [] = Tab.getD (s.dev.port p).txq 5 [] ++
          [{ s.dev.ctrl 0x03 5 ({ m with op := 1 } : CommitMsg).bytes with srcSw := src },
           s.dev.ctrl 0x03 5 ({ op := 2, sw := s.dev.dom.swId, seq := m.seq, changed := s.dev.changedComps, digest := Config.shake256 s.dev.stagedBytes 32 } : CommitMsg).bytes])) ∧
  -- COMMIT_PREPARE (R566, R569)
  (∀ (s : State) (port src : Nat) (m : CommitMsg),
      (Rising s.dev.regs) →
      (s.dev.isActive port = true) →
      (s.dev.role port = 1) →
      (s.dev.ownId.isSome = true) →
      (s.dev.ownId ≠ some src) →
      (s.dev.commit.seen = []) →
      (s.dev.isMaster = false) →
      (s.dev.reg Reg.masterCur = src) →
      (s.dev.campionUp = true) →
      (m.seq ≠ 0) →
      (m.seq ≠ s.dev.reg Reg.commitSeq + 1) →
      Runs (.commitPrepare port src m) s (fun t => DeviceOnly s t ∧ t.dev.commit.frozen = some s.dev.tick ∧ ∀ p ∈ s.dev.planePorts, Tab.getD (t.dev.port p).txq 5 [] =
        Tab.getD (s.dev.port p).txq 5 [] ++
          [{ s.dev.ctrl 0x03 5 ({ m with op := 1 } : CommitMsg).bytes with srcSw := src },
           s.dev.ctrl 0x03 5 ({ op := 3, reason := 4, sw := s.dev.dom.swId, seq := m.seq, tick := s.dev.reg Reg.commitSeq } : CommitMsg).bytes])) ∧
  -- COMMIT_READY (R566)
  (∀ (s : State) (port src : Nat) (m : CommitMsg),
      (Rising s.dev.regs) →
      (s.dev.isActive port = true) →
      (s.dev.role port = 1) →
      (s.dev.ownId ≠ some src) →
      (s.dev.commit.seen = []) →
      (s.dev.isMaster = true) →
      (s.dev.commit.lead.isSome = true) →
      (s.dev.commit.announced = none) →
      (m.seq = s.dev.commit.seq) →
      Runs (.commitReady port src m) s (fun t => DeviceOnly s t ∧ bit t.dev.commit.ready src = true ∧ t.dev.commit.announced =
        if ((members 32 s.dev.dom.planeSet).filter (fun w => w = s.dev.dom.swId || (Tab.look s.dev.dom.beacons w).any s.dev.recent)).all
            (fun w => bit (setBit s.dev.commit.ready src true) w) = true
          then some (s.dev.tick + s.dev.reg Reg.commitLead, m.seq, s.dev.commit.union ||| m.changed) else none)) ∧
  -- COMMIT_NOT_READY (R566, R569)
  (∀ (s : State) (port src : Nat) (m : CommitMsg),
      (Rising s.dev.regs) →
      (s.dev.isActive port = true) →
      (s.dev.role port = 1) →
      (s.dev.ownId ≠ some src) →
      (s.dev.commit.seen = []) →
      (s.dev.isMaster = true) →
      (s.dev.commit.lead.isSome = true) →
      (s.dev.commit.announced = none) →
      (m.seq = s.dev.commit.seq) →
      Runs (.commitNotReady port src m) s (fun t => DeviceOnly s t ∧ t.dev.commit.lead = none ∧ t.dev.commit.frozen = none ∧ t.dev.reg Reg.commitState = 4 ∧ t.dev.reg Reg.commitReason = m.reason ∧
        ∀ p ∈ s.dev.planePorts, Tab.getD (t.dev.port p).txq 5 [] = Tab.getD (s.dev.port p).txq 5 [] ++
          ({ s.dev.ctrl 0x03 5 ({ m with op := 3 } : CommitMsg).bytes with srcSw := src } ::
            s.dev.ctrl 0x03 5 ({ op := 5, reason := m.reason, sw := s.dev.dom.swId, seq := m.seq } : CommitMsg).bytes ::
            if m.reason = 4 then [s.dev.ctrl 0x03 5 ({ op := 6, sw := s.dev.dom.swId, seq := m.seq, tick := s.dev.reg Reg.commitSeq, changed := s.dev.changedSince m.tick } : CommitMsg).bytes] else []))) ∧
  -- COMMIT_ANNOUNCE (R55, R566)
  (∀ (s : State) (port src : Nat) (m : CommitMsg),
      (s.dev.isActive port = true) →
      (s.dev.role port = 1) →
      (s.dev.ownId.isSome = true) →
      (s.dev.ownId ≠ some src) →
      (s.dev.commit.seen = []) →
      ((s.dev.isMaster = false ∧ s.dev.reg Reg.masterCur = src) ∨ s.dev.commit.leader = src) →
      (s.dev.commit.frozen.isSome = true) →
      (m.seq = s.dev.commit.seq) →
      Runs (.commitAnnounce port src m) s (fun t => DeviceOnly s t ∧ t.dev.commit.announced = some (m.tick, m.seq, m.changed) ∧ t.dev.reg Reg.commitState = 2 ∧ t.dev.commit.frozen = s.dev.commit.frozen)) ∧
  -- COMMIT_ANNOUNCE (R55, R566)
  (∀ (s : State) (port src : Nat) (m : CommitMsg),
      (s.dev.isActive port = true) →
      (s.dev.role port = 1) →
      (s.dev.ownId.isSome = true) →
      (s.dev.ownId ≠ some src) →
      (s.dev.commit.seen = []) →
      (s.dev.commit.leader ≠ src) →
      (s.dev.reg Reg.masterCur ≠ src) →
      Runs (.commitAnnounce port src m) s (fun t => DeviceOnly s t ∧ t.dev.commit.announced = s.dev.commit.announced ∧ t.dev.commit.frozen = s.dev.commit.frozen ∧ t.dev.regs = s.dev.regs)) ∧
  -- COMMIT_ABORT (R566)
  (∀ (s : State) (port src : Nat) (m : CommitMsg),
      (s.dev.isActive port = true) →
      (s.dev.role port = 1) →
      (s.dev.ownId.isSome = true) →
      (s.dev.ownId ≠ some src) →
      (s.dev.commit.seen = []) →
      (s.dev.isMaster = false) →
      (s.dev.reg Reg.masterCur = src) →
      (s.dev.commit.announced = none) →
      ((m.seq = 0 ∧ s.dev.commit.taker = true ∧ s.dev.commit.frozen = none) ∨ (m.seq ≠ 0 ∧ m.seq = s.dev.commit.seq ∧ s.dev.commit.frozen.isSome = true)) →
      Runs (.commitAbort port src m) s (fun t => DeviceOnly s t ∧ t.dev.commit.frozen = none ∧ t.dev.reg Reg.commitState = 4 ∧ t.dev.reg Reg.commitReason = m.reason)) ∧
  -- COMMIT_DIRTY (R569)
  (∀ (s : State) (port src : Nat) (m : CommitMsg),
      (s.dev.isActive port = true) →
      (s.dev.role port = 1) →
      (s.dev.ownId.isSome = true) →
      (s.dev.ownId ≠ some src) →
      (s.dev.commit.seen = []) →
      (s.dev.isMaster = false) →
      (s.dev.reg Reg.masterCur = src) →
      (s.dev.reg Reg.commitSeq ≠ m.tick) →
      Runs (.commitDirty port src m) s (fun t => DeviceOnly s t ∧ t.dev.commit.dirty = some m.tick ∧ ∀ c, c < 64 → bit m.changed c = true → t.dev.fenced c = true)) ∧
  -- RESYNC (R569)
  (∀ (s : State) (acc : Nat),
      (s.dev.mayWriteKey acc Reg.commitCmd = true) →
      Runs (.resync acc) s (fun t => DeviceOnly s t ∧ t.dev.commit.resync = s.dev.commit.dirty.isSome ∧ t.dev.regs = s.dev.regs)) ∧
  -- COMMIT_ANSWER_TIMEOUT (R566)
  (∀ (s : State) (t0 : Nat),
      (Rising s.dev.regs) →
      (s.dev.commit.announced = none) →
      (s.dev.commit.lead = some t0) →
      (t0 + 200 ≤ s.dev.tick) →
      Runs (.commitAnswerTimeout) s (fun t => DeviceOnly s t ∧ t.dev.commit.lead = none ∧ t.dev.commit.frozen = none ∧ t.dev.reg Reg.commitState = 4 ∧ t.dev.reg Reg.commitReason = 5 ∧
        ∀ p ∈ s.dev.planePorts, Tab.getD (t.dev.port p).txq 5 [] = Tab.getD (s.dev.port p).txq 5 [] ++
          [s.dev.ctrl 0x03 5 ({ op := 5, reason := 5, sw := s.dev.dom.swId, seq := s.dev.commit.seq } : CommitMsg).bytes])) ∧
  -- COMMIT_FREEZE_TIMEOUT (R567)
  (∀ (s : State) (t0 : Nat),
      (s.dev.commit.announced = none) →
      (s.dev.commit.frozen = some t0) →
      (t0 + 264 ≤ s.dev.tick) →
      Runs (.commitFreezeTimeout) s (fun t => DeviceOnly s t ∧ t.dev.commit.frozen = none ∧ t.dev.reg Reg.commitState = 4 ∧ t.dev.reg Reg.commitReason = 5 ∧
        ∀ i, t.dev.reg (Reg.hmapStage i) = s.dev.reg (Reg.hmapStage i) ∧ t.dev.reg (Reg.regionStage i) = s.dev.reg (Reg.regionStage i) ∧
          t.dev.reg (Reg.sgStage i) = s.dev.reg (Reg.sgStage i) ∧ t.dev.reg (Reg.compStage i) = s.dev.reg (Reg.compStage i))) ∧
  -- COMMIT_APPLY (R566, R570)
  (∀ (s : State) (tk seq ch : Nat),
      (s.dev.commit.announced = some (tk, seq, ch)) →
      (tk ≤ s.dev.tick) →
      Runs (.commitApply) s (fun t => DeviceOnly s t ∧ t.dev.commit.frozen = none ∧ t.dev.commit.announced = none ∧ t.dev.reg Reg.commitSeq = seq ∧ t.dev.reg Reg.commitTick = tk ∧
        t.dev.reg Reg.commitState = 3 ∧ (∀ i, t.dev.reg (Reg.regionActive i) = s.dev.reg (Reg.regionStage i)) ∧
        ∀ c, c < 64 → t.dev.reg (Reg.membersActive c) = s.dev.reg (Reg.membersStage c) ∧
          t.dev.reg (Reg.compActive c) = setBits (s.dev.reg (Reg.compStage c)) 8 8 0)) ∧
  -- COMMIT_APPLY (R569)
  (∀ (s : State) (seq : Nat),
      (s.dev.commit.announced = none) →
      (s.dev.commit.resync = true) →
      (s.dev.commit.dirty = some seq) →
      Runs (.commitApply) s (fun t => DeviceOnly s t ∧ t.dev.commit.dirty = none ∧ t.dev.reg Reg.commitSeq = seq ∧ t.dev.reg Reg.fenced = s.dev.reg Reg.fenced ∧
        (∀ i, t.dev.reg (Reg.regionActive i) = s.dev.reg (Reg.regionStage i)))) ∧
  -- COMMIT_APPLY (R566)
  (∀ (s : State) (tk seq ch : Nat),
      (s.dev.commit.announced = some (tk, seq, ch)) →
      (s.dev.tick < tk) →
      (s.dev.commit.resync = false) →
      Runs (.commitApply) s (fun t => t = s))

/-- At such an edge every ACTIVE composition has its next report, which starts where the one before ended; a write to 0x8200:09 signs one for the
  selected composition and the accessor's nonce (R573). The counters themselves are never cleared (R572). -/
def Obligations.UsageReports : Prop :=
  -- USAGE_REPORT_PERIODIC (R573)
  (∀ (s : State),
      (s.dev.power.on = true) →
      (s.dev.tick % 2 ^ 20 = 0) →
      Runs (.usageReportPeriodic) s (fun t => DeviceOnly s t ∧ ∀ c, c < 64 →
        t.dev.reg (Reg.tileTicks c) = s.dev.reg (Reg.tileTicks c) ∧ t.dev.reg (Reg.engineTicks c) = s.dev.reg (Reg.engineTicks c) ∧
        (bits (s.dev.reg (Reg.compActive c)) 0 8 = 1 → t.dev.reg (Reg.reportSeq c) = (s.dev.bump (Reg.reportSeq c)).reg (Reg.reportSeq c) ∧
          Tab.look t.dev.meter.lastEnd c = some s.dev.tick) ∧
        (bits (s.dev.reg (Reg.compActive c)) 0 8 ≠ 1 → t.dev.reg (Reg.reportSeq c) = s.dev.reg (Reg.reportSeq c)))) ∧
  -- USAGE_REPORT_PERIODIC (R573)
  (∀ (s : State),
      (s.dev.tick % 2 ^ 20 ≠ 0) →
      Runs (.usageReportPeriodic) s (fun t => t = s)) ∧
  -- REPORT_CMD (R573)
  (∀ (s : State) (acc : Nat),
      (s.dev.mayWriteKey acc Reg.reportCmd = true) →
      Runs (.reportCmd acc) s (fun t => DeviceOnly s t ∧ t.dev.reg (Reg.reportSeq (s.dev.regAs acc Reg.mtrSelect)) = (s.dev.bump (Reg.reportSeq (s.dev.regAs acc Reg.mtrSelect))).reg (Reg.reportSeq (s.dev.regAs acc Reg.mtrSelect)) ∧
        t.dev.reg (Reg.lastReport (s.dev.regAs acc Reg.mtrSelect)) =
          leNat (s.dev.usageBody (s.dev.regAs acc Reg.mtrSelect) true (leBytes 32 (s.dev.regAs acc Reg.usageNonce)) ++
            padTo 3309 (Config.mldsaSign s.dev.sec.attSeed (s.dev.usageBody (s.dev.regAs acc Reg.mtrSelect) true (leBytes 32 (s.dev.regAs acc Reg.usageNonce))))) ∧
        Tab.look t.dev.meter.lastEnd (s.dev.regAs acc Reg.mtrSelect) = some s.dev.tick))

/-- A link in L0 with Bus Master Enable makes the port up; a reset or the loss of its reference puts its slots, ring counters, mailbox and MSI-X back
  and leaves the other port (R587, R637). A slot gathers bytes until the packet is whole, which is then taken with the host's FEID, or discarded and
  counted; a write to a busy slot is counted (R591). The packet at the head of the HOST queue goes into slot PROD mod size behind its prefix unless the
  ring is full or has no base (R593). An unmasked vector sends what was pending (R594). -/
def Obligations.HostPorts : Prop :=
  -- HOST_LINK_UP (R587)
  (∀ (s : State) (h : HostId) (width gen : Nat),
      (s.dev.power.on = true) →
      (s.dev.power.stopping = false) →
      Runs (.hostLinkUp h width gen) s (fun t => DeviceOnly s t ∧ t.dev.regs = s.dev.regs ∧ (t.dev.host h).up = true ∧ (t.dev.host h).width = width % 16 ∧ (t.dev.host h).gen = gen % 16 ∧
        t.dev.pcieRef h = true ∧ ∀ g, g ≠ h → t.dev.host g = s.dev.host g)) ∧
  -- HOST_PORT_RESET (R587)
  (∀ (s : State) (h : HostId),
      Runs (.hostPortReset h) s (fun t => DeviceOnly s t ∧ t.dev.host h = {} ∧ t.dev.reg (Reg.sendBusy (hostNo h)) = 0 ∧ t.dev.reg (Reg.rxringProd (hostNo h)) = 0 ∧
        t.dev.reg (Reg.rxringCons (hostNo h)) = 0 ∧ ∀ g, g ≠ h → t.dev.host g = s.dev.host g ∧
          t.dev.reg (Reg.sendBusy (hostNo g)) = s.dev.reg (Reg.sendBusy (hostNo g)) ∧ t.dev.reg (Reg.rxringProd (hostNo g)) = s.dev.reg (Reg.rxringProd (hostNo g)))) ∧
  -- PCIE_REFCLK_LOSS (R587, R637)
  (∀ (s : State) (h : HostId),
      Runs (.pcieRefclkLoss h) s (fun t => DeviceOnly s t ∧ t.dev.host h = {} ∧ t.dev.pcieRef h = false ∧ t.dev.reg (Reg.sendBusy (hostNo h)) = 0 ∧
        ∀ g, g ≠ h → t.dev.host g = s.dev.host g ∧ t.dev.pcieRef g = s.dev.pcieRef g)) ∧
  -- SEND_SLOT_WRITE (R591)
  (∀ (s : State) (h : HostId) (slot off : Nat) (data : Bytes) (x : SendSlot),
      ((s.dev.host h).up = true) →
      (slot < 4) →
      (off + data.length ≤ 32768) →
      (data ≠ []) →
      (Tab.look (s.dev.host h).slots slot = some x) →
      (x.busy = true) →
      Runs (.sendSlotWrite h slot off data) s (fun t => DeviceOnly s t ∧ t.dev.hostA = s.dev.hostA ∧ t.dev.hostB = s.dev.hostB ∧ t.dev.reg (Reg.sendDrops (hostNo h)) = (s.dev.bump (Reg.sendDrops (hostNo h))).reg (Reg.sendDrops (hostNo h)))) ∧
  -- SEND_SLOT_WRITE (R591)
  (∀ (s : State) (h : HostId) (slot : Nat) (data : Bytes),
      ((s.dev.host h).up = true) →
      (slot < 4) →
      (data.length ≤ 32768) →
      (data ≠ []) →
      ((Tab.look (s.dev.host h).slots slot).any (·.busy) = false) →
      (data.length < 16 ∨ data.length < 8 * bits (le data 0 16) 12 3 + bits (le data 0 16) 64 15) →
      Runs (.sendSlotWrite h slot 0 data) s (fun t => DeviceOnly s t ∧ t.dev.regs = s.dev.regs ∧ Tab.look (t.dev.host h).slots slot = some { bytes := data })) ∧
  -- SEND_SLOT_WRITE (R591)
  (∀ (s : State) (h : HostId) (slot : Nat) (data : Bytes),
      ((s.dev.host h).up = true) →
      (slot < 4) →
      (data.length ≤ 32768) →
      (16 ≤ data.length) →
      ((Tab.look (s.dev.host h).slots slot).any (·.busy) = false) →
      (8 * bits (le data 0 16) 12 3 + bits (le data 0 16) 64 15 ≤ data.length) →
      (bit (le data 0 16) 11 = true ∨ 16416 < 8 * bits (le data 0 16) 12 3 + bits (le data 0 16) 64 15 ∨ frameLen data = none) →
      Runs (.sendSlotWrite h slot 0 data) s (fun t => DeviceOnly s t ∧ Tab.look (t.dev.host h).slots slot = none ∧ t.dev.reg (Reg.sendDrops (hostNo h)) = (s.dev.bump (Reg.sendDrops (hostNo h))).reg (Reg.sendDrops (hostNo h)))) ∧
  -- SEND_SLOT_WRITE (R591)
  (∀ (s : State) (h : HostId) (slot : Nat) (data : Bytes) (p : Packet),
      ((s.dev.host h).up = true) →
      (slot < 4) →
      (data.length ≤ 32768) →
      (16 ≤ data.length) →
      ((Tab.look (s.dev.host h).slots slot).any (·.busy) = false) →
      (8 * bits (le data 0 16) 12 3 + bits (le data 0 16) 64 15 ≤ data.length) →
      (bit (le data 0 16) 11 = false) →
      (8 * bits (le data 0 16) 12 3 + bits (le data 0 16) 64 15 ≤ 16416) →
      ((frameLen data).isSome = true) →
      (packetOf (data.take (8 * bits (le data 0 16) 12 3 + bits (le data 0 16) 64 15)) = some p) →
      (p.ptype = .ctrl → p.ctype ≠ 5 ∧ p.ctype ≠ 6) →
      Runs (.sendSlotWrite h slot 0 data) s (fun t => DeviceOnly s t ∧ ∃ d : Dev, t.dev = d.ingest (.host h) { p with src := s.dev.hostFeid h % 4096 } ∧
        d.reg (Reg.hostPackets (hostNo h)) = (s.dev.bump (Reg.hostPackets (hostNo h))).reg (Reg.hostPackets (hostNo h)) ∧ bit (d.reg (Reg.sendBusy (hostNo h))) slot = true ∧
        Tab.look (d.host h).slots slot = some { busy := true })) ∧
  -- RXRING_WRITE (R592, R593)
  (∀ (s : State) (h : HostId) (q k : Nat) (e : QEnt),
      ((s.dev.host h).up = true) →
      (s.dev.reg (Reg.rxringBase (hostNo h)) ≠ 0) →
      (s.dev.ringFull h = false) →
      (s.dev.unitHead (Dev.hostUnit h) (fun _ => true) = some (q, k, e)) →
      Runs (.rxringWrite h) s (fun t => DeviceOnly s t ∧ t.dev.reg (Reg.rxringProd (hostNo h)) = (s.dev.reg (Reg.rxringProd (hostNo h)) + 1) % 65536 ∧ (t.dev.host h).armed2 = false ∧
        .hostWrite h (s.dev.reg (Reg.rxringBase (hostNo h)) + s.dev.reg (Reg.rxringProd (hostNo h)) % s.dev.reg (Reg.rxringSlots (hostNo h)) * 16448)
          (padTo 32 (leBytes 4 (({ e.pkt with enc := false } : Packet).bytes []).length ++ leBytes 8 s.dev.tick) ++ ({ e.pkt with enc := false } : Packet).bytes [])
          ∈ t.dev.out)) ∧
  -- RXRING_WRITE (R593)
  (∀ (s : State) (h : HostId),
      (s.dev.reg (Reg.rxringBase (hostNo h)) = 0 ∨ s.dev.ringFull h = true) →
      Runs (.rxringWrite h) s (fun t => t = s)) ∧
  -- RXRING_CONS_WRITE (R593)
  (∀ (s : State) (h : HostId) (cons : Nat),
      (s.dev.mayWriteKey (Dev.hostAcc h) (Reg.rxringCons (hostNo h)) = true) →
      Runs (.rxringConsWrite h cons) s (fun t => DeviceOnly s t ∧ t.dev.reg (Reg.rxringCons (hostNo h)) = cons % 65536 ∧ (t.dev.host h).armed2 = true)) ∧
  -- MSIX_UNMASK (R594)
  (∀ (s : State) (h : HostId) (v : Nat),
      (v < 4) →
      Runs (.msixUnmask h v) s (fun t => DeviceOnly s t ∧ t.dev.regs = s.dev.regs ∧ bit (t.dev.host h).mask v = false ∧ bit (t.dev.host h).pend v = false ∧
        t.dev.out = s.dev.out ++ if bit (s.dev.host h).pend v = true then [.msix h v] else []))

/-- A dip shows RIDE_THROUGH, one of Class B suspends the tiles in NAP at its edge, and its end is counted by its class (R624, R625). A Class C dip, an
  input above 80 V or above 60 V for 100 ms, and a die at its trip temperature stop the module: DYING with REASON 1 or 2 on every port that is not
  DISABLED and not idle in a quadrant at NONE (R31), STOPPING shown, no quadrant at any level, HBM contents lost (R626, R634). No behavior holds above the absolute 90 V (R654). -/
def Obligations.SupplyAndStops : Prop :=
  -- DIP_START (R624)
  (∀ (s : State) (mV : Nat),
      (s.dev.power.on = true) →
      (s.dev.power.stopping = false) →
      (s.dev.power.dip = none) →
      (mV < 40000) →
      Runs (.dipStart mV) s (fun t => DeviceOnly s t ∧ t.dev.power = { s.dev.power with dip := some 1 } ∧ t.dev.reg Reg.supplyState = 1 ∧
        ∀ k, k ≠ Reg.supplyState → t.dev.reg k = s.dev.reg k)) ∧
  -- DIP_START (R624)
  (∀ (s : State) (mV : Nat),
      (40000 ≤ mV) →
      Runs (.dipStart mV) s (fun t => t = s)) ∧
  -- DIP_CLASS_B (R624, R625)
  (∀ (s : State),
      (s.dev.power.on = true) →
      (s.dev.power.stopping = false) →
      (s.dev.power.dip = some 1) →
      Runs (.dipClassB) s (fun t => DeviceOnly s t ∧ t.dev.power.dip = some 2 ∧ t.dev.power.suspended = some s.dev.tick ∧ t.dev.reg Reg.supplyState = 2 ∧
        t.dev.jobs = s.dev.jobs ∧ t.dev.tiers.scratch = s.dev.tiers.scratch ∧
        ∀ u, u < 120 → s.dev.tileWorks u = true → 2 ≤ Tab.getD t.dev.power.rungs u 0)) ∧
  -- DIP_END (R624)
  (∀ (s : State) (mV c : Nat),
      (s.dev.power.on = true) →
      (s.dev.power.stopping = false) →
      (40500 ≤ mV) →
      (s.dev.power.dip = some c) →
      Runs (.dipEnd mV) s (fun t => DeviceOnly s t ∧ t.dev.power.dip = none ∧ t.dev.reg Reg.supplyState = s.dev.power.overV.toNat ∧
        t.dev.reg Reg.dipsB = (if c = 2 then (s.dev.bump Reg.dipsB).reg Reg.dipsB else s.dev.reg Reg.dipsB) ∧ t.dev.reg Reg.dipsA = (if c = 2 then s.dev.reg Reg.dipsA else (s.dev.bump Reg.dipsA).reg Reg.dipsA))) ∧
  -- DIP_END (R624)
  (∀ (s : State) (mV : Nat),
      (mV < 40500) →
      Runs (.dipEnd mV) s (fun t => t = s)) ∧
  -- SUPPLY_STOP (R624, R626)
  (∀ (s : State) (c : Nat),
      (s.dev.power.on = true) →
      (s.dev.power.stopping = false) →
      (s.dev.power.dip = some c) →
      Runs (.supplyStop) s (fun t => t.mem = [] ∧ t.fuses = s.fuses ∧ t.dev.power.stopping = true ∧ t.dev.power.pwrOk = false ∧ t.dev.reg Reg.supplyState = 3 ∧ (∀ q, q < 4 → t.dev.level q = 0) ∧
        ∀ p ∈ s.dev.liveList, s.dev.portState p ≠ 1 ∨ s.dev.level (Dev.quadOf p) ≠ 0 → ∃ l f, .flit p l f ∈ t.dev.out ∧ f.ftype = 3 ∧ f.payload.head? = some 1)) ∧
  -- OVERVOLTAGE (R624)
  (∀ (s : State) (mV : Nat),
      (s.dev.power.on = true) →
      (s.dev.power.stopping = false) →
      (60000 < mV) →
      (mV ≤ 80000) →
      Runs (.overvoltage mV) s (fun t => DeviceOnly s t ∧ t.dev.power.overV = true ∧ t.dev.power.stopping = false ∧
        t.dev.reg Reg.overvolts = (if s.dev.power.overV = true then s.dev.reg Reg.overvolts else (s.dev.bump Reg.overvolts).reg Reg.overvolts))) ∧
  -- OVERVOLTAGE (R624, R626)
  (∀ (s : State) (mV : Nat),
      (s.dev.power.on = true) →
      (s.dev.power.stopping = false) →
      (80000 < mV) →
      (mV ≤ 90000) →
      Runs (.overvoltage mV) s (fun t => t.mem = [] ∧ t.fuses = s.fuses ∧ t.dev.power.stopping = true ∧ t.dev.power.pwrOk = false ∧ t.dev.reg Reg.supplyState = 3 ∧ (∀ q, q < 4 → t.dev.level q = 0) ∧
        ∀ p ∈ s.dev.liveList, s.dev.portState p ≠ 1 ∨ s.dev.level (Dev.quadOf p) ≠ 0 → ∃ l f, .flit p l f ∈ t.dev.out ∧ f.ftype = 3 ∧ f.payload.head? = some 1)) ∧
  -- OVERVOLTAGE beyond the absolute limit (R654)
  (∀ (s : State) (mV : Nat), 90000 < mV → exec (.overvoltage mV) s = .fault .beyondAbsoluteLimits) ∧
  -- OVERVOLTAGE_TIMEOUT (R624, R626)
  (∀ (s : State),
      (s.dev.power.on = true) →
      (s.dev.power.stopping = false) →
      (s.dev.power.overV = true) →
      Runs (.overvoltageTimeout) s (fun t => t.mem = [] ∧ t.fuses = s.fuses ∧ t.dev.power.stopping = true ∧ t.dev.power.pwrOk = false ∧ t.dev.reg Reg.supplyState = 3 ∧ (∀ q, q < 4 → t.dev.level q = 0) ∧
        ∀ p ∈ s.dev.liveList, s.dev.portState p ≠ 1 ∨ s.dev.level (Dev.quadOf p) ≠ 0 → ∃ l f, .flit p l f ∈ t.dev.out ∧ f.ftype = 3 ∧ f.payload.head? = some 1)) ∧
  -- THERMAL_TRIP (R634)
  (∀ (s : State) (die celsius : Nat),
      (s.dev.power.on = true) →
      (s.dev.power.stopping = false) →
      (die ≤ 4) →
      (s.dev.reg Reg.dieTripC ≤ celsius) →
      Runs (.thermalTrip die celsius) s (fun t => t.mem = [] ∧ t.fuses = s.fuses ∧ t.dev.power.stopping = true ∧ t.dev.power.pwrOk = false ∧ t.dev.reg Reg.supplyState = 3 ∧ (∀ q, q < 4 → t.dev.level q = 0) ∧
        ∀ p ∈ s.dev.liveList, s.dev.portState p ≠ 1 ∨ s.dev.level (Dev.quadOf p) ≠ 0 → ∃ l f, .flit p l f ∈ t.dev.out ∧ f.ftype = 3 ∧ f.payload.head? = some 2)) ∧
  -- THERMAL_TRIP (R634)
  (∀ (s : State) (die celsius : Nat),
      (celsius < s.dev.reg Reg.dieTripC) →
      Runs (.thermalTrip die celsius) s (fun t => t = s))

/-- The loss of the running reference moves the control die to the other one where that is present, which is counted; ports are untouched (R636). A
  write of the preference moves it where that reference is present. With both lost through the holdover every port goes down (R636). A reference that
  returns is present, and a boot that waited for one goes on (R641). The loss of MGMT_CLK stops the management port until it returns (R637). -/
def Obligations.ClocksAndReferences : Prop :=
  -- REFCLK_SWITCH (R636)
  (∀ (s : State),
      (s.dev.power.on = true) →
      (bit s.dev.power.refs (1 - s.dev.power.running) = true) →
      (s.dev.power.running < 2) →
      Runs (.refclkSwitch) s (fun t => DeviceOnly s t ∧ t.dev.ports = s.dev.ports ∧ bit t.dev.power.refs s.dev.power.running = false ∧ t.dev.power.running = 1 - s.dev.power.running ∧
        t.dev.reg Reg.refclkSwitches = (s.dev.bump Reg.refclkSwitches).reg Reg.refclkSwitches)) ∧
  -- REFCLK_SWITCH (R636)
  (∀ (s : State),
      (s.dev.power.on = true) →
      (bit s.dev.power.refs (1 - s.dev.power.running) = false) →
      Runs (.refclkSwitch) s (fun t => DeviceOnly s t ∧ t.dev.ports = s.dev.ports ∧ t.dev.regs = s.dev.regs ∧ t.dev.power.running = s.dev.power.running)) ∧
  -- REFCLK_LOST (R636)
  (∀ (s : State),
      (s.dev.power.on = true) →
      (Rising s.dev.regs) →
      Runs (.refclkLost) s (fun t => DeviceOnly s t ∧ t.dev.power.refs = 0 ∧ ∀ p, p < 384 → s.dev.portState p ≠ 0 → t.dev.portState p = 1)) ∧
  -- REFCLK_PREF_WRITE (R636)
  (∀ (s : State) (acc value : Nat),
      (s.dev.mayWriteKey acc Reg.refclkPref = true) →
      (value ≤ 1) →
      Runs (.refclkPrefWrite acc value) s (fun t => DeviceOnly s t ∧ t.dev.ports = s.dev.ports ∧ t.dev.reg Reg.refclkPref = value ∧
        t.dev.power.running = (if bit s.dev.power.refs value = true then value else s.dev.power.running) ∧
        t.dev.reg Reg.refclkSwitches = (if bit s.dev.power.refs value = true ∧ s.dev.power.running ≠ value then (s.dev.bump Reg.refclkSwitches).reg Reg.refclkSwitches else s.dev.reg Reg.refclkSwitches))) ∧
  -- FABRIC_REFCLK_RETURN (R636)
  (∀ (s : State) (b : Bool),
      (s.dev.power.boot = none) →
      Runs (.fabricRefclkReturn b) s (fun t => DeviceOnly s t ∧ bit t.dev.power.refs b.toNat = true ∧
        t.dev.reg Reg.refclkSwitches = (if s.dev.power.on = true ∧ s.dev.power.refs = 0 ∧ s.dev.power.running ≠ b.toNat
          then (s.dev.bump Reg.refclkSwitches).reg Reg.refclkSwitches else s.dev.reg Reg.refclkSwitches) ∧
        t.dev.power.running = if s.dev.power.refs = 0 then b.toNat else s.dev.power.running)) ∧
  -- FABRIC_REFCLK_RETURN (R641)
  (∀ (s : State) (b : Bool) (w : BootWait),
      (s.dev.power.boot = some w) →
      (s.dev.power.resetLow = false) →
      Runs (.fabricRefclkReturn b) s (fun t => DeviceOnly s t ∧ t.dev.power.on = true ∧ t.dev.power.boot = none ∧ t.dev.reg Reg.resetCause = w.cause)) ∧
  -- MGMT_CLK_LOSS (R637)
  (∀ (s : State),
      Runs (.mgmtClkLoss) s (fun t => DeviceOnly s t ∧ t.dev.mgmt.clkLost = true ∧ t.dev.cmpServed = false ∧ t.dev.regs = s.dev.regs ∧ t.dev.ports = s.dev.ports ∧ t.dev.cores = s.dev.cores)) ∧
  -- MGMT_CLK_RETURN (R637)
  (∀ (s : State),
      Runs (.mgmtClkReturn) s (fun t => DeviceOnly s t ∧ t.dev.mgmt.clkLost = false ∧ t.dev.cmpServed = s.dev.campionUp ∧ t.dev.regs = s.dev.regs ∧ t.dev.ports = s.dev.ports))

/-- A commanded reset sends DYING with REASON 3 and waits, and the weaker of two is abandoned (R639). A power-on or a fundamental reset loses tier H;
  a warm one keeps its bytes, the LOST lines and the fences, and the tick is FREE again (R638). The cause is shown (R640). MOD_RESET_N holds the module
  until it rises (R638), a stack that has not trained in time is FAILED (R641). No reset touches a fuse. -/
def Obligations.ResetsAndPowerUp : Prop :=
  -- POWER_ON (R641)
  (∀ (s : State) (mV failed untrained attest : Nat),
      (s.dev.power.on = false ∧ s.dev.power.boot = none ∨ s.dev.power.stopping = true) →
      (40000 ≤ mV) →
      (mV ≤ 60000) →
      (s.dev.power.resetLow = false) →
      (s.dev.power.refs ≠ 0) →
      Runs (.powerOn mV failed untrained attest) s (fun t => t.mem = [] ∧ t.fuses = s.fuses ∧ t.pending = s.pending ∧ t.dev.power.on = true ∧ t.dev.power.stopping = false ∧ t.dev.power.pwrOk = true ∧ t.dev.reg Reg.resetCause = 1 ∧
        t.dev.reg Reg.tickState = 0 ∧ t.dev.reg Reg.bistResult = failed % 2 ^ 244)) ∧
  -- POWER_ON (R641)
  (∀ (s : State) (mV failed untrained attest : Nat),
      (mV < 40000 ∨ 60000 < mV) →
      Runs (.powerOn mV failed untrained attest) s (fun t => t = s)) ∧
  -- MOD_RESET_N (R638)
  (∀ (s : State) (failed untrained attest : Nat),
      (s.dev.power.on = true) →
      (s.dev.power.resetLow = false) →
      (s.dev.power.stopping = false) →
      (s.dev.power.boot = none) →
      Runs (.modResetN true failed untrained attest) s (fun t => t.mem = [] ∧ t.fuses = s.fuses ∧ t.pending = s.pending ∧ t.dev.power.on = false ∧ t.dev.power.resetLow = true ∧ t.dev.keys = [] ∧ t.dev.logs = [] ∧
        t.dev.reg Reg.fenced = 0 ∧ t.dev.power.boot.map (·.cause) = some 2)) ∧
  -- MOD_RESET_N (R638, R641)
  (∀ (s : State) (failed untrained attest : Nat) (w : BootWait),
      (s.dev.power.boot = some w) →
      (s.dev.power.refs ≠ 0) →
      Runs (.modResetN false failed untrained attest) s (fun t => DeviceOnly s t ∧ t.dev.power.on = true ∧ t.dev.power.resetLow = false ∧ t.dev.reg Reg.resetCause = w.cause)) ∧
  -- WARM_RESET_CMD (R638, R639)
  (∀ (s : State) (acc : Nat),
      (s.dev.mayWriteKey acc Reg.resetCmd = true) →
      (s.dev.power.stopping = false) →
      Runs (.warmResetCmd acc) s (fun t => DeviceOnly s t ∧ t.dev.power.reset = some (s.dev.power.reset.getD 4) ∧ (s.dev.power.reset = none → ∀ p ∈ s.dev.liveList, (t.dev.port p).dying.map (·.reason) = some 3))) ∧
  -- FUNDAMENTAL_RESET_CMD (R638, R639)
  (∀ (s : State) (acc : Nat),
      (s.dev.mayWriteKey acc Reg.resetCmd = true) →
      (s.dev.power.stopping = false) →
      Runs (.fundamentalResetCmd acc) s (fun t => DeviceOnly s t ∧ t.dev.power.reset = some 3 ∧ (s.dev.power.reset = none → ∀ p ∈ s.dev.liveList, (t.dev.port p).dying.map (·.reason) = some 3))) ∧
  -- RESET_BEGIN (R638, R640)
  (∀ (s : State) (failed untrained attest : Nat),
      (s.dev.power.on = true) →
      (s.dev.power.stopping = false) →
      (s.dev.power.reset = some 3) →
      (s.dev.power.resetLow = false) →
      (s.dev.power.refs ≠ 0) →
      Runs (.resetBegin failed untrained attest) s (fun t => t.mem = [] ∧ t.fuses = s.fuses ∧ t.pending = s.pending ∧ t.dev.power.on = true ∧ t.dev.power.reset = none ∧ t.dev.reg Reg.resetCause = 3 ∧
        t.dev.reg Reg.tickState = 0)) ∧
  -- RESET_BEGIN (R638, R640)
  (∀ (s : State) (failed untrained attest c : Nat),
      (s.dev.power.on = true) →
      (s.dev.power.stopping = false) →
      (s.dev.power.reset = some c) →
      (c ≠ 3) →
      (s.dev.power.resetLow = false) →
      (s.dev.power.refs ≠ 0) →
      Runs (.resetBegin failed untrained attest) s (fun t => DeviceOnly s t ∧ t.dev.power.on = true ∧ t.dev.power.reset = none ∧ t.dev.reg Reg.resetCause = c ∧ t.dev.reg Reg.tickState = 0 ∧
        t.dev.coh.lost = s.dev.coh.lost ∧ ∀ x, s.dev.fenced x = true → t.dev.fenced x = true)) ∧
  -- HBM_TRAIN_TIMEOUT (R239, R641)
  (∀ (s : State) (st : Nat),
      (s.dev.power.on = true) →
      (s.dev.coh.blocked = []) →
      (st < 12) →
      (bit s.dev.power.training st = true) →
      (s.dev.reg (Reg.hbmState st) = 1) →
      Runs (.hbmTrainTimeout st) s (fun t => DeviceOnly s t ∧ t.dev.reg (Reg.hbmState st) = 4 ∧ bit (t.dev.reg Reg.svcStacks) st = false))

/-- BIST starts where no ENDPOINT port is ACTIVE, is refused where one is, and its end shows the failed units (R642); RUN and RESULT packets start it
  and are recorded (R643). A quadrant in which nothing of a composition stands goes OFF with its stacks' contents; else the write is refused; clearing
  the bit brings its stacks back (R630). A domain enters the deeper rung its idle count allows and leaves it at its wake (R628). -/
def Obligations.SelfTestQuadrantsAndRungs : Prop :=
  -- BIST_RUN (R642)
  (∀ (s : State) (acc : Nat),
      (s.dev.mayWriteKey acc Reg.bistCmd = true) →
      (s.dev.endpointPorts = []) →
      Runs (.bistRun acc) s (fun t => DeviceOnly s t ∧ t.dev.reg Reg.bistState = 1)) ∧
  -- BIST_RUN (R642)
  (∀ (s : State) (acc : Nat),
      (s.dev.mayWriteKey acc Reg.bistCmd = true) →
      (s.dev.endpointPorts ≠ []) →
      Runs (.bistRun acc) s (fun t => DeviceOnly s t ∧ t.dev.reg Reg.bistState = s.dev.reg Reg.bistState ∧ t.dev.reg Reg.rejectedWrites = (s.dev.bump Reg.rejectedWrites).reg Reg.rejectedWrites)) ∧
  -- BIST_DONE (R642)
  (∀ (s : State) (failed : Nat),
      (s.dev.coh.blocked = []) →
      (s.dev.reg Reg.bistState = 1) →
      Runs (.bistDone failed) s (fun t => DeviceOnly s t ∧ t.dev.reg Reg.bistResult = failed % 2 ^ 244 ∧ t.dev.health.failedUnits = failed % 2 ^ 244 ∧
        t.dev.reg Reg.bistState = (if failed % 2 ^ 244 = 0 then 2 else 3) ∧ t.dev.reg Reg.bistRuns = (s.dev.bump Reg.bistRuns).reg Reg.bistRuns)) ∧
  -- BIST_PACKET_RUN (R643)
  (∀ (s : State) (port : Nat) (m : BistMsg),
      (s.dev.isActive port = true) →
      (s.dev.role port = 1) →
      (m.toSw = s.dev.dom.swId) →
      Runs (.bistPacketRun port m) s (fun t => DeviceOnly s t ∧ t.dev.reg Reg.bistState = 1 ∧ t.dev.power.bistFor = m.sw)) ∧
  -- BIST_PACKET_RESULT (R643)
  (∀ (s : State) (port : Nat) (m : BistMsg),
      (s.dev.isActive port = true) →
      (s.dev.role port = 1) →
      (m.toSw = s.dev.dom.swId) →
      (s.dev.isManager = true) →
      Runs (.bistPacketResult port m) s (fun t => DeviceOnly s t ∧ t.dev.regs = s.dev.regs ∧ Tab.look t.dev.power.bistSeen m.sw = some (m.pass, m.detail))) ∧
  -- QUAD_OFF_SET (R630)
  (∀ (s : State) (acc q : Nat),
      (s.dev.mayWriteKey acc Reg.quadOff = true) →
      (q < 4) →
      (s.dev.reg Reg.quadOff < 16) →
      (bit (s.dev.reg Reg.quadOff) q = false) →
      (s.dev.quadBusy q = false) →
      Runs (.quadOffSet acc q) s (fun t => t.fuses = s.fuses ∧ t.pending = s.pending ∧ bit (t.dev.reg Reg.quadOff) q = true ∧ t.dev.level q = 0 ∧
        (∀ a, a < 3 * stackBytes → t.mem.byte (3 * q * stackBytes + a) = 0) ∧
        ∀ p ∈ s.dev.liveList, Dev.quadOf p = q → s.dev.portState p ≠ 1 ∨ s.dev.level q ≠ 0 → ∃ l f, .flit p l f ∈ t.dev.out ∧ f.ftype = 3 ∧ f.payload.head? = some 4)) ∧
  -- QUAD_OFF_SET (R630)
  (∀ (s : State) (acc q : Nat),
      (s.dev.mayWriteKey acc Reg.quadOff = true) →
      (q < 4) →
      (bit (s.dev.reg Reg.quadOff) q = false) →
      (s.dev.quadBusy q = true) →
      Runs (.quadOffSet acc q) s (fun t => t.fuses = s.fuses ∧ t.pending = s.pending ∧ t.dev.reg Reg.quadOff = s.dev.reg Reg.quadOff ∧ t.dev.power = s.dev.power ∧ t.dev.ports = s.dev.ports ∧
        t.dev.reg Reg.rejectedWrites = (s.dev.bump Reg.rejectedWrites).reg Reg.rejectedWrites)) ∧
  -- QUAD_OFF_CLEAR (R630)
  (∀ (s : State) (acc q : Nat),
      (s.dev.mayWriteKey acc Reg.quadOff = true) →
      (q < 4) →
      (s.dev.reg Reg.quadOff < 16) →
      (bit (s.dev.reg Reg.quadOff) q = true) →
      Runs (.quadOffClear acc q) s (fun t => DeviceOnly s t ∧ bit (t.dev.reg Reg.quadOff) q = false ∧ Tab.has t.dev.power.rungs (4 * 1024 + q) = false ∧
        t.dev.reg (Reg.hbmState (3 * q)) = if bit s.dev.health.failedUnits (216 + 3 * q) = true ∨ bit s.dev.health.deadDies q = true then 4 else 2)) ∧
  -- RUNG_ENTRY (R628)
  (∀ (s : State) (domain unit : Nat),
      (s.dev.power.on = true) →
      (Tab.getD s.dev.power.rungs (domain * 1024 + unit) 0 < s.dev.rungFor domain unit) →
      Runs (.rungEntry domain unit) s (fun t => DeviceOnly s t ∧ Tab.look t.dev.power.rungs (domain * 1024 + unit) = some (s.dev.rungFor domain unit) ∧
        (domain = 3 → t.dev.reg (Reg.hbmState unit) = 3))) ∧
  -- RUNG_ENTRY (R628)
  (∀ (s : State) (domain unit : Nat),
      (s.dev.rungFor domain unit ≤ Tab.getD s.dev.power.rungs (domain * 1024 + unit) 0) →
      Runs (.rungEntry domain unit) s (fun t => t = s)) ∧
  -- RUNG_WAKE (R628)
  (∀ (s : State) (domain unit : Nat),
      (Tab.has s.dev.power.rungs (domain * 1024 + unit) = true) →
      (unit < 1024) →
      (domain = 1 ∨ domain = 2) →
      Runs (.rungWake domain unit) s (fun t => DeviceOnly s t ∧ t.dev.regs = s.dev.regs ∧ Tab.look t.dev.power.rungs (domain * 1024 + unit) = none ∧
        Tab.look t.dev.power.used (domain * 1024 + unit) = some s.dev.tick)) ∧
  -- RUNG_WAKE (R625, R628)
  (∀ (s : State) (unit : Nat),
      (unit < 120) →
      (1 ≤ Tab.getD s.dev.power.rungs unit 0) →
      (s.dev.power.suspended = none) →
      Runs (.rungWake 0 unit) s (fun t => DeviceOnly s t ∧ Tab.look t.dev.power.rungs unit = none ∧ Tab.look t.dev.power.used unit = some s.dev.tick)) ∧
  -- RUNG_WAKE (R240, R628)
  (∀ (s : State) (unit : Nat),
      (Tab.has s.dev.power.rungs (3072 + unit) = true) →
      (unit < 1024) →
      Runs (.rungWake 3 unit) s (fun t => DeviceOnly s t ∧ t.dev.regs = s.dev.regs ∧ bit t.dev.tiers.waking unit = true))

/-- For every command c at the front, step answers exec c on the state whose queue is the rest; with nothing waiting the state stays (log 2), and no word
  spells a command (log 28). -/
def Obligations.StepRunsTheFrontCommand : Prop :=
  -- the command at the front
  (∀ (s : State) (c : Instr) (rest : List Instr), s.pending = c :: rest → step s = exec c { s with pending := rest }) ∧
  -- an empty queue
  (∀ s : State, s.pending = [] → step s = .next s) ∧
  -- no word spells a command
  (∀ nbits w : Nat, Sys2Proof.decodeTableWord nbits w = none)

/-- No command is refused. Only an input above the absolute 90 V, beyond which the manual gives no behavior, ends in a fault; every other command
  answers a next state whose queue is the one it was given. -/
def Obligations.EveryCommandCompletes : Prop :=
  ∀ (c : Instr) (s : State), (∃ t, exec c s = .next t ∧ t.pending = s.pending) ∨
      (∃ mV, c = .overvoltage mV ∧ 90000 < mV ∧ exec c s = .fault .beyondAbsoluteLimits)

/-- At reset the queue is empty, tier H lists no byte, the dictionary is canonical, the module has no power, the tick is 0 and FREE, and every port is
  DISABLED. -/
def Obligations.ResetMeetsTheInvariants : Prop :=
  State.reset.pending = [] ∧ State.reset.mem.wf = true ∧ RegsCanonical State.reset.dev ∧ State.reset.dev.power.on = false ∧
      State.reset.dev.tick = 0 ∧ State.reset.dev.reg Reg.tickState = 0 ∧ (∀ p, State.reset.dev.portState p = 0) ∧
      ∀ k, State.reset.dev.reg k = regDefault k

/-- From every state whose tier H list is canonical, whatever command runs, the next state's list is canonical, so that equal contents are equal data. -/
def Obligations.MemoryStaysCanonical : Prop :=
  ∀ s t : State, s.mem.wf = true → step s = .next t → t.mem.wf = true

/-- Whatever command runs from whatever state, resets and power-ups among them, every anti-rollback counter stands at least as high as before and a
  programmed OWNER_DEBUG_HASH is the one it was. -/
def Obligations.FusesAreNeverUndone : Prop :=
  ∀ s t : State, step s = .next t → FusesKept s.fuses t.fuses

/-- From every state whose dictionary is canonical, whatever command runs, the next state's is, which is the premise of the statements about ACTIVE ports. -/
def Obligations.DictionaryStaysCanonical : Prop :=
  ∀ s t : State, RegsCanonical s.dev → step s = .next t → RegsCanonical t.dev

/-- While the staged parts are frozen no accessor may write 0x8100:03, 0x8100:05, 0x8100:07, 0x3400:03, 0x3800:03 or 0x5600:03. 264 ticks after its PREPARE
  without ANNOUNCE the switch unfreezes, COMMIT_STATE reads ABORTED with reason 5, and every staged part is as it was. -/
def Obligations.FrozenPartsAreNotWritten : Prop :=
  -- the writes that Campion rejects
  (∀ (d : Dev) (hash : Bool) (acc idx sub : Nat), d.commit.frozen.isSome = true →
      (idx, sub) ∈ [(0x8100, 0x03), (0x8100, 0x05), (0x8100, 0x07), (0x3400, 0x03), (0x3800, 0x03), (0x5600, 0x03)] →
      d.mayWrite hash acc idx sub = false) ∧
  -- COMMIT_FREEZE_TIMEOUT (R567)
  (∀ (s : State) (t0 : Nat),
      (s.dev.commit.announced = none) →
      (s.dev.commit.frozen = some t0) →
      (t0 + 264 ≤ s.dev.tick) →
      Runs (.commitFreezeTimeout) s (fun t => t.dev.commit.frozen = none ∧ t.dev.reg Reg.commitState = 4 ∧ t.dev.reg Reg.commitReason = 5 ∧ ∀ i,
        (∀ k ∈ [Reg.compStage, Reg.membersStage, Reg.gwStage, Reg.hmapStage, Reg.regionStage, Reg.sgStage], t.dev.reg (k i) = s.dev.reg (k i))))

/-- The loss of a PCIe reference takes that host port down and leaves the other, every link port and the management state. The loss of MGMT_CLK changes
  nothing but that the clock is lost: the management port then takes no HELLO, ACCEPT or request and SMBus no access, while Campion runs on and its
  external watchdog still restarts it. -/
def Obligations.ReferenceLossTakesOnlyItsOwn : Prop :=
  -- PCIE_REFCLK_LOSS (R637)
  (∀ (s : State) (h : HostId),
      Runs (.pcieRefclkLoss h) s (fun t => (t.dev.host h).up = false ∧ DeviceOnly s t ∧ t.dev.ports = s.dev.ports ∧ t.dev.mgmt.clkLost = s.dev.mgmt.clkLost ∧
        ∀ g, g ≠ h → t.dev.host g = s.dev.host g)) ∧
  -- MGMT_CLK_LOSS (R637)
  (∀ (s : State),
      Runs (.mgmtClkLoss) s (fun t => DeviceOnly s t ∧ t.dev = { s.dev with mgmt := { s.dev.mgmt with clkLost := true } } ∧ t.dev.cmpServed = false ∧ t.dev.accLive 0x20 = false ∧
        t.dev.campionUp = s.dev.campionUp)) ∧
  -- what stops while the clock is lost
  (∀ s : State, s.dev.mgmt.clkLost = true →
      (∀ m, exec (.cmpHello m) s = .next s) ∧ (∀ m, exec (.cmpAccept m) s = .next s) ∧ (∀ n c id e len, exec (.cmpRead n c id e len) s = .next s) ∧
      (∀ n c id e data, exec (.cmpWrite n c id e data) s = .next s) ∧ (∀ n c mask, exec (.cmpSubscribe n c mask) s = .next s) ∧
      (∀ e, exec (.smbusSelect e) s = .next s) ∧ (∀ n, exec (.smbusRead n) s = .next s) ∧ exec .smbusStatus s = .next s) ∧
  -- CAMPION_WATCHDOG (R637)
  (∀ (s : State),
      (s.dev.mgmt.clkLost = true) →
      (s.dev.campionUp = true) →
      Runs (.campionWatchdog) s (fun t => t.dev.reg Reg.campionState = 1 ∧ t.dev.mgmt.clkLost = true))

/-- While the fuse is blank an allowed write of 32 bytes programs it. Once it is programmed every write that reaches the lock check completes with status 5.
  The value of CFG_LOCK changes no check of the entry. -/
def Obligations.OwnerDebugHashTakesOneWrite : Prop :=
  -- OWNER_DEBUG_HASH_WRITE (R614)
  (∀ (s : State) (acc : Nat) (hash : Bytes),
      (s.fuses.ownerHash = none) →
      (s.dev.mayWrite false acc 0x6000 0x1B = true) →
      (hash.length = 32) →
      Runs (.ownerDebugHashWrite acc hash) s (fun t => t.fuses.ownerHash = some (leNat hash))) ∧
  -- the second write
  (∀ (d : Dev) (acc off len : Nat) (e : Entry), entryOf 0x6000 0x1B = some e → (column acc e).writable = true → lengthOk acc e off len = true →
      d.accCheck true acc true 0x6000 0x1B off len = 5) ∧
  -- CFG_LOCK has no effect on it
  (∀ (d : Dev) (hash : Bool) (acc off len v : Nat), (d.setReg Reg.cfgLock v).accCheck hash acc true 0x6000 0x1B off len =
      d.accCheck hash acc true 0x6000 0x1B off len)

/-- With four sessions a HELLO draws an OFFER with status 2 and opens none; no HELLO opens one outside the four slots. A session without a message for
  60 s, which is 12,000,000 ticks, ends. An ACCEPT whose certificates or signature fail is counted and ends its session. -/
def Obligations.AtMostFourSessions : Prop :=
  -- CMP_HELLO (R584)
  (∀ (s : State) (m : SessMsg),
      (s.dev.cmpServed = true) →
      (32 ≤ m.body.length) →
      ((List.range 4).all (fun k => Tab.has s.dev.mgmt.cmp k) = true) →
      Runs (.cmpHello m) s (fun t => DeviceOnly s t ∧ t.dev.mgmt = s.dev.mgmt ∧ t.dev.out = s.dev.out ++ [.cmp 0 { op := 2, status := 2 }])) ∧
  -- only the four slots
  (∀ (s t : State) (m : SessMsg) (k : Nat), exec (.cmpHello m) s = .next t → Tab.has t.dev.mgmt.cmp k = true → k < 4 ∨ Tab.has s.dev.mgmt.cmp k = true) ∧
  -- CMP_IDLE_TIMEOUT (R584)
  (∀ (s : State) (n : Nat) (x : CmpSession),
      (Tab.look s.dev.mgmt.cmp n = some x) →
      (s.dev.campionUp = true) →
      (x.last + 12000000 ≤ s.dev.tick) →
      Runs (.cmpIdleTimeout n) s (fun t => Tab.look t.dev.mgmt.cmp n = none)) ∧
  -- CMP_ACCEPT (R584)
  (∀ (s : State) (m : SessMsg) (x : CmpSession),
      (Tab.look s.dev.mgmt.cmp m.session = some x) →
      (s.dev.cmpServed = true) →
      (x.state = 1) →
      Runs (.cmpAccept m) s (fun t => (Config.certChain (x.helloBody.drop 32) (leBytes 32 (s.dev.reg Reg.mgmtCaHash))).any (fun pk => Config.mldsaVerify pk
          (Config.shake256 (x.helloBody ++ x.offerBody ++ m.body.take 1088) 64) (m.body.drop 1088)) = false →
        Tab.look t.dev.mgmt.cmp m.session = none ∧ t.dev.reg Reg.cmpAuthFails = (s.dev.bump Reg.cmpAuthFails).reg Reg.cmpAuthFails))

/-- Training, framing, retry, markers, recovery notices: each leaves every part of the device it does not name as it was, every byte of tier H, every fuse and
  every dictionary entry but those listed. -/
def Obligations.LinkAndDomainFrames : Prop :=
  ∀ (c : Instr) (s t : State), exec c s = .next t →
      match c with
      | .tickMarker .. =>
          DeviceOnly s t ∧
          t.dev = { s.dev with regs := t.dev.regs, dom := t.dev.dom, ports := t.dev.ports } ∧
          ∀ k, k ∉ [Reg.framingDrops, Reg.tickAlignFaults, Reg.tickDepth, Reg.tickOffset, Reg.tickParent, Reg.tickState] → t.dev.reg k = s.dev.reg k
      | .tickInEdge .. =>
          DeviceOnly s t ∧
          t.dev = { s.dev with regs := t.dev.regs, dom := t.dev.dom, groups := t.dev.groups, health := t.dev.health, power := t.dev.power, sec := t.dev.sec } ∧
          ∀ k, k ∉ [Reg.tickCount] → t.dev.reg k = s.dev.reg k
      | .linkDelayMeasure .. | .handoverAnnounce .. =>
          DeviceOnly s t ∧
          t.dev = { s.dev with dom := t.dev.dom }
      | .domainRecovery .. | .startupPhase .. =>
          DeviceOnly s t ∧
          t.dev = { s.dev with regs := t.dev.regs, dom := t.dev.dom, ports := t.dev.ports, power := t.dev.power } ∧
          ∀ k, k ∉ [Reg.bistState] → t.dev.reg k = s.dev.reg k
      | .dataFlit .. =>
          DeviceOnly s t ∧
          t.dev = { s.dev with regs := t.dev.regs, ports := t.dev.ports } ∧
          ∀ k, k ∉ [Reg.framingDrops] → (∀ i, k ≠ Reg.bytesRx i ∧
          k ≠ Reg.crcErrors i ∧
          k ≠ Reg.flitsRx i ∧
          k ≠ Reg.nakRcvd i ∧
          k ≠ Reg.nakSent i) → t.dev.reg k = s.dev.reg k
      | .idleFlit .. | .alignFlit .. | .restoreReq .. =>
          DeviceOnly s t ∧
          t.dev = { s.dev with regs := t.dev.regs, ports := t.dev.ports } ∧
          ∀ k, (∀ i, k ≠ Reg.crcErrors i ∧
          k ≠ Reg.nakRcvd i) → t.dev.reg k = s.dev.reg k
      | .trainFlit .. | .dyingHoldEnd .. =>
          DeviceOnly s t ∧
          t.dev = { s.dev with ports := t.dev.ports }
      | .linkRetryTimeout .. =>
          DeviceOnly s t ∧
          t.dev = { s.dev with regs := t.dev.regs, ports := t.dev.ports } ∧
          ∀ k, (∀ i, k ≠ Reg.degrades i ∧
          k ≠ Reg.portLanes i ∧
          k ≠ Reg.portState i ∧
          k ≠ Reg.portWidth i ∧
          k ≠ Reg.retrains i ∧
          k ≠ Reg.retryTimeouts i) → t.dev.reg k = s.dev.reg k
      | .laneFailed .. =>
          DeviceOnly s t ∧
          t.dev = { s.dev with regs := t.dev.regs, out := t.dev.out, ports := t.dev.ports, logs := t.dev.logs, mgmt := t.dev.mgmt } ∧
          ∀ k, k ∉ [Reg.faultsWritten, Reg.lastFault, Reg.logNextSeq, Reg.recordsDropped] → (∀ i, k ≠ Reg.degrades i ∧
          k ≠ Reg.nakSent i ∧
          k ≠ Reg.pbLaneOk i ∧
          k ≠ Reg.portLanes i ∧
          k ≠ Reg.portState i ∧
          k ≠ Reg.portWidth i ∧
          k ≠ Reg.retrains i) → t.dev.reg k = s.dev.reg k
      | .degradeReq .. =>
          DeviceOnly s t ∧
          t.dev = { s.dev with regs := t.dev.regs, ports := t.dev.ports } ∧
          ∀ k, (∀ i, k ≠ Reg.crcErrors i ∧
          k ≠ Reg.degrades i ∧
          k ≠ Reg.nakRcvd i ∧
          k ≠ Reg.portLanes i ∧
          k ≠ Reg.portState i ∧
          k ≠ Reg.portWidth i ∧
          k ≠ Reg.retrains i) → t.dev.reg k = s.dev.reg k
      | .laneSwitch .. =>
          DeviceOnly s t ∧
          t.dev = { s.dev with regs := t.dev.regs, ports := t.dev.ports } ∧
          ∀ k, (∀ i, k ≠ Reg.degrades i ∧
          k ≠ Reg.nakSent i ∧
          k ≠ Reg.portLanes i ∧
          k ≠ Reg.portState i ∧
          k ≠ Reg.portWidth i ∧
          k ≠ Reg.retrains i) → t.dev.reg k = s.dev.reg k
      | .laneRepaired .. =>
          DeviceOnly s t ∧
          t.dev = { s.dev with regs := t.dev.regs, ports := t.dev.ports } ∧
          ∀ k, (∀ i, k ≠ Reg.pbLaneOk i) → t.dev.reg k = s.dev.reg k
      | .signalDetected .. =>
          DeviceOnly s t ∧
          t.dev = { s.dev with regs := t.dev.regs, ports := t.dev.ports } ∧
          ∀ k, (∀ i, k ≠ Reg.portState i) → t.dev.reg k = s.dev.reg k
      | .equalizeDone .. =>
          DeviceOnly s t ∧
          t.dev = { s.dev with regs := t.dev.regs, ports := t.dev.ports } ∧
          ∀ k, (∀ i, k ≠ Reg.pbLaneOk i ∧
          k ≠ Reg.pbPolarity i ∧
          k ≠ Reg.portState i) → t.dev.reg k = s.dev.reg k
      | .lockDone .. =>
          DeviceOnly s t ∧
          t.dev = { s.dev with regs := t.dev.regs, freeCtr := t.dev.freeCtr, ports := t.dev.ports } ∧
          ∀ k, (∀ i, k ≠ Reg.pbPolarity i ∧
          k ≠ Reg.portState i) → t.dev.reg k = s.dev.reg k
      | .paramDone .. =>
          DeviceOnly s t ∧
          t.dev = { s.dev with regs := t.dev.regs, out := t.dev.out, dom := t.dev.dom, ports := t.dev.ports, logs := t.dev.logs, mgmt := t.dev.mgmt } ∧
          ∀ k, k ∉ [Reg.faultsWritten, Reg.lastFault, Reg.logNextSeq, Reg.recordsDropped] → (∀ i, k ≠ Reg.pbLaneOk i ∧
          k ≠ Reg.pbPolarity i ∧
          k ≠ Reg.portLanes i ∧
          k ≠ Reg.portPeer i ∧
          k ≠ Reg.portState i ∧
          k ≠ Reg.portWidth i ∧
          k ≠ Reg.rttNs i) → t.dev.reg k = s.dev.reg k
      | .portActive .. =>
          DeviceOnly s t ∧
          t.dev = { s.dev with regs := t.dev.regs, ports := t.dev.ports, cores := t.dev.cores } ∧
          ∀ k, k ∉ [Reg.retiredDrops, Reg.unroutable] → (∀ i, k ≠ Reg.fabricOut i ∧
          k ≠ Reg.portLanes i ∧
          k ≠ Reg.portState i ∧
          k ≠ Reg.portWidth i ∧
          k ≠ Reg.resends i) → t.dev.reg k = s.dev.reg k
      | .trainingTimeout .. =>
          DeviceOnly s t ∧
          t.dev = { s.dev with regs := t.dev.regs } ∧
          ∀ k, (∀ i, k ≠ Reg.pbLaneOk i ∧
          k ≠ Reg.pbPolarity i ∧
          k ≠ Reg.portState i) → t.dev.reg k = s.dev.reg k
      | .retrainDone .. =>
          DeviceOnly s t ∧
          t.dev = { s.dev with regs := t.dev.regs, ports := t.dev.ports, cores := t.dev.cores } ∧
          ∀ k, k ∉ [Reg.retiredDrops, Reg.unroutable] → (∀ i, k ≠ Reg.fabricOut i ∧
          k ≠ Reg.portState i ∧
          k ≠ Reg.resends i) → t.dev.reg k = s.dev.reg k
      | .recoveryRecover .. =>
          DeviceOnly s t ∧
          t.dev = { s.dev with regs := t.dev.regs, dom := t.dev.dom, ports := t.dev.ports, power := t.dev.power } ∧
          ∀ k, k ∉ [Reg.bistState, Reg.framingDrops] → t.dev.reg k = s.dev.reg k
      | .flitSlot .. =>
          DeviceOnly s t ∧
          t.dev = { s.dev with regs := t.dev.regs, out := t.dev.out, freeCtr := t.dev.freeCtr, ports := t.dev.ports } ∧
          ∀ k, k ∉ [Reg.retiredDrops] → (∀ i, k ≠ Reg.bytesTx i ∧
          k ≠ Reg.creditStall i ∧
          k ≠ Reg.flitsTx i ∧
          k ≠ Reg.replayFlits i) → t.dev.reg k = s.dev.reg k
      | .holdoverEntry .. =>
          DeviceOnly s t ∧
          t.dev = { s.dev with regs := t.dev.regs } ∧
          ∀ k, k ∉ [Reg.tickParent, Reg.tickState] → t.dev.reg k = s.dev.reg k
      | _ => True

/-- Ingress, admission, the crossbar, Teasel and the host ports leave jobs, keys, tiers and every other part they do not name as they were, every byte of
  tier H, and every dictionary entry but those listed. -/
def Obligations.TrafficFrames : Prop :=
  ∀ (c : Instr) (s t : State), exec c s = .next t →
      match c with
      | .read .. | .write .. | .writePosted .. | .atomic .. | .msg .. | .jobPost .. | .jobResult .. | .reduceContrib .. | .reduceResult .. =>
          DeviceOnly s t ∧
          t.dev = { s.dev with regs := t.dev.regs, out := t.dev.out, ports := t.dev.ports, cores := t.dev.cores, waiting := t.dev.waiting, allowance := t.dev.allowance, logs := t.dev.logs, mgmt := t.dev.mgmt, hostA := t.dev.hostA, hostB := t.dev.hostB } ∧
          ∀ k, k ∉ [Reg.cutThrough, Reg.faultsWritten, Reg.framingDrops, Reg.keyFails, Reg.lastFault, Reg.logNextSeq, Reg.recordsDropped, Reg.regionMiss, Reg.retiredDrops, Reg.rightsFails, Reg.storeForward, Reg.tagFails, Reg.unroutable, Reg.wrongPlane] → (∀ i, k ≠ Reg.fabricIn i ∧
          k ≠ Reg.fabricOut i ∧
          k ≠ Reg.mcAdmitted i ∧
          k ≠ Reg.mcSkipped i ∧
          k ≠ Reg.sendBusy i ∧
          k ≠ Reg.usedHigh i) → t.dev.reg k = s.dev.reg k
      | .packetAdmit .. =>
          DeviceOnly s t ∧
          t.dev = { s.dev with regs := t.dev.regs, ports := t.dev.ports, cores := t.dev.cores, waiting := t.dev.waiting, paced := t.dev.paced, allowance := t.dev.allowance, hostA := t.dev.hostA, hostB := t.dev.hostB } ∧
          ∀ k, k ∉ [Reg.cutThrough, Reg.storeForward, Reg.unroutable, Reg.wrongPlane] → (∀ i, k ≠ Reg.fabricIn i ∧
          k ≠ Reg.fabricOut i ∧
          k ≠ Reg.mcAdmitted i ∧
          k ≠ Reg.mcSkipped i ∧
          k ≠ Reg.sendBusy i ∧
          k ≠ Reg.usedHigh i) → t.dev.reg k = s.dev.reg k
      | .hotWindowEnd .. =>
          DeviceOnly s t ∧
          t.dev = { s.dev with regs := t.dev.regs, cores := t.dev.cores } ∧
          ∀ k, (∀ i, k ≠ Reg.hotLines i) → t.dev.reg k = s.dev.reg k
      | .teaselAuditStart .. =>
          DeviceOnly s t ∧
          t.dev = { s.dev with cores := t.dev.cores }
      | .teaselAuditDone .. =>
          DeviceOnly s t ∧
          t.dev = { s.dev with regs := t.dev.regs, out := t.dev.out, cores := t.dev.cores, logs := t.dev.logs, mgmt := t.dev.mgmt } ∧
          ∀ k, k ∉ [Reg.faultsWritten, Reg.lastFault, Reg.logNextSeq, Reg.recordsDropped] → (∀ i, k ≠ Reg.audits i ∧
          k ≠ Reg.doubleOwned i ∧
          k ≠ Reg.freecountFix i ∧
          k ≠ Reg.reclaimed i ∧
          k ≠ Reg.refFixed i ∧
          k ≠ Reg.tally i) → t.dev.reg k = s.dev.reg k
      | .rxringWrite .. =>
          DeviceOnly s t ∧
          t.dev = { s.dev with regs := t.dev.regs, out := t.dev.out, cores := t.dev.cores, arbCls := t.dev.arbCls, crossing := t.dev.crossing, arbQuad := t.dev.arbQuad, hostA := t.dev.hostA, hostB := t.dev.hostB } ∧
          ∀ k, (∀ i, k ≠ Reg.fabricOut i ∧
          k ≠ Reg.rxringProd i) → t.dev.reg k = s.dev.reg k
      | .rxringConsWrite .. =>
          DeviceOnly s t ∧
          t.dev = { s.dev with regs := t.dev.regs, hostA := t.dev.hostA, hostB := t.dev.hostB } ∧
          ∀ k, k ∉ [Reg.lastReject, Reg.lockedWrites, Reg.rejectedWrites] → (∀ i, k ≠ Reg.rxringCons i) → t.dev.reg k = s.dev.reg k
      | .msixUnmask .. =>
          DeviceOnly s t ∧
          t.dev = { s.dev with out := t.dev.out, hostA := t.dev.hostA, hostB := t.dev.hostB }
      | .hostPortReset .. =>
          DeviceOnly s t ∧
          t.dev = { s.dev with regs := t.dev.regs, copies := t.dev.copies, cores := t.dev.cores, waiting := t.dev.waiting, crossing := t.dev.crossing, mgmt := t.dev.mgmt, hostA := t.dev.hostA, hostB := t.dev.hostB } ∧
          ∀ k, (∀ i, k ≠ Reg.flushed i ∧
          k ≠ Reg.rxringCons i ∧
          k ≠ Reg.rxringProd i ∧
          k ≠ Reg.sendBusy i) → t.dev.reg k = s.dev.reg k
      | .hostLinkUp .. =>
          DeviceOnly s t ∧
          t.dev = { s.dev with power := t.dev.power, hostA := t.dev.hostA, hostB := t.dev.hostB }
      | .crossbarGrant .. =>
          DeviceOnly s t ∧
          t.dev = { s.dev with regs := t.dev.regs, ports := t.dev.ports, cores := t.dev.cores, arbCls := t.dev.arbCls, crossing := t.dev.crossing, mcHeld := t.dev.mcHeld, arbQuad := t.dev.arbQuad, yar := t.dev.yar } ∧
          ∀ k, k ∉ [Reg.cutThrough, Reg.retiredDrops, Reg.storeForward, Reg.unroutable] → (∀ i, k ≠ Reg.fabricOut i ∧
          k ≠ Reg.mcAdmitted i ∧
          k ≠ Reg.mcSkipped i ∧
          k ≠ Reg.usedHigh i) → t.dev.reg k = s.dev.reg k
      | _ => True

/-- Home operations, merges, tier H requests, snoops, staging and scrubbing leave keys, jobs, translation, management and every other part they do not
  name as they were, and every dictionary entry but those listed; only tier H requests and fills write tier H. -/
def Obligations.HomeAndCoherenceFrames : Prop :=
  ∀ (c : Instr) (s t : State), exec c s = .next t →
      match c with
      | .mergeWindowClose .. | .mergeWriteDone .. =>
          DeviceOnly s t ∧
          t.dev = { s.dev with regs := t.dev.regs, out := t.dev.out, ports := t.dev.ports, cores := t.dev.cores, homes := t.dev.homes, l2 := t.dev.l2, groups := t.dev.groups, backDebt := t.dev.backDebt, logs := t.dev.logs, mgmt := t.dev.mgmt, tiers := t.dev.tiers, jobs := t.dev.jobs } ∧
          ∀ k, k ∉ [Reg.dataLost, Reg.degradedReads, Reg.degradedWrites, Reg.faultsWritten, Reg.homeLost, Reg.lastFault, Reg.logNextSeq, Reg.parityFixes, Reg.rebuildBytes, Reg.rebuildsDone, Reg.recordsDropped, Reg.retiredDrops, Reg.unroutable] → (∀ i, k ≠ Reg.fabricOut i ∧
          k ≠ Reg.gfBytes i ∧
          k ≠ Reg.mergeRmw i ∧
          k ≠ Reg.sgActive i ∧
          k ≠ Reg.sgStage i) → t.dev.reg k = s.dev.reg k
      | .dedupStale .. | .dedupFree .. | .staleWindowEnd .. =>
          DeviceOnly s t ∧
          t.dev = { s.dev with homes := t.dev.homes }
      | .bar2Read .. | .bar2Write .. =>
          DeviceOnly s t ∧
          t.dev = { s.dev with regs := t.dev.regs, out := t.dev.out, l2 := t.dev.l2, logs := t.dev.logs, mgmt := t.dev.mgmt, tiers := t.dev.tiers } ∧
          ∀ k, k ∉ [Reg.bar2FailsHa, Reg.bar2FailsHb, Reg.faultsWritten, Reg.keyFails, Reg.lastFault, Reg.logNextSeq, Reg.recordsDropped, Reg.regionMiss, Reg.rightsFails] → t.dev.reg k = s.dev.reg k
      | .bar2Unsupported .. =>
          DeviceOnly s t ∧
          t.dev = { s.dev with out := t.dev.out }
      | .scrubSector .. =>
          t.pending = s.pending ∧
          t.fuses = s.fuses ∧
          t.dev = { s.dev with regs := t.dev.regs, out := t.dev.out, freeCtr := t.dev.freeCtr, ports := t.dev.ports, cores := t.dev.cores, homes := t.dev.homes, l2 := t.dev.l2, groups := t.dev.groups, backDebt := t.dev.backDebt, logs := t.dev.logs, mgmt := t.dev.mgmt, tiers := t.dev.tiers, trans := t.dev.trans, coh := t.dev.coh, jobs := t.dev.jobs } ∧
          ∀ k, k ∉ [Reg.bar2FailsHa, Reg.bar2FailsHb, Reg.cancelsSent, Reg.dataLost, Reg.degradedReads, Reg.degradedWrites, Reg.faultsWritten, Reg.homeLost, Reg.lastFault, Reg.libBanks, Reg.logNextSeq, Reg.parityFixes, Reg.rebuildBytes, Reg.rebuildsDone, Reg.recordsDropped, Reg.retiredDrops, Reg.unroutable, Reg.walks, Reg.wrongPlane] → (∀ i, k ≠ Reg.backInval i ∧
          k ≠ Reg.fabricOut i ∧
          k ≠ Reg.gfBytes i ∧
          k ≠ Reg.hbmEccCorr i ∧
          k ≠ Reg.hbmEccUncorr i ∧
          k ≠ Reg.hbmScrubPasses i ∧
          k ≠ Reg.hbmUeLast i ∧
          k ≠ Reg.jobsFailed i ∧
          k ≠ Reg.lineLost i ∧
          k ≠ Reg.mergeRmw i ∧
          k ≠ Reg.revived i ∧
          k ≠ Reg.sgActive i ∧
          k ≠ Reg.sgStage i ∧
          k ≠ Reg.stageEvicted i) → t.dev.reg k = s.dev.reg k
      | .stagingFillResp .. =>
          t.pending = s.pending ∧
          t.fuses = s.fuses ∧
          t.dev = { s.dev with regs := t.dev.regs, out := t.dev.out, freeCtr := t.dev.freeCtr, ports := t.dev.ports, cores := t.dev.cores, homes := t.dev.homes, l2 := t.dev.l2, groups := t.dev.groups, backDebt := t.dev.backDebt, logs := t.dev.logs, mgmt := t.dev.mgmt, tiers := t.dev.tiers, trans := t.dev.trans, coh := t.dev.coh, jobs := t.dev.jobs } ∧
          ∀ k, k ∉ [Reg.bar2FailsHa, Reg.bar2FailsHb, Reg.cancelsSent, Reg.dataLost, Reg.degradedReads, Reg.degradedWrites, Reg.faultsWritten, Reg.homeLost, Reg.lastFault, Reg.libBanks, Reg.logNextSeq, Reg.parityFixes, Reg.rebuildBytes, Reg.rebuildsDone, Reg.recordsDropped, Reg.retiredDrops, Reg.stageFillBytes, Reg.unroutable, Reg.walks, Reg.wrongPlane] → (∀ i, k ≠ Reg.backInval i ∧
          k ≠ Reg.fabricOut i ∧
          k ≠ Reg.gfBytes i ∧
          k ≠ Reg.hbmEccCorr i ∧
          k ≠ Reg.hbmEccUncorr i ∧
          k ≠ Reg.hbmUeLast i ∧
          k ≠ Reg.jobsFailed i ∧
          k ≠ Reg.lineLost i ∧
          k ≠ Reg.mergeRmw i ∧
          k ≠ Reg.revived i ∧
          k ≠ Reg.sgActive i ∧
          k ≠ Reg.sgStage i ∧
          k ≠ Reg.stageEvicted i) → t.dev.reg k = s.dev.reg k
      | .stagingSlotRelease .. =>
          DeviceOnly s t ∧
          t.dev = { s.dev with regs := t.dev.regs, out := t.dev.out, ports := t.dev.ports, cores := t.dev.cores, homes := t.dev.homes, l2 := t.dev.l2, groups := t.dev.groups, backDebt := t.dev.backDebt, logs := t.dev.logs, mgmt := t.dev.mgmt, tiers := t.dev.tiers, jobs := t.dev.jobs } ∧
          ∀ k, k ∉ [Reg.dataLost, Reg.degradedReads, Reg.degradedWrites, Reg.faultsWritten, Reg.homeLost, Reg.lastFault, Reg.logNextSeq, Reg.parityFixes, Reg.rebuildBytes, Reg.rebuildsDone, Reg.recordsDropped, Reg.retiredDrops, Reg.unroutable, Reg.wrongPlane] → (∀ i, k ≠ Reg.fabricOut i ∧
          k ≠ Reg.gfBytes i ∧
          k ≠ Reg.mergeRmw i ∧
          k ≠ Reg.sgActive i ∧
          k ≠ Reg.sgStage i ∧
          k ≠ Reg.stageEvicted i) → t.dev.reg k = s.dev.reg k
      | .stagingDeadline .. =>
          DeviceOnly s t ∧
          t.dev = { s.dev with regs := t.dev.regs, out := t.dev.out, tiers := t.dev.tiers } ∧
          ∀ k, (∀ i, k ≠ Reg.stageLate i) → t.dev.reg k = s.dev.reg k
      | .gets .. | .getm .. | .wfull .. | .pute .. | .putm .. =>
          t.pending = s.pending ∧
          t.fuses = s.fuses ∧
          t.dev = { s.dev with regs := t.dev.regs, out := t.dev.out, freeCtr := t.dev.freeCtr, ports := t.dev.ports, cores := t.dev.cores, homes := t.dev.homes, l2 := t.dev.l2, groups := t.dev.groups, backDebt := t.dev.backDebt, logs := t.dev.logs, mgmt := t.dev.mgmt, tiers := t.dev.tiers, trans := t.dev.trans, coh := t.dev.coh, jobs := t.dev.jobs } ∧
          ∀ k, k ∉ [Reg.bar2FailsHa, Reg.bar2FailsHb, Reg.cancelsSent, Reg.dataLost, Reg.degradedReads, Reg.degradedWrites, Reg.faultsWritten, Reg.homeLost, Reg.lastFault, Reg.libBanks, Reg.logNextSeq, Reg.parityFixes, Reg.rebuildBytes, Reg.rebuildsDone, Reg.recordsDropped, Reg.retiredDrops, Reg.unroutable, Reg.walks, Reg.wrongPlane] → (∀ i, k ≠ Reg.backInval i ∧
          k ≠ Reg.fabricOut i ∧
          k ≠ Reg.gfBytes i ∧
          k ≠ Reg.hbmEccCorr i ∧
          k ≠ Reg.hbmEccUncorr i ∧
          k ≠ Reg.hbmUeLast i ∧
          k ≠ Reg.jobsFailed i ∧
          k ≠ Reg.lineLost i ∧
          k ≠ Reg.mergeRmw i ∧
          k ≠ Reg.revived i ∧
          k ≠ Reg.sgActive i ∧
          k ≠ Reg.sgStage i ∧
          k ≠ Reg.stageEvicted i ∧
          k ≠ Reg.wbCross i) → t.dev.reg k = s.dev.reg k
      | .dirtyNotice .. =>
          t.pending = s.pending ∧
          t.fuses = s.fuses ∧
          t.dev = { s.dev with regs := t.dev.regs, out := t.dev.out, freeCtr := t.dev.freeCtr, ports := t.dev.ports, cores := t.dev.cores, homes := t.dev.homes, l2 := t.dev.l2, groups := t.dev.groups, backDebt := t.dev.backDebt, logs := t.dev.logs, mgmt := t.dev.mgmt, tiers := t.dev.tiers, coh := t.dev.coh, jobs := t.dev.jobs } ∧
          ∀ k, k ∉ [Reg.bar2FailsHa, Reg.bar2FailsHb, Reg.dataLost, Reg.degradedReads, Reg.degradedWrites, Reg.faultsWritten, Reg.homeLost, Reg.lastFault, Reg.logNextSeq, Reg.parityFixes, Reg.rebuildBytes, Reg.rebuildsDone, Reg.recordsDropped, Reg.retiredDrops, Reg.unroutable] → (∀ i, k ≠ Reg.fabricOut i ∧
          k ≠ Reg.gfBytes i ∧
          k ≠ Reg.mergeRmw i ∧
          k ≠ Reg.sgActive i ∧
          k ≠ Reg.sgStage i) → t.dev.reg k = s.dev.reg k
      | .hread .. | .hwrite .. | .hatom .. | .snoopResponse .. | .invalidationReceive .. | .invalidationApply .. =>
          t.pending = s.pending ∧
          t.fuses = s.fuses ∧
          t.dev = { s.dev with regs := t.dev.regs, out := t.dev.out, freeCtr := t.dev.freeCtr, ports := t.dev.ports, cores := t.dev.cores, homes := t.dev.homes, l2 := t.dev.l2, groups := t.dev.groups, backDebt := t.dev.backDebt, logs := t.dev.logs, mgmt := t.dev.mgmt, tiers := t.dev.tiers, trans := t.dev.trans, coh := t.dev.coh, jobs := t.dev.jobs } ∧
          ∀ k, k ∉ [Reg.bar2FailsHa, Reg.bar2FailsHb, Reg.cancelsSent, Reg.dataLost, Reg.degradedReads, Reg.degradedWrites, Reg.faultsWritten, Reg.homeLost, Reg.lastFault, Reg.libBanks, Reg.logNextSeq, Reg.parityFixes, Reg.rebuildBytes, Reg.rebuildsDone, Reg.recordsDropped, Reg.retiredDrops, Reg.unroutable, Reg.walks, Reg.wrongPlane] → (∀ i, k ≠ Reg.backInval i ∧
          k ≠ Reg.fabricOut i ∧
          k ≠ Reg.gfBytes i ∧
          k ≠ Reg.hbmEccCorr i ∧
          k ≠ Reg.hbmEccUncorr i ∧
          k ≠ Reg.hbmUeLast i ∧
          k ≠ Reg.jobsFailed i ∧
          k ≠ Reg.lineLost i ∧
          k ≠ Reg.mergeRmw i ∧
          k ≠ Reg.revived i ∧
          k ≠ Reg.sgActive i ∧
          k ≠ Reg.sgStage i ∧
          k ≠ Reg.stageEvicted i) → t.dev.reg k = s.dev.reg k
      | .heartbeat .. =>
          DeviceOnly s t ∧
          t.dev = { s.dev with coh := t.dev.coh }
      | _ => True

/-- Page walks, faults, quanta, jobs, plans, backups and engine work leave keys, health, stripe groups, management and every other part they do not name as
  they were, and every dictionary entry but those listed. -/
def Obligations.JobFrames : Prop :=
  ∀ (c : Instr) (s t : State), exec c s = .next t →
      match c with
      | .faultRecordWrite .. =>
          DeviceOnly s t ∧
          t.dev = { s.dev with regs := t.dev.regs, out := t.dev.out, hostA := t.dev.hostA, hostB := t.dev.hostB, trans := t.dev.trans }
      | .faultRespRetry .. | .faultRespAbort .. =>
          DeviceOnly s t ∧
          t.dev = { s.dev with regs := t.dev.regs, freeCtr := t.dev.freeCtr, ports := t.dev.ports, cores := t.dev.cores, tiers := t.dev.tiers, trans := t.dev.trans, coh := t.dev.coh, jobs := t.dev.jobs } ∧
          ∀ k, k ∉ [Reg.cancelsSent, Reg.lastReject, Reg.libBanks, Reg.lockedWrites, Reg.rejectedWrites, Reg.respDiscarded, Reg.retiredDrops, Reg.unroutable, Reg.walks, Reg.wrongPlane] → (∀ i, k ≠ Reg.fabricOut i ∧
          k ≠ Reg.jobsFailed i ∧
          k ≠ Reg.stageEvicted i) → t.dev.reg k = s.dev.reg k
      | .faultTimeout .. =>
          DeviceOnly s t ∧
          t.dev = { s.dev with regs := t.dev.regs, freeCtr := t.dev.freeCtr, ports := t.dev.ports, cores := t.dev.cores, tiers := t.dev.tiers, trans := t.dev.trans, coh := t.dev.coh, jobs := t.dev.jobs } ∧
          ∀ k, k ∉ [Reg.cancelsSent, Reg.faultTimeouts, Reg.libBanks, Reg.retiredDrops, Reg.unroutable, Reg.walks, Reg.wrongPlane] → (∀ i, k ≠ Reg.fabricOut i ∧
          k ≠ Reg.jobsFailed i ∧
          k ≠ Reg.stageEvicted i) → t.dev.reg k = s.dev.reg k
      | .invalReq .. =>
          DeviceOnly s t ∧
          t.dev = { s.dev with regs := t.dev.regs, trans := t.dev.trans } ∧
          ∀ k, k ∉ [Reg.lastReject, Reg.lockedWrites, Reg.rejectedWrites] → t.dev.reg k = s.dev.reg k
      | .ctxEntryWrite .. =>
          DeviceOnly s t ∧
          t.dev = { s.dev with regs := t.dev.regs, trans := t.dev.trans } ∧
          ∀ k, k ∉ [Reg.lastReject, Reg.lockedWrites, Reg.rejectedWrites] → (∀ i, k ≠ Reg.ctxEntry i) → t.dev.reg k = s.dev.reg k
      | .acquireWaitTimeout .. =>
          DeviceOnly s t ∧
          t.dev = { s.dev with regs := t.dev.regs, freeCtr := t.dev.freeCtr, ports := t.dev.ports, cores := t.dev.cores, tiers := t.dev.tiers, trans := t.dev.trans, coh := t.dev.coh, jobs := t.dev.jobs } ∧
          ∀ k, k ∉ [Reg.cancelsSent, Reg.libBanks, Reg.retiredDrops, Reg.unroutable, Reg.walks, Reg.wrongPlane] → (∀ i, k ≠ Reg.acqTimeouts i ∧
          k ≠ Reg.fabricOut i ∧
          k ≠ Reg.jobsFailed i ∧
          k ≠ Reg.stageEvicted i) → t.dev.reg k = s.dev.reg k
      | .releaseComplete .. =>
          DeviceOnly s t ∧
          t.dev = { s.dev with regs := t.dev.regs, out := t.dev.out, ports := t.dev.ports, cores := t.dev.cores, homes := t.dev.homes, l2 := t.dev.l2, groups := t.dev.groups, backDebt := t.dev.backDebt, logs := t.dev.logs, mgmt := t.dev.mgmt, tiers := t.dev.tiers, coh := t.dev.coh, jobs := t.dev.jobs } ∧
          ∀ k, k ∉ [Reg.dataLost, Reg.degradedReads, Reg.degradedWrites, Reg.faultsWritten, Reg.homeLost, Reg.lastFault, Reg.logNextSeq, Reg.parityFixes, Reg.rebuildBytes, Reg.rebuildsDone, Reg.recordsDropped, Reg.retiredDrops, Reg.unroutable] → (∀ i, k ≠ Reg.fabricOut i ∧
          k ≠ Reg.gfBytes i ∧
          k ≠ Reg.mergeRmw i ∧
          k ≠ Reg.sgActive i ∧
          k ≠ Reg.sgStage i) → t.dev.reg k = s.dev.reg k
      | .quantumOverrun .. =>
          DeviceOnly s t ∧
          t.dev = { s.dev with regs := t.dev.regs, jobs := t.dev.jobs } ∧
          ∀ k, (∀ i, k ≠ Reg.engineLate i ∧
          k ≠ Reg.halvings i ∧
          k ≠ Reg.lateTicks i) → t.dev.reg k = s.dev.reg k
      | .halveRestore .. | .claimEntryExpire .. =>
          DeviceOnly s t ∧
          t.dev = { s.dev with jobs := t.dev.jobs }
      | .jobTimeout .. =>
          DeviceOnly s t ∧
          t.dev = { s.dev with regs := t.dev.regs, freeCtr := t.dev.freeCtr, ports := t.dev.ports, cores := t.dev.cores, tiers := t.dev.tiers, trans := t.dev.trans, coh := t.dev.coh, jobs := t.dev.jobs } ∧
          ∀ k, k ∉ [Reg.cancelsSent, Reg.libBanks, Reg.retiredDrops, Reg.unroutable, Reg.walks, Reg.wrongPlane] → (∀ i, k ≠ Reg.fabricOut i ∧
          k ≠ Reg.jobsFailed i ∧
          k ≠ Reg.stageEvicted i) → t.dev.reg k = s.dev.reg k
      | .jobCancel .. =>
          DeviceOnly s t ∧
          t.dev = { s.dev with regs := t.dev.regs, out := t.dev.out, freeCtr := t.dev.freeCtr, ports := t.dev.ports, cores := t.dev.cores, logs := t.dev.logs, mgmt := t.dev.mgmt, hostA := t.dev.hostA, hostB := t.dev.hostB, tiers := t.dev.tiers, trans := t.dev.trans, coh := t.dev.coh, jobs := t.dev.jobs } ∧
          ∀ k, k ∉ [Reg.cancelsSent, Reg.faultsWritten, Reg.framingDrops, Reg.keyFails, Reg.lastFault, Reg.libBanks, Reg.logNextSeq, Reg.recordsDropped, Reg.regionMiss, Reg.retiredDrops, Reg.rightsFails, Reg.tagFails, Reg.unroutable, Reg.walks, Reg.wrongPlane] → (∀ i, k ≠ Reg.fabricOut i ∧
          k ≠ Reg.jobsFailed i ∧
          k ≠ Reg.sendBusy i ∧
          k ≠ Reg.stageEvicted i) → t.dev.reg k = s.dev.reg k
      | .contribRetry .. =>
          DeviceOnly s t ∧
          t.dev = { s.dev with regs := t.dev.regs, freeCtr := t.dev.freeCtr, ports := t.dev.ports, cores := t.dev.cores, tiers := t.dev.tiers, trans := t.dev.trans, coh := t.dev.coh, jobs := t.dev.jobs } ∧
          ∀ k, k ∉ [Reg.cancelsSent, Reg.contribRetries, Reg.libBanks, Reg.retiredDrops, Reg.unroutable, Reg.walks, Reg.wrongPlane] → (∀ i, k ≠ Reg.fabricOut i ∧
          k ≠ Reg.gatherBytes i ∧
          k ≠ Reg.jobsFailed i ∧
          k ≠ Reg.quantaDone i ∧
          k ≠ Reg.stageEvicted i ∧
          k ≠ Reg.usedHigh i) → t.dev.reg k = s.dev.reg k
      | .backupNotify .. =>
          DeviceOnly s t ∧
          t.dev = { s.dev with regs := t.dev.regs, ports := t.dev.ports, jobs := t.dev.jobs } ∧
          ∀ k, k ∉ [Reg.backupDenies, Reg.backupGrants, Reg.framingDrops] → t.dev.reg k = s.dev.reg k
      | .backupClaim .. =>
          DeviceOnly s t ∧
          t.dev = { s.dev with regs := t.dev.regs, freeCtr := t.dev.freeCtr, ports := t.dev.ports, cores := t.dev.cores, tiers := t.dev.tiers, trans := t.dev.trans, coh := t.dev.coh, jobs := t.dev.jobs } ∧
          ∀ k, k ∉ [Reg.backupDenies, Reg.backupGrants, Reg.cancelsSent, Reg.framingDrops, Reg.libBanks, Reg.retiredDrops, Reg.unroutable, Reg.walks, Reg.wrongPlane] → (∀ i, k ≠ Reg.fabricOut i ∧
          k ≠ Reg.jobsFailed i ∧
          k ≠ Reg.stageEvicted i) → t.dev.reg k = s.dev.reg k
      | .backupGrant .. | .backupDeny .. | .backupCancel .. =>
          DeviceOnly s t ∧
          t.dev = { s.dev with regs := t.dev.regs, freeCtr := t.dev.freeCtr, ports := t.dev.ports, cores := t.dev.cores, tiers := t.dev.tiers, trans := t.dev.trans, coh := t.dev.coh, jobs := t.dev.jobs } ∧
          ∀ k, k ∉ [Reg.cancelsSent, Reg.framingDrops, Reg.libBanks, Reg.retiredDrops, Reg.unroutable, Reg.walks, Reg.wrongPlane] → (∀ i, k ≠ Reg.fabricOut i ∧
          k ≠ Reg.gatherBytes i ∧
          k ≠ Reg.jobsFailed i ∧
          k ≠ Reg.quantaDone i ∧
          k ≠ Reg.stageEvicted i ∧
          k ≠ Reg.usedHigh i) → t.dev.reg k = s.dev.reg k
      | .claimWaitTimeout .. =>
          DeviceOnly s t ∧
          t.dev = { s.dev with regs := t.dev.regs, freeCtr := t.dev.freeCtr, ports := t.dev.ports, cores := t.dev.cores, tiers := t.dev.tiers, trans := t.dev.trans, coh := t.dev.coh, jobs := t.dev.jobs } ∧
          ∀ k, k ∉ [Reg.cancelsSent, Reg.claimTimeouts, Reg.libBanks, Reg.retiredDrops, Reg.unroutable, Reg.walks, Reg.wrongPlane] → (∀ i, k ≠ Reg.fabricOut i ∧
          k ≠ Reg.gatherBytes i ∧
          k ≠ Reg.jobsFailed i ∧
          k ≠ Reg.quantaDone i ∧
          k ≠ Reg.stageEvicted i ∧
          k ≠ Reg.usedHigh i) → t.dev.reg k = s.dev.reg k
      | .speculativeRead .. =>
          DeviceOnly s t ∧
          t.dev = { s.dev with regs := t.dev.regs, out := t.dev.out, freeCtr := t.dev.freeCtr, ports := t.dev.ports, cores := t.dev.cores, homes := t.dev.homes, l2 := t.dev.l2, groups := t.dev.groups, backDebt := t.dev.backDebt, logs := t.dev.logs, mgmt := t.dev.mgmt, tiers := t.dev.tiers, trans := t.dev.trans, coh := t.dev.coh, jobs := t.dev.jobs } ∧
          ∀ k, k ∉ [Reg.bar2FailsHa, Reg.bar2FailsHb, Reg.cancelsSent, Reg.dataLost, Reg.degradedReads, Reg.degradedWrites, Reg.faultsWritten, Reg.homeLost, Reg.keyFails, Reg.lastFault, Reg.libBanks, Reg.logNextSeq, Reg.parityFixes, Reg.rebuildBytes, Reg.rebuildsDone, Reg.recordsDropped, Reg.regionMiss, Reg.retiredDrops, Reg.rightsFails, Reg.unroutable, Reg.utlbMisses, Reg.walks, Reg.wrongPlane] → (∀ i, k ≠ Reg.backInval i ∧
          k ≠ Reg.fabricOut i ∧
          k ≠ Reg.gfBytes i ∧
          k ≠ Reg.hbmEccCorr i ∧
          k ≠ Reg.hbmEccUncorr i ∧
          k ≠ Reg.hbmUeLast i ∧
          k ≠ Reg.jobsFailed i ∧
          k ≠ Reg.lineLost i ∧
          k ≠ Reg.mergeRmw i ∧
          k ≠ Reg.revived i ∧
          k ≠ Reg.sgActive i ∧
          k ≠ Reg.sgStage i ∧
          k ≠ Reg.stageEvicted i) → t.dev.reg k = s.dev.reg k
      | .blockDecode .. =>
          t.pending = s.pending ∧
          t.fuses = s.fuses ∧
          t.dev = { s.dev with regs := t.dev.regs, out := t.dev.out, freeCtr := t.dev.freeCtr, ports := t.dev.ports, cores := t.dev.cores, homes := t.dev.homes, l2 := t.dev.l2, groups := t.dev.groups, backDebt := t.dev.backDebt, logs := t.dev.logs, mgmt := t.dev.mgmt, tiers := t.dev.tiers, trans := t.dev.trans, coh := t.dev.coh, jobs := t.dev.jobs } ∧
          ∀ k, k ∉ [Reg.bar2FailsHa, Reg.bar2FailsHb, Reg.cancelsSent, Reg.dataLost, Reg.degradedReads, Reg.degradedWrites, Reg.faultsWritten, Reg.homeLost, Reg.keyFails, Reg.lastFault, Reg.libBanks, Reg.logNextSeq, Reg.parityFixes, Reg.rebuildBytes, Reg.rebuildsDone, Reg.recordsDropped, Reg.regionMiss, Reg.retiredDrops, Reg.rightsFails, Reg.unroutable, Reg.utlbMisses, Reg.walks, Reg.wrongPlane] → (∀ i, k ≠ Reg.backInval i ∧
          k ≠ Reg.blocksExpanded i ∧
          k ≠ Reg.expandFails i ∧
          k ≠ Reg.expandStall i ∧
          k ≠ Reg.fabricOut i ∧
          k ≠ Reg.gfBytes i ∧
          k ≠ Reg.hbmEccCorr i ∧
          k ≠ Reg.hbmEccUncorr i ∧
          k ≠ Reg.hbmUeLast i ∧
          k ≠ Reg.jobsFailed i ∧
          k ≠ Reg.lineLost i ∧
          k ≠ Reg.mergeRmw i ∧
          k ≠ Reg.revived i ∧
          k ≠ Reg.sgActive i ∧
          k ≠ Reg.sgStage i ∧
          k ≠ Reg.stageEvicted i) → t.dev.reg k = s.dev.reg k
      | .tlbInvalidate .. =>
          DeviceOnly s t ∧
          t.dev = { s.dev with regs := t.dev.regs, trans := t.dev.trans } ∧
          ∀ k, k ∉ [Reg.invalDone] → t.dev.reg k = s.dev.reg k
      | .invalDrained .. =>
          DeviceOnly s t ∧
          t.dev = { s.dev with regs := t.dev.regs, trans := t.dev.trans } ∧
          ∀ k, k ∉ [Reg.invalDrained] → t.dev.reg k = s.dev.reg k
      | _ => True

/-- Contributions, rounds, the registry, rebuilds, fences, notices and log deliveries leave every part they do not name as they were, and every dictionary
  entry but those listed. -/
def Obligations.YarrowErasureAndHealthFrames : Prop :=
  ∀ (c : Instr) (s t : State), exec c s = .next t →
      match c with
      | .contribTake .. =>
          DeviceOnly s t ∧
          t.dev = { s.dev with regs := t.dev.regs, freeCtr := t.dev.freeCtr, ports := t.dev.ports, cores := t.dev.cores, arbCls := t.dev.arbCls, crossing := t.dev.crossing, arbQuad := t.dev.arbQuad, tiers := t.dev.tiers, trans := t.dev.trans, coh := t.dev.coh, jobs := t.dev.jobs, yar := t.dev.yar } ∧
          ∀ k, k ∉ [Reg.cancelsSent, Reg.libBanks, Reg.retiredDrops, Reg.unroutable, Reg.walks, Reg.wrongPlane] → (∀ i, k ≠ Reg.contribs i ∧
          k ≠ Reg.drops i ∧
          k ≠ Reg.fabricOut i ∧
          k ≠ Reg.gatherBytes i ∧
          k ≠ Reg.jobsFailed i ∧
          k ≠ Reg.quantaDone i ∧
          k ≠ Reg.reducedElems i ∧
          k ≠ Reg.stageEvicted i ∧
          k ≠ Reg.stalls i ∧
          k ≠ Reg.usedHigh i) → t.dev.reg k = s.dev.reg k
      | .chunkTimeout .. =>
          DeviceOnly s t ∧
          t.dev = { s.dev with regs := t.dev.regs, yar := t.dev.yar } ∧
          ∀ k, (∀ i, k ≠ Reg.exclusions i) → t.dev.reg k = s.dev.reg k
      | .chunkRound .. =>
          DeviceOnly s t ∧
          t.dev = { s.dev with regs := t.dev.regs, ports := t.dev.ports, cores := t.dev.cores, mcHeld := t.dev.mcHeld, yar := t.dev.yar } ∧
          ∀ k, k ∉ [Reg.cutThrough, Reg.retiredDrops, Reg.storeForward, Reg.unroutable] → (∀ i, k ≠ Reg.chunksDone i ∧
          k ≠ Reg.chunksFailed i ∧
          k ≠ Reg.fabricOut i ∧
          k ≠ Reg.mcAdmitted i ∧
          k ≠ Reg.mcSkipped i ∧
          k ≠ Reg.saturated i ∧
          k ≠ Reg.stalls i ∧
          k ≠ Reg.usedHigh i) → t.dev.reg k = s.dev.reg k
      | .resultAckTimeout .. =>
          DeviceOnly s t ∧
          t.dev = { s.dev with regs := t.dev.regs, ports := t.dev.ports, cores := t.dev.cores, yar := t.dev.yar } ∧
          ∀ k, k ∉ [Reg.retiredDrops, Reg.unroutable] → (∀ i, k ≠ Reg.fabricOut i ∧
          k ≠ Reg.resends i) → t.dev.reg k = s.dev.reg k
      | .reduceAck .. =>
          DeviceOnly s t ∧
          t.dev = { s.dev with regs := t.dev.regs, out := t.dev.out, ports := t.dev.ports, cores := t.dev.cores, logs := t.dev.logs, mgmt := t.dev.mgmt, hostA := t.dev.hostA, hostB := t.dev.hostB, yar := t.dev.yar } ∧
          ∀ k, k ∉ [Reg.faultsWritten, Reg.framingDrops, Reg.keyFails, Reg.lastFault, Reg.logNextSeq, Reg.recordsDropped, Reg.regionMiss, Reg.retiredDrops, Reg.rightsFails, Reg.tagFails, Reg.unroutable, Reg.wrongPlane] → (∀ i, k ≠ Reg.fabricOut i ∧
          k ≠ Reg.sendBusy i) → t.dev.reg k = s.dev.reg k
      | .reduceNack .. =>
          DeviceOnly s t ∧
          t.dev = { s.dev with regs := t.dev.regs, out := t.dev.out, ports := t.dev.ports, cores := t.dev.cores, logs := t.dev.logs, mgmt := t.dev.mgmt, hostA := t.dev.hostA, hostB := t.dev.hostB } ∧
          ∀ k, k ∉ [Reg.faultsWritten, Reg.framingDrops, Reg.keyFails, Reg.lastFault, Reg.logNextSeq, Reg.recordsDropped, Reg.regionMiss, Reg.retiredDrops, Reg.rightsFails, Reg.tagFails, Reg.unroutable, Reg.wrongPlane] → (∀ i, k ≠ Reg.drops i ∧
          k ≠ Reg.fabricOut i ∧
          k ≠ Reg.resends i ∧
          k ≠ Reg.sendBusy i) → t.dev.reg k = s.dev.reg k
      | .groupRegister .. | .groupRemove .. | .groupReadmit .. =>
          DeviceOnly s t ∧
          t.dev = { s.dev with regs := t.dev.regs, ports := t.dev.ports, power := t.dev.power, yar := t.dev.yar } ∧
          ∀ k, k ∉ [Reg.lastReject, Reg.lockedWrites, Reg.rejectedWrites] → t.dev.reg k = s.dev.reg k
      | .registryRegister .. | .registryRemove .. | .registryReadmit .. | .registryAccept .. | .registryRefuse .. | .registryActivate .. =>
          DeviceOnly s t ∧
          t.dev = { s.dev with regs := t.dev.regs, ports := t.dev.ports, power := t.dev.power, yar := t.dev.yar } ∧
          ∀ k, k ∉ [Reg.framingDrops] → t.dev.reg k = s.dev.reg k
      | .groupActivationTick .. =>
          DeviceOnly s t ∧
          t.dev = { s.dev with yar := t.dev.yar }
      | .registryAnswerTimeout .. =>
          DeviceOnly s t ∧
          t.dev = { s.dev with ports := t.dev.ports, yar := t.dev.yar }
      | .rebuildStart .. | .rebuildStripe .. | .resyncStripe .. =>
          DeviceOnly s t ∧
          t.dev = { s.dev with regs := t.dev.regs, out := t.dev.out, ports := t.dev.ports, cores := t.dev.cores, homes := t.dev.homes, l2 := t.dev.l2, groups := t.dev.groups, backDebt := t.dev.backDebt, logs := t.dev.logs, mgmt := t.dev.mgmt, tiers := t.dev.tiers, jobs := t.dev.jobs } ∧
          ∀ k, k ∉ [Reg.dataLost, Reg.degradedReads, Reg.degradedWrites, Reg.faultsWritten, Reg.homeLost, Reg.lastFault, Reg.logNextSeq, Reg.parityFixes, Reg.rebuildBytes, Reg.rebuildsDone, Reg.recordsDropped, Reg.retiredDrops, Reg.unroutable] → (∀ i, k ≠ Reg.fabricOut i ∧
          k ≠ Reg.gfBytes i ∧
          k ≠ Reg.mergeRmw i ∧
          k ≠ Reg.sgActive i ∧
          k ≠ Reg.sgStage i) → t.dev.reg k = s.dev.reg k
      | .rebuildRestart .. =>
          DeviceOnly s t ∧
          t.dev = { s.dev with regs := t.dev.regs, groups := t.dev.groups } ∧
          ∀ k, k ∉ [Reg.rebuildRestarts] → (∀ i, k ≠ Reg.sgActive i) → t.dev.reg k = s.dev.reg k
      | .transitionRevert .. =>
          DeviceOnly s t ∧
          t.dev = { s.dev with regs := t.dev.regs, out := t.dev.out, logs := t.dev.logs, mgmt := t.dev.mgmt } ∧
          ∀ k, k ∉ [Reg.faultsWritten, Reg.lastFault, Reg.logNextSeq, Reg.recordsDropped, Reg.transReverts] → (∀ i, k ≠ Reg.hmapActive i) → t.dev.reg k = s.dev.reg k
      | .stepFenceReq .. =>
          DeviceOnly s t ∧
          t.dev = { s.dev with regs := t.dev.regs, stepFences := t.dev.stepFences } ∧
          ∀ k, k ∉ [Reg.lastReject, Reg.lockedWrites, Reg.rejectedWrites] → t.dev.reg k = s.dev.reg k
      | .stepFenceDone .. =>
          DeviceOnly s t ∧
          t.dev = { s.dev with regs := t.dev.regs, out := t.dev.out, stepFences := t.dev.stepFences, logs := t.dev.logs, mgmt := t.dev.mgmt } ∧
          ∀ k, k ∉ [Reg.faultsWritten, Reg.lastFault, Reg.logNextSeq, Reg.recordsDropped] → (∀ i, k ≠ Reg.stepFenceDone i) → t.dev.reg k = s.dev.reg k
      | .recoveryExpel .. =>
          DeviceOnly s t ∧
          t.dev = { s.dev with regs := t.dev.regs, out := t.dev.out, dom := t.dev.dom, ports := t.dev.ports, logs := t.dev.logs, mgmt := t.dev.mgmt } ∧
          ∀ k, k ∉ [Reg.faultsWritten, Reg.framingDrops, Reg.lastFault, Reg.logNextSeq, Reg.recordsDropped] → t.dev.reg k = s.dev.reg k
      | .healthReadmit .. =>
          DeviceOnly s t ∧
          t.dev = { s.dev with regs := t.dev.regs, ports := t.dev.ports, health := t.dev.health } ∧
          ∀ k, k ∉ [Reg.lastReject, Reg.lockedWrites, Reg.rejectedWrites] → (∀ i, k ≠ Reg.pbLaneOk i ∧
          k ≠ Reg.pbPolarity i ∧
          k ≠ Reg.portState i) → t.dev.reg k = s.dev.reg k
      | .eventDelivery .. =>
          DeviceOnly s t ∧
          t.dev = { s.dev with regs := t.dev.regs, out := t.dev.out, logs := t.dev.logs, hostA := t.dev.hostA, hostB := t.dev.hostB } ∧
          ∀ k, (∀ h, k ≠ Dev.evlogProdKey h) → t.dev.reg k = s.dev.reg k
      | .evlogConsWrite .. =>
          DeviceOnly s t ∧
          t.dev = { s.dev with regs := t.dev.regs, hostA := t.dev.hostA, hostB := t.dev.hostB } ∧
          ∀ k, k ∉ [Reg.lastReject, Reg.lockedWrites, Reg.rejectedWrites] → (∀ h, k ≠ Dev.evlogConsKey h) → t.dev.reg k = s.dev.reg k
      | .flogConsWrite .. =>
          DeviceOnly s t ∧
          t.dev = { s.dev with regs := t.dev.regs, hostA := t.dev.hostA, hostB := t.dev.hostB } ∧
          ∀ k, k ∉ [Reg.lastReject, Reg.lockedWrites, Reg.rejectedWrites] → (∀ h, k ≠ Dev.flogConsKey h) → t.dev.reg k = s.dev.reg k
      | .provisionalEnd .. =>
          DeviceOnly s t ∧
          t.dev = { s.dev with health := t.dev.health }
      | _ => True

/-- Images, keys, sessions, the commit sequence, the management ports, clocks and rungs leave every part they do not name as they were, and every
  dictionary entry but those listed. -/
def Obligations.SecurityManagementAndPowerFrames : Prop :=
  ∀ (c : Instr) (s t : State), exec c s = .next t →
      match c with
      | .libVerify .. =>
          DeviceOnly s t ∧
          t.dev = { s.dev with regs := t.dev.regs, out := t.dev.out, logs := t.dev.logs, mgmt := t.dev.mgmt, sec := t.dev.sec, jobs := t.dev.jobs } ∧
          ∀ k, k ∉ [Reg.faultsWritten, Reg.lastFault, Reg.libBanks, Reg.libRejects, Reg.logNextSeq, Reg.recordsDropped] → t.dev.reg k = s.dev.reg k
      | .libActivateA .. | .libActivateB .. =>
          DeviceOnly s t ∧
          t.dev = { s.dev with regs := t.dev.regs, jobs := t.dev.jobs } ∧
          ∀ k, k ∉ [Reg.lastReject, Reg.lockedWrites, Reg.rejectedWrites] → t.dev.reg k = s.dev.reg k
      | .imageVerify .. =>
          t.pending = s.pending ∧
          t.mem = s.mem ∧
          t.dev = { s.dev with regs := t.dev.regs, out := t.dev.out, logs := t.dev.logs, mgmt := t.dev.mgmt, sec := t.dev.sec, jobs := t.dev.jobs } ∧
          ∀ k, k ∉ [Reg.aliasCert, Reg.debugState, Reg.faultsWritten, Reg.lastFault, Reg.libBanks, Reg.libVersionCur, Reg.logNextSeq, Reg.recordsDropped] → t.dev.reg k = s.dev.reg k
      | .image .. =>
          t.pending = s.pending ∧
          t.mem = s.mem ∧
          t.dev = { s.dev with regs := t.dev.regs, out := t.dev.out, ports := t.dev.ports, logs := t.dev.logs, power := t.dev.power, mgmt := t.dev.mgmt, sec := t.dev.sec, jobs := t.dev.jobs } ∧
          ∀ k, k ∉ [Reg.faultsWritten, Reg.framingDrops, Reg.lastFault, Reg.libBanks, Reg.libRejects, Reg.logNextSeq, Reg.recordsDropped, Reg.unroutable] → t.dev.reg k = s.dev.reg k
      | .svnCommit .. =>
          t.pending = s.pending ∧
          t.mem = s.mem ∧
          t.dev = { s.dev with regs := t.dev.regs, out := t.dev.out, logs := t.dev.logs, mgmt := t.dev.mgmt, sec := t.dev.sec } ∧
          ∀ k, k ∉ [Reg.faultsWritten, Reg.lastFault, Reg.lastReject, Reg.lockedWrites, Reg.logNextSeq, Reg.recordsDropped, Reg.rejectedWrites] → t.dev.reg k = s.dev.reg k
      | .reportRead .. | .cmpRead .. | .smbusRead .. | .consoleRead .. | .rcRead .. =>
          t.pending = s.pending ∧
          t.dev = { s.dev with regs := t.dev.regs, out := t.dev.out, mgmt := t.dev.mgmt }
      | .kdsHello .. =>
          DeviceOnly s t ∧
          t.dev = { s.dev with regs := t.dev.regs, out := t.dev.out, freeCtr := t.dev.freeCtr, ports := t.dev.ports, cores := t.dev.cores, logs := t.dev.logs, mgmt := t.dev.mgmt, hostA := t.dev.hostA, hostB := t.dev.hostB, sec := t.dev.sec } ∧
          ∀ k, k ∉ [Reg.faultsWritten, Reg.framingDrops, Reg.kdsSessions, Reg.keyFails, Reg.lastFault, Reg.logNextSeq, Reg.recordsDropped, Reg.regionMiss, Reg.retiredDrops, Reg.rightsFails, Reg.tagFails, Reg.unroutable, Reg.wrongPlane] → (∀ i, k ≠ Reg.fabricOut i ∧
          k ≠ Reg.sendBusy i) → t.dev.reg k = s.dev.reg k
      | .kdsAccept .. =>
          DeviceOnly s t ∧
          t.dev = { s.dev with regs := t.dev.regs, out := t.dev.out, ports := t.dev.ports, cores := t.dev.cores, logs := t.dev.logs, mgmt := t.dev.mgmt, hostA := t.dev.hostA, hostB := t.dev.hostB, sec := t.dev.sec } ∧
          ∀ k, k ∉ [Reg.faultsWritten, Reg.framingDrops, Reg.kdsAuthFails, Reg.kdsSessions, Reg.keyFails, Reg.lastFault, Reg.logNextSeq, Reg.recordsDropped, Reg.regionMiss, Reg.retiredDrops, Reg.rightsFails, Reg.tagFails, Reg.unroutable, Reg.wrongPlane] → (∀ i, k ≠ Reg.fabricOut i ∧
          k ≠ Reg.sendBusy i) → t.dev.reg k = s.dev.reg k
      | .kdsLoad .. =>
          DeviceOnly s t ∧
          t.dev = { s.dev with regs := t.dev.regs, out := t.dev.out, ports := t.dev.ports, cores := t.dev.cores, logs := t.dev.logs, mgmt := t.dev.mgmt, hostA := t.dev.hostA, hostB := t.dev.hostB, keys := t.dev.keys, sec := t.dev.sec } ∧
          ∀ k, k ∉ [Reg.faultsWritten, Reg.framingDrops, Reg.kdsSessions, Reg.keyFails, Reg.keysLoaded, Reg.lastFault, Reg.logNextSeq, Reg.recordsDropped, Reg.regionMiss, Reg.retiredDrops, Reg.rightsFails, Reg.tagFails, Reg.unroutable, Reg.wrongPlane] → (∀ i, k ≠ Reg.fabricOut i ∧
          k ≠ Reg.sendBusy i) → t.dev.reg k = s.dev.reg k
      | .kdsRetire .. =>
          DeviceOnly s t ∧
          t.dev = { s.dev with regs := t.dev.regs, out := t.dev.out, ports := t.dev.ports, cores := t.dev.cores, logs := t.dev.logs, mgmt := t.dev.mgmt, hostA := t.dev.hostA, hostB := t.dev.hostB, keys := t.dev.keys, sec := t.dev.sec } ∧
          ∀ k, k ∉ [Reg.faultsWritten, Reg.framingDrops, Reg.kdsSessions, Reg.keyFails, Reg.lastFault, Reg.logNextSeq, Reg.recordsDropped, Reg.regionMiss, Reg.retiredDrops, Reg.rightsFails, Reg.tagFails, Reg.unroutable, Reg.wrongPlane] → (∀ i, k ≠ Reg.fabricOut i ∧
          k ≠ Reg.sendBusy i) → t.dev.reg k = s.dev.reg k
      | .kdsCerts .. | .kdsClose .. =>
          DeviceOnly s t ∧
          t.dev = { s.dev with regs := t.dev.regs, out := t.dev.out, ports := t.dev.ports, cores := t.dev.cores, logs := t.dev.logs, mgmt := t.dev.mgmt, hostA := t.dev.hostA, hostB := t.dev.hostB, sec := t.dev.sec } ∧
          ∀ k, k ∉ [Reg.faultsWritten, Reg.framingDrops, Reg.kdsSessions, Reg.keyFails, Reg.lastFault, Reg.logNextSeq, Reg.recordsDropped, Reg.regionMiss, Reg.retiredDrops, Reg.rightsFails, Reg.tagFails, Reg.unroutable, Reg.wrongPlane] → (∀ i, k ≠ Reg.fabricOut i ∧
          k ≠ Reg.sendBusy i) → t.dev.reg k = s.dev.reg k
      | .kdsSessionTimeout .. =>
          DeviceOnly s t ∧
          t.dev = { s.dev with regs := t.dev.regs, sec := t.dev.sec } ∧
          ∀ k, k ∉ [Reg.kdsSessions] → t.dev.reg k = s.dev.reg k
      | .keyLive .. =>
          DeviceOnly s t ∧
          t.dev = { s.dev with keys := t.dev.keys }
      | .keyRetired .. =>
          DeviceOnly s t ∧
          t.dev = { s.dev with regs := t.dev.regs, out := t.dev.out, logs := t.dev.logs, mgmt := t.dev.mgmt, keys := t.dev.keys } ∧
          ∀ k, k ∉ [Reg.faultsWritten, Reg.lastFault, Reg.logNextSeq, Reg.recordsDropped] → t.dev.reg k = s.dev.reg k
      | .keyZeroized .. =>
          t.pending = s.pending ∧
          t.fuses = s.fuses ∧
          t.dev = { s.dev with regs := t.dev.regs, out := t.dev.out, ports := t.dev.ports, cores := t.dev.cores, homes := t.dev.homes, l2 := t.dev.l2, groups := t.dev.groups, backDebt := t.dev.backDebt, logs := t.dev.logs, mgmt := t.dev.mgmt, keys := t.dev.keys, tiers := t.dev.tiers, jobs := t.dev.jobs } ∧
          ∀ k, k ∉ [Reg.dataLost, Reg.degradedReads, Reg.degradedWrites, Reg.faultsWritten, Reg.homeLost, Reg.lastFault, Reg.logNextSeq, Reg.parityFixes, Reg.rebuildBytes, Reg.rebuildsDone, Reg.recordsDropped, Reg.retiredDrops, Reg.unroutable, Reg.wrongPlane, Reg.zeroizes] → (∀ i, k ≠ Reg.fabricOut i ∧
          k ≠ Reg.gfBytes i ∧
          k ≠ Reg.mergeRmw i ∧
          k ≠ Reg.sgActive i ∧
          k ≠ Reg.sgStage i ∧
          k ≠ Reg.stageEvicted i) → t.dev.reg k = s.dev.reg k
      | .slotRetire .. =>
          DeviceOnly s t ∧
          t.dev = { s.dev with regs := t.dev.regs, keys := t.dev.keys } ∧
          ∀ k, k ∉ [Reg.lastReject, Reg.lockedWrites, Reg.rejectedWrites] → t.dev.reg k = s.dev.reg k
      | .commit .. =>
          DeviceOnly s t ∧
          t.dev = { s.dev with regs := t.dev.regs, ports := t.dev.ports, commit := t.dev.commit } ∧
          ∀ k, k ∉ [Reg.commitAborts, Reg.commitReason, Reg.commitState, Reg.lastReject, Reg.lockedWrites, Reg.rejectedWrites, Reg.stageDigest] → t.dev.reg k = s.dev.reg k
      | .resync .. =>
          DeviceOnly s t ∧
          t.dev = { s.dev with regs := t.dev.regs, commit := t.dev.commit } ∧
          ∀ k, k ∉ [Reg.lastReject, Reg.lockedWrites, Reg.rejectedWrites] → t.dev.reg k = s.dev.reg k
      | .commitPrepare .. =>
          DeviceOnly s t ∧
          t.dev = { s.dev with regs := t.dev.regs, ports := t.dev.ports, commit := t.dev.commit } ∧
          ∀ k, k ∉ [Reg.commitAborts, Reg.commitReason, Reg.commitState, Reg.framingDrops, Reg.stageDigest] → t.dev.reg k = s.dev.reg k
      | .commitReady .. | .commitAnnounce .. =>
          DeviceOnly s t ∧
          t.dev = { s.dev with regs := t.dev.regs, ports := t.dev.ports, commit := t.dev.commit } ∧
          ∀ k, k ∉ [Reg.commitState, Reg.framingDrops] → t.dev.reg k = s.dev.reg k
      | .commitNotReady .. | .commitAbort .. =>
          DeviceOnly s t ∧
          t.dev = { s.dev with regs := t.dev.regs, ports := t.dev.ports, commit := t.dev.commit } ∧
          ∀ k, k ∉ [Reg.commitAborts, Reg.commitReason, Reg.commitState, Reg.framingDrops] → t.dev.reg k = s.dev.reg k
      | .reportCmd .. =>
          DeviceOnly s t ∧
          t.dev = { s.dev with regs := t.dev.regs, ports := t.dev.ports, cores := t.dev.cores, meter := t.dev.meter } ∧
          ∀ k, k ∉ [Reg.lastReject, Reg.lockedWrites, Reg.rejectedWrites, Reg.reportsSigned, Reg.retiredDrops, Reg.unroutable] → (∀ i, k ≠ Reg.fabricOut i ∧
          k ≠ Reg.lastReport i ∧
          k ≠ Reg.reportSeq i) → t.dev.reg k = s.dev.reg k
      | .cmpHello .. =>
          DeviceOnly s t ∧
          t.dev = { s.dev with out := t.dev.out, freeCtr := t.dev.freeCtr, mgmt := t.dev.mgmt }
      | .cmpAccept .. =>
          DeviceOnly s t ∧
          t.dev = { s.dev with regs := t.dev.regs, copies := t.dev.copies, out := t.dev.out, mgmt := t.dev.mgmt } ∧
          ∀ k, k ∉ [Reg.cmpAuthFails] → t.dev.reg k = s.dev.reg k
      | .cmpSubscribe .. | .mgmtClkLoss .. | .mgmtClkReturn .. =>
          DeviceOnly s t ∧
          t.dev = { s.dev with mgmt := t.dev.mgmt }
      | .cmpClose .. | .cmpIdleTimeout .. =>
          DeviceOnly s t ∧
          t.dev = { s.dev with copies := t.dev.copies, mgmt := t.dev.mgmt }
      | .mbRead .. =>
          t.pending = s.pending ∧
          t.dev = { s.dev with regs := t.dev.regs, out := t.dev.out, mgmt := t.dev.mgmt, hostA := t.dev.hostA, hostB := t.dev.hostB }
      | .smbusSelect .. =>
          t.pending = s.pending ∧
          t.dev = { s.dev with mgmt := t.dev.mgmt }
      | .refclkPrefWrite .. =>
          DeviceOnly s t ∧
          t.dev = { s.dev with regs := t.dev.regs, out := t.dev.out, logs := t.dev.logs, power := t.dev.power, mgmt := t.dev.mgmt } ∧
          ∀ k, k ∉ [Reg.faultsWritten, Reg.lastFault, Reg.lastReject, Reg.lockedWrites, Reg.logNextSeq, Reg.recordsDropped, Reg.refclkPref, Reg.refclkSwitches, Reg.rejectedWrites] → t.dev.reg k = s.dev.reg k
      | .bistRun .. =>
          DeviceOnly s t ∧
          t.dev = { s.dev with regs := t.dev.regs, power := t.dev.power } ∧
          ∀ k, k ∉ [Reg.bistState, Reg.lastReject, Reg.lockedWrites, Reg.rejectedWrites] → t.dev.reg k = s.dev.reg k
      | .bistPacketRun .. | .bistPacketResult .. =>
          DeviceOnly s t ∧
          t.dev = { s.dev with regs := t.dev.regs, dom := t.dev.dom, ports := t.dev.ports, power := t.dev.power } ∧
          ∀ k, k ∉ [Reg.bistState, Reg.framingDrops] → t.dev.reg k = s.dev.reg k
      | .dipStart .. =>
          DeviceOnly s t ∧
          t.dev = { s.dev with regs := t.dev.regs, power := t.dev.power } ∧
          ∀ k, k ∉ [Reg.supplyState] → t.dev.reg k = s.dev.reg k
      | .dipEnd .. =>
          DeviceOnly s t ∧
          t.dev = { s.dev with regs := t.dev.regs, out := t.dev.out, logs := t.dev.logs, power := t.dev.power, mgmt := t.dev.mgmt } ∧
          ∀ k, k ∉ [Reg.dipsA, Reg.dipsB, Reg.faultsWritten, Reg.lastFault, Reg.logNextSeq, Reg.recordsDropped, Reg.supplyState] → t.dev.reg k = s.dev.reg k
      | .warmResetCmd .. | .fundamentalResetCmd .. =>
          DeviceOnly s t ∧
          t.dev = { s.dev with regs := t.dev.regs, ports := t.dev.ports, power := t.dev.power } ∧
          ∀ k, k ∉ [Reg.lastReject, Reg.lockedWrites, Reg.rejectedWrites] → t.dev.reg k = s.dev.reg k
      | .pcieRefclkLoss .. =>
          DeviceOnly s t ∧
          t.dev = { s.dev with regs := t.dev.regs, copies := t.dev.copies, cores := t.dev.cores, waiting := t.dev.waiting, crossing := t.dev.crossing, power := t.dev.power, mgmt := t.dev.mgmt, hostA := t.dev.hostA, hostB := t.dev.hostB } ∧
          ∀ k, (∀ i, k ≠ Reg.flushed i ∧
          k ≠ Reg.rxringCons i ∧
          k ≠ Reg.rxringProd i ∧
          k ≠ Reg.sendBusy i) → t.dev.reg k = s.dev.reg k
      | .rungEntry .. =>
          DeviceOnly s t ∧
          t.dev = { s.dev with regs := t.dev.regs, power := t.dev.power, tiers := t.dev.tiers, trans := t.dev.trans } ∧
          ∀ k, (∀ i, k ≠ Reg.hbmState i) → t.dev.reg k = s.dev.reg k
      | .rungWake .. =>
          DeviceOnly s t ∧
          t.dev = { s.dev with regs := t.dev.regs, freeCtr := t.dev.freeCtr, power := t.dev.power, tiers := t.dev.tiers } ∧
          ∀ k, k ∉ [Reg.wakeDelayNs] → t.dev.reg k = s.dev.reg k
      | .libSwitch .. =>
          DeviceOnly s t ∧
          t.dev = { s.dev with regs := t.dev.regs, jobs := t.dev.jobs } ∧
          ∀ k, k ∉ [Reg.libBanks, Reg.libVersionCur] → t.dev.reg k = s.dev.reg k
      | .debugUnlockExpiry .. =>
          DeviceOnly s t ∧
          t.dev = { s.dev with regs := t.dev.regs, copies := t.dev.copies, mgmt := t.dev.mgmt, sec := t.dev.sec } ∧
          ∀ k, k ∉ [Reg.debugState] → t.dev.reg k = s.dev.reg k
      | .commitAnswerTimeout .. =>
          DeviceOnly s t ∧
          t.dev = { s.dev with regs := t.dev.regs, ports := t.dev.ports, commit := t.dev.commit } ∧
          ∀ k, k ∉ [Reg.commitAborts, Reg.commitReason, Reg.commitState] → t.dev.reg k = s.dev.reg k
      | .commitFreezeTimeout .. =>
          DeviceOnly s t ∧
          t.dev = { s.dev with regs := t.dev.regs, commit := t.dev.commit } ∧
          ∀ k, k ∉ [Reg.commitAborts, Reg.commitReason, Reg.commitState] → t.dev.reg k = s.dev.reg k
      | .usageReportPeriodic .. =>
          DeviceOnly s t ∧
          t.dev = { s.dev with regs := t.dev.regs, ports := t.dev.ports, cores := t.dev.cores, meter := t.dev.meter } ∧
          ∀ k, k ∉ [Reg.reportsSigned, Reg.retiredDrops, Reg.unroutable] → (∀ i, k ≠ Reg.fabricOut i ∧
          k ≠ Reg.lastReport i ∧
          k ≠ Reg.reportSeq i) → t.dev.reg k = s.dev.reg k
      | .campionWatchdog .. =>
          DeviceOnly s t ∧
          t.dev = { s.dev with regs := t.dev.regs, copies := t.dev.copies, mgmt := t.dev.mgmt } ∧
          ∀ k, k ∉ [Reg.campionRestarts, Reg.campionState] → t.dev.reg k = s.dev.reg k
      | .smbusStatus .. =>
          DeviceOnly s t ∧
          t.dev = { s.dev with out := t.dev.out }
      | .smbusAlertResponse .. =>
          DeviceOnly s t ∧
          t.dev = { s.dev with out := t.dev.out, mgmt := t.dev.mgmt }
      | .dipClassB .. =>
          DeviceOnly s t ∧
          t.dev = { s.dev with regs := t.dev.regs, out := t.dev.out, logs := t.dev.logs, power := t.dev.power, mgmt := t.dev.mgmt } ∧
          ∀ k, k ∉ [Reg.faultsWritten, Reg.lastFault, Reg.logNextSeq, Reg.recordsDropped, Reg.supplyState] → t.dev.reg k = s.dev.reg k
      | .refclkSwitch .. =>
          DeviceOnly s t ∧
          t.dev = { s.dev with regs := t.dev.regs, out := t.dev.out, logs := t.dev.logs, power := t.dev.power, mgmt := t.dev.mgmt } ∧
          ∀ k, k ∉ [Reg.faultsWritten, Reg.lastFault, Reg.logNextSeq, Reg.recordsDropped, Reg.refclkSwitches] → t.dev.reg k = s.dev.reg k
      | _ => True

/-- The tick edge, a port or stack that fails, resets, stops, power-up and the dictionary writes leave the queue as it was, and those parts of the device,
  the fuses and tier H that they do not name. -/
def Obligations.WideFrames : Prop :=
  ∀ (c : Instr) (s t : State), exec c s = .next t →
      match c with
      | .tickEdge .. =>
          DeviceOnly s t ∧
          t.dev = { s.dev with regs := t.dev.regs, out := t.dev.out, freeCtr := t.dev.freeCtr, dom := t.dev.dom, ports := t.dev.ports, cores := t.dev.cores, waiting := t.dev.waiting, allowance := t.dev.allowance, homes := t.dev.homes, l2 := t.dev.l2, groups := t.dev.groups, stepFences := t.dev.stepFences, backDebt := t.dev.backDebt, logs := t.dev.logs, health := t.dev.health, power := t.dev.power, mgmt := t.dev.mgmt, sec := t.dev.sec, commit := t.dev.commit, meter := t.dev.meter, tiers := t.dev.tiers, trans := t.dev.trans, coh := t.dev.coh, jobs := t.dev.jobs, yar := t.dev.yar }
      | .beacon .. =>
          DeviceOnly s t ∧
          t.dev = { s.dev with regs := t.dev.regs, out := t.dev.out, freeCtr := t.dev.freeCtr, dom := t.dev.dom, ports := t.dev.ports, cores := t.dev.cores, waiting := t.dev.waiting, homes := t.dev.homes, l2 := t.dev.l2, groups := t.dev.groups, backDebt := t.dev.backDebt, logs := t.dev.logs, mgmt := t.dev.mgmt, tiers := t.dev.tiers, trans := t.dev.trans, coh := t.dev.coh, jobs := t.dev.jobs, yar := t.dev.yar } ∧
          ∀ k, k ∉ [Reg.cancelsSent, Reg.dataLost, Reg.degradedReads, Reg.degradedWrites, Reg.faultsWritten, Reg.fenced, Reg.fences, Reg.framingDrops, Reg.groupsLost, Reg.homeLost, Reg.lastFault, Reg.libBanks, Reg.logNextSeq, Reg.managerCur, Reg.memberFails, Reg.parityFixes, Reg.rebuildBytes, Reg.rebuildsDone, Reg.recordsDropped, Reg.retiredDrops, Reg.unroutable, Reg.walks, Reg.wrongPlane] → (∀ i, k ≠ Reg.exclusions i ∧
          k ≠ Reg.fabricOut i ∧
          k ≠ Reg.fenceReason i ∧
          k ≠ Reg.fenceTick i ∧
          k ≠ Reg.flitsDiscarded i ∧
          k ≠ Reg.flushed i ∧
          k ≠ Reg.gfBytes i ∧
          k ≠ Reg.jobsFailed i ∧
          k ≠ Reg.mergeRmw i ∧
          k ≠ Reg.pbLaneOk i ∧
          k ≠ Reg.pbPolarity i ∧
          k ≠ Reg.portLanes i ∧
          k ≠ Reg.portState i ∧
          k ≠ Reg.portWidth i ∧
          k ≠ Reg.sgActive i ∧
          k ≠ Reg.sgStage i ∧
          k ≠ Reg.stageEvicted i) → t.dev.reg k = s.dev.reg k
      | .dyingRcvd .. =>
          DeviceOnly s t ∧
          t.dev = { s.dev with regs := t.dev.regs, out := t.dev.out, freeCtr := t.dev.freeCtr, dom := t.dev.dom, ports := t.dev.ports, cores := t.dev.cores, waiting := t.dev.waiting, homes := t.dev.homes, l2 := t.dev.l2, groups := t.dev.groups, backDebt := t.dev.backDebt, logs := t.dev.logs, mgmt := t.dev.mgmt, tiers := t.dev.tiers, trans := t.dev.trans, coh := t.dev.coh, jobs := t.dev.jobs, yar := t.dev.yar } ∧
          ∀ k, k ∉ [Reg.cancelsSent, Reg.dataLost, Reg.degradedReads, Reg.degradedWrites, Reg.faultsWritten, Reg.fenced, Reg.fences, Reg.groupsLost, Reg.homeLost, Reg.lastFault, Reg.libBanks, Reg.logNextSeq, Reg.memberFails, Reg.parityFixes, Reg.rebuildBytes, Reg.rebuildsDone, Reg.recordsDropped, Reg.retiredDrops, Reg.unroutable, Reg.walks, Reg.wrongPlane] → (∀ i, k ≠ Reg.dyingRcvd i ∧
          k ≠ Reg.exclusions i ∧
          k ≠ Reg.fabricOut i ∧
          k ≠ Reg.fenceReason i ∧
          k ≠ Reg.fenceTick i ∧
          k ≠ Reg.flitsDiscarded i ∧
          k ≠ Reg.flushed i ∧
          k ≠ Reg.gfBytes i ∧
          k ≠ Reg.jobsFailed i ∧
          k ≠ Reg.lastDying i ∧
          k ≠ Reg.mergeRmw i ∧
          k ≠ Reg.pbLaneOk i ∧
          k ≠ Reg.pbPolarity i ∧
          k ≠ Reg.portLanes i ∧
          k ≠ Reg.portState i ∧
          k ≠ Reg.portWidth i ∧
          k ≠ Reg.sgActive i ∧
          k ≠ Reg.sgStage i ∧
          k ≠ Reg.stageEvicted i) → t.dev.reg k = s.dev.reg k
      | .retrainTimeout .. | .lossOfSignal .. =>
          DeviceOnly s t ∧
          t.dev = { s.dev with regs := t.dev.regs, out := t.dev.out, freeCtr := t.dev.freeCtr, dom := t.dev.dom, ports := t.dev.ports, cores := t.dev.cores, waiting := t.dev.waiting, homes := t.dev.homes, l2 := t.dev.l2, groups := t.dev.groups, backDebt := t.dev.backDebt, logs := t.dev.logs, mgmt := t.dev.mgmt, tiers := t.dev.tiers, trans := t.dev.trans, coh := t.dev.coh, jobs := t.dev.jobs, yar := t.dev.yar } ∧
          ∀ k, k ∉ [Reg.cancelsSent, Reg.dataLost, Reg.degradedReads, Reg.degradedWrites, Reg.faultsWritten, Reg.fenced, Reg.fences, Reg.groupsLost, Reg.homeLost, Reg.lastFault, Reg.libBanks, Reg.logNextSeq, Reg.memberFails, Reg.parityFixes, Reg.rebuildBytes, Reg.rebuildsDone, Reg.recordsDropped, Reg.retiredDrops, Reg.unroutable, Reg.walks, Reg.wrongPlane] → (∀ i, k ≠ Reg.exclusions i ∧
          k ≠ Reg.fabricOut i ∧
          k ≠ Reg.fenceReason i ∧
          k ≠ Reg.fenceTick i ∧
          k ≠ Reg.flitsDiscarded i ∧
          k ≠ Reg.flushed i ∧
          k ≠ Reg.gfBytes i ∧
          k ≠ Reg.jobsFailed i ∧
          k ≠ Reg.mergeRmw i ∧
          k ≠ Reg.pbLaneOk i ∧
          k ≠ Reg.pbPolarity i ∧
          k ≠ Reg.portLanes i ∧
          k ≠ Reg.portState i ∧
          k ≠ Reg.portWidth i ∧
          k ≠ Reg.sgActive i ∧
          k ≠ Reg.sgStage i ∧
          k ≠ Reg.stageEvicted i) → t.dev.reg k = s.dev.reg k
      | .resp .. | .trayResp .. =>
          DeviceOnly s t ∧
          t.dev = { s.dev with regs := t.dev.regs, out := t.dev.out, freeCtr := t.dev.freeCtr, dom := t.dev.dom, ports := t.dev.ports, cores := t.dev.cores, waiting := t.dev.waiting, allowance := t.dev.allowance, homes := t.dev.homes, l2 := t.dev.l2, groups := t.dev.groups, backDebt := t.dev.backDebt, logs := t.dev.logs, mgmt := t.dev.mgmt, hostA := t.dev.hostA, hostB := t.dev.hostB, tiers := t.dev.tiers, trans := t.dev.trans, coh := t.dev.coh, jobs := t.dev.jobs, yar := t.dev.yar } ∧
          ∀ k, k ∉ [Reg.cancelsSent, Reg.cutThrough, Reg.dataLost, Reg.degradedReads, Reg.degradedWrites, Reg.epochDisputes, Reg.faultsWritten, Reg.fenced, Reg.fences, Reg.framingDrops, Reg.groupsLost, Reg.homeLost, Reg.keyFails, Reg.lastFault, Reg.libBanks, Reg.logNextSeq, Reg.memberFails, Reg.parityFixes, Reg.rebuildBytes, Reg.rebuildsDone, Reg.recordsDropped, Reg.regionMiss, Reg.restMacFails, Reg.retiredDrops, Reg.rightsFails, Reg.storeForward, Reg.tagFails, Reg.unitRepairs, Reg.unroutable, Reg.walks, Reg.wrongPlane] → (∀ i, k ≠ Reg.fabricIn i ∧
          k ≠ Reg.fabricOut i ∧
          k ≠ Reg.fenceReason i ∧
          k ≠ Reg.fenceTick i ∧
          k ≠ Reg.gfBytes i ∧
          k ≠ Reg.jobsFailed i ∧
          k ≠ Reg.mcAdmitted i ∧
          k ≠ Reg.mcSkipped i ∧
          k ≠ Reg.mergeRmw i ∧
          k ≠ Reg.sendBusy i ∧
          k ≠ Reg.sgActive i ∧
          k ≠ Reg.sgStage i ∧
          k ≠ Reg.stageEvicted i ∧
          k ≠ Reg.usedHigh i) → t.dev.reg k = s.dev.reg k
      | .packetEgressDone .. =>
          DeviceOnly s t ∧
          t.dev = { s.dev with regs := t.dev.regs, out := t.dev.out, freeCtr := t.dev.freeCtr, dom := t.dev.dom, ports := t.dev.ports, cores := t.dev.cores, waiting := t.dev.waiting, homes := t.dev.homes, l2 := t.dev.l2, groups := t.dev.groups, backDebt := t.dev.backDebt, logs := t.dev.logs, mgmt := t.dev.mgmt, tiers := t.dev.tiers, trans := t.dev.trans, coh := t.dev.coh, jobs := t.dev.jobs, yar := t.dev.yar } ∧
          ∀ k, k ∉ [Reg.cancelsSent, Reg.cellEccUncorr, Reg.dataLost, Reg.degradedReads, Reg.degradedWrites, Reg.faultsWritten, Reg.fenced, Reg.fences, Reg.groupsLost, Reg.homeLost, Reg.lastFault, Reg.libBanks, Reg.logNextSeq, Reg.memberFails, Reg.parityFixes, Reg.rebuildBytes, Reg.rebuildsDone, Reg.recordsDropped, Reg.retiredDrops, Reg.unroutable, Reg.walks, Reg.wrongPlane] → (∀ i, k ≠ Reg.bytesTx i ∧
          k ≠ Reg.exclusions i ∧
          k ≠ Reg.fabricOut i ∧
          k ≠ Reg.fenceReason i ∧
          k ≠ Reg.fenceTick i ∧
          k ≠ Reg.flitsDiscarded i ∧
          k ≠ Reg.flitsTx i ∧
          k ≠ Reg.flushed i ∧
          k ≠ Reg.gfBytes i ∧
          k ≠ Reg.jobsFailed i ∧
          k ≠ Reg.mergeRmw i ∧
          k ≠ Reg.pbLaneOk i ∧
          k ≠ Reg.pbPolarity i ∧
          k ≠ Reg.portLanes i ∧
          k ≠ Reg.portState i ∧
          k ≠ Reg.portWidth i ∧
          k ≠ Reg.sgActive i ∧
          k ≠ Reg.sgStage i ∧
          k ≠ Reg.stageEvicted i) → t.dev.reg k = s.dev.reg k
      | .homeRead .. | .homeWrite .. =>
          DeviceOnly s t ∧
          t.dev = { s.dev with regs := t.dev.regs, out := t.dev.out, ports := t.dev.ports, cores := t.dev.cores, arbCls := t.dev.arbCls, crossing := t.dev.crossing, arbQuad := t.dev.arbQuad, homes := t.dev.homes, l2 := t.dev.l2, groups := t.dev.groups, backDebt := t.dev.backDebt, logs := t.dev.logs, mgmt := t.dev.mgmt, tiers := t.dev.tiers, jobs := t.dev.jobs } ∧
          ∀ k, k ∉ [Reg.dataLost, Reg.degradedReads, Reg.degradedWrites, Reg.faultsWritten, Reg.homeLost, Reg.lastFault, Reg.logNextSeq, Reg.parityFixes, Reg.rebuildBytes, Reg.rebuildsDone, Reg.recordsDropped, Reg.retiredDrops, Reg.unroutable] → (∀ i, k ≠ Reg.fabricOut i ∧
          k ≠ Reg.gfBytes i ∧
          k ≠ Reg.mergeRmw i ∧
          k ≠ Reg.sgActive i ∧
          k ≠ Reg.sgStage i) → t.dev.reg k = s.dev.reg k
      | .homeAtomic .. =>
          DeviceOnly s t ∧
          t.dev = { s.dev with regs := t.dev.regs, out := t.dev.out, ports := t.dev.ports, cores := t.dev.cores, arbCls := t.dev.arbCls, crossing := t.dev.crossing, arbQuad := t.dev.arbQuad, homes := t.dev.homes, l2 := t.dev.l2, groups := t.dev.groups, backDebt := t.dev.backDebt, logs := t.dev.logs, mgmt := t.dev.mgmt, tiers := t.dev.tiers, jobs := t.dev.jobs } ∧
          ∀ k, k ∉ [Reg.dataLost, Reg.degradedReads, Reg.degradedWrites, Reg.faultsWritten, Reg.homeLost, Reg.lastFault, Reg.logNextSeq, Reg.parityFixes, Reg.rebuildBytes, Reg.rebuildsDone, Reg.recordsDropped, Reg.retiredDrops, Reg.unroutable] → (∀ i, k ≠ Reg.atomics i ∧
          k ≠ Reg.dedupHits i ∧
          k ≠ Reg.fabricOut i ∧
          k ≠ Reg.gfBytes i ∧
          k ≠ Reg.mergeRmw i ∧
          k ≠ Reg.sgActive i ∧
          k ≠ Reg.sgStage i ∧
          k ≠ Reg.stale i) → t.dev.reg k = s.dev.reg k
      | .requestRetryTimeout .. =>
          DeviceOnly s t ∧
          t.dev = { s.dev with regs := t.dev.regs, out := t.dev.out, freeCtr := t.dev.freeCtr, dom := t.dev.dom, ports := t.dev.ports, cores := t.dev.cores, homes := t.dev.homes, l2 := t.dev.l2, groups := t.dev.groups, backDebt := t.dev.backDebt, logs := t.dev.logs, mgmt := t.dev.mgmt, tiers := t.dev.tiers, trans := t.dev.trans, coh := t.dev.coh, jobs := t.dev.jobs, yar := t.dev.yar } ∧
          ∀ k, k ∉ [Reg.cancelsSent, Reg.dataLost, Reg.degradedReads, Reg.degradedWrites, Reg.faultsWritten, Reg.fenced, Reg.fences, Reg.groupsLost, Reg.homeLost, Reg.lastFault, Reg.libBanks, Reg.logNextSeq, Reg.memberFails, Reg.parityFixes, Reg.rebuildBytes, Reg.rebuildsDone, Reg.recordsDropped, Reg.restMacFails, Reg.retiredDrops, Reg.unitRepairs, Reg.unroutable, Reg.walks, Reg.wrongPlane] → (∀ i, k ≠ Reg.fabricOut i ∧
          k ≠ Reg.fenceReason i ∧
          k ≠ Reg.fenceTick i ∧
          k ≠ Reg.gfBytes i ∧
          k ≠ Reg.jobsFailed i ∧
          k ≠ Reg.mergeRmw i ∧
          k ≠ Reg.sgActive i ∧
          k ≠ Reg.sgStage i ∧
          k ≠ Reg.stageEvicted i) → t.dev.reg k = s.dev.reg k
      | .stackFailed .. | .hbmTrainTimeout .. =>
          t.pending = s.pending ∧
          t.fuses = s.fuses ∧
          t.dev = { s.dev with regs := t.dev.regs, out := t.dev.out, freeCtr := t.dev.freeCtr, dom := t.dev.dom, ports := t.dev.ports, cores := t.dev.cores, waiting := t.dev.waiting, crossing := t.dev.crossing, homes := t.dev.homes, l2 := t.dev.l2, groups := t.dev.groups, backDebt := t.dev.backDebt, logs := t.dev.logs, health := t.dev.health, power := t.dev.power, mgmt := t.dev.mgmt, tiers := t.dev.tiers, trans := t.dev.trans, coh := t.dev.coh, jobs := t.dev.jobs, yar := t.dev.yar } ∧
          ∀ k, k ∉ [Reg.bar2FailsHa, Reg.bar2FailsHb, Reg.cancelsSent, Reg.dataLost, Reg.degradedReads, Reg.degradedWrites, Reg.faultsWritten, Reg.fenced, Reg.fences, Reg.groupsLost, Reg.homeLost, Reg.lastFault, Reg.libBanks, Reg.logNextSeq, Reg.memberFails, Reg.parityFixes, Reg.rebuildBytes, Reg.rebuildsDone, Reg.recordsDropped, Reg.retiredDrops, Reg.svcLevel, Reg.svcQuadLevel, Reg.svcStacks, Reg.svcTiles, Reg.unroutable, Reg.walks, Reg.wrongPlane] → (∀ i, k ≠ Reg.backInval i ∧
          k ≠ Reg.exclusions i ∧
          k ≠ Reg.fabricOut i ∧
          k ≠ Reg.fenceReason i ∧
          k ≠ Reg.fenceTick i ∧
          k ≠ Reg.flitsDiscarded i ∧
          k ≠ Reg.flushed i ∧
          k ≠ Reg.gfBytes i ∧
          k ≠ Reg.hbmEccCorr i ∧
          k ≠ Reg.hbmEccUncorr i ∧
          k ≠ Reg.hbmState i ∧
          k ≠ Reg.hbmSysarea i ∧
          k ≠ Reg.hbmUeLast i ∧
          k ≠ Reg.jobsFailed i ∧
          k ≠ Reg.lineLost i ∧
          k ≠ Reg.mergeRmw i ∧
          k ≠ Reg.pbLaneOk i ∧
          k ≠ Reg.pbPolarity i ∧
          k ≠ Reg.portLanes i ∧
          k ≠ Reg.portState i ∧
          k ≠ Reg.portWidth i ∧
          k ≠ Reg.revived i ∧
          k ≠ Reg.sgActive i ∧
          k ≠ Reg.sgStage i ∧
          k ≠ Reg.stageEvicted i) → t.dev.reg k = s.dev.reg k
      | .stackWake .. =>
          t.pending = s.pending ∧
          t.fuses = s.fuses ∧
          t.dev = { s.dev with regs := t.dev.regs, out := t.dev.out, freeCtr := t.dev.freeCtr, ports := t.dev.ports, cores := t.dev.cores, homes := t.dev.homes, l2 := t.dev.l2, groups := t.dev.groups, backDebt := t.dev.backDebt, logs := t.dev.logs, power := t.dev.power, mgmt := t.dev.mgmt, tiers := t.dev.tiers, trans := t.dev.trans, coh := t.dev.coh, jobs := t.dev.jobs } ∧
          ∀ k, k ∉ [Reg.bar2FailsHa, Reg.bar2FailsHb, Reg.cancelsSent, Reg.dataLost, Reg.degradedReads, Reg.degradedWrites, Reg.faultsWritten, Reg.homeLost, Reg.lastFault, Reg.libBanks, Reg.logNextSeq, Reg.parityFixes, Reg.rebuildBytes, Reg.rebuildsDone, Reg.recordsDropped, Reg.retiredDrops, Reg.unroutable, Reg.walks, Reg.wrongPlane] → (∀ i, k ≠ Reg.backInval i ∧
          k ≠ Reg.fabricOut i ∧
          k ≠ Reg.gfBytes i ∧
          k ≠ Reg.hbmEccCorr i ∧
          k ≠ Reg.hbmEccUncorr i ∧
          k ≠ Reg.hbmState i ∧
          k ≠ Reg.hbmUeLast i ∧
          k ≠ Reg.jobsFailed i ∧
          k ≠ Reg.lineLost i ∧
          k ≠ Reg.mergeRmw i ∧
          k ≠ Reg.revived i ∧
          k ≠ Reg.sgActive i ∧
          k ≠ Reg.sgStage i ∧
          k ≠ Reg.stageEvicted i) → t.dev.reg k = s.dev.reg k
      | .pageWalkDone .. =>
          t.pending = s.pending ∧
          t.fuses = s.fuses ∧
          t.dev = { s.dev with regs := t.dev.regs, out := t.dev.out, freeCtr := t.dev.freeCtr, ports := t.dev.ports, cores := t.dev.cores, homes := t.dev.homes, l2 := t.dev.l2, groups := t.dev.groups, backDebt := t.dev.backDebt, logs := t.dev.logs, mgmt := t.dev.mgmt, tiers := t.dev.tiers, trans := t.dev.trans, coh := t.dev.coh, jobs := t.dev.jobs } ∧
          ∀ k, k ∉ [Reg.bar2FailsHa, Reg.bar2FailsHb, Reg.cancelsSent, Reg.dataLost, Reg.degradedReads, Reg.degradedWrites, Reg.faultsWritten, Reg.homeLost, Reg.keyFails, Reg.lastFault, Reg.libBanks, Reg.logFullWaits, Reg.logNextSeq, Reg.parityFixes, Reg.rebuildBytes, Reg.rebuildsDone, Reg.recordsDropped, Reg.regionMiss, Reg.retiredDrops, Reg.rightsFails, Reg.unroutable, Reg.walks, Reg.wrongPlane] → (∀ i, k ≠ Reg.backInval i ∧
          k ≠ Reg.fabricOut i ∧
          k ≠ Reg.gfBytes i ∧
          k ≠ Reg.hbmEccCorr i ∧
          k ≠ Reg.hbmEccUncorr i ∧
          k ≠ Reg.hbmUeLast i ∧
          k ≠ Reg.jobsFailed i ∧
          k ≠ Reg.lineLost i ∧
          k ≠ Reg.mergeRmw i ∧
          k ≠ Reg.revived i ∧
          k ≠ Reg.sgActive i ∧
          k ≠ Reg.sgStage i ∧
          k ≠ Reg.stageEvicted i) → t.dev.reg k = s.dev.reg k
      | .agentDead .. =>
          t.pending = s.pending ∧
          t.fuses = s.fuses ∧
          t.dev = { s.dev with regs := t.dev.regs, out := t.dev.out, freeCtr := t.dev.freeCtr, dom := t.dev.dom, ports := t.dev.ports, cores := t.dev.cores, homes := t.dev.homes, l2 := t.dev.l2, groups := t.dev.groups, backDebt := t.dev.backDebt, logs := t.dev.logs, health := t.dev.health, mgmt := t.dev.mgmt, tiers := t.dev.tiers, trans := t.dev.trans, coh := t.dev.coh, jobs := t.dev.jobs, yar := t.dev.yar } ∧
          ∀ k, k ∉ [Reg.agentDeaths, Reg.bar2FailsHa, Reg.bar2FailsHb, Reg.cancelsSent, Reg.dataLost, Reg.deadAgents, Reg.degradedReads, Reg.degradedWrites, Reg.faultsWritten, Reg.fenced, Reg.fences, Reg.homeLost, Reg.lastFault, Reg.libBanks, Reg.logNextSeq, Reg.parityFixes, Reg.quantaReassigned, Reg.rebuildBytes, Reg.rebuildsDone, Reg.recordsDropped, Reg.retiredDrops, Reg.unroutable, Reg.walks, Reg.wrongPlane] → (∀ i, k ≠ Reg.backInval i ∧
          k ≠ Reg.fabricOut i ∧
          k ≠ Reg.fenceReason i ∧
          k ≠ Reg.fenceTick i ∧
          k ≠ Reg.gfBytes i ∧
          k ≠ Reg.hbmEccCorr i ∧
          k ≠ Reg.hbmEccUncorr i ∧
          k ≠ Reg.hbmUeLast i ∧
          k ≠ Reg.jobsFailed i ∧
          k ≠ Reg.lineLost i ∧
          k ≠ Reg.lostOverflow i ∧
          k ≠ Reg.mergeRmw i ∧
          k ≠ Reg.revived i ∧
          k ≠ Reg.sgActive i ∧
          k ≠ Reg.sgStage i ∧
          k ≠ Reg.stageEvicted i) → t.dev.reg k = s.dev.reg k
      | .acquireWaitMet .. =>
          t.pending = s.pending ∧
          t.fuses = s.fuses ∧
          t.dev = { s.dev with regs := t.dev.regs, out := t.dev.out, freeCtr := t.dev.freeCtr, ports := t.dev.ports, cores := t.dev.cores, homes := t.dev.homes, l2 := t.dev.l2, groups := t.dev.groups, backDebt := t.dev.backDebt, logs := t.dev.logs, mgmt := t.dev.mgmt, tiers := t.dev.tiers, trans := t.dev.trans, coh := t.dev.coh, jobs := t.dev.jobs } ∧
          ∀ k, k ∉ [Reg.bar2FailsHa, Reg.bar2FailsHb, Reg.cancelsSent, Reg.dataLost, Reg.degradedReads, Reg.degradedWrites, Reg.faultsWritten, Reg.homeLost, Reg.lastFault, Reg.libBanks, Reg.logNextSeq, Reg.parityFixes, Reg.rebuildBytes, Reg.rebuildsDone, Reg.recordsDropped, Reg.retiredDrops, Reg.unroutable, Reg.walks, Reg.wrongPlane] → (∀ i, k ≠ Reg.acqWaits i ∧
          k ≠ Reg.backInval i ∧
          k ≠ Reg.fabricOut i ∧
          k ≠ Reg.gfBytes i ∧
          k ≠ Reg.hbmEccCorr i ∧
          k ≠ Reg.hbmEccUncorr i ∧
          k ≠ Reg.hbmUeLast i ∧
          k ≠ Reg.jobsFailed i ∧
          k ≠ Reg.lineLost i ∧
          k ≠ Reg.mergeRmw i ∧
          k ≠ Reg.revived i ∧
          k ≠ Reg.sgActive i ∧
          k ≠ Reg.sgStage i ∧
          k ≠ Reg.stageEvicted i) → t.dev.reg k = s.dev.reg k
      | .jobAdmit .. =>
          DeviceOnly s t ∧
          t.dev = { s.dev with regs := t.dev.regs, out := t.dev.out, freeCtr := t.dev.freeCtr, ports := t.dev.ports, cores := t.dev.cores, arbCls := t.dev.arbCls, crossing := t.dev.crossing, arbQuad := t.dev.arbQuad, homes := t.dev.homes, l2 := t.dev.l2, groups := t.dev.groups, backDebt := t.dev.backDebt, logs := t.dev.logs, mgmt := t.dev.mgmt, tiers := t.dev.tiers, trans := t.dev.trans, coh := t.dev.coh, jobs := t.dev.jobs } ∧
          ∀ k, k ∉ [Reg.cancelsSent, Reg.dataLost, Reg.degradedReads, Reg.degradedWrites, Reg.faultsWritten, Reg.homeLost, Reg.lastFault, Reg.libBanks, Reg.libVersionCur, Reg.logNextSeq, Reg.parityFixes, Reg.rebuildBytes, Reg.rebuildsDone, Reg.recordsDropped, Reg.retiredDrops, Reg.stageWaits, Reg.unroutable, Reg.walks, Reg.wrongPlane] → (∀ i, k ≠ Reg.fabricOut i ∧
          k ≠ Reg.gfBytes i ∧
          k ≠ Reg.jobsAdmitted i ∧
          k ≠ Reg.jobsFailed i ∧
          k ≠ Reg.mergeRmw i ∧
          k ≠ Reg.sgActive i ∧
          k ≠ Reg.sgStage i ∧
          k ≠ Reg.stageEvicted i) → t.dev.reg k = s.dev.reg k
      | .quantumStart .. | .engineQuantumStart .. | .tableBufferWait .. =>
          t.pending = s.pending ∧
          t.fuses = s.fuses ∧
          t.dev = { s.dev with regs := t.dev.regs, out := t.dev.out, freeCtr := t.dev.freeCtr, ports := t.dev.ports, cores := t.dev.cores, homes := t.dev.homes, l2 := t.dev.l2, groups := t.dev.groups, backDebt := t.dev.backDebt, logs := t.dev.logs, power := t.dev.power, mgmt := t.dev.mgmt, meter := t.dev.meter, tiers := t.dev.tiers, trans := t.dev.trans, coh := t.dev.coh, jobs := t.dev.jobs } ∧
          ∀ k, k ∉ [Reg.bar2FailsHa, Reg.bar2FailsHb, Reg.cancelsSent, Reg.dataLost, Reg.degradedReads, Reg.degradedWrites, Reg.faultsWritten, Reg.homeLost, Reg.keyFails, Reg.lastFault, Reg.libBanks, Reg.logNextSeq, Reg.parityFixes, Reg.rebuildBytes, Reg.rebuildsDone, Reg.recordsDropped, Reg.regionMiss, Reg.retiredDrops, Reg.rightsFails, Reg.tableBufWaits, Reg.unroutable, Reg.utlbMisses, Reg.walks, Reg.wrongPlane] → (∀ i, k ≠ Reg.backInval i ∧
          k ≠ Reg.fabricOut i ∧
          k ≠ Reg.gfBytes i ∧
          k ≠ Reg.hbmEccCorr i ∧
          k ≠ Reg.hbmEccUncorr i ∧
          k ≠ Reg.hbmUeLast i ∧
          k ≠ Reg.jobsFailed i ∧
          k ≠ Reg.lineLost i ∧
          k ≠ Reg.mergeRmw i ∧
          k ≠ Reg.revived i ∧
          k ≠ Reg.sgActive i ∧
          k ≠ Reg.sgStage i ∧
          k ≠ Reg.stageEvicted i) → t.dev.reg k = s.dev.reg k
      | .quantumComplete .. | .gfParityWork .. =>
          t.pending = s.pending ∧
          t.fuses = s.fuses ∧
          t.dev = { s.dev with regs := t.dev.regs, out := t.dev.out, freeCtr := t.dev.freeCtr, ports := t.dev.ports, cores := t.dev.cores, homes := t.dev.homes, l2 := t.dev.l2, groups := t.dev.groups, backDebt := t.dev.backDebt, logs := t.dev.logs, mgmt := t.dev.mgmt, tiers := t.dev.tiers, trans := t.dev.trans, coh := t.dev.coh, jobs := t.dev.jobs } ∧
          ∀ k, k ∉ [Reg.attendPages, Reg.bar2FailsHa, Reg.bar2FailsHb, Reg.cancelsSent, Reg.dataLost, Reg.degradedReads, Reg.degradedWrites, Reg.faultsWritten, Reg.homeLost, Reg.keyFails, Reg.lastFault, Reg.libBanks, Reg.logNextSeq, Reg.parityFixes, Reg.rebuildBytes, Reg.rebuildsDone, Reg.recordsDropped, Reg.regionMiss, Reg.retiredDrops, Reg.rightsFails, Reg.unroutable, Reg.utlbMisses, Reg.walks, Reg.wrongPlane] → (∀ i, k ≠ Reg.backInval i ∧
          k ≠ Reg.blocksExpanded i ∧
          k ≠ Reg.compressRaw i ∧
          k ≠ Reg.compressStored i ∧
          k ≠ Reg.expandFails i ∧
          k ≠ Reg.fabricOut i ∧
          k ≠ Reg.gatherBytes i ∧
          k ≠ Reg.gfBytes i ∧
          k ≠ Reg.hbmEccCorr i ∧
          k ≠ Reg.hbmEccUncorr i ∧
          k ≠ Reg.hbmUeLast i ∧
          k ≠ Reg.jobsFailed i ∧
          k ≠ Reg.lineLost i ∧
          k ≠ Reg.mergeRmw i ∧
          k ≠ Reg.quantaDone i ∧
          k ≠ Reg.rawFallbacks i ∧
          k ≠ Reg.revived i ∧
          k ≠ Reg.sgActive i ∧
          k ≠ Reg.sgStage i ∧
          k ≠ Reg.stageEvicted i ∧
          k ≠ Reg.usedHigh i) → t.dev.reg k = s.dev.reg k
      | .planLoad .. | .planUnload .. =>
          DeviceOnly s t ∧
          t.dev = { s.dev with regs := t.dev.regs, out := t.dev.out, freeCtr := t.dev.freeCtr, ports := t.dev.ports, cores := t.dev.cores, homes := t.dev.homes, l2 := t.dev.l2, groups := t.dev.groups, backDebt := t.dev.backDebt, logs := t.dev.logs, mgmt := t.dev.mgmt, tiers := t.dev.tiers, trans := t.dev.trans, coh := t.dev.coh, jobs := t.dev.jobs } ∧
          ∀ k, k ∉ [Reg.bar2FailsHa, Reg.bar2FailsHb, Reg.cancelsSent, Reg.dataLost, Reg.degradedReads, Reg.degradedWrites, Reg.faultsWritten, Reg.homeLost, Reg.lastFault, Reg.lastReject, Reg.libBanks, Reg.lockedWrites, Reg.logNextSeq, Reg.parityFixes, Reg.rebuildBytes, Reg.rebuildsDone, Reg.recordsDropped, Reg.rejectedWrites, Reg.retiredDrops, Reg.unroutable, Reg.walks, Reg.wrongPlane] → (∀ i, k ≠ Reg.backInval i ∧
          k ≠ Reg.fabricOut i ∧
          k ≠ Reg.gfBytes i ∧
          k ≠ Reg.hbmEccCorr i ∧
          k ≠ Reg.hbmEccUncorr i ∧
          k ≠ Reg.hbmUeLast i ∧
          k ≠ Reg.jobsFailed i ∧
          k ≠ Reg.lineLost i ∧
          k ≠ Reg.mergeRmw i ∧
          k ≠ Reg.revived i ∧
          k ≠ Reg.sgActive i ∧
          k ≠ Reg.sgStage i ∧
          k ≠ Reg.stageEvicted i) → t.dev.reg k = s.dev.reg k
      | .planActivate .. =>
          t.pending = s.pending ∧
          t.fuses = s.fuses ∧
          t.dev = { s.dev with regs := t.dev.regs, out := t.dev.out, freeCtr := t.dev.freeCtr, ports := t.dev.ports, cores := t.dev.cores, homes := t.dev.homes, l2 := t.dev.l2, groups := t.dev.groups, backDebt := t.dev.backDebt, logs := t.dev.logs, mgmt := t.dev.mgmt, tiers := t.dev.tiers, trans := t.dev.trans, coh := t.dev.coh, jobs := t.dev.jobs } ∧
          ∀ k, k ∉ [Reg.bar2FailsHa, Reg.bar2FailsHb, Reg.cancelsSent, Reg.dataLost, Reg.degradedReads, Reg.degradedWrites, Reg.faultsWritten, Reg.homeLost, Reg.lastFault, Reg.libBanks, Reg.logNextSeq, Reg.parityFixes, Reg.rebuildBytes, Reg.rebuildsDone, Reg.recordsDropped, Reg.retiredDrops, Reg.unroutable, Reg.walks, Reg.wrongPlane] → (∀ i, k ≠ Reg.backInval i ∧
          k ≠ Reg.fabricOut i ∧
          k ≠ Reg.gfBytes i ∧
          k ≠ Reg.hbmEccCorr i ∧
          k ≠ Reg.hbmEccUncorr i ∧
          k ≠ Reg.hbmUeLast i ∧
          k ≠ Reg.jobsFailed i ∧
          k ≠ Reg.lineLost i ∧
          k ≠ Reg.mergeRmw i ∧
          k ≠ Reg.revived i ∧
          k ≠ Reg.sgActive i ∧
          k ≠ Reg.sgStage i ∧
          k ≠ Reg.stageEvicted i) → t.dev.reg k = s.dev.reg k
      | .nodeLate .. =>
          t.pending = s.pending ∧
          t.fuses = s.fuses ∧
          t.dev = { s.dev with regs := t.dev.regs, out := t.dev.out, freeCtr := t.dev.freeCtr, ports := t.dev.ports, cores := t.dev.cores, homes := t.dev.homes, l2 := t.dev.l2, groups := t.dev.groups, backDebt := t.dev.backDebt, logs := t.dev.logs, mgmt := t.dev.mgmt, tiers := t.dev.tiers, trans := t.dev.trans, coh := t.dev.coh, jobs := t.dev.jobs } ∧
          ∀ k, k ∉ [Reg.bar2FailsHa, Reg.bar2FailsHb, Reg.cancelsSent, Reg.dataLost, Reg.deadlineWaits, Reg.degradedReads, Reg.degradedWrites, Reg.faultsWritten, Reg.handbacks, Reg.homeLost, Reg.keyFails, Reg.lastFault, Reg.libBanks, Reg.logNextSeq, Reg.parityFixes, Reg.rebuildBytes, Reg.rebuildsDone, Reg.recordsDropped, Reg.regionMiss, Reg.retiredDrops, Reg.rightsFails, Reg.shadowNodes, Reg.unroutable, Reg.walks, Reg.wrongPlane] → (∀ i, k ≠ Reg.backInval i ∧
          k ≠ Reg.fabricOut i ∧
          k ≠ Reg.gfBytes i ∧
          k ≠ Reg.hbmEccCorr i ∧
          k ≠ Reg.hbmEccUncorr i ∧
          k ≠ Reg.hbmUeLast i ∧
          k ≠ Reg.jobsFailed i ∧
          k ≠ Reg.lineLost i ∧
          k ≠ Reg.mergeRmw i ∧
          k ≠ Reg.revived i ∧
          k ≠ Reg.sgActive i ∧
          k ≠ Reg.sgStage i ∧
          k ≠ Reg.stageEvicted i) → t.dev.reg k = s.dev.reg k
      | .gatherElement .. =>
          t.pending = s.pending ∧
          t.fuses = s.fuses ∧
          t.dev = { s.dev with regs := t.dev.regs, out := t.dev.out, freeCtr := t.dev.freeCtr, ports := t.dev.ports, cores := t.dev.cores, homes := t.dev.homes, l2 := t.dev.l2, groups := t.dev.groups, backDebt := t.dev.backDebt, logs := t.dev.logs, mgmt := t.dev.mgmt, tiers := t.dev.tiers, trans := t.dev.trans, coh := t.dev.coh, jobs := t.dev.jobs } ∧
          ∀ k, k ∉ [Reg.bar2FailsHa, Reg.bar2FailsHb, Reg.cancelsSent, Reg.dataLost, Reg.degradedReads, Reg.degradedWrites, Reg.faultsWritten, Reg.homeLost, Reg.keyFails, Reg.lastFault, Reg.libBanks, Reg.logNextSeq, Reg.parityFixes, Reg.rebuildBytes, Reg.rebuildsDone, Reg.recordsDropped, Reg.regionMiss, Reg.retiredDrops, Reg.rightsFails, Reg.unroutable, Reg.utlbMisses, Reg.walks, Reg.wrongPlane] → (∀ i, k ≠ Reg.backInval i ∧
          k ≠ Reg.elemFails i ∧
          k ≠ Reg.fabricOut i ∧
          k ≠ Reg.gatherBytes i ∧
          k ≠ Reg.gatherIndices i ∧
          k ≠ Reg.gfBytes i ∧
          k ≠ Reg.hbmEccCorr i ∧
          k ≠ Reg.hbmEccUncorr i ∧
          k ≠ Reg.hbmUeLast i ∧
          k ≠ Reg.jobsFailed i ∧
          k ≠ Reg.lineLost i ∧
          k ≠ Reg.mergeRmw i ∧
          k ≠ Reg.revived i ∧
          k ≠ Reg.sgActive i ∧
          k ≠ Reg.sgStage i ∧
          k ≠ Reg.stageEvicted i) → t.dev.reg k = s.dev.reg k
      | .filterRows .. =>
          t.pending = s.pending ∧
          t.fuses = s.fuses ∧
          t.dev = { s.dev with regs := t.dev.regs, out := t.dev.out, freeCtr := t.dev.freeCtr, ports := t.dev.ports, cores := t.dev.cores, homes := t.dev.homes, l2 := t.dev.l2, groups := t.dev.groups, backDebt := t.dev.backDebt, logs := t.dev.logs, mgmt := t.dev.mgmt, tiers := t.dev.tiers, trans := t.dev.trans, coh := t.dev.coh, jobs := t.dev.jobs } ∧
          ∀ k, k ∉ [Reg.bar2FailsHa, Reg.bar2FailsHb, Reg.cancelsSent, Reg.dataLost, Reg.degradedReads, Reg.degradedWrites, Reg.faultsWritten, Reg.homeLost, Reg.keyFails, Reg.lastFault, Reg.libBanks, Reg.logNextSeq, Reg.parityFixes, Reg.rebuildBytes, Reg.rebuildsDone, Reg.recordsDropped, Reg.regionMiss, Reg.retiredDrops, Reg.rightsFails, Reg.unroutable, Reg.utlbMisses, Reg.walks, Reg.wrongPlane] → (∀ i, k ≠ Reg.backInval i ∧
          k ≠ Reg.fabricOut i ∧
          k ≠ Reg.filterRowsIn i ∧
          k ≠ Reg.filterRowsOut i ∧
          k ≠ Reg.gfBytes i ∧
          k ≠ Reg.hbmEccCorr i ∧
          k ≠ Reg.hbmEccUncorr i ∧
          k ≠ Reg.hbmUeLast i ∧
          k ≠ Reg.jobsFailed i ∧
          k ≠ Reg.lineLost i ∧
          k ≠ Reg.mergeRmw i ∧
          k ≠ Reg.revived i ∧
          k ≠ Reg.sgActive i ∧
          k ≠ Reg.sgStage i ∧
          k ≠ Reg.stageEvicted i) → t.dev.reg k = s.dev.reg k
      | .memberFailed .. =>
          DeviceOnly s t ∧
          t.dev = { s.dev with regs := t.dev.regs, out := t.dev.out, freeCtr := t.dev.freeCtr, dom := t.dev.dom, ports := t.dev.ports, cores := t.dev.cores, homes := t.dev.homes, l2 := t.dev.l2, groups := t.dev.groups, backDebt := t.dev.backDebt, logs := t.dev.logs, mgmt := t.dev.mgmt, tiers := t.dev.tiers, trans := t.dev.trans, coh := t.dev.coh, jobs := t.dev.jobs, yar := t.dev.yar } ∧
          ∀ k, k ∉ [Reg.cancelsSent, Reg.dataLost, Reg.degradedReads, Reg.degradedWrites, Reg.faultsWritten, Reg.fenced, Reg.fences, Reg.groupsLost, Reg.homeLost, Reg.lastFault, Reg.libBanks, Reg.logNextSeq, Reg.memberFails, Reg.parityFixes, Reg.rebuildBytes, Reg.rebuildsDone, Reg.recordsDropped, Reg.retiredDrops, Reg.unroutable, Reg.walks, Reg.wrongPlane] → (∀ i, k ≠ Reg.fabricOut i ∧
          k ≠ Reg.fenceReason i ∧
          k ≠ Reg.fenceTick i ∧
          k ≠ Reg.gfBytes i ∧
          k ≠ Reg.jobsFailed i ∧
          k ≠ Reg.mergeRmw i ∧
          k ≠ Reg.sgActive i ∧
          k ≠ Reg.sgStage i ∧
          k ≠ Reg.stageEvicted i) → t.dev.reg k = s.dev.reg k
      | .failMember .. =>
          DeviceOnly s t ∧
          t.dev = { s.dev with regs := t.dev.regs, out := t.dev.out, freeCtr := t.dev.freeCtr, dom := t.dev.dom, ports := t.dev.ports, cores := t.dev.cores, homes := t.dev.homes, l2 := t.dev.l2, groups := t.dev.groups, backDebt := t.dev.backDebt, logs := t.dev.logs, mgmt := t.dev.mgmt, tiers := t.dev.tiers, trans := t.dev.trans, coh := t.dev.coh, jobs := t.dev.jobs, yar := t.dev.yar } ∧
          ∀ k, k ∉ [Reg.cancelsSent, Reg.dataLost, Reg.degradedReads, Reg.degradedWrites, Reg.faultsWritten, Reg.fenced, Reg.fences, Reg.groupsLost, Reg.homeLost, Reg.lastFault, Reg.lastReject, Reg.libBanks, Reg.lockedWrites, Reg.logNextSeq, Reg.memberFails, Reg.parityFixes, Reg.rebuildBytes, Reg.rebuildsDone, Reg.recordsDropped, Reg.rejectedWrites, Reg.retiredDrops, Reg.unroutable, Reg.walks, Reg.wrongPlane] → (∀ i, k ≠ Reg.fabricOut i ∧
          k ≠ Reg.fenceReason i ∧
          k ≠ Reg.fenceTick i ∧
          k ≠ Reg.gfBytes i ∧
          k ≠ Reg.jobsFailed i ∧
          k ≠ Reg.mergeRmw i ∧
          k ≠ Reg.sgActive i ∧
          k ≠ Reg.sgStage i ∧
          k ≠ Reg.stageEvicted i) → t.dev.reg k = s.dev.reg k
      | .dieHeartbeatTimeout .. =>
          DeviceOnly s t ∧
          t.dev = { s.dev with regs := t.dev.regs, out := t.dev.out, freeCtr := t.dev.freeCtr, dom := t.dev.dom, ports := t.dev.ports, cores := t.dev.cores, waiting := t.dev.waiting, crossing := t.dev.crossing, homes := t.dev.homes, l2 := t.dev.l2, groups := t.dev.groups, backDebt := t.dev.backDebt, logs := t.dev.logs, health := t.dev.health, mgmt := t.dev.mgmt, tiers := t.dev.tiers, trans := t.dev.trans, coh := t.dev.coh, jobs := t.dev.jobs, yar := t.dev.yar } ∧
          ∀ k, k ∉ [Reg.cancelsSent, Reg.dataLost, Reg.degradedReads, Reg.degradedWrites, Reg.faultsWritten, Reg.fenced, Reg.fences, Reg.groupsLost, Reg.homeLost, Reg.lastFault, Reg.libBanks, Reg.logNextSeq, Reg.memberFails, Reg.parityFixes, Reg.rebuildBytes, Reg.rebuildsDone, Reg.recordsDropped, Reg.retiredDrops, Reg.svcLevel, Reg.svcQuadLevel, Reg.svcStacks, Reg.svcTiles, Reg.unroutable, Reg.walks, Reg.wrongPlane] → (∀ i, k ≠ Reg.exclusions i ∧
          k ≠ Reg.fabricOut i ∧
          k ≠ Reg.fenceReason i ∧
          k ≠ Reg.fenceTick i ∧
          k ≠ Reg.flitsDiscarded i ∧
          k ≠ Reg.flushed i ∧
          k ≠ Reg.gfBytes i ∧
          k ≠ Reg.jobsFailed i ∧
          k ≠ Reg.mergeRmw i ∧
          k ≠ Reg.pbLaneOk i ∧
          k ≠ Reg.pbPolarity i ∧
          k ≠ Reg.portLanes i ∧
          k ≠ Reg.portState i ∧
          k ≠ Reg.portWidth i ∧
          k ≠ Reg.sgActive i ∧
          k ≠ Reg.sgStage i ∧
          k ≠ Reg.stageEvicted i) → t.dev.reg k = s.dev.reg k
      | .agentReset .. =>
          DeviceOnly s t ∧
          t.dev = { s.dev with regs := t.dev.regs, out := t.dev.out, freeCtr := t.dev.freeCtr, dom := t.dev.dom, ports := t.dev.ports, cores := t.dev.cores, waiting := t.dev.waiting, crossing := t.dev.crossing, homes := t.dev.homes, l2 := t.dev.l2, groups := t.dev.groups, backDebt := t.dev.backDebt, logs := t.dev.logs, health := t.dev.health, mgmt := t.dev.mgmt, tiers := t.dev.tiers, trans := t.dev.trans, coh := t.dev.coh, jobs := t.dev.jobs, yar := t.dev.yar } ∧
          ∀ k, k ∉ [Reg.agentResets, Reg.cancelsSent, Reg.dataLost, Reg.degradedReads, Reg.degradedWrites, Reg.faultsWritten, Reg.fenced, Reg.fences, Reg.groupsLost, Reg.homeLost, Reg.lastFault, Reg.libBanks, Reg.logNextSeq, Reg.memberFails, Reg.parityFixes, Reg.rebuildBytes, Reg.rebuildsDone, Reg.recordsDropped, Reg.retiredDrops, Reg.svcLevel, Reg.svcQuadLevel, Reg.svcTiles, Reg.unroutable, Reg.walks, Reg.wrongPlane] → (∀ i, k ≠ Reg.exclusions i ∧
          k ≠ Reg.fabricOut i ∧
          k ≠ Reg.fenceReason i ∧
          k ≠ Reg.fenceTick i ∧
          k ≠ Reg.flitsDiscarded i ∧
          k ≠ Reg.flushed i ∧
          k ≠ Reg.gfBytes i ∧
          k ≠ Reg.jobsFailed i ∧
          k ≠ Reg.mergeRmw i ∧
          k ≠ Reg.pbLaneOk i ∧
          k ≠ Reg.pbPolarity i ∧
          k ≠ Reg.portLanes i ∧
          k ≠ Reg.portState i ∧
          k ≠ Reg.portWidth i ∧
          k ≠ Reg.sgActive i ∧
          k ≠ Reg.sgStage i ∧
          k ≠ Reg.stageEvicted i) → t.dev.reg k = s.dev.reg k
      | .agentRejoined .. =>
          DeviceOnly s t ∧
          t.dev = { s.dev with regs := t.dev.regs, out := t.dev.out, freeCtr := t.dev.freeCtr, dom := t.dev.dom, ports := t.dev.ports, cores := t.dev.cores, waiting := t.dev.waiting, crossing := t.dev.crossing, homes := t.dev.homes, l2 := t.dev.l2, groups := t.dev.groups, backDebt := t.dev.backDebt, logs := t.dev.logs, health := t.dev.health, mgmt := t.dev.mgmt, tiers := t.dev.tiers, trans := t.dev.trans, coh := t.dev.coh, jobs := t.dev.jobs, yar := t.dev.yar } ∧
          ∀ k, k ∉ [Reg.cancelsSent, Reg.dataLost, Reg.deadAgents, Reg.degradedReads, Reg.degradedWrites, Reg.faultsWritten, Reg.fenced, Reg.fences, Reg.groupsLost, Reg.homeLost, Reg.lastFault, Reg.libBanks, Reg.logNextSeq, Reg.memberFails, Reg.parityFixes, Reg.rebuildBytes, Reg.rebuildsDone, Reg.recordsDropped, Reg.retiredDrops, Reg.svcLevel, Reg.svcQuadLevel, Reg.svcTiles, Reg.unroutable, Reg.walks, Reg.wrongPlane] → (∀ i, k ≠ Reg.exclusions i ∧
          k ≠ Reg.fabricOut i ∧
          k ≠ Reg.fenceReason i ∧
          k ≠ Reg.fenceTick i ∧
          k ≠ Reg.flitsDiscarded i ∧
          k ≠ Reg.flushed i ∧
          k ≠ Reg.gfBytes i ∧
          k ≠ Reg.jobsFailed i ∧
          k ≠ Reg.mergeRmw i ∧
          k ≠ Reg.pbLaneOk i ∧
          k ≠ Reg.pbPolarity i ∧
          k ≠ Reg.portLanes i ∧
          k ≠ Reg.portState i ∧
          k ≠ Reg.portWidth i ∧
          k ≠ Reg.sgActive i ∧
          k ≠ Reg.sgStage i ∧
          k ≠ Reg.stageEvicted i) → t.dev.reg k = s.dev.reg k
      | .recoveryFence .. =>
          DeviceOnly s t ∧
          t.dev = { s.dev with regs := t.dev.regs, out := t.dev.out, freeCtr := t.dev.freeCtr, dom := t.dev.dom, ports := t.dev.ports, cores := t.dev.cores, logs := t.dev.logs, mgmt := t.dev.mgmt, tiers := t.dev.tiers, trans := t.dev.trans, coh := t.dev.coh, jobs := t.dev.jobs, yar := t.dev.yar } ∧
          ∀ k, k ∉ [Reg.cancelsSent, Reg.faultsWritten, Reg.fenced, Reg.fences, Reg.framingDrops, Reg.lastFault, Reg.libBanks, Reg.logNextSeq, Reg.recordsDropped, Reg.retiredDrops, Reg.unroutable, Reg.walks, Reg.wrongPlane] → (∀ i, k ≠ Reg.fabricOut i ∧
          k ≠ Reg.fenceReason i ∧
          k ≠ Reg.fenceTick i ∧
          k ≠ Reg.jobsFailed i ∧
          k ≠ Reg.stageEvicted i) → t.dev.reg k = s.dev.reg k
      | .debugToken .. =>
          t.pending = s.pending ∧
          t.dev = { s.dev with regs := t.dev.regs, out := t.dev.out, freeCtr := t.dev.freeCtr, ports := t.dev.ports, cores := t.dev.cores, homes := t.dev.homes, l2 := t.dev.l2, groups := t.dev.groups, backDebt := t.dev.backDebt, logs := t.dev.logs, power := t.dev.power, mgmt := t.dev.mgmt, keys := t.dev.keys, sec := t.dev.sec, tiers := t.dev.tiers, jobs := t.dev.jobs } ∧
          ∀ k, k ∉ [Reg.dataLost, Reg.debugChallenge, Reg.debugState, Reg.degradedReads, Reg.degradedWrites, Reg.faultsWritten, Reg.homeLost, Reg.kdsSessions, Reg.lastFault, Reg.lastReject, Reg.lockedWrites, Reg.logNextSeq, Reg.parityFixes, Reg.rebuildBytes, Reg.rebuildsDone, Reg.recordsDropped, Reg.rejectedWrites, Reg.retiredDrops, Reg.unroutable, Reg.wrongPlane, Reg.zeroizes] → (∀ i, k ≠ Reg.fabricOut i ∧
          k ≠ Reg.gfBytes i ∧
          k ≠ Reg.mergeRmw i ∧
          k ≠ Reg.sgActive i ∧
          k ≠ Reg.sgStage i ∧
          k ≠ Reg.stageEvicted i) → t.dev.reg k = s.dev.reg k
      | .commitDirty .. =>
          DeviceOnly s t ∧
          t.dev = { s.dev with regs := t.dev.regs, out := t.dev.out, freeCtr := t.dev.freeCtr, dom := t.dev.dom, ports := t.dev.ports, cores := t.dev.cores, logs := t.dev.logs, mgmt := t.dev.mgmt, commit := t.dev.commit, tiers := t.dev.tiers, trans := t.dev.trans, coh := t.dev.coh, jobs := t.dev.jobs, yar := t.dev.yar } ∧
          ∀ k, k ∉ [Reg.cancelsSent, Reg.faultsWritten, Reg.fenced, Reg.fences, Reg.framingDrops, Reg.lastFault, Reg.libBanks, Reg.logNextSeq, Reg.recordsDropped, Reg.retiredDrops, Reg.unroutable, Reg.walks, Reg.wrongPlane] → (∀ i, k ≠ Reg.fabricOut i ∧
          k ≠ Reg.fenceReason i ∧
          k ≠ Reg.fenceTick i ∧
          k ≠ Reg.jobsFailed i ∧
          k ≠ Reg.stageEvicted i) → t.dev.reg k = s.dev.reg k
      | .cmpWrite .. | .mbWrite .. | .consoleWrite .. | .cfgLockSet .. | .cfgLockClear .. | .ownerDebugHashWrite .. | .pbModeWrite .. | .portEnableWrite .. | .portRoleWrite .. | .domainIdWrite .. | .hmapStage .. | .regionStage .. | .sgStage .. | .dictWrite .. =>
          t.pending = s.pending ∧
          t.dev = { s.dev with regs := t.dev.regs, copies := t.dev.copies, out := t.dev.out, freeCtr := t.dev.freeCtr, dom := t.dev.dom, ports := t.dev.ports, cores := t.dev.cores, waiting := t.dev.waiting, crossing := t.dev.crossing, paced := t.dev.paced, homes := t.dev.homes, l2 := t.dev.l2, groups := t.dev.groups, stepFences := t.dev.stepFences, backDebt := t.dev.backDebt, logs := t.dev.logs, health := t.dev.health, power := t.dev.power, mgmt := t.dev.mgmt, hostA := t.dev.hostA, hostB := t.dev.hostB, keys := t.dev.keys, sec := t.dev.sec, commit := t.dev.commit, meter := t.dev.meter, tiers := t.dev.tiers, trans := t.dev.trans, coh := t.dev.coh, jobs := t.dev.jobs, yar := t.dev.yar }
      | .sendSlotWrite .. =>
          DeviceOnly s t ∧
          t.dev = { s.dev with regs := t.dev.regs, out := t.dev.out, freeCtr := t.dev.freeCtr, ports := t.dev.ports, cores := t.dev.cores, waiting := t.dev.waiting, allowance := t.dev.allowance, logs := t.dev.logs, mgmt := t.dev.mgmt, hostA := t.dev.hostA, hostB := t.dev.hostB, tiers := t.dev.tiers, trans := t.dev.trans, coh := t.dev.coh, jobs := t.dev.jobs, yar := t.dev.yar } ∧
          ∀ k, k ∉ [Reg.cancelsSent, Reg.cutThrough, Reg.faultsWritten, Reg.framingDrops, Reg.keyFails, Reg.lastFault, Reg.libBanks, Reg.logNextSeq, Reg.recordsDropped, Reg.regionMiss, Reg.retiredDrops, Reg.rightsFails, Reg.storeForward, Reg.tagFails, Reg.unroutable, Reg.walks, Reg.wrongPlane] → (∀ i, k ≠ Reg.drops i ∧
          k ≠ Reg.fabricIn i ∧
          k ≠ Reg.fabricOut i ∧
          k ≠ Reg.hostPackets i ∧
          k ≠ Reg.jobsFailed i ∧
          k ≠ Reg.mcAdmitted i ∧
          k ≠ Reg.mcSkipped i ∧
          k ≠ Reg.resends i ∧
          k ≠ Reg.sendBusy i ∧
          k ≠ Reg.sendDrops i ∧
          k ≠ Reg.stageEvicted i ∧
          k ≠ Reg.usedHigh i) → t.dev.reg k = s.dev.reg k
      | .quadOffSet .. =>
          t.pending = s.pending ∧
          t.fuses = s.fuses ∧
          t.dev = { s.dev with regs := t.dev.regs, out := t.dev.out, freeCtr := t.dev.freeCtr, dom := t.dev.dom, ports := t.dev.ports, cores := t.dev.cores, waiting := t.dev.waiting, crossing := t.dev.crossing, homes := t.dev.homes, l2 := t.dev.l2, groups := t.dev.groups, backDebt := t.dev.backDebt, logs := t.dev.logs, health := t.dev.health, power := t.dev.power, mgmt := t.dev.mgmt, tiers := t.dev.tiers, trans := t.dev.trans, coh := t.dev.coh, jobs := t.dev.jobs, yar := t.dev.yar } ∧
          ∀ k, k ∉ [Reg.cancelsSent, Reg.dataLost, Reg.degradedReads, Reg.degradedWrites, Reg.faultsWritten, Reg.fenced, Reg.fences, Reg.groupsLost, Reg.homeLost, Reg.lastFault, Reg.lastReject, Reg.libBanks, Reg.lockedWrites, Reg.logNextSeq, Reg.memberFails, Reg.parityFixes, Reg.quadOff, Reg.rebuildBytes, Reg.rebuildsDone, Reg.recordsDropped, Reg.rejectedWrites, Reg.retiredDrops, Reg.svcLevel, Reg.svcQuadLevel, Reg.svcStacks, Reg.svcTiles, Reg.unroutable, Reg.walks, Reg.wrongPlane] → (∀ i, k ≠ Reg.bytesTx i ∧
          k ≠ Reg.creditStall i ∧
          k ≠ Reg.exclusions i ∧
          k ≠ Reg.fabricOut i ∧
          k ≠ Reg.fenceReason i ∧
          k ≠ Reg.fenceTick i ∧
          k ≠ Reg.flitsDiscarded i ∧
          k ≠ Reg.flitsTx i ∧
          k ≠ Reg.flushed i ∧
          k ≠ Reg.gfBytes i ∧
          k ≠ Reg.hbmState i ∧
          k ≠ Reg.hbmSysarea i ∧
          k ≠ Reg.jobsFailed i ∧
          k ≠ Reg.mergeRmw i ∧
          k ≠ Reg.pbLaneOk i ∧
          k ≠ Reg.pbPolarity i ∧
          k ≠ Reg.portLanes i ∧
          k ≠ Reg.portState i ∧
          k ≠ Reg.portWidth i ∧
          k ≠ Reg.replayFlits i ∧
          k ≠ Reg.sgActive i ∧
          k ≠ Reg.sgStage i ∧
          k ≠ Reg.stageEvicted i) → t.dev.reg k = s.dev.reg k
      | .quadOffClear .. =>
          DeviceOnly s t ∧
          t.dev = { s.dev with regs := t.dev.regs, out := t.dev.out, freeCtr := t.dev.freeCtr, dom := t.dev.dom, ports := t.dev.ports, cores := t.dev.cores, waiting := t.dev.waiting, crossing := t.dev.crossing, homes := t.dev.homes, l2 := t.dev.l2, groups := t.dev.groups, backDebt := t.dev.backDebt, logs := t.dev.logs, health := t.dev.health, power := t.dev.power, mgmt := t.dev.mgmt, tiers := t.dev.tiers, trans := t.dev.trans, coh := t.dev.coh, jobs := t.dev.jobs, yar := t.dev.yar } ∧
          ∀ k, k ∉ [Reg.cancelsSent, Reg.dataLost, Reg.degradedReads, Reg.degradedWrites, Reg.faultsWritten, Reg.fenced, Reg.fences, Reg.groupsLost, Reg.homeLost, Reg.lastFault, Reg.lastReject, Reg.libBanks, Reg.lockedWrites, Reg.logNextSeq, Reg.memberFails, Reg.parityFixes, Reg.quadOff, Reg.rebuildBytes, Reg.rebuildsDone, Reg.recordsDropped, Reg.rejectedWrites, Reg.retiredDrops, Reg.svcLevel, Reg.svcQuadLevel, Reg.svcStacks, Reg.svcTiles, Reg.unroutable, Reg.walks, Reg.wrongPlane] → (∀ i, k ≠ Reg.bytesTx i ∧
          k ≠ Reg.creditStall i ∧
          k ≠ Reg.exclusions i ∧
          k ≠ Reg.fabricOut i ∧
          k ≠ Reg.fenceReason i ∧
          k ≠ Reg.fenceTick i ∧
          k ≠ Reg.flitsDiscarded i ∧
          k ≠ Reg.flitsTx i ∧
          k ≠ Reg.flushed i ∧
          k ≠ Reg.gfBytes i ∧
          k ≠ Reg.hbmState i ∧
          k ≠ Reg.hbmSysarea i ∧
          k ≠ Reg.jobsFailed i ∧
          k ≠ Reg.mergeRmw i ∧
          k ≠ Reg.pbLaneOk i ∧
          k ≠ Reg.pbPolarity i ∧
          k ≠ Reg.portLanes i ∧
          k ≠ Reg.portState i ∧
          k ≠ Reg.portWidth i ∧
          k ≠ Reg.replayFlits i ∧
          k ≠ Reg.sgActive i ∧
          k ≠ Reg.sgStage i ∧
          k ≠ Reg.stageEvicted i) → t.dev.reg k = s.dev.reg k
      | .bistDone .. =>
          t.pending = s.pending ∧
          t.fuses = s.fuses ∧
          t.dev = { s.dev with regs := t.dev.regs, out := t.dev.out, freeCtr := t.dev.freeCtr, dom := t.dev.dom, ports := t.dev.ports, cores := t.dev.cores, waiting := t.dev.waiting, crossing := t.dev.crossing, homes := t.dev.homes, l2 := t.dev.l2, groups := t.dev.groups, backDebt := t.dev.backDebt, logs := t.dev.logs, health := t.dev.health, power := t.dev.power, mgmt := t.dev.mgmt, tiers := t.dev.tiers, trans := t.dev.trans, coh := t.dev.coh, jobs := t.dev.jobs, yar := t.dev.yar } ∧
          ∀ k, k ∉ [Reg.bar2FailsHa, Reg.bar2FailsHb, Reg.bistLastTick, Reg.bistResult, Reg.bistRuns, Reg.bistState, Reg.cancelsSent, Reg.dataLost, Reg.degradedReads, Reg.degradedWrites, Reg.faultsWritten, Reg.fenced, Reg.fences, Reg.groupsLost, Reg.homeLost, Reg.lastFault, Reg.libBanks, Reg.logNextSeq, Reg.memberFails, Reg.parityFixes, Reg.quantaReassigned, Reg.rebuildBytes, Reg.rebuildsDone, Reg.recordsDropped, Reg.retiredDrops, Reg.svcLevel, Reg.svcQuadLevel, Reg.svcStacks, Reg.svcTiles, Reg.unroutable, Reg.walks, Reg.wrongPlane] → (∀ i, k ≠ Reg.backInval i ∧
          k ≠ Reg.exclusions i ∧
          k ≠ Reg.fabricOut i ∧
          k ≠ Reg.fenceReason i ∧
          k ≠ Reg.fenceTick i ∧
          k ≠ Reg.flitsDiscarded i ∧
          k ≠ Reg.flushed i ∧
          k ≠ Reg.gfBytes i ∧
          k ≠ Reg.hbmEccCorr i ∧
          k ≠ Reg.hbmEccUncorr i ∧
          k ≠ Reg.hbmState i ∧
          k ≠ Reg.hbmSysarea i ∧
          k ≠ Reg.hbmUeLast i ∧
          k ≠ Reg.jobsFailed i ∧
          k ≠ Reg.lineLost i ∧
          k ≠ Reg.mergeRmw i ∧
          k ≠ Reg.pbLaneOk i ∧
          k ≠ Reg.pbPolarity i ∧
          k ≠ Reg.portLanes i ∧
          k ≠ Reg.portState i ∧
          k ≠ Reg.portWidth i ∧
          k ≠ Reg.revived i ∧
          k ≠ Reg.sgActive i ∧
          k ≠ Reg.sgStage i ∧
          k ≠ Reg.stageEvicted i) → t.dev.reg k = s.dev.reg k
      | .overvoltage .. =>
          t.pending = s.pending ∧
          t.fuses = s.fuses ∧
          t.dev = { s.dev with regs := t.dev.regs, out := t.dev.out, freeCtr := t.dev.freeCtr, dom := t.dev.dom, ports := t.dev.ports, cores := t.dev.cores, waiting := t.dev.waiting, crossing := t.dev.crossing, homes := t.dev.homes, l2 := t.dev.l2, groups := t.dev.groups, backDebt := t.dev.backDebt, logs := t.dev.logs, health := t.dev.health, power := t.dev.power, mgmt := t.dev.mgmt, tiers := t.dev.tiers, trans := t.dev.trans, coh := t.dev.coh, jobs := t.dev.jobs, yar := t.dev.yar } ∧
          ∀ k, k ∉ [Reg.cancelsSent, Reg.dataLost, Reg.degradedReads, Reg.degradedWrites, Reg.faultsWritten, Reg.fenced, Reg.fences, Reg.groupsLost, Reg.homeLost, Reg.lastFault, Reg.libBanks, Reg.logNextSeq, Reg.memberFails, Reg.overvolts, Reg.parityFixes, Reg.rebuildBytes, Reg.rebuildsDone, Reg.recordsDropped, Reg.retiredDrops, Reg.supplyState, Reg.svcLevel, Reg.svcQuadLevel, Reg.svcTiles, Reg.unroutable, Reg.walks, Reg.wrongPlane] → (∀ i, k ≠ Reg.bytesTx i ∧
          k ≠ Reg.creditStall i ∧
          k ≠ Reg.exclusions i ∧
          k ≠ Reg.fabricOut i ∧
          k ≠ Reg.fenceReason i ∧
          k ≠ Reg.fenceTick i ∧
          k ≠ Reg.flitsDiscarded i ∧
          k ≠ Reg.flitsTx i ∧
          k ≠ Reg.flushed i ∧
          k ≠ Reg.gfBytes i ∧
          k ≠ Reg.jobsFailed i ∧
          k ≠ Reg.mergeRmw i ∧
          k ≠ Reg.pbLaneOk i ∧
          k ≠ Reg.pbPolarity i ∧
          k ≠ Reg.portLanes i ∧
          k ≠ Reg.portState i ∧
          k ≠ Reg.portWidth i ∧
          k ≠ Reg.replayFlits i ∧
          k ≠ Reg.sgActive i ∧
          k ≠ Reg.sgStage i ∧
          k ≠ Reg.stageEvicted i) → t.dev.reg k = s.dev.reg k
      | .powerOn .. | .modResetN .. | .resetBegin .. =>
          t.pending = s.pending
      | .thermalTrip .. | .supplyStop .. | .overvoltageTimeout .. =>
          t.pending = s.pending ∧
          t.fuses = s.fuses ∧
          t.dev = { s.dev with regs := t.dev.regs, out := t.dev.out, freeCtr := t.dev.freeCtr, dom := t.dev.dom, ports := t.dev.ports, cores := t.dev.cores, waiting := t.dev.waiting, crossing := t.dev.crossing, homes := t.dev.homes, l2 := t.dev.l2, groups := t.dev.groups, backDebt := t.dev.backDebt, logs := t.dev.logs, health := t.dev.health, power := t.dev.power, mgmt := t.dev.mgmt, tiers := t.dev.tiers, trans := t.dev.trans, coh := t.dev.coh, jobs := t.dev.jobs, yar := t.dev.yar } ∧
          ∀ k, k ∉ [Reg.cancelsSent, Reg.dataLost, Reg.degradedReads, Reg.degradedWrites, Reg.faultsWritten, Reg.fenced, Reg.fences, Reg.groupsLost, Reg.homeLost, Reg.lastFault, Reg.libBanks, Reg.logNextSeq, Reg.memberFails, Reg.parityFixes, Reg.rebuildBytes, Reg.rebuildsDone, Reg.recordsDropped, Reg.retiredDrops, Reg.supplyState, Reg.svcLevel, Reg.svcQuadLevel, Reg.svcTiles, Reg.unroutable, Reg.walks, Reg.wrongPlane] → (∀ i, k ≠ Reg.bytesTx i ∧
          k ≠ Reg.creditStall i ∧
          k ≠ Reg.exclusions i ∧
          k ≠ Reg.fabricOut i ∧
          k ≠ Reg.fenceReason i ∧
          k ≠ Reg.fenceTick i ∧
          k ≠ Reg.flitsDiscarded i ∧
          k ≠ Reg.flitsTx i ∧
          k ≠ Reg.flushed i ∧
          k ≠ Reg.gfBytes i ∧
          k ≠ Reg.jobsFailed i ∧
          k ≠ Reg.mergeRmw i ∧
          k ≠ Reg.pbLaneOk i ∧
          k ≠ Reg.pbPolarity i ∧
          k ≠ Reg.portLanes i ∧
          k ≠ Reg.portState i ∧
          k ≠ Reg.portWidth i ∧
          k ≠ Reg.replayFlits i ∧
          k ≠ Reg.sgActive i ∧
          k ≠ Reg.sgStage i ∧
          k ≠ Reg.stageEvicted i) → t.dev.reg k = s.dev.reg k
      | .switchLost .. =>
          DeviceOnly s t ∧
          t.dev = { s.dev with regs := t.dev.regs, out := t.dev.out, freeCtr := t.dev.freeCtr, dom := t.dev.dom, ports := t.dev.ports, cores := t.dev.cores, logs := t.dev.logs, mgmt := t.dev.mgmt, tiers := t.dev.tiers, trans := t.dev.trans, coh := t.dev.coh, jobs := t.dev.jobs, yar := t.dev.yar } ∧
          ∀ k, k ∉ [Reg.cancelsSent, Reg.faultsWritten, Reg.fenced, Reg.fences, Reg.lastFault, Reg.libBanks, Reg.logNextSeq, Reg.recordsDropped, Reg.retiredDrops, Reg.unroutable, Reg.walks, Reg.wrongPlane] → (∀ i, k ≠ Reg.fabricOut i ∧
          k ≠ Reg.fenceReason i ∧
          k ≠ Reg.fenceTick i ∧
          k ≠ Reg.jobsFailed i ∧
          k ≠ Reg.stageEvicted i) → t.dev.reg k = s.dev.reg k
      | .fabricRefclkReturn .. =>
          DeviceOnly s t ∧
          t.dev = { s.dev with regs := t.dev.regs, out := t.dev.out, freeCtr := t.dev.freeCtr, dom := t.dev.dom, ports := t.dev.ports, cores := t.dev.cores, waiting := t.dev.waiting, crossing := t.dev.crossing, homes := t.dev.homes, l2 := t.dev.l2, groups := t.dev.groups, backDebt := t.dev.backDebt, logs := t.dev.logs, health := t.dev.health, power := t.dev.power, mgmt := t.dev.mgmt, sec := t.dev.sec, tiers := t.dev.tiers, trans := t.dev.trans, coh := t.dev.coh, jobs := t.dev.jobs, yar := t.dev.yar } ∧
          ∀ k, k ∉ [Reg.aliasCert, Reg.bistLastTick, Reg.bistResult, Reg.bistRuns, Reg.bistState, Reg.campionFwVersion, Reg.cancelsSent, Reg.dataLost, Reg.debugChallenge, Reg.debugState, Reg.degradedReads, Reg.degradedWrites, Reg.faultsWritten, Reg.fenced, Reg.fences, Reg.groupsLost, Reg.hbmShare, Reg.homeLost, Reg.lastFault, Reg.libBanks, Reg.libVersionCur, Reg.logNextSeq, Reg.memberFails, Reg.parityFixes, Reg.rebuildBytes, Reg.rebuildsDone, Reg.recordsDropped, Reg.refclkSwitches, Reg.resetCause, Reg.retiredDrops, Reg.serdesFwVersion, Reg.supplyState, Reg.svcLevel, Reg.svcQuadLevel, Reg.svcStacks, Reg.svcTiles, Reg.tileDuty, Reg.unroutable, Reg.walks, Reg.wrongPlane] → (∀ i, k ≠ Reg.exclusions i ∧
          k ≠ Reg.fabricOut i ∧
          k ≠ Reg.fenceReason i ∧
          k ≠ Reg.fenceTick i ∧
          k ≠ Reg.flitsDiscarded i ∧
          k ≠ Reg.flushed i ∧
          k ≠ Reg.gfBytes i ∧
          k ≠ Reg.hbmState i ∧
          k ≠ Reg.hbmSysarea i ∧
          k ≠ Reg.jobsFailed i ∧
          k ≠ Reg.mergeRmw i ∧
          k ≠ Reg.pbLaneOk i ∧
          k ≠ Reg.pbPolarity i ∧
          k ≠ Reg.portLanes i ∧
          k ≠ Reg.portState i ∧
          k ≠ Reg.portWidth i ∧
          k ≠ Reg.sgActive i ∧
          k ≠ Reg.sgStage i ∧
          k ≠ Reg.stageEvicted i) → t.dev.reg k = s.dev.reg k
      | .masterLost .. =>
          DeviceOnly s t ∧
          t.dev = { s.dev with regs := t.dev.regs, out := t.dev.out, freeCtr := t.dev.freeCtr, dom := t.dev.dom, ports := t.dev.ports, cores := t.dev.cores, logs := t.dev.logs, mgmt := t.dev.mgmt, tiers := t.dev.tiers, trans := t.dev.trans, coh := t.dev.coh, jobs := t.dev.jobs, yar := t.dev.yar } ∧
          ∀ k, k ∉ [Reg.cancelsSent, Reg.faultsWritten, Reg.fenced, Reg.fences, Reg.lastFault, Reg.libBanks, Reg.logNextSeq, Reg.masterChanges, Reg.masterCur, Reg.recordsDropped, Reg.retiredDrops, Reg.tickDepth, Reg.tickOffset, Reg.tickParent, Reg.tickState, Reg.unroutable, Reg.walks, Reg.wrongPlane] → (∀ i, k ≠ Reg.fabricOut i ∧
          k ≠ Reg.fenceReason i ∧
          k ≠ Reg.fenceTick i ∧
          k ≠ Reg.jobsFailed i ∧
          k ≠ Reg.stageEvicted i) → t.dev.reg k = s.dev.reg k
      | .commitApply .. =>
          DeviceOnly s t ∧
          t.dev = { s.dev with regs := t.dev.regs, out := t.dev.out, freeCtr := t.dev.freeCtr, dom := t.dev.dom, ports := t.dev.ports, cores := t.dev.cores, allowance := t.dev.allowance, groups := t.dev.groups, logs := t.dev.logs, mgmt := t.dev.mgmt, commit := t.dev.commit, meter := t.dev.meter, tiers := t.dev.tiers, trans := t.dev.trans, coh := t.dev.coh, jobs := t.dev.jobs, yar := t.dev.yar } ∧
          ∀ k, k ∉ [Reg.cancelsSent, Reg.commitSeq, Reg.commitState, Reg.commitTick, Reg.commits, Reg.faultsWritten, Reg.fenced, Reg.fences, Reg.lastFault, Reg.libBanks, Reg.logNextSeq, Reg.recordsDropped, Reg.retiredDrops, Reg.unroutable, Reg.walks, Reg.wrongPlane] → (∀ i, k ≠ Reg.compActive i ∧
          k ≠ Reg.compStage i ∧
          k ≠ Reg.fabricOut i ∧
          k ≠ Reg.fenceReason i ∧
          k ≠ Reg.fenceTick i ∧
          k ≠ Reg.gwActive i ∧
          k ≠ Reg.hmapActive i ∧
          k ≠ Reg.jobsFailed i ∧
          k ≠ Reg.membersActive i ∧
          k ≠ Reg.regionActive i ∧
          k ≠ Reg.sgActive i ∧
          k ≠ Reg.stageEvicted i) → t.dev.reg k = s.dev.reg k
      | .campionRestartDone .. =>
          DeviceOnly s t ∧
          t.dev = { s.dev with regs := t.dev.regs, out := t.dev.out, freeCtr := t.dev.freeCtr, dom := t.dev.dom, ports := t.dev.ports, cores := t.dev.cores, waiting := t.dev.waiting, crossing := t.dev.crossing, homes := t.dev.homes, l2 := t.dev.l2, groups := t.dev.groups, backDebt := t.dev.backDebt, logs := t.dev.logs, health := t.dev.health, mgmt := t.dev.mgmt, tiers := t.dev.tiers, trans := t.dev.trans, coh := t.dev.coh, jobs := t.dev.jobs, yar := t.dev.yar } ∧
          ∀ k, k ∉ [Reg.campionState, Reg.cancelsSent, Reg.dataLost, Reg.degradedReads, Reg.degradedWrites, Reg.faultsWritten, Reg.fenced, Reg.fences, Reg.groupsLost, Reg.homeLost, Reg.lastFault, Reg.libBanks, Reg.logNextSeq, Reg.memberFails, Reg.parityFixes, Reg.rebuildBytes, Reg.rebuildsDone, Reg.recordsDropped, Reg.retiredDrops, Reg.svcLevel, Reg.svcQuadLevel, Reg.svcTiles, Reg.unroutable, Reg.walks, Reg.wrongPlane] → (∀ i, k ≠ Reg.exclusions i ∧
          k ≠ Reg.fabricOut i ∧
          k ≠ Reg.fenceReason i ∧
          k ≠ Reg.fenceTick i ∧
          k ≠ Reg.flitsDiscarded i ∧
          k ≠ Reg.flushed i ∧
          k ≠ Reg.gfBytes i ∧
          k ≠ Reg.jobsFailed i ∧
          k ≠ Reg.mergeRmw i ∧
          k ≠ Reg.pbLaneOk i ∧
          k ≠ Reg.pbPolarity i ∧
          k ≠ Reg.portLanes i ∧
          k ≠ Reg.portState i ∧
          k ≠ Reg.portWidth i ∧
          k ≠ Reg.sgActive i ∧
          k ≠ Reg.sgStage i ∧
          k ≠ Reg.stageEvicted i) → t.dev.reg k = s.dev.reg k
      | .refclkLost .. =>
          DeviceOnly s t ∧
          t.dev = { s.dev with regs := t.dev.regs, out := t.dev.out, freeCtr := t.dev.freeCtr, dom := t.dev.dom, ports := t.dev.ports, cores := t.dev.cores, waiting := t.dev.waiting, homes := t.dev.homes, l2 := t.dev.l2, groups := t.dev.groups, backDebt := t.dev.backDebt, logs := t.dev.logs, power := t.dev.power, mgmt := t.dev.mgmt, tiers := t.dev.tiers, trans := t.dev.trans, coh := t.dev.coh, jobs := t.dev.jobs, yar := t.dev.yar } ∧
          ∀ k, k ∉ [Reg.cancelsSent, Reg.dataLost, Reg.degradedReads, Reg.degradedWrites, Reg.faultsWritten, Reg.fenced, Reg.fences, Reg.groupsLost, Reg.homeLost, Reg.lastFault, Reg.libBanks, Reg.logNextSeq, Reg.memberFails, Reg.parityFixes, Reg.rebuildBytes, Reg.rebuildsDone, Reg.recordsDropped, Reg.retiredDrops, Reg.unroutable, Reg.walks, Reg.wrongPlane] → (∀ i, k ≠ Reg.exclusions i ∧
          k ≠ Reg.fabricOut i ∧
          k ≠ Reg.fenceReason i ∧
          k ≠ Reg.fenceTick i ∧
          k ≠ Reg.flitsDiscarded i ∧
          k ≠ Reg.flushed i ∧
          k ≠ Reg.gfBytes i ∧
          k ≠ Reg.jobsFailed i ∧
          k ≠ Reg.mergeRmw i ∧
          k ≠ Reg.pbLaneOk i ∧
          k ≠ Reg.pbPolarity i ∧
          k ≠ Reg.portLanes i ∧
          k ≠ Reg.portState i ∧
          k ≠ Reg.portWidth i ∧
          k ≠ Reg.sgActive i ∧
          k ≠ Reg.sgStage i ∧
          k ≠ Reg.stageEvicted i) → t.dev.reg k = s.dev.reg k
      | _ => True
end

