-- ==== Sys2Proof/Laws/Memory.lean ====
section
/-! SUPPORT. The laws of tier H memory: reading after a write, and that every operation keeps the canonical form. -/

namespace Sys2Proof.Machine

theorem Memory.byte_filter (m : Memory) (p : Host.Cell → Bool) (k : Nat) (h : ∀ b, p (k, b) = true) :
    Memory.byte (m.filter p) k = Memory.byte m k := by
  induction m with
  | nil => rfl
  | cons c m ih =>
    obtain ⟨a, b⟩ := c
    by_cases e : a = k
    · subst e; simp [h, Memory.byte]
    · cases hp : p (a, b) <;> simp [hp, Memory.byte, e, ih]

theorem Memory.byte_filter_out (m : Memory) (p : Host.Cell → Bool) (k : Nat) (h : ∀ b, p (k, b) = false) :
    Memory.byte (m.filter p) k = 0 := by
  induction m with
  | nil => rfl
  | cons c m ih =>
    obtain ⟨a, b⟩ := c
    by_cases e : a = k
    · subst e; simp [h, ih]
    · cases hp : p (a, b) <;> simp [hp, Memory.byte, e, ih]

theorem Memory.byte_enter_same (m : Memory) (k : Nat) (v : Byte) : Memory.byte (m.enter k v) k = v := by
  induction m with
  | nil => simp [Memory.enter, Memory.byte]
  | cons c m ih =>
    obtain ⟨a, b⟩ := c
    simp only [Memory.enter]
    split
    · simp [Memory.byte]
    · split
      · simp [Memory.byte]
      · rename_i _ h; simp [Memory.byte, h, ih]

theorem Memory.byte_enter_ne (m : Memory) {k k' : Nat} (v : Byte) (h : k' ≠ k) : Memory.byte (m.enter k v) k' = Memory.byte m k' := by
  have hk : ¬ k = k' := fun e => h e.symm
  induction m with
  | nil => simp [Memory.enter, Memory.byte, hk]
  | cons c m ih =>
    obtain ⟨a, b⟩ := c
    simp only [Memory.enter]
    split
    · simp [Memory.byte, hk]
    · split
      · rename_i _ e; subst e; simp [Memory.byte, hk]
      · simp [Memory.byte, ih]

/-- A byte reads as what was written to it. -/
@[simp] theorem Memory.byte_setByte_same (m : Memory) (k : Nat) (v : Byte) : Memory.byte (m.setByte k v) k = v := by
  unfold Memory.setByte
  split
  · rename_i h; rw [Memory.byte_filter_out _ _ _ (by simp), h]
  · exact Memory.byte_enter_same m k v

/-- A write leaves every other byte alone. -/
theorem Memory.byte_setByte_ne (m : Memory) {k k' : Nat} (v : Byte) (h : k' ≠ k) : Memory.byte (m.setByte k v) k' = Memory.byte m k' := by
  unfold Memory.setByte
  split
  · exact Memory.byte_filter _ _ _ (by simp [h])
  · exact Memory.byte_enter_ne m v h

/-- A byte string's write leaves every byte outside it alone. -/
theorem Memory.byte_write_outside (m : Memory) (a : Nat) (bs : Bytes) (k : Nat) (h : k < a ∨ a + bs.length ≤ k) :
    Memory.byte (m.write a bs) k = Memory.byte m k := by
  induction bs generalizing m a with
  | nil => rfl
  | cons b bs ih =>
    simp only [Memory.write, List.length_cons] at *
    rw [ih _ _ (by omega), Memory.byte_setByte_ne _ _ (by omega)]

/-- Reading what was just written gives it back. -/
theorem Memory.read_write (m : Memory) (a : Nat) (bs : Bytes) : (m.write a bs).read a bs.length = bs := by
  induction bs generalizing m a with
  | nil => rfl
  | cons b bs ih =>
    simp only [Memory.write, List.length_cons, Memory.read, ih]
    rw [Memory.byte_write_outside _ _ _ _ (by omega), Memory.byte_setByte_same]

theorem Memory.byte_zero_inside (m : Memory) (a n k : Nat) (h : a ≤ k ∧ k < a + n) : Memory.byte (m.zero a n) k = 0 :=
  Memory.byte_filter_out _ _ _ (by simp [h.1, h.2])

theorem Memory.byte_zero_outside (m : Memory) (a n k : Nat) (h : k < a ∨ a + n ≤ k) : Memory.byte (m.zero a n) k = Memory.byte m k :=
  Memory.byte_filter _ _ _ (by intro b; simp; omega)

/-! ### The canonical form -/

/-- The canonical form as a statement about all entries. -/
theorem Memory.wf_iff (m : Memory) : m.wf = true ↔ m.Pairwise (fun c d => c.1 < d.1) ∧ ∀ c ∈ m, c.2 ≠ 0 := by
  induction m with
  | nil => simp [Memory.wf]
  | cons c m ih =>
    obtain ⟨a, b⟩ := c
    cases m with
    | nil => simp [Memory.wf]
    | cons d m =>
      obtain ⟨a', b'⟩ := d
      simp only [Memory.wf, Bool.and_eq_true, bne_iff_ne, ne_eq, decide_eq_true_eq, ih]
      simp only [List.pairwise_cons, List.mem_cons]
      constructor
      · rintro ⟨⟨hb, hlt⟩, ⟨h1, h2⟩, h3⟩
        refine ⟨⟨fun x hx => ?_, h1, h2⟩, fun x hx => ?_⟩
        · rcases hx with rfl | hx
          · exact hlt
          · exact Nat.lt_trans hlt (h1 x hx)
        · rcases hx with rfl | hx
          · exact hb
          · exact h3 x hx
      · rintro ⟨⟨h0, h1, h2⟩, h3⟩
        exact ⟨⟨h3 _ (.inl rfl), h0 _ (.inl rfl)⟩, ⟨h1, h2⟩, fun x hx => h3 x (.inr hx)⟩

theorem Memory.wf_filter {m : Memory} (p : Host.Cell → Bool) (h : m.wf = true) : Memory.wf (m.filter p) = true := by
  rw [Memory.wf_iff] at *
  exact ⟨h.1.filter p, fun c hc => h.2 c (List.mem_of_mem_filter hc)⟩

theorem Memory.mem_enter {m : Memory} {k : Nat} {v : Byte} {c : Host.Cell} (h : c ∈ m.enter k v) : c = (k, v) ∨ c ∈ m := by
  induction m with
  | nil => simpa [Memory.enter] using h
  | cons d m ih =>
    obtain ⟨a, b⟩ := d
    simp only [Memory.enter] at h
    split at h
    · simp at h; rcases h with h | h | h <;> simp [h]
    · split at h
      · simp at h; rcases h with h | h <;> simp [h]
      · simp at h; rcases h with h | h
        · simp [h]
        · rcases ih h with h | h <;> simp [h]

theorem Memory.wf_enter {m : Memory} (k : Nat) {v : Byte} (hv : v ≠ 0) (h : m.wf = true) : Memory.wf (m.enter k v) = true := by
  rw [Memory.wf_iff] at *
  refine ⟨?_, fun c hc => ?_⟩
  · have hp := h.1
    clear h
    induction m with
    | nil => simp [Memory.enter]
    | cons d m ih =>
      obtain ⟨a, b⟩ := d
      rw [List.pairwise_cons] at hp
      simp only [Memory.enter]
      split
      · rename_i hk
        refine List.pairwise_cons.2 ⟨fun x hx => ?_, List.pairwise_cons.2 hp⟩
        rcases List.mem_cons.1 hx with rfl | hx
        · exact hk
        · exact Nat.lt_trans hk (hp.1 x hx)
      · split
        · rename_i _ e; subst e; exact List.pairwise_cons.2 ⟨hp.1, hp.2⟩
        · refine List.pairwise_cons.2 ⟨fun x hx => ?_, ih hp.2⟩
          rcases Memory.mem_enter hx with rfl | hx
          · show a < k; omega
          · exact hp.1 x hx
  · rcases Memory.mem_enter hc with rfl | hc
    · exact hv
    · exact h.2 c hc

/-- Every byte written keeps the canonical form. -/
theorem Memory.wf_setByte {m : Memory} (k : Nat) (v : Byte) (h : m.wf = true) : Memory.wf (m.setByte k v) = true := by
  unfold Memory.setByte
  split
  · exact Memory.wf_filter _ h
  · rename_i hv; exact Memory.wf_enter k hv h

/-- Every byte string written keeps the canonical form. -/
theorem Memory.wf_write {m : Memory} (a : Nat) (bs : Bytes) (h : m.wf = true) : Memory.wf (m.write a bs) = true := by
  induction bs generalizing m a with
  | nil => exact h
  | cons b bs ih => exact ih (a + 1) (Memory.wf_setByte a b h)

/-- Zeroing a range keeps the canonical form. -/
theorem Memory.wf_zero {m : Memory} (a n : Nat) (h : m.wf = true) : Memory.wf (m.zero a n) = true := Memory.wf_filter _ h

end Sys2Proof.Machine
end

