-- ==== Sys2Proof/Laws/Agents.lean ====
section
/-! SUPPORT. What the shared operations of agents, of their waits and of the homes' answers can do, said once. -/

namespace Sys2Proof.Machine

/-- An owner that answers a snoop at once writes at most its line: the canonical form stays. -/
theorem Dev.snoopNow_wf {m : Memory} (d : Dev) (l : Nat) (keep discard : Bool) (h : m.wf = true) :
    (Dev.snoopNow m d l keep discard).1.wf = true := by
  unfold Dev.snoopNow
  split
  · exact h
  · split
    · exact h
    · dsimp only
      split
      · exact Memory.wf_write _ _ h
      · exact h

/-- A tile's acquire-wait that is entered or goes on is the one asked for; where it is entered now its timeout is of 1 to 16 ticks from this one. -/
theorem Dev.enterWait_some {d d' : Dev} {t off cond width value : Nat} (h : d.enterWait t off cond width value = some d') :
    (d' = d ∧ ∃ w, Tab.look d.coh.waits t = some w ∧ w.off = off ∧ w.cond = cond ∧ w.width = width ∧ w.value = value) ∨
    (Tab.look d.coh.waits t = none ∧ ∃ n, 1 ≤ n ∧ n ≤ 16 ∧
      d'.coh.waits = Tab.put d.coh.waits t { off := off, cond := cond, width := width, value := value, since := d.tick, ticks := n }) := by
  unfold Dev.enterWait at h
  split at h
  · rename_i w hw
    split at h
    · rename_i hc
      simp only [Bool.and_eq_true, decide_eq_true_eq] at hc
      obtain rfl := Option.some.inj h
      exact .inl ⟨rfl, w, hw, hc.1.1.1, hc.1.1.2, hc.1.2, hc.2⟩
    · cases h
  · rename_i hw
    obtain rfl := Option.some.inj h
    exact .inr ⟨hw, 1 + d.fresh.1 % 16, by omega, by omega, rfl⟩

/-- A status that the switch reports is one that R17 names. -/
theorem Dev.knownStatus_le (s : Nat) : Dev.knownStatus s ≤ 0x12 := by
  unfold Dev.knownStatus
  split
  · assumption
  · decide

end Sys2Proof.Machine
end

