-- ==== Sys2Proof/Laws/State.lean ====
section
/-! SUPPORT. What each update of the device leaves in each of its fields: one lemma per field per update, true by definition. -/

namespace Sys2Proof.Machine

/-! ### `setReg` -/

@[simp] theorem Dev.setReg_copies (d : Dev) (k v : Nat) : (d.setReg k v).copies = d.copies := rfl
@[simp] theorem Dev.setReg_out (d : Dev) (k v : Nat) : (d.setReg k v).out = d.out := rfl
@[simp] theorem Dev.setReg_freeCtr (d : Dev) (k v : Nat) : (d.setReg k v).freeCtr = d.freeCtr := rfl
@[simp] theorem Dev.setReg_dom (d : Dev) (k v : Nat) : (d.setReg k v).dom = d.dom := rfl
@[simp] theorem Dev.setReg_ports (d : Dev) (k v : Nat) : (d.setReg k v).ports = d.ports := rfl
@[simp] theorem Dev.setReg_cores (d : Dev) (k v : Nat) : (d.setReg k v).cores = d.cores := rfl
@[simp] theorem Dev.setReg_waiting (d : Dev) (k v : Nat) : (d.setReg k v).waiting = d.waiting := rfl
@[simp] theorem Dev.setReg_arbCls (d : Dev) (k v : Nat) : (d.setReg k v).arbCls = d.arbCls := rfl
@[simp] theorem Dev.setReg_crossing (d : Dev) (k v : Nat) : (d.setReg k v).crossing = d.crossing := rfl
@[simp] theorem Dev.setReg_paced (d : Dev) (k v : Nat) : (d.setReg k v).paced = d.paced := rfl
@[simp] theorem Dev.setReg_mcHeld (d : Dev) (k v : Nat) : (d.setReg k v).mcHeld = d.mcHeld := rfl
@[simp] theorem Dev.setReg_arbQuad (d : Dev) (k v : Nat) : (d.setReg k v).arbQuad = d.arbQuad := rfl
@[simp] theorem Dev.setReg_allowance (d : Dev) (k v : Nat) : (d.setReg k v).allowance = d.allowance := rfl
@[simp] theorem Dev.setReg_homes (d : Dev) (k v : Nat) : (d.setReg k v).homes = d.homes := rfl
@[simp] theorem Dev.setReg_l2 (d : Dev) (k v : Nat) : (d.setReg k v).l2 = d.l2 := rfl
@[simp] theorem Dev.setReg_groups (d : Dev) (k v : Nat) : (d.setReg k v).groups = d.groups := rfl
@[simp] theorem Dev.setReg_stepFences (d : Dev) (k v : Nat) : (d.setReg k v).stepFences = d.stepFences := rfl
@[simp] theorem Dev.setReg_backDebt (d : Dev) (k v : Nat) : (d.setReg k v).backDebt = d.backDebt := rfl
@[simp] theorem Dev.setReg_logs (d : Dev) (k v : Nat) : (d.setReg k v).logs = d.logs := rfl
@[simp] theorem Dev.setReg_health (d : Dev) (k v : Nat) : (d.setReg k v).health = d.health := rfl
@[simp] theorem Dev.setReg_power (d : Dev) (k v : Nat) : (d.setReg k v).power = d.power := rfl
@[simp] theorem Dev.setReg_mgmt (d : Dev) (k v : Nat) : (d.setReg k v).mgmt = d.mgmt := rfl
@[simp] theorem Dev.setReg_hostA (d : Dev) (k v : Nat) : (d.setReg k v).hostA = d.hostA := rfl
@[simp] theorem Dev.setReg_hostB (d : Dev) (k v : Nat) : (d.setReg k v).hostB = d.hostB := rfl
@[simp] theorem Dev.setReg_keys (d : Dev) (k v : Nat) : (d.setReg k v).keys = d.keys := rfl
@[simp] theorem Dev.setReg_sec (d : Dev) (k v : Nat) : (d.setReg k v).sec = d.sec := rfl
@[simp] theorem Dev.setReg_commit (d : Dev) (k v : Nat) : (d.setReg k v).commit = d.commit := rfl
@[simp] theorem Dev.setReg_meter (d : Dev) (k v : Nat) : (d.setReg k v).meter = d.meter := rfl
@[simp] theorem Dev.setReg_tiers (d : Dev) (k v : Nat) : (d.setReg k v).tiers = d.tiers := rfl
@[simp] theorem Dev.setReg_trans (d : Dev) (k v : Nat) : (d.setReg k v).trans = d.trans := rfl
@[simp] theorem Dev.setReg_coh (d : Dev) (k v : Nat) : (d.setReg k v).coh = d.coh := rfl
@[simp] theorem Dev.setReg_jobs (d : Dev) (k v : Nat) : (d.setReg k v).jobs = d.jobs := rfl
@[simp] theorem Dev.setReg_yar (d : Dev) (k v : Nat) : (d.setReg k v).yar = d.yar := rfl

/-! ### `emit` -/

@[simp] theorem Dev.emit_regs (d : Dev) (o : Out) : (d.emit o).regs = d.regs := rfl
@[simp] theorem Dev.emit_copies (d : Dev) (o : Out) : (d.emit o).copies = d.copies := rfl
@[simp] theorem Dev.emit_freeCtr (d : Dev) (o : Out) : (d.emit o).freeCtr = d.freeCtr := rfl
@[simp] theorem Dev.emit_dom (d : Dev) (o : Out) : (d.emit o).dom = d.dom := rfl
@[simp] theorem Dev.emit_ports (d : Dev) (o : Out) : (d.emit o).ports = d.ports := rfl
@[simp] theorem Dev.emit_cores (d : Dev) (o : Out) : (d.emit o).cores = d.cores := rfl
@[simp] theorem Dev.emit_waiting (d : Dev) (o : Out) : (d.emit o).waiting = d.waiting := rfl
@[simp] theorem Dev.emit_arbCls (d : Dev) (o : Out) : (d.emit o).arbCls = d.arbCls := rfl
@[simp] theorem Dev.emit_crossing (d : Dev) (o : Out) : (d.emit o).crossing = d.crossing := rfl
@[simp] theorem Dev.emit_paced (d : Dev) (o : Out) : (d.emit o).paced = d.paced := rfl
@[simp] theorem Dev.emit_mcHeld (d : Dev) (o : Out) : (d.emit o).mcHeld = d.mcHeld := rfl
@[simp] theorem Dev.emit_arbQuad (d : Dev) (o : Out) : (d.emit o).arbQuad = d.arbQuad := rfl
@[simp] theorem Dev.emit_allowance (d : Dev) (o : Out) : (d.emit o).allowance = d.allowance := rfl
@[simp] theorem Dev.emit_homes (d : Dev) (o : Out) : (d.emit o).homes = d.homes := rfl
@[simp] theorem Dev.emit_l2 (d : Dev) (o : Out) : (d.emit o).l2 = d.l2 := rfl
@[simp] theorem Dev.emit_groups (d : Dev) (o : Out) : (d.emit o).groups = d.groups := rfl
@[simp] theorem Dev.emit_stepFences (d : Dev) (o : Out) : (d.emit o).stepFences = d.stepFences := rfl
@[simp] theorem Dev.emit_backDebt (d : Dev) (o : Out) : (d.emit o).backDebt = d.backDebt := rfl
@[simp] theorem Dev.emit_logs (d : Dev) (o : Out) : (d.emit o).logs = d.logs := rfl
@[simp] theorem Dev.emit_health (d : Dev) (o : Out) : (d.emit o).health = d.health := rfl
@[simp] theorem Dev.emit_power (d : Dev) (o : Out) : (d.emit o).power = d.power := rfl
@[simp] theorem Dev.emit_mgmt (d : Dev) (o : Out) : (d.emit o).mgmt = d.mgmt := rfl
@[simp] theorem Dev.emit_hostA (d : Dev) (o : Out) : (d.emit o).hostA = d.hostA := rfl
@[simp] theorem Dev.emit_hostB (d : Dev) (o : Out) : (d.emit o).hostB = d.hostB := rfl
@[simp] theorem Dev.emit_keys (d : Dev) (o : Out) : (d.emit o).keys = d.keys := rfl
@[simp] theorem Dev.emit_sec (d : Dev) (o : Out) : (d.emit o).sec = d.sec := rfl
@[simp] theorem Dev.emit_commit (d : Dev) (o : Out) : (d.emit o).commit = d.commit := rfl
@[simp] theorem Dev.emit_meter (d : Dev) (o : Out) : (d.emit o).meter = d.meter := rfl
@[simp] theorem Dev.emit_tiers (d : Dev) (o : Out) : (d.emit o).tiers = d.tiers := rfl
@[simp] theorem Dev.emit_trans (d : Dev) (o : Out) : (d.emit o).trans = d.trans := rfl
@[simp] theorem Dev.emit_coh (d : Dev) (o : Out) : (d.emit o).coh = d.coh := rfl
@[simp] theorem Dev.emit_jobs (d : Dev) (o : Out) : (d.emit o).jobs = d.jobs := rfl
@[simp] theorem Dev.emit_yar (d : Dev) (o : Out) : (d.emit o).yar = d.yar := rfl

/-! ### `emits` -/

@[simp] theorem Dev.emits_regs (d : Dev) (os : List Out) : (d.emits os).regs = d.regs := rfl
@[simp] theorem Dev.emits_copies (d : Dev) (os : List Out) : (d.emits os).copies = d.copies := rfl
@[simp] theorem Dev.emits_freeCtr (d : Dev) (os : List Out) : (d.emits os).freeCtr = d.freeCtr := rfl
@[simp] theorem Dev.emits_dom (d : Dev) (os : List Out) : (d.emits os).dom = d.dom := rfl
@[simp] theorem Dev.emits_ports (d : Dev) (os : List Out) : (d.emits os).ports = d.ports := rfl
@[simp] theorem Dev.emits_cores (d : Dev) (os : List Out) : (d.emits os).cores = d.cores := rfl
@[simp] theorem Dev.emits_waiting (d : Dev) (os : List Out) : (d.emits os).waiting = d.waiting := rfl
@[simp] theorem Dev.emits_arbCls (d : Dev) (os : List Out) : (d.emits os).arbCls = d.arbCls := rfl
@[simp] theorem Dev.emits_crossing (d : Dev) (os : List Out) : (d.emits os).crossing = d.crossing := rfl
@[simp] theorem Dev.emits_paced (d : Dev) (os : List Out) : (d.emits os).paced = d.paced := rfl
@[simp] theorem Dev.emits_mcHeld (d : Dev) (os : List Out) : (d.emits os).mcHeld = d.mcHeld := rfl
@[simp] theorem Dev.emits_arbQuad (d : Dev) (os : List Out) : (d.emits os).arbQuad = d.arbQuad := rfl
@[simp] theorem Dev.emits_allowance (d : Dev) (os : List Out) : (d.emits os).allowance = d.allowance := rfl
@[simp] theorem Dev.emits_homes (d : Dev) (os : List Out) : (d.emits os).homes = d.homes := rfl
@[simp] theorem Dev.emits_l2 (d : Dev) (os : List Out) : (d.emits os).l2 = d.l2 := rfl
@[simp] theorem Dev.emits_groups (d : Dev) (os : List Out) : (d.emits os).groups = d.groups := rfl
@[simp] theorem Dev.emits_stepFences (d : Dev) (os : List Out) : (d.emits os).stepFences = d.stepFences := rfl
@[simp] theorem Dev.emits_backDebt (d : Dev) (os : List Out) : (d.emits os).backDebt = d.backDebt := rfl
@[simp] theorem Dev.emits_logs (d : Dev) (os : List Out) : (d.emits os).logs = d.logs := rfl
@[simp] theorem Dev.emits_health (d : Dev) (os : List Out) : (d.emits os).health = d.health := rfl
@[simp] theorem Dev.emits_power (d : Dev) (os : List Out) : (d.emits os).power = d.power := rfl
@[simp] theorem Dev.emits_mgmt (d : Dev) (os : List Out) : (d.emits os).mgmt = d.mgmt := rfl
@[simp] theorem Dev.emits_hostA (d : Dev) (os : List Out) : (d.emits os).hostA = d.hostA := rfl
@[simp] theorem Dev.emits_hostB (d : Dev) (os : List Out) : (d.emits os).hostB = d.hostB := rfl
@[simp] theorem Dev.emits_keys (d : Dev) (os : List Out) : (d.emits os).keys = d.keys := rfl
@[simp] theorem Dev.emits_sec (d : Dev) (os : List Out) : (d.emits os).sec = d.sec := rfl
@[simp] theorem Dev.emits_commit (d : Dev) (os : List Out) : (d.emits os).commit = d.commit := rfl
@[simp] theorem Dev.emits_meter (d : Dev) (os : List Out) : (d.emits os).meter = d.meter := rfl
@[simp] theorem Dev.emits_tiers (d : Dev) (os : List Out) : (d.emits os).tiers = d.tiers := rfl
@[simp] theorem Dev.emits_trans (d : Dev) (os : List Out) : (d.emits os).trans = d.trans := rfl
@[simp] theorem Dev.emits_coh (d : Dev) (os : List Out) : (d.emits os).coh = d.coh := rfl
@[simp] theorem Dev.emits_jobs (d : Dev) (os : List Out) : (d.emits os).jobs = d.jobs := rfl
@[simp] theorem Dev.emits_yar (d : Dev) (os : List Out) : (d.emits os).yar = d.yar := rfl

/-! ### `modPort` -/

@[simp] theorem Dev.modPort_regs (d : Dev) (p : Nat) (f : Port → Port) : (d.modPort p f).regs = d.regs := rfl
@[simp] theorem Dev.modPort_copies (d : Dev) (p : Nat) (f : Port → Port) : (d.modPort p f).copies = d.copies := rfl
@[simp] theorem Dev.modPort_out (d : Dev) (p : Nat) (f : Port → Port) : (d.modPort p f).out = d.out := rfl
@[simp] theorem Dev.modPort_freeCtr (d : Dev) (p : Nat) (f : Port → Port) : (d.modPort p f).freeCtr = d.freeCtr := rfl
@[simp] theorem Dev.modPort_dom (d : Dev) (p : Nat) (f : Port → Port) : (d.modPort p f).dom = d.dom := rfl
@[simp] theorem Dev.modPort_cores (d : Dev) (p : Nat) (f : Port → Port) : (d.modPort p f).cores = d.cores := rfl
@[simp] theorem Dev.modPort_waiting (d : Dev) (p : Nat) (f : Port → Port) : (d.modPort p f).waiting = d.waiting := rfl
@[simp] theorem Dev.modPort_arbCls (d : Dev) (p : Nat) (f : Port → Port) : (d.modPort p f).arbCls = d.arbCls := rfl
@[simp] theorem Dev.modPort_crossing (d : Dev) (p : Nat) (f : Port → Port) : (d.modPort p f).crossing = d.crossing := rfl
@[simp] theorem Dev.modPort_paced (d : Dev) (p : Nat) (f : Port → Port) : (d.modPort p f).paced = d.paced := rfl
@[simp] theorem Dev.modPort_mcHeld (d : Dev) (p : Nat) (f : Port → Port) : (d.modPort p f).mcHeld = d.mcHeld := rfl
@[simp] theorem Dev.modPort_arbQuad (d : Dev) (p : Nat) (f : Port → Port) : (d.modPort p f).arbQuad = d.arbQuad := rfl
@[simp] theorem Dev.modPort_allowance (d : Dev) (p : Nat) (f : Port → Port) : (d.modPort p f).allowance = d.allowance := rfl
@[simp] theorem Dev.modPort_homes (d : Dev) (p : Nat) (f : Port → Port) : (d.modPort p f).homes = d.homes := rfl
@[simp] theorem Dev.modPort_l2 (d : Dev) (p : Nat) (f : Port → Port) : (d.modPort p f).l2 = d.l2 := rfl
@[simp] theorem Dev.modPort_groups (d : Dev) (p : Nat) (f : Port → Port) : (d.modPort p f).groups = d.groups := rfl
@[simp] theorem Dev.modPort_stepFences (d : Dev) (p : Nat) (f : Port → Port) : (d.modPort p f).stepFences = d.stepFences := rfl
@[simp] theorem Dev.modPort_backDebt (d : Dev) (p : Nat) (f : Port → Port) : (d.modPort p f).backDebt = d.backDebt := rfl
@[simp] theorem Dev.modPort_logs (d : Dev) (p : Nat) (f : Port → Port) : (d.modPort p f).logs = d.logs := rfl
@[simp] theorem Dev.modPort_health (d : Dev) (p : Nat) (f : Port → Port) : (d.modPort p f).health = d.health := rfl
@[simp] theorem Dev.modPort_power (d : Dev) (p : Nat) (f : Port → Port) : (d.modPort p f).power = d.power := rfl
@[simp] theorem Dev.modPort_mgmt (d : Dev) (p : Nat) (f : Port → Port) : (d.modPort p f).mgmt = d.mgmt := rfl
@[simp] theorem Dev.modPort_hostA (d : Dev) (p : Nat) (f : Port → Port) : (d.modPort p f).hostA = d.hostA := rfl
@[simp] theorem Dev.modPort_hostB (d : Dev) (p : Nat) (f : Port → Port) : (d.modPort p f).hostB = d.hostB := rfl
@[simp] theorem Dev.modPort_keys (d : Dev) (p : Nat) (f : Port → Port) : (d.modPort p f).keys = d.keys := rfl
@[simp] theorem Dev.modPort_sec (d : Dev) (p : Nat) (f : Port → Port) : (d.modPort p f).sec = d.sec := rfl
@[simp] theorem Dev.modPort_commit (d : Dev) (p : Nat) (f : Port → Port) : (d.modPort p f).commit = d.commit := rfl
@[simp] theorem Dev.modPort_meter (d : Dev) (p : Nat) (f : Port → Port) : (d.modPort p f).meter = d.meter := rfl
@[simp] theorem Dev.modPort_tiers (d : Dev) (p : Nat) (f : Port → Port) : (d.modPort p f).tiers = d.tiers := rfl
@[simp] theorem Dev.modPort_trans (d : Dev) (p : Nat) (f : Port → Port) : (d.modPort p f).trans = d.trans := rfl
@[simp] theorem Dev.modPort_coh (d : Dev) (p : Nat) (f : Port → Port) : (d.modPort p f).coh = d.coh := rfl
@[simp] theorem Dev.modPort_jobs (d : Dev) (p : Nat) (f : Port → Port) : (d.modPort p f).jobs = d.jobs := rfl
@[simp] theorem Dev.modPort_yar (d : Dev) (p : Nat) (f : Port → Port) : (d.modPort p f).yar = d.yar := rfl

/-! ### `modCore` -/

@[simp] theorem Dev.modCore_regs (d : Dev) (q : Nat) (f : Core → Core) : (d.modCore q f).regs = d.regs := rfl
@[simp] theorem Dev.modCore_copies (d : Dev) (q : Nat) (f : Core → Core) : (d.modCore q f).copies = d.copies := rfl
@[simp] theorem Dev.modCore_out (d : Dev) (q : Nat) (f : Core → Core) : (d.modCore q f).out = d.out := rfl
@[simp] theorem Dev.modCore_freeCtr (d : Dev) (q : Nat) (f : Core → Core) : (d.modCore q f).freeCtr = d.freeCtr := rfl
@[simp] theorem Dev.modCore_dom (d : Dev) (q : Nat) (f : Core → Core) : (d.modCore q f).dom = d.dom := rfl
@[simp] theorem Dev.modCore_ports (d : Dev) (q : Nat) (f : Core → Core) : (d.modCore q f).ports = d.ports := rfl
@[simp] theorem Dev.modCore_waiting (d : Dev) (q : Nat) (f : Core → Core) : (d.modCore q f).waiting = d.waiting := rfl
@[simp] theorem Dev.modCore_arbCls (d : Dev) (q : Nat) (f : Core → Core) : (d.modCore q f).arbCls = d.arbCls := rfl
@[simp] theorem Dev.modCore_crossing (d : Dev) (q : Nat) (f : Core → Core) : (d.modCore q f).crossing = d.crossing := rfl
@[simp] theorem Dev.modCore_paced (d : Dev) (q : Nat) (f : Core → Core) : (d.modCore q f).paced = d.paced := rfl
@[simp] theorem Dev.modCore_mcHeld (d : Dev) (q : Nat) (f : Core → Core) : (d.modCore q f).mcHeld = d.mcHeld := rfl
@[simp] theorem Dev.modCore_arbQuad (d : Dev) (q : Nat) (f : Core → Core) : (d.modCore q f).arbQuad = d.arbQuad := rfl
@[simp] theorem Dev.modCore_allowance (d : Dev) (q : Nat) (f : Core → Core) : (d.modCore q f).allowance = d.allowance := rfl
@[simp] theorem Dev.modCore_homes (d : Dev) (q : Nat) (f : Core → Core) : (d.modCore q f).homes = d.homes := rfl
@[simp] theorem Dev.modCore_l2 (d : Dev) (q : Nat) (f : Core → Core) : (d.modCore q f).l2 = d.l2 := rfl
@[simp] theorem Dev.modCore_groups (d : Dev) (q : Nat) (f : Core → Core) : (d.modCore q f).groups = d.groups := rfl
@[simp] theorem Dev.modCore_stepFences (d : Dev) (q : Nat) (f : Core → Core) : (d.modCore q f).stepFences = d.stepFences := rfl
@[simp] theorem Dev.modCore_backDebt (d : Dev) (q : Nat) (f : Core → Core) : (d.modCore q f).backDebt = d.backDebt := rfl
@[simp] theorem Dev.modCore_logs (d : Dev) (q : Nat) (f : Core → Core) : (d.modCore q f).logs = d.logs := rfl
@[simp] theorem Dev.modCore_health (d : Dev) (q : Nat) (f : Core → Core) : (d.modCore q f).health = d.health := rfl
@[simp] theorem Dev.modCore_power (d : Dev) (q : Nat) (f : Core → Core) : (d.modCore q f).power = d.power := rfl
@[simp] theorem Dev.modCore_mgmt (d : Dev) (q : Nat) (f : Core → Core) : (d.modCore q f).mgmt = d.mgmt := rfl
@[simp] theorem Dev.modCore_hostA (d : Dev) (q : Nat) (f : Core → Core) : (d.modCore q f).hostA = d.hostA := rfl
@[simp] theorem Dev.modCore_hostB (d : Dev) (q : Nat) (f : Core → Core) : (d.modCore q f).hostB = d.hostB := rfl
@[simp] theorem Dev.modCore_keys (d : Dev) (q : Nat) (f : Core → Core) : (d.modCore q f).keys = d.keys := rfl
@[simp] theorem Dev.modCore_sec (d : Dev) (q : Nat) (f : Core → Core) : (d.modCore q f).sec = d.sec := rfl
@[simp] theorem Dev.modCore_commit (d : Dev) (q : Nat) (f : Core → Core) : (d.modCore q f).commit = d.commit := rfl
@[simp] theorem Dev.modCore_meter (d : Dev) (q : Nat) (f : Core → Core) : (d.modCore q f).meter = d.meter := rfl
@[simp] theorem Dev.modCore_tiers (d : Dev) (q : Nat) (f : Core → Core) : (d.modCore q f).tiers = d.tiers := rfl
@[simp] theorem Dev.modCore_trans (d : Dev) (q : Nat) (f : Core → Core) : (d.modCore q f).trans = d.trans := rfl
@[simp] theorem Dev.modCore_coh (d : Dev) (q : Nat) (f : Core → Core) : (d.modCore q f).coh = d.coh := rfl
@[simp] theorem Dev.modCore_jobs (d : Dev) (q : Nat) (f : Core → Core) : (d.modCore q f).jobs = d.jobs := rfl
@[simp] theorem Dev.modCore_yar (d : Dev) (q : Nat) (f : Core → Core) : (d.modCore q f).yar = d.yar := rfl

/-! ### `modHome` -/

@[simp] theorem Dev.modHome_regs (d : Dev) (q : Nat) (f : Home → Home) : (d.modHome q f).regs = d.regs := rfl
@[simp] theorem Dev.modHome_copies (d : Dev) (q : Nat) (f : Home → Home) : (d.modHome q f).copies = d.copies := rfl
@[simp] theorem Dev.modHome_out (d : Dev) (q : Nat) (f : Home → Home) : (d.modHome q f).out = d.out := rfl
@[simp] theorem Dev.modHome_freeCtr (d : Dev) (q : Nat) (f : Home → Home) : (d.modHome q f).freeCtr = d.freeCtr := rfl
@[simp] theorem Dev.modHome_dom (d : Dev) (q : Nat) (f : Home → Home) : (d.modHome q f).dom = d.dom := rfl
@[simp] theorem Dev.modHome_ports (d : Dev) (q : Nat) (f : Home → Home) : (d.modHome q f).ports = d.ports := rfl
@[simp] theorem Dev.modHome_cores (d : Dev) (q : Nat) (f : Home → Home) : (d.modHome q f).cores = d.cores := rfl
@[simp] theorem Dev.modHome_waiting (d : Dev) (q : Nat) (f : Home → Home) : (d.modHome q f).waiting = d.waiting := rfl
@[simp] theorem Dev.modHome_arbCls (d : Dev) (q : Nat) (f : Home → Home) : (d.modHome q f).arbCls = d.arbCls := rfl
@[simp] theorem Dev.modHome_crossing (d : Dev) (q : Nat) (f : Home → Home) : (d.modHome q f).crossing = d.crossing := rfl
@[simp] theorem Dev.modHome_paced (d : Dev) (q : Nat) (f : Home → Home) : (d.modHome q f).paced = d.paced := rfl
@[simp] theorem Dev.modHome_mcHeld (d : Dev) (q : Nat) (f : Home → Home) : (d.modHome q f).mcHeld = d.mcHeld := rfl
@[simp] theorem Dev.modHome_arbQuad (d : Dev) (q : Nat) (f : Home → Home) : (d.modHome q f).arbQuad = d.arbQuad := rfl
@[simp] theorem Dev.modHome_allowance (d : Dev) (q : Nat) (f : Home → Home) : (d.modHome q f).allowance = d.allowance := rfl
@[simp] theorem Dev.modHome_l2 (d : Dev) (q : Nat) (f : Home → Home) : (d.modHome q f).l2 = d.l2 := rfl
@[simp] theorem Dev.modHome_groups (d : Dev) (q : Nat) (f : Home → Home) : (d.modHome q f).groups = d.groups := rfl
@[simp] theorem Dev.modHome_stepFences (d : Dev) (q : Nat) (f : Home → Home) : (d.modHome q f).stepFences = d.stepFences := rfl
@[simp] theorem Dev.modHome_backDebt (d : Dev) (q : Nat) (f : Home → Home) : (d.modHome q f).backDebt = d.backDebt := rfl
@[simp] theorem Dev.modHome_logs (d : Dev) (q : Nat) (f : Home → Home) : (d.modHome q f).logs = d.logs := rfl
@[simp] theorem Dev.modHome_health (d : Dev) (q : Nat) (f : Home → Home) : (d.modHome q f).health = d.health := rfl
@[simp] theorem Dev.modHome_power (d : Dev) (q : Nat) (f : Home → Home) : (d.modHome q f).power = d.power := rfl
@[simp] theorem Dev.modHome_mgmt (d : Dev) (q : Nat) (f : Home → Home) : (d.modHome q f).mgmt = d.mgmt := rfl
@[simp] theorem Dev.modHome_hostA (d : Dev) (q : Nat) (f : Home → Home) : (d.modHome q f).hostA = d.hostA := rfl
@[simp] theorem Dev.modHome_hostB (d : Dev) (q : Nat) (f : Home → Home) : (d.modHome q f).hostB = d.hostB := rfl
@[simp] theorem Dev.modHome_keys (d : Dev) (q : Nat) (f : Home → Home) : (d.modHome q f).keys = d.keys := rfl
@[simp] theorem Dev.modHome_sec (d : Dev) (q : Nat) (f : Home → Home) : (d.modHome q f).sec = d.sec := rfl
@[simp] theorem Dev.modHome_commit (d : Dev) (q : Nat) (f : Home → Home) : (d.modHome q f).commit = d.commit := rfl
@[simp] theorem Dev.modHome_meter (d : Dev) (q : Nat) (f : Home → Home) : (d.modHome q f).meter = d.meter := rfl
@[simp] theorem Dev.modHome_tiers (d : Dev) (q : Nat) (f : Home → Home) : (d.modHome q f).tiers = d.tiers := rfl
@[simp] theorem Dev.modHome_trans (d : Dev) (q : Nat) (f : Home → Home) : (d.modHome q f).trans = d.trans := rfl
@[simp] theorem Dev.modHome_coh (d : Dev) (q : Nat) (f : Home → Home) : (d.modHome q f).coh = d.coh := rfl
@[simp] theorem Dev.modHome_jobs (d : Dev) (q : Nat) (f : Home → Home) : (d.modHome q f).jobs = d.jobs := rfl
@[simp] theorem Dev.modHome_yar (d : Dev) (q : Nat) (f : Home → Home) : (d.modHome q f).yar = d.yar := rfl

/-! ### `modGroup` -/

@[simp] theorem Dev.modGroup_regs (d : Dev) (g : Nat) (f : GroupRt → GroupRt) : (d.modGroup g f).regs = d.regs := rfl
@[simp] theorem Dev.modGroup_copies (d : Dev) (g : Nat) (f : GroupRt → GroupRt) : (d.modGroup g f).copies = d.copies := rfl
@[simp] theorem Dev.modGroup_out (d : Dev) (g : Nat) (f : GroupRt → GroupRt) : (d.modGroup g f).out = d.out := rfl
@[simp] theorem Dev.modGroup_freeCtr (d : Dev) (g : Nat) (f : GroupRt → GroupRt) : (d.modGroup g f).freeCtr = d.freeCtr := rfl
@[simp] theorem Dev.modGroup_dom (d : Dev) (g : Nat) (f : GroupRt → GroupRt) : (d.modGroup g f).dom = d.dom := rfl
@[simp] theorem Dev.modGroup_ports (d : Dev) (g : Nat) (f : GroupRt → GroupRt) : (d.modGroup g f).ports = d.ports := rfl
@[simp] theorem Dev.modGroup_cores (d : Dev) (g : Nat) (f : GroupRt → GroupRt) : (d.modGroup g f).cores = d.cores := rfl
@[simp] theorem Dev.modGroup_waiting (d : Dev) (g : Nat) (f : GroupRt → GroupRt) : (d.modGroup g f).waiting = d.waiting := rfl
@[simp] theorem Dev.modGroup_arbCls (d : Dev) (g : Nat) (f : GroupRt → GroupRt) : (d.modGroup g f).arbCls = d.arbCls := rfl
@[simp] theorem Dev.modGroup_crossing (d : Dev) (g : Nat) (f : GroupRt → GroupRt) : (d.modGroup g f).crossing = d.crossing := rfl
@[simp] theorem Dev.modGroup_paced (d : Dev) (g : Nat) (f : GroupRt → GroupRt) : (d.modGroup g f).paced = d.paced := rfl
@[simp] theorem Dev.modGroup_mcHeld (d : Dev) (g : Nat) (f : GroupRt → GroupRt) : (d.modGroup g f).mcHeld = d.mcHeld := rfl
@[simp] theorem Dev.modGroup_arbQuad (d : Dev) (g : Nat) (f : GroupRt → GroupRt) : (d.modGroup g f).arbQuad = d.arbQuad := rfl
@[simp] theorem Dev.modGroup_allowance (d : Dev) (g : Nat) (f : GroupRt → GroupRt) : (d.modGroup g f).allowance = d.allowance := rfl
@[simp] theorem Dev.modGroup_homes (d : Dev) (g : Nat) (f : GroupRt → GroupRt) : (d.modGroup g f).homes = d.homes := rfl
@[simp] theorem Dev.modGroup_l2 (d : Dev) (g : Nat) (f : GroupRt → GroupRt) : (d.modGroup g f).l2 = d.l2 := rfl
@[simp] theorem Dev.modGroup_stepFences (d : Dev) (g : Nat) (f : GroupRt → GroupRt) : (d.modGroup g f).stepFences = d.stepFences := rfl
@[simp] theorem Dev.modGroup_backDebt (d : Dev) (g : Nat) (f : GroupRt → GroupRt) : (d.modGroup g f).backDebt = d.backDebt := rfl
@[simp] theorem Dev.modGroup_logs (d : Dev) (g : Nat) (f : GroupRt → GroupRt) : (d.modGroup g f).logs = d.logs := rfl
@[simp] theorem Dev.modGroup_health (d : Dev) (g : Nat) (f : GroupRt → GroupRt) : (d.modGroup g f).health = d.health := rfl
@[simp] theorem Dev.modGroup_power (d : Dev) (g : Nat) (f : GroupRt → GroupRt) : (d.modGroup g f).power = d.power := rfl
@[simp] theorem Dev.modGroup_mgmt (d : Dev) (g : Nat) (f : GroupRt → GroupRt) : (d.modGroup g f).mgmt = d.mgmt := rfl
@[simp] theorem Dev.modGroup_hostA (d : Dev) (g : Nat) (f : GroupRt → GroupRt) : (d.modGroup g f).hostA = d.hostA := rfl
@[simp] theorem Dev.modGroup_hostB (d : Dev) (g : Nat) (f : GroupRt → GroupRt) : (d.modGroup g f).hostB = d.hostB := rfl
@[simp] theorem Dev.modGroup_keys (d : Dev) (g : Nat) (f : GroupRt → GroupRt) : (d.modGroup g f).keys = d.keys := rfl
@[simp] theorem Dev.modGroup_sec (d : Dev) (g : Nat) (f : GroupRt → GroupRt) : (d.modGroup g f).sec = d.sec := rfl
@[simp] theorem Dev.modGroup_commit (d : Dev) (g : Nat) (f : GroupRt → GroupRt) : (d.modGroup g f).commit = d.commit := rfl
@[simp] theorem Dev.modGroup_meter (d : Dev) (g : Nat) (f : GroupRt → GroupRt) : (d.modGroup g f).meter = d.meter := rfl
@[simp] theorem Dev.modGroup_tiers (d : Dev) (g : Nat) (f : GroupRt → GroupRt) : (d.modGroup g f).tiers = d.tiers := rfl
@[simp] theorem Dev.modGroup_trans (d : Dev) (g : Nat) (f : GroupRt → GroupRt) : (d.modGroup g f).trans = d.trans := rfl
@[simp] theorem Dev.modGroup_coh (d : Dev) (g : Nat) (f : GroupRt → GroupRt) : (d.modGroup g f).coh = d.coh := rfl
@[simp] theorem Dev.modGroup_jobs (d : Dev) (g : Nat) (f : GroupRt → GroupRt) : (d.modGroup g f).jobs = d.jobs := rfl
@[simp] theorem Dev.modGroup_yar (d : Dev) (g : Nat) (f : GroupRt → GroupRt) : (d.modGroup g f).yar = d.yar := rfl

/-! ### `modDom` -/

@[simp] theorem Dev.modDom_regs (d : Dev) (f : DomState → DomState) : (d.modDom f).regs = d.regs := rfl
@[simp] theorem Dev.modDom_copies (d : Dev) (f : DomState → DomState) : (d.modDom f).copies = d.copies := rfl
@[simp] theorem Dev.modDom_out (d : Dev) (f : DomState → DomState) : (d.modDom f).out = d.out := rfl
@[simp] theorem Dev.modDom_freeCtr (d : Dev) (f : DomState → DomState) : (d.modDom f).freeCtr = d.freeCtr := rfl
@[simp] theorem Dev.modDom_ports (d : Dev) (f : DomState → DomState) : (d.modDom f).ports = d.ports := rfl
@[simp] theorem Dev.modDom_cores (d : Dev) (f : DomState → DomState) : (d.modDom f).cores = d.cores := rfl
@[simp] theorem Dev.modDom_waiting (d : Dev) (f : DomState → DomState) : (d.modDom f).waiting = d.waiting := rfl
@[simp] theorem Dev.modDom_arbCls (d : Dev) (f : DomState → DomState) : (d.modDom f).arbCls = d.arbCls := rfl
@[simp] theorem Dev.modDom_crossing (d : Dev) (f : DomState → DomState) : (d.modDom f).crossing = d.crossing := rfl
@[simp] theorem Dev.modDom_paced (d : Dev) (f : DomState → DomState) : (d.modDom f).paced = d.paced := rfl
@[simp] theorem Dev.modDom_mcHeld (d : Dev) (f : DomState → DomState) : (d.modDom f).mcHeld = d.mcHeld := rfl
@[simp] theorem Dev.modDom_arbQuad (d : Dev) (f : DomState → DomState) : (d.modDom f).arbQuad = d.arbQuad := rfl
@[simp] theorem Dev.modDom_allowance (d : Dev) (f : DomState → DomState) : (d.modDom f).allowance = d.allowance := rfl
@[simp] theorem Dev.modDom_homes (d : Dev) (f : DomState → DomState) : (d.modDom f).homes = d.homes := rfl
@[simp] theorem Dev.modDom_l2 (d : Dev) (f : DomState → DomState) : (d.modDom f).l2 = d.l2 := rfl
@[simp] theorem Dev.modDom_groups (d : Dev) (f : DomState → DomState) : (d.modDom f).groups = d.groups := rfl
@[simp] theorem Dev.modDom_stepFences (d : Dev) (f : DomState → DomState) : (d.modDom f).stepFences = d.stepFences := rfl
@[simp] theorem Dev.modDom_backDebt (d : Dev) (f : DomState → DomState) : (d.modDom f).backDebt = d.backDebt := rfl
@[simp] theorem Dev.modDom_logs (d : Dev) (f : DomState → DomState) : (d.modDom f).logs = d.logs := rfl
@[simp] theorem Dev.modDom_health (d : Dev) (f : DomState → DomState) : (d.modDom f).health = d.health := rfl
@[simp] theorem Dev.modDom_power (d : Dev) (f : DomState → DomState) : (d.modDom f).power = d.power := rfl
@[simp] theorem Dev.modDom_mgmt (d : Dev) (f : DomState → DomState) : (d.modDom f).mgmt = d.mgmt := rfl
@[simp] theorem Dev.modDom_hostA (d : Dev) (f : DomState → DomState) : (d.modDom f).hostA = d.hostA := rfl
@[simp] theorem Dev.modDom_hostB (d : Dev) (f : DomState → DomState) : (d.modDom f).hostB = d.hostB := rfl
@[simp] theorem Dev.modDom_keys (d : Dev) (f : DomState → DomState) : (d.modDom f).keys = d.keys := rfl
@[simp] theorem Dev.modDom_sec (d : Dev) (f : DomState → DomState) : (d.modDom f).sec = d.sec := rfl
@[simp] theorem Dev.modDom_commit (d : Dev) (f : DomState → DomState) : (d.modDom f).commit = d.commit := rfl
@[simp] theorem Dev.modDom_meter (d : Dev) (f : DomState → DomState) : (d.modDom f).meter = d.meter := rfl
@[simp] theorem Dev.modDom_tiers (d : Dev) (f : DomState → DomState) : (d.modDom f).tiers = d.tiers := rfl
@[simp] theorem Dev.modDom_trans (d : Dev) (f : DomState → DomState) : (d.modDom f).trans = d.trans := rfl
@[simp] theorem Dev.modDom_coh (d : Dev) (f : DomState → DomState) : (d.modDom f).coh = d.coh := rfl
@[simp] theorem Dev.modDom_jobs (d : Dev) (f : DomState → DomState) : (d.modDom f).jobs = d.jobs := rfl
@[simp] theorem Dev.modDom_yar (d : Dev) (f : DomState → DomState) : (d.modDom f).yar = d.yar := rfl

/-! ### `modHealth` -/

@[simp] theorem Dev.modHealth_regs (d : Dev) (f : HealthState → HealthState) : (d.modHealth f).regs = d.regs := rfl
@[simp] theorem Dev.modHealth_copies (d : Dev) (f : HealthState → HealthState) : (d.modHealth f).copies = d.copies := rfl
@[simp] theorem Dev.modHealth_out (d : Dev) (f : HealthState → HealthState) : (d.modHealth f).out = d.out := rfl
@[simp] theorem Dev.modHealth_freeCtr (d : Dev) (f : HealthState → HealthState) : (d.modHealth f).freeCtr = d.freeCtr := rfl
@[simp] theorem Dev.modHealth_dom (d : Dev) (f : HealthState → HealthState) : (d.modHealth f).dom = d.dom := rfl
@[simp] theorem Dev.modHealth_ports (d : Dev) (f : HealthState → HealthState) : (d.modHealth f).ports = d.ports := rfl
@[simp] theorem Dev.modHealth_cores (d : Dev) (f : HealthState → HealthState) : (d.modHealth f).cores = d.cores := rfl
@[simp] theorem Dev.modHealth_waiting (d : Dev) (f : HealthState → HealthState) : (d.modHealth f).waiting = d.waiting := rfl
@[simp] theorem Dev.modHealth_arbCls (d : Dev) (f : HealthState → HealthState) : (d.modHealth f).arbCls = d.arbCls := rfl
@[simp] theorem Dev.modHealth_crossing (d : Dev) (f : HealthState → HealthState) : (d.modHealth f).crossing = d.crossing := rfl
@[simp] theorem Dev.modHealth_paced (d : Dev) (f : HealthState → HealthState) : (d.modHealth f).paced = d.paced := rfl
@[simp] theorem Dev.modHealth_mcHeld (d : Dev) (f : HealthState → HealthState) : (d.modHealth f).mcHeld = d.mcHeld := rfl
@[simp] theorem Dev.modHealth_arbQuad (d : Dev) (f : HealthState → HealthState) : (d.modHealth f).arbQuad = d.arbQuad := rfl
@[simp] theorem Dev.modHealth_allowance (d : Dev) (f : HealthState → HealthState) : (d.modHealth f).allowance = d.allowance := rfl
@[simp] theorem Dev.modHealth_homes (d : Dev) (f : HealthState → HealthState) : (d.modHealth f).homes = d.homes := rfl
@[simp] theorem Dev.modHealth_l2 (d : Dev) (f : HealthState → HealthState) : (d.modHealth f).l2 = d.l2 := rfl
@[simp] theorem Dev.modHealth_groups (d : Dev) (f : HealthState → HealthState) : (d.modHealth f).groups = d.groups := rfl
@[simp] theorem Dev.modHealth_stepFences (d : Dev) (f : HealthState → HealthState) : (d.modHealth f).stepFences = d.stepFences := rfl
@[simp] theorem Dev.modHealth_backDebt (d : Dev) (f : HealthState → HealthState) : (d.modHealth f).backDebt = d.backDebt := rfl
@[simp] theorem Dev.modHealth_logs (d : Dev) (f : HealthState → HealthState) : (d.modHealth f).logs = d.logs := rfl
@[simp] theorem Dev.modHealth_power (d : Dev) (f : HealthState → HealthState) : (d.modHealth f).power = d.power := rfl
@[simp] theorem Dev.modHealth_mgmt (d : Dev) (f : HealthState → HealthState) : (d.modHealth f).mgmt = d.mgmt := rfl
@[simp] theorem Dev.modHealth_hostA (d : Dev) (f : HealthState → HealthState) : (d.modHealth f).hostA = d.hostA := rfl
@[simp] theorem Dev.modHealth_hostB (d : Dev) (f : HealthState → HealthState) : (d.modHealth f).hostB = d.hostB := rfl
@[simp] theorem Dev.modHealth_keys (d : Dev) (f : HealthState → HealthState) : (d.modHealth f).keys = d.keys := rfl
@[simp] theorem Dev.modHealth_sec (d : Dev) (f : HealthState → HealthState) : (d.modHealth f).sec = d.sec := rfl
@[simp] theorem Dev.modHealth_commit (d : Dev) (f : HealthState → HealthState) : (d.modHealth f).commit = d.commit := rfl
@[simp] theorem Dev.modHealth_meter (d : Dev) (f : HealthState → HealthState) : (d.modHealth f).meter = d.meter := rfl
@[simp] theorem Dev.modHealth_tiers (d : Dev) (f : HealthState → HealthState) : (d.modHealth f).tiers = d.tiers := rfl
@[simp] theorem Dev.modHealth_trans (d : Dev) (f : HealthState → HealthState) : (d.modHealth f).trans = d.trans := rfl
@[simp] theorem Dev.modHealth_coh (d : Dev) (f : HealthState → HealthState) : (d.modHealth f).coh = d.coh := rfl
@[simp] theorem Dev.modHealth_jobs (d : Dev) (f : HealthState → HealthState) : (d.modHealth f).jobs = d.jobs := rfl
@[simp] theorem Dev.modHealth_yar (d : Dev) (f : HealthState → HealthState) : (d.modHealth f).yar = d.yar := rfl

/-! ### `setPower` -/

@[simp] theorem Dev.setPower_regs (d : Dev) (p : PowerState) : (d.setPower p).regs = d.regs := rfl
@[simp] theorem Dev.setPower_copies (d : Dev) (p : PowerState) : (d.setPower p).copies = d.copies := rfl
@[simp] theorem Dev.setPower_out (d : Dev) (p : PowerState) : (d.setPower p).out = d.out := rfl
@[simp] theorem Dev.setPower_freeCtr (d : Dev) (p : PowerState) : (d.setPower p).freeCtr = d.freeCtr := rfl
@[simp] theorem Dev.setPower_dom (d : Dev) (p : PowerState) : (d.setPower p).dom = d.dom := rfl
@[simp] theorem Dev.setPower_ports (d : Dev) (p : PowerState) : (d.setPower p).ports = d.ports := rfl
@[simp] theorem Dev.setPower_cores (d : Dev) (p : PowerState) : (d.setPower p).cores = d.cores := rfl
@[simp] theorem Dev.setPower_waiting (d : Dev) (p : PowerState) : (d.setPower p).waiting = d.waiting := rfl
@[simp] theorem Dev.setPower_arbCls (d : Dev) (p : PowerState) : (d.setPower p).arbCls = d.arbCls := rfl
@[simp] theorem Dev.setPower_crossing (d : Dev) (p : PowerState) : (d.setPower p).crossing = d.crossing := rfl
@[simp] theorem Dev.setPower_paced (d : Dev) (p : PowerState) : (d.setPower p).paced = d.paced := rfl
@[simp] theorem Dev.setPower_mcHeld (d : Dev) (p : PowerState) : (d.setPower p).mcHeld = d.mcHeld := rfl
@[simp] theorem Dev.setPower_arbQuad (d : Dev) (p : PowerState) : (d.setPower p).arbQuad = d.arbQuad := rfl
@[simp] theorem Dev.setPower_allowance (d : Dev) (p : PowerState) : (d.setPower p).allowance = d.allowance := rfl
@[simp] theorem Dev.setPower_homes (d : Dev) (p : PowerState) : (d.setPower p).homes = d.homes := rfl
@[simp] theorem Dev.setPower_l2 (d : Dev) (p : PowerState) : (d.setPower p).l2 = d.l2 := rfl
@[simp] theorem Dev.setPower_groups (d : Dev) (p : PowerState) : (d.setPower p).groups = d.groups := rfl
@[simp] theorem Dev.setPower_stepFences (d : Dev) (p : PowerState) : (d.setPower p).stepFences = d.stepFences := rfl
@[simp] theorem Dev.setPower_backDebt (d : Dev) (p : PowerState) : (d.setPower p).backDebt = d.backDebt := rfl
@[simp] theorem Dev.setPower_logs (d : Dev) (p : PowerState) : (d.setPower p).logs = d.logs := rfl
@[simp] theorem Dev.setPower_health (d : Dev) (p : PowerState) : (d.setPower p).health = d.health := rfl
@[simp] theorem Dev.setPower_mgmt (d : Dev) (p : PowerState) : (d.setPower p).mgmt = d.mgmt := rfl
@[simp] theorem Dev.setPower_hostA (d : Dev) (p : PowerState) : (d.setPower p).hostA = d.hostA := rfl
@[simp] theorem Dev.setPower_hostB (d : Dev) (p : PowerState) : (d.setPower p).hostB = d.hostB := rfl
@[simp] theorem Dev.setPower_keys (d : Dev) (p : PowerState) : (d.setPower p).keys = d.keys := rfl
@[simp] theorem Dev.setPower_sec (d : Dev) (p : PowerState) : (d.setPower p).sec = d.sec := rfl
@[simp] theorem Dev.setPower_commit (d : Dev) (p : PowerState) : (d.setPower p).commit = d.commit := rfl
@[simp] theorem Dev.setPower_meter (d : Dev) (p : PowerState) : (d.setPower p).meter = d.meter := rfl
@[simp] theorem Dev.setPower_tiers (d : Dev) (p : PowerState) : (d.setPower p).tiers = d.tiers := rfl
@[simp] theorem Dev.setPower_trans (d : Dev) (p : PowerState) : (d.setPower p).trans = d.trans := rfl
@[simp] theorem Dev.setPower_coh (d : Dev) (p : PowerState) : (d.setPower p).coh = d.coh := rfl
@[simp] theorem Dev.setPower_jobs (d : Dev) (p : PowerState) : (d.setPower p).jobs = d.jobs := rfl
@[simp] theorem Dev.setPower_yar (d : Dev) (p : PowerState) : (d.setPower p).yar = d.yar := rfl

/-! ### `modPower` -/

@[simp] theorem Dev.modPower_regs (d : Dev) (f : PowerState → PowerState) : (d.modPower f).regs = d.regs := rfl
@[simp] theorem Dev.modPower_copies (d : Dev) (f : PowerState → PowerState) : (d.modPower f).copies = d.copies := rfl
@[simp] theorem Dev.modPower_out (d : Dev) (f : PowerState → PowerState) : (d.modPower f).out = d.out := rfl
@[simp] theorem Dev.modPower_freeCtr (d : Dev) (f : PowerState → PowerState) : (d.modPower f).freeCtr = d.freeCtr := rfl
@[simp] theorem Dev.modPower_dom (d : Dev) (f : PowerState → PowerState) : (d.modPower f).dom = d.dom := rfl
@[simp] theorem Dev.modPower_ports (d : Dev) (f : PowerState → PowerState) : (d.modPower f).ports = d.ports := rfl
@[simp] theorem Dev.modPower_cores (d : Dev) (f : PowerState → PowerState) : (d.modPower f).cores = d.cores := rfl
@[simp] theorem Dev.modPower_waiting (d : Dev) (f : PowerState → PowerState) : (d.modPower f).waiting = d.waiting := rfl
@[simp] theorem Dev.modPower_arbCls (d : Dev) (f : PowerState → PowerState) : (d.modPower f).arbCls = d.arbCls := rfl
@[simp] theorem Dev.modPower_crossing (d : Dev) (f : PowerState → PowerState) : (d.modPower f).crossing = d.crossing := rfl
@[simp] theorem Dev.modPower_paced (d : Dev) (f : PowerState → PowerState) : (d.modPower f).paced = d.paced := rfl
@[simp] theorem Dev.modPower_mcHeld (d : Dev) (f : PowerState → PowerState) : (d.modPower f).mcHeld = d.mcHeld := rfl
@[simp] theorem Dev.modPower_arbQuad (d : Dev) (f : PowerState → PowerState) : (d.modPower f).arbQuad = d.arbQuad := rfl
@[simp] theorem Dev.modPower_allowance (d : Dev) (f : PowerState → PowerState) : (d.modPower f).allowance = d.allowance := rfl
@[simp] theorem Dev.modPower_homes (d : Dev) (f : PowerState → PowerState) : (d.modPower f).homes = d.homes := rfl
@[simp] theorem Dev.modPower_l2 (d : Dev) (f : PowerState → PowerState) : (d.modPower f).l2 = d.l2 := rfl
@[simp] theorem Dev.modPower_groups (d : Dev) (f : PowerState → PowerState) : (d.modPower f).groups = d.groups := rfl
@[simp] theorem Dev.modPower_stepFences (d : Dev) (f : PowerState → PowerState) : (d.modPower f).stepFences = d.stepFences := rfl
@[simp] theorem Dev.modPower_backDebt (d : Dev) (f : PowerState → PowerState) : (d.modPower f).backDebt = d.backDebt := rfl
@[simp] theorem Dev.modPower_logs (d : Dev) (f : PowerState → PowerState) : (d.modPower f).logs = d.logs := rfl
@[simp] theorem Dev.modPower_health (d : Dev) (f : PowerState → PowerState) : (d.modPower f).health = d.health := rfl
@[simp] theorem Dev.modPower_mgmt (d : Dev) (f : PowerState → PowerState) : (d.modPower f).mgmt = d.mgmt := rfl
@[simp] theorem Dev.modPower_hostA (d : Dev) (f : PowerState → PowerState) : (d.modPower f).hostA = d.hostA := rfl
@[simp] theorem Dev.modPower_hostB (d : Dev) (f : PowerState → PowerState) : (d.modPower f).hostB = d.hostB := rfl
@[simp] theorem Dev.modPower_keys (d : Dev) (f : PowerState → PowerState) : (d.modPower f).keys = d.keys := rfl
@[simp] theorem Dev.modPower_sec (d : Dev) (f : PowerState → PowerState) : (d.modPower f).sec = d.sec := rfl
@[simp] theorem Dev.modPower_commit (d : Dev) (f : PowerState → PowerState) : (d.modPower f).commit = d.commit := rfl
@[simp] theorem Dev.modPower_meter (d : Dev) (f : PowerState → PowerState) : (d.modPower f).meter = d.meter := rfl
@[simp] theorem Dev.modPower_tiers (d : Dev) (f : PowerState → PowerState) : (d.modPower f).tiers = d.tiers := rfl
@[simp] theorem Dev.modPower_trans (d : Dev) (f : PowerState → PowerState) : (d.modPower f).trans = d.trans := rfl
@[simp] theorem Dev.modPower_coh (d : Dev) (f : PowerState → PowerState) : (d.modPower f).coh = d.coh := rfl
@[simp] theorem Dev.modPower_jobs (d : Dev) (f : PowerState → PowerState) : (d.modPower f).jobs = d.jobs := rfl
@[simp] theorem Dev.modPower_yar (d : Dev) (f : PowerState → PowerState) : (d.modPower f).yar = d.yar := rfl

/-! ### `modCoh` -/

@[simp] theorem Dev.modCoh_regs (d : Dev) (f : Coh → Coh) : (d.modCoh f).regs = d.regs := rfl
@[simp] theorem Dev.modCoh_copies (d : Dev) (f : Coh → Coh) : (d.modCoh f).copies = d.copies := rfl
@[simp] theorem Dev.modCoh_out (d : Dev) (f : Coh → Coh) : (d.modCoh f).out = d.out := rfl
@[simp] theorem Dev.modCoh_freeCtr (d : Dev) (f : Coh → Coh) : (d.modCoh f).freeCtr = d.freeCtr := rfl
@[simp] theorem Dev.modCoh_dom (d : Dev) (f : Coh → Coh) : (d.modCoh f).dom = d.dom := rfl
@[simp] theorem Dev.modCoh_ports (d : Dev) (f : Coh → Coh) : (d.modCoh f).ports = d.ports := rfl
@[simp] theorem Dev.modCoh_cores (d : Dev) (f : Coh → Coh) : (d.modCoh f).cores = d.cores := rfl
@[simp] theorem Dev.modCoh_waiting (d : Dev) (f : Coh → Coh) : (d.modCoh f).waiting = d.waiting := rfl
@[simp] theorem Dev.modCoh_arbCls (d : Dev) (f : Coh → Coh) : (d.modCoh f).arbCls = d.arbCls := rfl
@[simp] theorem Dev.modCoh_crossing (d : Dev) (f : Coh → Coh) : (d.modCoh f).crossing = d.crossing := rfl
@[simp] theorem Dev.modCoh_paced (d : Dev) (f : Coh → Coh) : (d.modCoh f).paced = d.paced := rfl
@[simp] theorem Dev.modCoh_mcHeld (d : Dev) (f : Coh → Coh) : (d.modCoh f).mcHeld = d.mcHeld := rfl
@[simp] theorem Dev.modCoh_arbQuad (d : Dev) (f : Coh → Coh) : (d.modCoh f).arbQuad = d.arbQuad := rfl
@[simp] theorem Dev.modCoh_allowance (d : Dev) (f : Coh → Coh) : (d.modCoh f).allowance = d.allowance := rfl
@[simp] theorem Dev.modCoh_homes (d : Dev) (f : Coh → Coh) : (d.modCoh f).homes = d.homes := rfl
@[simp] theorem Dev.modCoh_l2 (d : Dev) (f : Coh → Coh) : (d.modCoh f).l2 = d.l2 := rfl
@[simp] theorem Dev.modCoh_groups (d : Dev) (f : Coh → Coh) : (d.modCoh f).groups = d.groups := rfl
@[simp] theorem Dev.modCoh_stepFences (d : Dev) (f : Coh → Coh) : (d.modCoh f).stepFences = d.stepFences := rfl
@[simp] theorem Dev.modCoh_backDebt (d : Dev) (f : Coh → Coh) : (d.modCoh f).backDebt = d.backDebt := rfl
@[simp] theorem Dev.modCoh_logs (d : Dev) (f : Coh → Coh) : (d.modCoh f).logs = d.logs := rfl
@[simp] theorem Dev.modCoh_health (d : Dev) (f : Coh → Coh) : (d.modCoh f).health = d.health := rfl
@[simp] theorem Dev.modCoh_power (d : Dev) (f : Coh → Coh) : (d.modCoh f).power = d.power := rfl
@[simp] theorem Dev.modCoh_mgmt (d : Dev) (f : Coh → Coh) : (d.modCoh f).mgmt = d.mgmt := rfl
@[simp] theorem Dev.modCoh_hostA (d : Dev) (f : Coh → Coh) : (d.modCoh f).hostA = d.hostA := rfl
@[simp] theorem Dev.modCoh_hostB (d : Dev) (f : Coh → Coh) : (d.modCoh f).hostB = d.hostB := rfl
@[simp] theorem Dev.modCoh_keys (d : Dev) (f : Coh → Coh) : (d.modCoh f).keys = d.keys := rfl
@[simp] theorem Dev.modCoh_sec (d : Dev) (f : Coh → Coh) : (d.modCoh f).sec = d.sec := rfl
@[simp] theorem Dev.modCoh_commit (d : Dev) (f : Coh → Coh) : (d.modCoh f).commit = d.commit := rfl
@[simp] theorem Dev.modCoh_meter (d : Dev) (f : Coh → Coh) : (d.modCoh f).meter = d.meter := rfl
@[simp] theorem Dev.modCoh_tiers (d : Dev) (f : Coh → Coh) : (d.modCoh f).tiers = d.tiers := rfl
@[simp] theorem Dev.modCoh_trans (d : Dev) (f : Coh → Coh) : (d.modCoh f).trans = d.trans := rfl
@[simp] theorem Dev.modCoh_jobs (d : Dev) (f : Coh → Coh) : (d.modCoh f).jobs = d.jobs := rfl
@[simp] theorem Dev.modCoh_yar (d : Dev) (f : Coh → Coh) : (d.modCoh f).yar = d.yar := rfl

/-! ### `modCommit` -/

@[simp] theorem Dev.modCommit_regs (d : Dev) (f : CommitState → CommitState) : (d.modCommit f).regs = d.regs := rfl
@[simp] theorem Dev.modCommit_copies (d : Dev) (f : CommitState → CommitState) : (d.modCommit f).copies = d.copies := rfl
@[simp] theorem Dev.modCommit_out (d : Dev) (f : CommitState → CommitState) : (d.modCommit f).out = d.out := rfl
@[simp] theorem Dev.modCommit_freeCtr (d : Dev) (f : CommitState → CommitState) : (d.modCommit f).freeCtr = d.freeCtr := rfl
@[simp] theorem Dev.modCommit_dom (d : Dev) (f : CommitState → CommitState) : (d.modCommit f).dom = d.dom := rfl
@[simp] theorem Dev.modCommit_ports (d : Dev) (f : CommitState → CommitState) : (d.modCommit f).ports = d.ports := rfl
@[simp] theorem Dev.modCommit_cores (d : Dev) (f : CommitState → CommitState) : (d.modCommit f).cores = d.cores := rfl
@[simp] theorem Dev.modCommit_waiting (d : Dev) (f : CommitState → CommitState) : (d.modCommit f).waiting = d.waiting := rfl
@[simp] theorem Dev.modCommit_arbCls (d : Dev) (f : CommitState → CommitState) : (d.modCommit f).arbCls = d.arbCls := rfl
@[simp] theorem Dev.modCommit_crossing (d : Dev) (f : CommitState → CommitState) : (d.modCommit f).crossing = d.crossing := rfl
@[simp] theorem Dev.modCommit_paced (d : Dev) (f : CommitState → CommitState) : (d.modCommit f).paced = d.paced := rfl
@[simp] theorem Dev.modCommit_mcHeld (d : Dev) (f : CommitState → CommitState) : (d.modCommit f).mcHeld = d.mcHeld := rfl
@[simp] theorem Dev.modCommit_arbQuad (d : Dev) (f : CommitState → CommitState) : (d.modCommit f).arbQuad = d.arbQuad := rfl
@[simp] theorem Dev.modCommit_allowance (d : Dev) (f : CommitState → CommitState) : (d.modCommit f).allowance = d.allowance := rfl
@[simp] theorem Dev.modCommit_homes (d : Dev) (f : CommitState → CommitState) : (d.modCommit f).homes = d.homes := rfl
@[simp] theorem Dev.modCommit_l2 (d : Dev) (f : CommitState → CommitState) : (d.modCommit f).l2 = d.l2 := rfl
@[simp] theorem Dev.modCommit_groups (d : Dev) (f : CommitState → CommitState) : (d.modCommit f).groups = d.groups := rfl
@[simp] theorem Dev.modCommit_stepFences (d : Dev) (f : CommitState → CommitState) : (d.modCommit f).stepFences = d.stepFences := rfl
@[simp] theorem Dev.modCommit_backDebt (d : Dev) (f : CommitState → CommitState) : (d.modCommit f).backDebt = d.backDebt := rfl
@[simp] theorem Dev.modCommit_logs (d : Dev) (f : CommitState → CommitState) : (d.modCommit f).logs = d.logs := rfl
@[simp] theorem Dev.modCommit_health (d : Dev) (f : CommitState → CommitState) : (d.modCommit f).health = d.health := rfl
@[simp] theorem Dev.modCommit_power (d : Dev) (f : CommitState → CommitState) : (d.modCommit f).power = d.power := rfl
@[simp] theorem Dev.modCommit_mgmt (d : Dev) (f : CommitState → CommitState) : (d.modCommit f).mgmt = d.mgmt := rfl
@[simp] theorem Dev.modCommit_hostA (d : Dev) (f : CommitState → CommitState) : (d.modCommit f).hostA = d.hostA := rfl
@[simp] theorem Dev.modCommit_hostB (d : Dev) (f : CommitState → CommitState) : (d.modCommit f).hostB = d.hostB := rfl
@[simp] theorem Dev.modCommit_keys (d : Dev) (f : CommitState → CommitState) : (d.modCommit f).keys = d.keys := rfl
@[simp] theorem Dev.modCommit_sec (d : Dev) (f : CommitState → CommitState) : (d.modCommit f).sec = d.sec := rfl
@[simp] theorem Dev.modCommit_meter (d : Dev) (f : CommitState → CommitState) : (d.modCommit f).meter = d.meter := rfl
@[simp] theorem Dev.modCommit_tiers (d : Dev) (f : CommitState → CommitState) : (d.modCommit f).tiers = d.tiers := rfl
@[simp] theorem Dev.modCommit_trans (d : Dev) (f : CommitState → CommitState) : (d.modCommit f).trans = d.trans := rfl
@[simp] theorem Dev.modCommit_coh (d : Dev) (f : CommitState → CommitState) : (d.modCommit f).coh = d.coh := rfl
@[simp] theorem Dev.modCommit_jobs (d : Dev) (f : CommitState → CommitState) : (d.modCommit f).jobs = d.jobs := rfl
@[simp] theorem Dev.modCommit_yar (d : Dev) (f : CommitState → CommitState) : (d.modCommit f).yar = d.yar := rfl

/-! ### `modLog` -/

@[simp] theorem Dev.modLog_regs (d : Dev) (l : Nat) (f : SrcLog → SrcLog) : (d.modLog l f).regs = d.regs := rfl
@[simp] theorem Dev.modLog_copies (d : Dev) (l : Nat) (f : SrcLog → SrcLog) : (d.modLog l f).copies = d.copies := rfl
@[simp] theorem Dev.modLog_out (d : Dev) (l : Nat) (f : SrcLog → SrcLog) : (d.modLog l f).out = d.out := rfl
@[simp] theorem Dev.modLog_freeCtr (d : Dev) (l : Nat) (f : SrcLog → SrcLog) : (d.modLog l f).freeCtr = d.freeCtr := rfl
@[simp] theorem Dev.modLog_dom (d : Dev) (l : Nat) (f : SrcLog → SrcLog) : (d.modLog l f).dom = d.dom := rfl
@[simp] theorem Dev.modLog_ports (d : Dev) (l : Nat) (f : SrcLog → SrcLog) : (d.modLog l f).ports = d.ports := rfl
@[simp] theorem Dev.modLog_cores (d : Dev) (l : Nat) (f : SrcLog → SrcLog) : (d.modLog l f).cores = d.cores := rfl
@[simp] theorem Dev.modLog_waiting (d : Dev) (l : Nat) (f : SrcLog → SrcLog) : (d.modLog l f).waiting = d.waiting := rfl
@[simp] theorem Dev.modLog_arbCls (d : Dev) (l : Nat) (f : SrcLog → SrcLog) : (d.modLog l f).arbCls = d.arbCls := rfl
@[simp] theorem Dev.modLog_crossing (d : Dev) (l : Nat) (f : SrcLog → SrcLog) : (d.modLog l f).crossing = d.crossing := rfl
@[simp] theorem Dev.modLog_paced (d : Dev) (l : Nat) (f : SrcLog → SrcLog) : (d.modLog l f).paced = d.paced := rfl
@[simp] theorem Dev.modLog_mcHeld (d : Dev) (l : Nat) (f : SrcLog → SrcLog) : (d.modLog l f).mcHeld = d.mcHeld := rfl
@[simp] theorem Dev.modLog_arbQuad (d : Dev) (l : Nat) (f : SrcLog → SrcLog) : (d.modLog l f).arbQuad = d.arbQuad := rfl
@[simp] theorem Dev.modLog_allowance (d : Dev) (l : Nat) (f : SrcLog → SrcLog) : (d.modLog l f).allowance = d.allowance := rfl
@[simp] theorem Dev.modLog_homes (d : Dev) (l : Nat) (f : SrcLog → SrcLog) : (d.modLog l f).homes = d.homes := rfl
@[simp] theorem Dev.modLog_l2 (d : Dev) (l : Nat) (f : SrcLog → SrcLog) : (d.modLog l f).l2 = d.l2 := rfl
@[simp] theorem Dev.modLog_groups (d : Dev) (l : Nat) (f : SrcLog → SrcLog) : (d.modLog l f).groups = d.groups := rfl
@[simp] theorem Dev.modLog_stepFences (d : Dev) (l : Nat) (f : SrcLog → SrcLog) : (d.modLog l f).stepFences = d.stepFences := rfl
@[simp] theorem Dev.modLog_backDebt (d : Dev) (l : Nat) (f : SrcLog → SrcLog) : (d.modLog l f).backDebt = d.backDebt := rfl
@[simp] theorem Dev.modLog_health (d : Dev) (l : Nat) (f : SrcLog → SrcLog) : (d.modLog l f).health = d.health := rfl
@[simp] theorem Dev.modLog_power (d : Dev) (l : Nat) (f : SrcLog → SrcLog) : (d.modLog l f).power = d.power := rfl
@[simp] theorem Dev.modLog_mgmt (d : Dev) (l : Nat) (f : SrcLog → SrcLog) : (d.modLog l f).mgmt = d.mgmt := rfl
@[simp] theorem Dev.modLog_hostA (d : Dev) (l : Nat) (f : SrcLog → SrcLog) : (d.modLog l f).hostA = d.hostA := rfl
@[simp] theorem Dev.modLog_hostB (d : Dev) (l : Nat) (f : SrcLog → SrcLog) : (d.modLog l f).hostB = d.hostB := rfl
@[simp] theorem Dev.modLog_keys (d : Dev) (l : Nat) (f : SrcLog → SrcLog) : (d.modLog l f).keys = d.keys := rfl
@[simp] theorem Dev.modLog_sec (d : Dev) (l : Nat) (f : SrcLog → SrcLog) : (d.modLog l f).sec = d.sec := rfl
@[simp] theorem Dev.modLog_commit (d : Dev) (l : Nat) (f : SrcLog → SrcLog) : (d.modLog l f).commit = d.commit := rfl
@[simp] theorem Dev.modLog_meter (d : Dev) (l : Nat) (f : SrcLog → SrcLog) : (d.modLog l f).meter = d.meter := rfl
@[simp] theorem Dev.modLog_tiers (d : Dev) (l : Nat) (f : SrcLog → SrcLog) : (d.modLog l f).tiers = d.tiers := rfl
@[simp] theorem Dev.modLog_trans (d : Dev) (l : Nat) (f : SrcLog → SrcLog) : (d.modLog l f).trans = d.trans := rfl
@[simp] theorem Dev.modLog_coh (d : Dev) (l : Nat) (f : SrcLog → SrcLog) : (d.modLog l f).coh = d.coh := rfl
@[simp] theorem Dev.modLog_jobs (d : Dev) (l : Nat) (f : SrcLog → SrcLog) : (d.modLog l f).jobs = d.jobs := rfl
@[simp] theorem Dev.modLog_yar (d : Dev) (l : Nat) (f : SrcLog → SrcLog) : (d.modLog l f).yar = d.yar := rfl

/-! ### `modMgmt` -/

@[simp] theorem Dev.modMgmt_regs (d : Dev) (f : Mgmt → Mgmt) : (d.modMgmt f).regs = d.regs := rfl
@[simp] theorem Dev.modMgmt_copies (d : Dev) (f : Mgmt → Mgmt) : (d.modMgmt f).copies = d.copies := rfl
@[simp] theorem Dev.modMgmt_out (d : Dev) (f : Mgmt → Mgmt) : (d.modMgmt f).out = d.out := rfl
@[simp] theorem Dev.modMgmt_freeCtr (d : Dev) (f : Mgmt → Mgmt) : (d.modMgmt f).freeCtr = d.freeCtr := rfl
@[simp] theorem Dev.modMgmt_dom (d : Dev) (f : Mgmt → Mgmt) : (d.modMgmt f).dom = d.dom := rfl
@[simp] theorem Dev.modMgmt_ports (d : Dev) (f : Mgmt → Mgmt) : (d.modMgmt f).ports = d.ports := rfl
@[simp] theorem Dev.modMgmt_cores (d : Dev) (f : Mgmt → Mgmt) : (d.modMgmt f).cores = d.cores := rfl
@[simp] theorem Dev.modMgmt_waiting (d : Dev) (f : Mgmt → Mgmt) : (d.modMgmt f).waiting = d.waiting := rfl
@[simp] theorem Dev.modMgmt_arbCls (d : Dev) (f : Mgmt → Mgmt) : (d.modMgmt f).arbCls = d.arbCls := rfl
@[simp] theorem Dev.modMgmt_crossing (d : Dev) (f : Mgmt → Mgmt) : (d.modMgmt f).crossing = d.crossing := rfl
@[simp] theorem Dev.modMgmt_paced (d : Dev) (f : Mgmt → Mgmt) : (d.modMgmt f).paced = d.paced := rfl
@[simp] theorem Dev.modMgmt_mcHeld (d : Dev) (f : Mgmt → Mgmt) : (d.modMgmt f).mcHeld = d.mcHeld := rfl
@[simp] theorem Dev.modMgmt_arbQuad (d : Dev) (f : Mgmt → Mgmt) : (d.modMgmt f).arbQuad = d.arbQuad := rfl
@[simp] theorem Dev.modMgmt_allowance (d : Dev) (f : Mgmt → Mgmt) : (d.modMgmt f).allowance = d.allowance := rfl
@[simp] theorem Dev.modMgmt_homes (d : Dev) (f : Mgmt → Mgmt) : (d.modMgmt f).homes = d.homes := rfl
@[simp] theorem Dev.modMgmt_l2 (d : Dev) (f : Mgmt → Mgmt) : (d.modMgmt f).l2 = d.l2 := rfl
@[simp] theorem Dev.modMgmt_groups (d : Dev) (f : Mgmt → Mgmt) : (d.modMgmt f).groups = d.groups := rfl
@[simp] theorem Dev.modMgmt_stepFences (d : Dev) (f : Mgmt → Mgmt) : (d.modMgmt f).stepFences = d.stepFences := rfl
@[simp] theorem Dev.modMgmt_backDebt (d : Dev) (f : Mgmt → Mgmt) : (d.modMgmt f).backDebt = d.backDebt := rfl
@[simp] theorem Dev.modMgmt_logs (d : Dev) (f : Mgmt → Mgmt) : (d.modMgmt f).logs = d.logs := rfl
@[simp] theorem Dev.modMgmt_health (d : Dev) (f : Mgmt → Mgmt) : (d.modMgmt f).health = d.health := rfl
@[simp] theorem Dev.modMgmt_power (d : Dev) (f : Mgmt → Mgmt) : (d.modMgmt f).power = d.power := rfl
@[simp] theorem Dev.modMgmt_hostA (d : Dev) (f : Mgmt → Mgmt) : (d.modMgmt f).hostA = d.hostA := rfl
@[simp] theorem Dev.modMgmt_hostB (d : Dev) (f : Mgmt → Mgmt) : (d.modMgmt f).hostB = d.hostB := rfl
@[simp] theorem Dev.modMgmt_keys (d : Dev) (f : Mgmt → Mgmt) : (d.modMgmt f).keys = d.keys := rfl
@[simp] theorem Dev.modMgmt_sec (d : Dev) (f : Mgmt → Mgmt) : (d.modMgmt f).sec = d.sec := rfl
@[simp] theorem Dev.modMgmt_commit (d : Dev) (f : Mgmt → Mgmt) : (d.modMgmt f).commit = d.commit := rfl
@[simp] theorem Dev.modMgmt_meter (d : Dev) (f : Mgmt → Mgmt) : (d.modMgmt f).meter = d.meter := rfl
@[simp] theorem Dev.modMgmt_tiers (d : Dev) (f : Mgmt → Mgmt) : (d.modMgmt f).tiers = d.tiers := rfl
@[simp] theorem Dev.modMgmt_trans (d : Dev) (f : Mgmt → Mgmt) : (d.modMgmt f).trans = d.trans := rfl
@[simp] theorem Dev.modMgmt_coh (d : Dev) (f : Mgmt → Mgmt) : (d.modMgmt f).coh = d.coh := rfl
@[simp] theorem Dev.modMgmt_jobs (d : Dev) (f : Mgmt → Mgmt) : (d.modMgmt f).jobs = d.jobs := rfl
@[simp] theorem Dev.modMgmt_yar (d : Dev) (f : Mgmt → Mgmt) : (d.modMgmt f).yar = d.yar := rfl

/-! ### `modL2` -/

@[simp] theorem Dev.modL2_regs (d : Dev) (q : Nat) (f : List L2Req → List L2Req) : (d.modL2 q f).regs = d.regs := rfl
@[simp] theorem Dev.modL2_copies (d : Dev) (q : Nat) (f : List L2Req → List L2Req) : (d.modL2 q f).copies = d.copies := rfl
@[simp] theorem Dev.modL2_out (d : Dev) (q : Nat) (f : List L2Req → List L2Req) : (d.modL2 q f).out = d.out := rfl
@[simp] theorem Dev.modL2_freeCtr (d : Dev) (q : Nat) (f : List L2Req → List L2Req) : (d.modL2 q f).freeCtr = d.freeCtr := rfl
@[simp] theorem Dev.modL2_dom (d : Dev) (q : Nat) (f : List L2Req → List L2Req) : (d.modL2 q f).dom = d.dom := rfl
@[simp] theorem Dev.modL2_ports (d : Dev) (q : Nat) (f : List L2Req → List L2Req) : (d.modL2 q f).ports = d.ports := rfl
@[simp] theorem Dev.modL2_cores (d : Dev) (q : Nat) (f : List L2Req → List L2Req) : (d.modL2 q f).cores = d.cores := rfl
@[simp] theorem Dev.modL2_waiting (d : Dev) (q : Nat) (f : List L2Req → List L2Req) : (d.modL2 q f).waiting = d.waiting := rfl
@[simp] theorem Dev.modL2_arbCls (d : Dev) (q : Nat) (f : List L2Req → List L2Req) : (d.modL2 q f).arbCls = d.arbCls := rfl
@[simp] theorem Dev.modL2_crossing (d : Dev) (q : Nat) (f : List L2Req → List L2Req) : (d.modL2 q f).crossing = d.crossing := rfl
@[simp] theorem Dev.modL2_paced (d : Dev) (q : Nat) (f : List L2Req → List L2Req) : (d.modL2 q f).paced = d.paced := rfl
@[simp] theorem Dev.modL2_mcHeld (d : Dev) (q : Nat) (f : List L2Req → List L2Req) : (d.modL2 q f).mcHeld = d.mcHeld := rfl
@[simp] theorem Dev.modL2_arbQuad (d : Dev) (q : Nat) (f : List L2Req → List L2Req) : (d.modL2 q f).arbQuad = d.arbQuad := rfl
@[simp] theorem Dev.modL2_allowance (d : Dev) (q : Nat) (f : List L2Req → List L2Req) : (d.modL2 q f).allowance = d.allowance := rfl
@[simp] theorem Dev.modL2_homes (d : Dev) (q : Nat) (f : List L2Req → List L2Req) : (d.modL2 q f).homes = d.homes := rfl
@[simp] theorem Dev.modL2_groups (d : Dev) (q : Nat) (f : List L2Req → List L2Req) : (d.modL2 q f).groups = d.groups := rfl
@[simp] theorem Dev.modL2_stepFences (d : Dev) (q : Nat) (f : List L2Req → List L2Req) : (d.modL2 q f).stepFences = d.stepFences := rfl
@[simp] theorem Dev.modL2_backDebt (d : Dev) (q : Nat) (f : List L2Req → List L2Req) : (d.modL2 q f).backDebt = d.backDebt := rfl
@[simp] theorem Dev.modL2_logs (d : Dev) (q : Nat) (f : List L2Req → List L2Req) : (d.modL2 q f).logs = d.logs := rfl
@[simp] theorem Dev.modL2_health (d : Dev) (q : Nat) (f : List L2Req → List L2Req) : (d.modL2 q f).health = d.health := rfl
@[simp] theorem Dev.modL2_power (d : Dev) (q : Nat) (f : List L2Req → List L2Req) : (d.modL2 q f).power = d.power := rfl
@[simp] theorem Dev.modL2_mgmt (d : Dev) (q : Nat) (f : List L2Req → List L2Req) : (d.modL2 q f).mgmt = d.mgmt := rfl
@[simp] theorem Dev.modL2_hostA (d : Dev) (q : Nat) (f : List L2Req → List L2Req) : (d.modL2 q f).hostA = d.hostA := rfl
@[simp] theorem Dev.modL2_hostB (d : Dev) (q : Nat) (f : List L2Req → List L2Req) : (d.modL2 q f).hostB = d.hostB := rfl
@[simp] theorem Dev.modL2_keys (d : Dev) (q : Nat) (f : List L2Req → List L2Req) : (d.modL2 q f).keys = d.keys := rfl
@[simp] theorem Dev.modL2_sec (d : Dev) (q : Nat) (f : List L2Req → List L2Req) : (d.modL2 q f).sec = d.sec := rfl
@[simp] theorem Dev.modL2_commit (d : Dev) (q : Nat) (f : List L2Req → List L2Req) : (d.modL2 q f).commit = d.commit := rfl
@[simp] theorem Dev.modL2_meter (d : Dev) (q : Nat) (f : List L2Req → List L2Req) : (d.modL2 q f).meter = d.meter := rfl
@[simp] theorem Dev.modL2_tiers (d : Dev) (q : Nat) (f : List L2Req → List L2Req) : (d.modL2 q f).tiers = d.tiers := rfl
@[simp] theorem Dev.modL2_trans (d : Dev) (q : Nat) (f : List L2Req → List L2Req) : (d.modL2 q f).trans = d.trans := rfl
@[simp] theorem Dev.modL2_coh (d : Dev) (q : Nat) (f : List L2Req → List L2Req) : (d.modL2 q f).coh = d.coh := rfl
@[simp] theorem Dev.modL2_jobs (d : Dev) (q : Nat) (f : List L2Req → List L2Req) : (d.modL2 q f).jobs = d.jobs := rfl
@[simp] theorem Dev.modL2_yar (d : Dev) (q : Nat) (f : List L2Req → List L2Req) : (d.modL2 q f).yar = d.yar := rfl

/-! ### `modSec` -/

@[simp] theorem Dev.modSec_regs (d : Dev) (f : Security → Security) : (d.modSec f).regs = d.regs := rfl
@[simp] theorem Dev.modSec_copies (d : Dev) (f : Security → Security) : (d.modSec f).copies = d.copies := rfl
@[simp] theorem Dev.modSec_out (d : Dev) (f : Security → Security) : (d.modSec f).out = d.out := rfl
@[simp] theorem Dev.modSec_freeCtr (d : Dev) (f : Security → Security) : (d.modSec f).freeCtr = d.freeCtr := rfl
@[simp] theorem Dev.modSec_dom (d : Dev) (f : Security → Security) : (d.modSec f).dom = d.dom := rfl
@[simp] theorem Dev.modSec_ports (d : Dev) (f : Security → Security) : (d.modSec f).ports = d.ports := rfl
@[simp] theorem Dev.modSec_cores (d : Dev) (f : Security → Security) : (d.modSec f).cores = d.cores := rfl
@[simp] theorem Dev.modSec_waiting (d : Dev) (f : Security → Security) : (d.modSec f).waiting = d.waiting := rfl
@[simp] theorem Dev.modSec_arbCls (d : Dev) (f : Security → Security) : (d.modSec f).arbCls = d.arbCls := rfl
@[simp] theorem Dev.modSec_crossing (d : Dev) (f : Security → Security) : (d.modSec f).crossing = d.crossing := rfl
@[simp] theorem Dev.modSec_paced (d : Dev) (f : Security → Security) : (d.modSec f).paced = d.paced := rfl
@[simp] theorem Dev.modSec_mcHeld (d : Dev) (f : Security → Security) : (d.modSec f).mcHeld = d.mcHeld := rfl
@[simp] theorem Dev.modSec_arbQuad (d : Dev) (f : Security → Security) : (d.modSec f).arbQuad = d.arbQuad := rfl
@[simp] theorem Dev.modSec_allowance (d : Dev) (f : Security → Security) : (d.modSec f).allowance = d.allowance := rfl
@[simp] theorem Dev.modSec_homes (d : Dev) (f : Security → Security) : (d.modSec f).homes = d.homes := rfl
@[simp] theorem Dev.modSec_l2 (d : Dev) (f : Security → Security) : (d.modSec f).l2 = d.l2 := rfl
@[simp] theorem Dev.modSec_groups (d : Dev) (f : Security → Security) : (d.modSec f).groups = d.groups := rfl
@[simp] theorem Dev.modSec_stepFences (d : Dev) (f : Security → Security) : (d.modSec f).stepFences = d.stepFences := rfl
@[simp] theorem Dev.modSec_backDebt (d : Dev) (f : Security → Security) : (d.modSec f).backDebt = d.backDebt := rfl
@[simp] theorem Dev.modSec_logs (d : Dev) (f : Security → Security) : (d.modSec f).logs = d.logs := rfl
@[simp] theorem Dev.modSec_health (d : Dev) (f : Security → Security) : (d.modSec f).health = d.health := rfl
@[simp] theorem Dev.modSec_power (d : Dev) (f : Security → Security) : (d.modSec f).power = d.power := rfl
@[simp] theorem Dev.modSec_mgmt (d : Dev) (f : Security → Security) : (d.modSec f).mgmt = d.mgmt := rfl
@[simp] theorem Dev.modSec_hostA (d : Dev) (f : Security → Security) : (d.modSec f).hostA = d.hostA := rfl
@[simp] theorem Dev.modSec_hostB (d : Dev) (f : Security → Security) : (d.modSec f).hostB = d.hostB := rfl
@[simp] theorem Dev.modSec_keys (d : Dev) (f : Security → Security) : (d.modSec f).keys = d.keys := rfl
@[simp] theorem Dev.modSec_commit (d : Dev) (f : Security → Security) : (d.modSec f).commit = d.commit := rfl
@[simp] theorem Dev.modSec_meter (d : Dev) (f : Security → Security) : (d.modSec f).meter = d.meter := rfl
@[simp] theorem Dev.modSec_tiers (d : Dev) (f : Security → Security) : (d.modSec f).tiers = d.tiers := rfl
@[simp] theorem Dev.modSec_trans (d : Dev) (f : Security → Security) : (d.modSec f).trans = d.trans := rfl
@[simp] theorem Dev.modSec_coh (d : Dev) (f : Security → Security) : (d.modSec f).coh = d.coh := rfl
@[simp] theorem Dev.modSec_jobs (d : Dev) (f : Security → Security) : (d.modSec f).jobs = d.jobs := rfl
@[simp] theorem Dev.modSec_yar (d : Dev) (f : Security → Security) : (d.modSec f).yar = d.yar := rfl

/-! ### `modTiers` -/

@[simp] theorem Dev.modTiers_regs (d : Dev) (f : Tiers → Tiers) : (d.modTiers f).regs = d.regs := rfl
@[simp] theorem Dev.modTiers_copies (d : Dev) (f : Tiers → Tiers) : (d.modTiers f).copies = d.copies := rfl
@[simp] theorem Dev.modTiers_out (d : Dev) (f : Tiers → Tiers) : (d.modTiers f).out = d.out := rfl
@[simp] theorem Dev.modTiers_freeCtr (d : Dev) (f : Tiers → Tiers) : (d.modTiers f).freeCtr = d.freeCtr := rfl
@[simp] theorem Dev.modTiers_dom (d : Dev) (f : Tiers → Tiers) : (d.modTiers f).dom = d.dom := rfl
@[simp] theorem Dev.modTiers_ports (d : Dev) (f : Tiers → Tiers) : (d.modTiers f).ports = d.ports := rfl
@[simp] theorem Dev.modTiers_cores (d : Dev) (f : Tiers → Tiers) : (d.modTiers f).cores = d.cores := rfl
@[simp] theorem Dev.modTiers_waiting (d : Dev) (f : Tiers → Tiers) : (d.modTiers f).waiting = d.waiting := rfl
@[simp] theorem Dev.modTiers_arbCls (d : Dev) (f : Tiers → Tiers) : (d.modTiers f).arbCls = d.arbCls := rfl
@[simp] theorem Dev.modTiers_crossing (d : Dev) (f : Tiers → Tiers) : (d.modTiers f).crossing = d.crossing := rfl
@[simp] theorem Dev.modTiers_paced (d : Dev) (f : Tiers → Tiers) : (d.modTiers f).paced = d.paced := rfl
@[simp] theorem Dev.modTiers_mcHeld (d : Dev) (f : Tiers → Tiers) : (d.modTiers f).mcHeld = d.mcHeld := rfl
@[simp] theorem Dev.modTiers_arbQuad (d : Dev) (f : Tiers → Tiers) : (d.modTiers f).arbQuad = d.arbQuad := rfl
@[simp] theorem Dev.modTiers_allowance (d : Dev) (f : Tiers → Tiers) : (d.modTiers f).allowance = d.allowance := rfl
@[simp] theorem Dev.modTiers_homes (d : Dev) (f : Tiers → Tiers) : (d.modTiers f).homes = d.homes := rfl
@[simp] theorem Dev.modTiers_l2 (d : Dev) (f : Tiers → Tiers) : (d.modTiers f).l2 = d.l2 := rfl
@[simp] theorem Dev.modTiers_groups (d : Dev) (f : Tiers → Tiers) : (d.modTiers f).groups = d.groups := rfl
@[simp] theorem Dev.modTiers_stepFences (d : Dev) (f : Tiers → Tiers) : (d.modTiers f).stepFences = d.stepFences := rfl
@[simp] theorem Dev.modTiers_backDebt (d : Dev) (f : Tiers → Tiers) : (d.modTiers f).backDebt = d.backDebt := rfl
@[simp] theorem Dev.modTiers_logs (d : Dev) (f : Tiers → Tiers) : (d.modTiers f).logs = d.logs := rfl
@[simp] theorem Dev.modTiers_health (d : Dev) (f : Tiers → Tiers) : (d.modTiers f).health = d.health := rfl
@[simp] theorem Dev.modTiers_power (d : Dev) (f : Tiers → Tiers) : (d.modTiers f).power = d.power := rfl
@[simp] theorem Dev.modTiers_mgmt (d : Dev) (f : Tiers → Tiers) : (d.modTiers f).mgmt = d.mgmt := rfl
@[simp] theorem Dev.modTiers_hostA (d : Dev) (f : Tiers → Tiers) : (d.modTiers f).hostA = d.hostA := rfl
@[simp] theorem Dev.modTiers_hostB (d : Dev) (f : Tiers → Tiers) : (d.modTiers f).hostB = d.hostB := rfl
@[simp] theorem Dev.modTiers_keys (d : Dev) (f : Tiers → Tiers) : (d.modTiers f).keys = d.keys := rfl
@[simp] theorem Dev.modTiers_sec (d : Dev) (f : Tiers → Tiers) : (d.modTiers f).sec = d.sec := rfl
@[simp] theorem Dev.modTiers_commit (d : Dev) (f : Tiers → Tiers) : (d.modTiers f).commit = d.commit := rfl
@[simp] theorem Dev.modTiers_meter (d : Dev) (f : Tiers → Tiers) : (d.modTiers f).meter = d.meter := rfl
@[simp] theorem Dev.modTiers_trans (d : Dev) (f : Tiers → Tiers) : (d.modTiers f).trans = d.trans := rfl
@[simp] theorem Dev.modTiers_coh (d : Dev) (f : Tiers → Tiers) : (d.modTiers f).coh = d.coh := rfl
@[simp] theorem Dev.modTiers_jobs (d : Dev) (f : Tiers → Tiers) : (d.modTiers f).jobs = d.jobs := rfl
@[simp] theorem Dev.modTiers_yar (d : Dev) (f : Tiers → Tiers) : (d.modTiers f).yar = d.yar := rfl

/-! ### `modTrans` -/

@[simp] theorem Dev.modTrans_regs (d : Dev) (f : Trans → Trans) : (d.modTrans f).regs = d.regs := rfl
@[simp] theorem Dev.modTrans_copies (d : Dev) (f : Trans → Trans) : (d.modTrans f).copies = d.copies := rfl
@[simp] theorem Dev.modTrans_out (d : Dev) (f : Trans → Trans) : (d.modTrans f).out = d.out := rfl
@[simp] theorem Dev.modTrans_freeCtr (d : Dev) (f : Trans → Trans) : (d.modTrans f).freeCtr = d.freeCtr := rfl
@[simp] theorem Dev.modTrans_dom (d : Dev) (f : Trans → Trans) : (d.modTrans f).dom = d.dom := rfl
@[simp] theorem Dev.modTrans_ports (d : Dev) (f : Trans → Trans) : (d.modTrans f).ports = d.ports := rfl
@[simp] theorem Dev.modTrans_cores (d : Dev) (f : Trans → Trans) : (d.modTrans f).cores = d.cores := rfl
@[simp] theorem Dev.modTrans_waiting (d : Dev) (f : Trans → Trans) : (d.modTrans f).waiting = d.waiting := rfl
@[simp] theorem Dev.modTrans_arbCls (d : Dev) (f : Trans → Trans) : (d.modTrans f).arbCls = d.arbCls := rfl
@[simp] theorem Dev.modTrans_crossing (d : Dev) (f : Trans → Trans) : (d.modTrans f).crossing = d.crossing := rfl
@[simp] theorem Dev.modTrans_paced (d : Dev) (f : Trans → Trans) : (d.modTrans f).paced = d.paced := rfl
@[simp] theorem Dev.modTrans_mcHeld (d : Dev) (f : Trans → Trans) : (d.modTrans f).mcHeld = d.mcHeld := rfl
@[simp] theorem Dev.modTrans_arbQuad (d : Dev) (f : Trans → Trans) : (d.modTrans f).arbQuad = d.arbQuad := rfl
@[simp] theorem Dev.modTrans_allowance (d : Dev) (f : Trans → Trans) : (d.modTrans f).allowance = d.allowance := rfl
@[simp] theorem Dev.modTrans_homes (d : Dev) (f : Trans → Trans) : (d.modTrans f).homes = d.homes := rfl
@[simp] theorem Dev.modTrans_l2 (d : Dev) (f : Trans → Trans) : (d.modTrans f).l2 = d.l2 := rfl
@[simp] theorem Dev.modTrans_groups (d : Dev) (f : Trans → Trans) : (d.modTrans f).groups = d.groups := rfl
@[simp] theorem Dev.modTrans_stepFences (d : Dev) (f : Trans → Trans) : (d.modTrans f).stepFences = d.stepFences := rfl
@[simp] theorem Dev.modTrans_backDebt (d : Dev) (f : Trans → Trans) : (d.modTrans f).backDebt = d.backDebt := rfl
@[simp] theorem Dev.modTrans_logs (d : Dev) (f : Trans → Trans) : (d.modTrans f).logs = d.logs := rfl
@[simp] theorem Dev.modTrans_health (d : Dev) (f : Trans → Trans) : (d.modTrans f).health = d.health := rfl
@[simp] theorem Dev.modTrans_power (d : Dev) (f : Trans → Trans) : (d.modTrans f).power = d.power := rfl
@[simp] theorem Dev.modTrans_mgmt (d : Dev) (f : Trans → Trans) : (d.modTrans f).mgmt = d.mgmt := rfl
@[simp] theorem Dev.modTrans_hostA (d : Dev) (f : Trans → Trans) : (d.modTrans f).hostA = d.hostA := rfl
@[simp] theorem Dev.modTrans_hostB (d : Dev) (f : Trans → Trans) : (d.modTrans f).hostB = d.hostB := rfl
@[simp] theorem Dev.modTrans_keys (d : Dev) (f : Trans → Trans) : (d.modTrans f).keys = d.keys := rfl
@[simp] theorem Dev.modTrans_sec (d : Dev) (f : Trans → Trans) : (d.modTrans f).sec = d.sec := rfl
@[simp] theorem Dev.modTrans_commit (d : Dev) (f : Trans → Trans) : (d.modTrans f).commit = d.commit := rfl
@[simp] theorem Dev.modTrans_meter (d : Dev) (f : Trans → Trans) : (d.modTrans f).meter = d.meter := rfl
@[simp] theorem Dev.modTrans_tiers (d : Dev) (f : Trans → Trans) : (d.modTrans f).tiers = d.tiers := rfl
@[simp] theorem Dev.modTrans_coh (d : Dev) (f : Trans → Trans) : (d.modTrans f).coh = d.coh := rfl
@[simp] theorem Dev.modTrans_jobs (d : Dev) (f : Trans → Trans) : (d.modTrans f).jobs = d.jobs := rfl
@[simp] theorem Dev.modTrans_yar (d : Dev) (f : Trans → Trans) : (d.modTrans f).yar = d.yar := rfl

/-! ### `modJobs` -/

@[simp] theorem Dev.modJobs_regs (d : Dev) (f : Jobs → Jobs) : (d.modJobs f).regs = d.regs := rfl
@[simp] theorem Dev.modJobs_copies (d : Dev) (f : Jobs → Jobs) : (d.modJobs f).copies = d.copies := rfl
@[simp] theorem Dev.modJobs_out (d : Dev) (f : Jobs → Jobs) : (d.modJobs f).out = d.out := rfl
@[simp] theorem Dev.modJobs_freeCtr (d : Dev) (f : Jobs → Jobs) : (d.modJobs f).freeCtr = d.freeCtr := rfl
@[simp] theorem Dev.modJobs_dom (d : Dev) (f : Jobs → Jobs) : (d.modJobs f).dom = d.dom := rfl
@[simp] theorem Dev.modJobs_ports (d : Dev) (f : Jobs → Jobs) : (d.modJobs f).ports = d.ports := rfl
@[simp] theorem Dev.modJobs_cores (d : Dev) (f : Jobs → Jobs) : (d.modJobs f).cores = d.cores := rfl
@[simp] theorem Dev.modJobs_waiting (d : Dev) (f : Jobs → Jobs) : (d.modJobs f).waiting = d.waiting := rfl
@[simp] theorem Dev.modJobs_arbCls (d : Dev) (f : Jobs → Jobs) : (d.modJobs f).arbCls = d.arbCls := rfl
@[simp] theorem Dev.modJobs_crossing (d : Dev) (f : Jobs → Jobs) : (d.modJobs f).crossing = d.crossing := rfl
@[simp] theorem Dev.modJobs_paced (d : Dev) (f : Jobs → Jobs) : (d.modJobs f).paced = d.paced := rfl
@[simp] theorem Dev.modJobs_mcHeld (d : Dev) (f : Jobs → Jobs) : (d.modJobs f).mcHeld = d.mcHeld := rfl
@[simp] theorem Dev.modJobs_arbQuad (d : Dev) (f : Jobs → Jobs) : (d.modJobs f).arbQuad = d.arbQuad := rfl
@[simp] theorem Dev.modJobs_allowance (d : Dev) (f : Jobs → Jobs) : (d.modJobs f).allowance = d.allowance := rfl
@[simp] theorem Dev.modJobs_homes (d : Dev) (f : Jobs → Jobs) : (d.modJobs f).homes = d.homes := rfl
@[simp] theorem Dev.modJobs_l2 (d : Dev) (f : Jobs → Jobs) : (d.modJobs f).l2 = d.l2 := rfl
@[simp] theorem Dev.modJobs_groups (d : Dev) (f : Jobs → Jobs) : (d.modJobs f).groups = d.groups := rfl
@[simp] theorem Dev.modJobs_stepFences (d : Dev) (f : Jobs → Jobs) : (d.modJobs f).stepFences = d.stepFences := rfl
@[simp] theorem Dev.modJobs_backDebt (d : Dev) (f : Jobs → Jobs) : (d.modJobs f).backDebt = d.backDebt := rfl
@[simp] theorem Dev.modJobs_logs (d : Dev) (f : Jobs → Jobs) : (d.modJobs f).logs = d.logs := rfl
@[simp] theorem Dev.modJobs_health (d : Dev) (f : Jobs → Jobs) : (d.modJobs f).health = d.health := rfl
@[simp] theorem Dev.modJobs_power (d : Dev) (f : Jobs → Jobs) : (d.modJobs f).power = d.power := rfl
@[simp] theorem Dev.modJobs_mgmt (d : Dev) (f : Jobs → Jobs) : (d.modJobs f).mgmt = d.mgmt := rfl
@[simp] theorem Dev.modJobs_hostA (d : Dev) (f : Jobs → Jobs) : (d.modJobs f).hostA = d.hostA := rfl
@[simp] theorem Dev.modJobs_hostB (d : Dev) (f : Jobs → Jobs) : (d.modJobs f).hostB = d.hostB := rfl
@[simp] theorem Dev.modJobs_keys (d : Dev) (f : Jobs → Jobs) : (d.modJobs f).keys = d.keys := rfl
@[simp] theorem Dev.modJobs_sec (d : Dev) (f : Jobs → Jobs) : (d.modJobs f).sec = d.sec := rfl
@[simp] theorem Dev.modJobs_commit (d : Dev) (f : Jobs → Jobs) : (d.modJobs f).commit = d.commit := rfl
@[simp] theorem Dev.modJobs_meter (d : Dev) (f : Jobs → Jobs) : (d.modJobs f).meter = d.meter := rfl
@[simp] theorem Dev.modJobs_tiers (d : Dev) (f : Jobs → Jobs) : (d.modJobs f).tiers = d.tiers := rfl
@[simp] theorem Dev.modJobs_trans (d : Dev) (f : Jobs → Jobs) : (d.modJobs f).trans = d.trans := rfl
@[simp] theorem Dev.modJobs_coh (d : Dev) (f : Jobs → Jobs) : (d.modJobs f).coh = d.coh := rfl
@[simp] theorem Dev.modJobs_yar (d : Dev) (f : Jobs → Jobs) : (d.modJobs f).yar = d.yar := rfl

/-! ### `modYar` -/

@[simp] theorem Dev.modYar_regs (d : Dev) (f : Yarrow → Yarrow) : (d.modYar f).regs = d.regs := rfl
@[simp] theorem Dev.modYar_copies (d : Dev) (f : Yarrow → Yarrow) : (d.modYar f).copies = d.copies := rfl
@[simp] theorem Dev.modYar_out (d : Dev) (f : Yarrow → Yarrow) : (d.modYar f).out = d.out := rfl
@[simp] theorem Dev.modYar_freeCtr (d : Dev) (f : Yarrow → Yarrow) : (d.modYar f).freeCtr = d.freeCtr := rfl
@[simp] theorem Dev.modYar_dom (d : Dev) (f : Yarrow → Yarrow) : (d.modYar f).dom = d.dom := rfl
@[simp] theorem Dev.modYar_ports (d : Dev) (f : Yarrow → Yarrow) : (d.modYar f).ports = d.ports := rfl
@[simp] theorem Dev.modYar_cores (d : Dev) (f : Yarrow → Yarrow) : (d.modYar f).cores = d.cores := rfl
@[simp] theorem Dev.modYar_waiting (d : Dev) (f : Yarrow → Yarrow) : (d.modYar f).waiting = d.waiting := rfl
@[simp] theorem Dev.modYar_arbCls (d : Dev) (f : Yarrow → Yarrow) : (d.modYar f).arbCls = d.arbCls := rfl
@[simp] theorem Dev.modYar_crossing (d : Dev) (f : Yarrow → Yarrow) : (d.modYar f).crossing = d.crossing := rfl
@[simp] theorem Dev.modYar_paced (d : Dev) (f : Yarrow → Yarrow) : (d.modYar f).paced = d.paced := rfl
@[simp] theorem Dev.modYar_mcHeld (d : Dev) (f : Yarrow → Yarrow) : (d.modYar f).mcHeld = d.mcHeld := rfl
@[simp] theorem Dev.modYar_arbQuad (d : Dev) (f : Yarrow → Yarrow) : (d.modYar f).arbQuad = d.arbQuad := rfl
@[simp] theorem Dev.modYar_allowance (d : Dev) (f : Yarrow → Yarrow) : (d.modYar f).allowance = d.allowance := rfl
@[simp] theorem Dev.modYar_homes (d : Dev) (f : Yarrow → Yarrow) : (d.modYar f).homes = d.homes := rfl
@[simp] theorem Dev.modYar_l2 (d : Dev) (f : Yarrow → Yarrow) : (d.modYar f).l2 = d.l2 := rfl
@[simp] theorem Dev.modYar_groups (d : Dev) (f : Yarrow → Yarrow) : (d.modYar f).groups = d.groups := rfl
@[simp] theorem Dev.modYar_stepFences (d : Dev) (f : Yarrow → Yarrow) : (d.modYar f).stepFences = d.stepFences := rfl
@[simp] theorem Dev.modYar_backDebt (d : Dev) (f : Yarrow → Yarrow) : (d.modYar f).backDebt = d.backDebt := rfl
@[simp] theorem Dev.modYar_logs (d : Dev) (f : Yarrow → Yarrow) : (d.modYar f).logs = d.logs := rfl
@[simp] theorem Dev.modYar_health (d : Dev) (f : Yarrow → Yarrow) : (d.modYar f).health = d.health := rfl
@[simp] theorem Dev.modYar_power (d : Dev) (f : Yarrow → Yarrow) : (d.modYar f).power = d.power := rfl
@[simp] theorem Dev.modYar_mgmt (d : Dev) (f : Yarrow → Yarrow) : (d.modYar f).mgmt = d.mgmt := rfl
@[simp] theorem Dev.modYar_hostA (d : Dev) (f : Yarrow → Yarrow) : (d.modYar f).hostA = d.hostA := rfl
@[simp] theorem Dev.modYar_hostB (d : Dev) (f : Yarrow → Yarrow) : (d.modYar f).hostB = d.hostB := rfl
@[simp] theorem Dev.modYar_keys (d : Dev) (f : Yarrow → Yarrow) : (d.modYar f).keys = d.keys := rfl
@[simp] theorem Dev.modYar_sec (d : Dev) (f : Yarrow → Yarrow) : (d.modYar f).sec = d.sec := rfl
@[simp] theorem Dev.modYar_commit (d : Dev) (f : Yarrow → Yarrow) : (d.modYar f).commit = d.commit := rfl
@[simp] theorem Dev.modYar_meter (d : Dev) (f : Yarrow → Yarrow) : (d.modYar f).meter = d.meter := rfl
@[simp] theorem Dev.modYar_tiers (d : Dev) (f : Yarrow → Yarrow) : (d.modYar f).tiers = d.tiers := rfl
@[simp] theorem Dev.modYar_trans (d : Dev) (f : Yarrow → Yarrow) : (d.modYar f).trans = d.trans := rfl
@[simp] theorem Dev.modYar_coh (d : Dev) (f : Yarrow → Yarrow) : (d.modYar f).coh = d.coh := rfl
@[simp] theorem Dev.modYar_jobs (d : Dev) (f : Yarrow → Yarrow) : (d.modYar f).jobs = d.jobs := rfl

@[simp] theorem Dev.modDom_dom (d : Dev) (f : DomState → DomState) : (d.modDom f).dom = f d.dom := rfl
@[simp] theorem Dev.modHealth_health (d : Dev) (f : HealthState → HealthState) : (d.modHealth f).health = f d.health := rfl
@[simp] theorem Dev.modPower_power (d : Dev) (f : PowerState → PowerState) : (d.modPower f).power = f d.power := rfl
@[simp] theorem Dev.modCoh_coh (d : Dev) (f : Coh → Coh) : (d.modCoh f).coh = f d.coh := rfl
@[simp] theorem Dev.modCommit_commit (d : Dev) (f : CommitState → CommitState) : (d.modCommit f).commit = f d.commit := rfl
@[simp] theorem Dev.modMgmt_mgmt (d : Dev) (f : Mgmt → Mgmt) : (d.modMgmt f).mgmt = f d.mgmt := rfl
@[simp] theorem Dev.modSec_sec (d : Dev) (f : Security → Security) : (d.modSec f).sec = f d.sec := rfl
@[simp] theorem Dev.modTiers_tiers (d : Dev) (f : Tiers → Tiers) : (d.modTiers f).tiers = f d.tiers := rfl
@[simp] theorem Dev.modTrans_trans (d : Dev) (f : Trans → Trans) : (d.modTrans f).trans = f d.trans := rfl
@[simp] theorem Dev.modJobs_jobs (d : Dev) (f : Jobs → Jobs) : (d.modJobs f).jobs = f d.jobs := rfl
@[simp] theorem Dev.modYar_yar (d : Dev) (f : Yarrow → Yarrow) : (d.modYar f).yar = f d.yar := rfl
@[simp] theorem Dev.setPower_power (d : Dev) (p : PowerState) : (d.setPower p).power = p := rfl
@[simp] theorem Dev.emit_out (d : Dev) (o : Out) : (d.emit o).out = d.out ++ [o] := rfl
@[simp] theorem Dev.emits_out (d : Dev) (os : List Out) : (d.emits os).out = d.out ++ os := rfl

end Sys2Proof.Machine
end

