-- ==== Sys2Proof/Laws/Tab.lean ====
section
/-! SUPPORT. The laws of sparse tables: what an entry reads as after each operation, and that each keeps the keys strictly rising. -/

namespace Sys2Proof

variable {α : Type}

/-- The canonical form of a table: keys strictly rising. -/
def Tab.Sorted (t : Tab α) : Prop := (t.map Prod.fst).Pairwise (· < ·)

@[simp] theorem Tab.look_put_same (t : Tab α) (k : Nat) (v : α) : Tab.look (Tab.put t k v) k = some v := by
  induction t with
  | nil => simp [Tab.put, Tab.look]
  | cons c t ih =>
    obtain ⟨j, w⟩ := c
    simp only [Tab.put]
    split
    · simp [Tab.look]
    · split
      · simp [Tab.look]
      · rename_i _ h; simp [Tab.look, h, ih]

theorem Tab.look_put_ne (t : Tab α) {k k' : Nat} (v : α) (h : k' ≠ k) : Tab.look (Tab.put t k v) k' = Tab.look t k' := by
  have hk : ¬ k = k' := fun e => h e.symm
  induction t with
  | nil => simp [Tab.put, Tab.look, hk]
  | cons c t ih =>
    obtain ⟨j, w⟩ := c
    simp only [Tab.put]
    split
    · simp [Tab.look, hk]
    · split
      · rename_i _ e; subst e; simp [Tab.look, hk]
      · simp [Tab.look, ih]

@[simp] theorem Tab.look_del_same (t : Tab α) (k : Nat) : Tab.look (Tab.del t k) k = none := by
  unfold Tab.del
  induction t with
  | nil => rfl
  | cons c t ih =>
    obtain ⟨j, w⟩ := c
    by_cases h : j = k <;> simp_all [Tab.look]

theorem Tab.look_del_ne (t : Tab α) {k k' : Nat} (h : k' ≠ k) : Tab.look (Tab.del t k) k' = Tab.look t k' := by
  unfold Tab.del
  induction t with
  | nil => rfl
  | cons c t ih =>
    obtain ⟨j, w⟩ := c
    by_cases e : j = k
    · have : ¬ k = k' := fun x => h x.symm
      simp_all [Tab.look]
    · simp_all [Tab.look]

@[simp] theorem Tab.getD_set_same [DecidableEq α] (t : Tab α) (k : Nat) (v d : α) : (Tab.look (Tab.set t k v d) k).getD d = v := by
  unfold Tab.set
  split
  · rename_i h; simp [h]
  · simp

theorem Tab.look_set_ne [DecidableEq α] (t : Tab α) {k k' : Nat} (v d : α) (h : k' ≠ k) :
    Tab.look (Tab.set t k v d) k' = Tab.look t k' := by
  unfold Tab.set
  split
  · exact Tab.look_del_ne t h
  · exact Tab.look_put_ne t v h

@[simp] theorem Tab.getD_upd_same (t : Tab α) (k : Nat) (d : α) (f : α → α) : Tab.getD (Tab.upd t k d f) k d = f (Tab.getD t k d) := by
  simp [Tab.upd, Tab.getD]

theorem Tab.getD_upd_ne (t : Tab α) {k k' : Nat} (d d' : α) (f : α → α) (h : k' ≠ k) :
    Tab.getD (Tab.upd t k d f) k' d' = Tab.getD t k' d' := by
  simp [Tab.upd, Tab.getD, Tab.look_put_ne _ _ h]

theorem Tab.mem_put {t : Tab α} {k : Nat} {v : α} {c : Nat × α} (h : c ∈ Tab.put t k v) : c = (k, v) ∨ c ∈ t := by
  induction t with
  | nil => simpa [Tab.put] using h
  | cons d t ih =>
    obtain ⟨j, w⟩ := d
    simp only [Tab.put] at h
    split at h
    · simp at h; rcases h with h | h | h <;> simp [h]
    · split at h
      · simp at h; rcases h with h | h <;> simp [h]
      · simp at h; rcases h with h | h
        · simp [h]
        · rcases ih h with h | h <;> simp [h]

theorem Tab.sorted_put {t : Tab α} (k : Nat) (v : α) (h : Tab.Sorted t) : Tab.Sorted (Tab.put t k v) := by
  induction t with
  | nil => simp [Tab.put, Tab.Sorted]
  | cons c t ih =>
    obtain ⟨j, w⟩ := c
    simp only [Tab.Sorted, List.map_cons, List.pairwise_cons, List.mem_map, forall_exists_index, and_imp] at h
    simp only [Tab.put]
    split
    · rename_i hk
      simp only [Tab.Sorted, List.map_cons, List.pairwise_cons, List.mem_cons, List.mem_map]
      refine ⟨fun a ha => ?_, fun a ha => ?_, h.2⟩
      · rcases ha with rfl | ⟨x, hx, rfl⟩
        · exact hk
        · exact Nat.lt_trans hk (h.1 _ x hx rfl)
      · obtain ⟨x, hx, rfl⟩ := ha; exact h.1 _ x hx rfl
    · split
      · rename_i _ e
        subst e
        simp only [Tab.Sorted, List.map_cons, List.pairwise_cons, List.mem_map]
        exact ⟨fun a ⟨x, hx, e⟩ => e ▸ h.1 _ x hx rfl, h.2⟩
      · simp only [Tab.Sorted, List.map_cons, List.pairwise_cons, List.mem_map]
        refine ⟨fun a ⟨x, hx, e⟩ => ?_, ih h.2⟩
        rcases Tab.mem_put hx with rfl | hx
        · simp at e; omega
        · exact e ▸ h.1 _ x hx rfl

theorem Tab.sorted_filter {t : Tab α} (p : Nat × α → Bool) (h : Tab.Sorted t) : Tab.Sorted (t.filter p) :=
  List.Pairwise.sublist (List.Sublist.map _ List.filter_sublist) h

theorem Tab.sorted_del {t : Tab α} (k : Nat) (h : Tab.Sorted t) : Tab.Sorted (Tab.del t k) := Tab.sorted_filter _ h

theorem Tab.sorted_set [DecidableEq α] {t : Tab α} (k : Nat) (v d : α) (h : Tab.Sorted t) : Tab.Sorted (Tab.set t k v d) := by
  unfold Tab.set
  split
  · exact Tab.sorted_del k h
  · exact Tab.sorted_put k v h

theorem Tab.sorted_upd {t : Tab α} (k : Nat) (d : α) (f : α → α) (h : Tab.Sorted t) : Tab.Sorted (Tab.upd t k d f) := Tab.sorted_put k _ h

theorem Tab.sorted_edit {t : Tab α} (k : Nat) (f : α → α) (h : Tab.Sorted t) : Tab.Sorted (Tab.edit t k f) := by
  unfold Tab.edit
  split
  · exact Tab.sorted_put k _ h
  · exact h

end Sys2Proof
end

