-- ==== Sys2Proof/Laws/Ops.lean ====
section
/-! SUPPORT. The laws of the shared operations: dictionary values, the parts of the device, and what each wrapper of a meaning can do. -/

namespace Sys2Proof.Machine

/-! ### Dictionary values -/

/-- An entry reads as the value it was given. -/
@[simp] theorem Dev.reg_setReg_same (d : Dev) (k v : Nat) : (d.setReg k v).reg k = v := Tab.getD_set_same _ _ _ _

/-- A value given to one entry leaves every other alone. -/
theorem Dev.reg_setReg_ne (d : Dev) {k k' : Nat} (v : Nat) (h : k' ≠ k) : (d.setReg k v).reg k' = d.reg k' := by
  simp [Dev.reg, Dev.setReg, Tab.look_set_ne _ _ _ h]

/-- A count changes its own entry alone. -/
theorem Dev.reg_bump_ne (d : Dev) {k k' : Nat} (n : Nat) (h : k' ≠ k) : (d.bump k n).reg k' = d.reg k' := by
  unfold Dev.bump
  split
  · rfl
  · exact Dev.reg_setReg_ne d _ h

@[simp] theorem Dev.reg_emit (d : Dev) (o : Out) (k : Nat) : (d.emit o).reg k = d.reg k := rfl
@[simp] theorem Dev.reg_emits (d : Dev) (os : List Out) (k : Nat) : (d.emits os).reg k = d.reg k := rfl
@[simp] theorem Dev.reg_modPort (d : Dev) (p : Nat) (f : Port → Port) (k : Nat) : (d.modPort p f).reg k = d.reg k := rfl
@[simp] theorem Dev.reg_modCore (d : Dev) (q : Nat) (f : Core → Core) (k : Nat) : (d.modCore q f).reg k = d.reg k := rfl
@[simp] theorem Dev.reg_modHome (d : Dev) (q : Nat) (f : Home → Home) (k : Nat) : (d.modHome q f).reg k = d.reg k := rfl

/-! ### Parts -/

@[simp] theorem Dev.port_modPort_same (d : Dev) (p : Nat) (f : Port → Port) : (d.modPort p f).port p = f (d.port p) := Tab.getD_upd_same _ _ _ _
theorem Dev.port_modPort_ne (d : Dev) {p p' : Nat} (f : Port → Port) (h : p' ≠ p) : (d.modPort p f).port p' = d.port p' := Tab.getD_upd_ne _ _ _ _ h
@[simp] theorem Dev.core_modCore_same (d : Dev) (q : Nat) (f : Core → Core) : (d.modCore q f).core q = f (d.core q) := Tab.getD_upd_same _ _ _ _
theorem Dev.core_modCore_ne (d : Dev) {q q' : Nat} (f : Core → Core) (h : q' ≠ q) : (d.modCore q f).core q' = d.core q' := Tab.getD_upd_ne _ _ _ _ h
@[simp] theorem Dev.home_modHome_same (d : Dev) (q : Nat) (f : Home → Home) : (d.modHome q f).home q = f (d.home q) := Tab.getD_upd_same _ _ _ _
theorem Dev.home_modHome_ne (d : Dev) {q q' : Nat} (f : Home → Home) (h : q' ≠ q) : (d.modHome q f).home q' = d.home q' := Tab.getD_upd_ne _ _ _ _ h
@[simp] theorem Dev.group_modGroup_same (d : Dev) (g : Nat) (f : GroupRt → GroupRt) : (d.modGroup g f).group g = f (d.group g) :=
  Tab.getD_upd_same _ _ _ _

/-! ### Wrappers -/

/-- A meaning over the device changes the device alone. -/
theorem onDev_next {f : Dev → Dev} {s t : State} (h : onDev f s = .next t) : t = { s with dev := f s.dev } := by
  unfold onDev at h; injection h with h; exact h.symm

/-- A meaning over the device and the tier H bytes changes those alone. -/
theorem onMem_next {f : Memory → Dev → Memory × Dev} {s t : State} (h : onMem f s = .next t) :
    t = { s with mem := (f s.mem s.dev).1, dev := (f s.mem s.dev).2 } := by
  unfold onMem at h; injection h with h; exact h.symm

theorem onDevWith_next {f : Fuses → Memory → Dev → Dev} {s t : State} (h : onDevWith f s = .next t) :
    t = { s with dev := f s.fuses s.mem s.dev } := by
  unfold onDevWith at h; injection h with h; exact h.symm

theorem onFuses_next {f : Fuses → Dev → Fuses × Dev} {s t : State} (h : onFuses f s = .next t) :
    t = { s with fuses := (f s.fuses s.dev).1, dev := (f s.fuses s.dev).2 } := by
  unfold onFuses at h; injection h with h; exact h.symm

theorem onAll_next {f : Fuses → Memory → Dev → Fuses × Memory × Dev} {s t : State} (h : onAll f s = .next t) :
    t = { s with fuses := (f s.fuses s.mem s.dev).1, mem := (f s.fuses s.mem s.dev).2.1, dev := (f s.fuses s.mem s.dev).2.2 } := by
  unfold onAll at h; injection h with h; exact h.symm

theorem onWorld_next {f : World → World} {s t : State} (h : onWorld f s = .next t) :
    t = { s with fuses := (f ⟨s.fuses, s.mem, s.dev⟩).fuses, mem := (f ⟨s.fuses, s.mem, s.dev⟩).mem, dev := (f ⟨s.fuses, s.mem, s.dev⟩).dev } := by
  unfold onWorld at h; injection h with h; exact h.symm

end Sys2Proof.Machine
end

