-- ==== Sys2Proof/WellFormed.lean ====
section
/-! DEFINITION. Well-formed commands: every operand fits the width the spec gives it (R82, R114, R120, R124, R127 to R131, R61, R134, R376,
R418, R508, R541, R566, R582, R605, R643), and every port, quadrant, stack and unit number names one that exists (R2). A meaning does not
ask for this; a statement about every command of a kind may. -/

namespace Sys2Proof

/-! ### Numbers of parts (R2, R318, R537, R582) -/

def okPort (p : Nat) : Bool := p < 384
def okQuad (q : Nat) : Bool := q < 4
def okStack (s : Nat) : Bool := s < 12
/-- An accessor code (R604). -/
def okAcc (a : Nat) : Bool := a < 4 || a = 0x10 || a = 0x11 || a = 0x20 || a = 0x30
def okComp (c : Nat) : Bool := c < 64
def okFeid (f : Nat) : Bool := f < 4096
def okU16 (v : Nat) : Bool := v < 65536
def okU64 (v : Nat) : Bool := v < 2 ^ 64
/-- A coherence agent: a tile 0 to 119, 120 + n for the engines of quadrant n, or 124 for Campion (R291). -/
def okAgent (a : Nat) : Bool := a < 125
/-- A line of the tier H window (R228). -/
def okLine (l : Nat) : Bool := l < 2 ^ 33
/-- A line of the window, or 2^33 more than a line of tier P (R226, R308). -/
def okRelease (l : Nat) : Bool := l < 2 ^ 33 + 0x2E0000000000 / 128
def okIngress : Ingress → Bool
  | .port p => okPort p
  | .host _ => true
def okUnit : RunUnit → Bool
  | .tile t => t < 120
  | .engine q e => okQuad q && e < 5
def okEntry (e : EntryRef) : Bool := okU16 e.index && e.sub < 256 && okU16 e.offset

/-- Sectors and lines lie in the window. -/
def Ecc.wf (e : Ecc) : Bool := (e.soft ++ e.bad).all (· < 9663676416) && e.l2.all (· < 4831838208)

/-- The atomic of a tile lies in its line at a multiple of its width (R207, R298). -/
def L1Atomic.wf (x : L1Atomic) : Bool := x.aop < 16 && x.awidth < 3 && x.off % (4 * 2 ^ x.awidth) = 0 && x.off < 128

def AgentAccess.wf (w : AgentAccess) : Bool := okU16 w.ctx && w.found.wf && w.atomic.all L1Atomic.wf

/-- A class, and a cycle of the 7,500 of a tick (R2). -/
def ClassTurn.wf (t : ClassTurn) : Bool := t.cls < 8 && t.cycle < 7500

/-- A packet's fields fit their widths, and its payload fits LEN (R120 to R131). -/
def Packet.wf (p : Packet) : Bool :=
  p.cls < 8 && p.carrier.all (· < 8) && okFeid p.dst && okFeid p.src && okComp p.comp && p.kslot < 256 && p.kgen < 256 && okU16 p.tag && p.reqEpoch < 256
    && p.status < 256 && p.da < 2 ^ 46 && okU16 p.epoch && p.rkey < 2 ^ 32 && p.rlen < 2 ^ 13 && p.aop < 16 && p.awidth < 4 && p.swId < 32
    && okU16 p.dstDomain && okU16 p.srcDomain && okU16 p.mqueue && okU64 p.workId && p.quad < 16 && p.node < 256 && okU16 p.part
    && okU16 p.group && p.chunk < 2 ^ 32 && p.contrib < 4096 && p.ifmt < 16 && okU16 p.nelem && p.rop < 16 && p.ctype < 256 && p.srcSw < 32
    && p.payload.length < 2 ^ 15

/-- A flit's header fields fit their widths and its payload is at most 242 bytes (R82). -/
def Flit.wf (f : Flit) : Bool :=
  f.ftype < 16 && f.cls < 8 && f.seq < 4096 && f.ack < 4096 && f.craSel < 16 && f.craCnt < 256 && f.crbSel < 16 && f.crbCnt < 256
    && f.sop < 256 && f.lcmd < 16 && f.lmask < 256 && f.payload.length ≤ 242

def Marker.wf (m : Marker) : Bool :=
  okU64 m.tick && m.master < 32 && m.depth < 32 && m.corr < 2 ^ 32 && m.handoverIn < 256

def Beacon.wf (b : Beacon) : Bool :=
  okU64 b.tick && b.switchId < 256 && b.svcLevel < 256 && b.campion < 256 && b.tickState < 256 && b.depth < 256 && b.flags < 256
    && okU16 b.domId && okU64 b.serial && b.meas.length = 32

def TrainInfo.wf (t : TrainInfo) : Bool :=
  t.role < 4 && okU16 t.domId && t.switchId < 256 && okFeid t.feid && t.laneSet < 256 && t.credits.length = 9

def Dying.wf (d : Dying) : Bool := d.reason < 256 && d.srcKind < 256 && okU16 d.srcId && okU64 d.tick && okU16 d.portsLeft

def CommitMsg.wf (m : CommitMsg) : Bool :=
  m.op < 256 && m.reason < 256 && m.sw < 256 && okU64 m.seq && okU64 m.tick && okU64 m.changed && m.digest.length ≤ 32

def RegistryMsg.wf (m : RegistryMsg) : Bool :=
  m.op < 256 && m.reason < 256 && okU16 m.groupId && okU16 m.part && okU16 m.nparts && okU64 m.tick && m.body.length ≤ 4080

def RecoveryMsg.wf (m : RecoveryMsg) : Bool :=
  m.op < 256 && m.comp < 256 && okU16 m.reason && okU64 m.tick && m.sw < 256 && m.kind < 256 && okU16 m.id && m.phase < 256
    && m.targets < 2 ^ 32

def CancelMsg.wf (m : CancelMsg) : Bool := okU64 m.workId && m.op < 256 && m.sw < 256 && okFeid m.replyFeid && m.toSw < 256

def BistMsg.wf (m : BistMsg) : Bool := m.op < 256 && m.sw < 256 && m.toSw < 256 && m.pass < 256 && okU64 m.tick && m.detail < 2 ^ 256

def SessMsg.wf (m : SessMsg) : Bool :=
  m.op < 256 && m.status < 256 && okU16 m.session && okU64 m.counter && m.body.length < 65536

def Image.wf (i : Image) : Bool := i.imgType < 256 && i.keyIndex < 256 && i.svn < 2 ^ 32

/-- A command whose operands fit. -/
def Instr.wf : Instr → Bool
  | .tickEdge m => m.vinMv < 2 ^ 32
  | .beacon p b => okPort p && b.wf
  | .tickMarker p m _ _ => okPort p && m.wf
  | .holdoverEntry => true
  | .masterLost => true
  | .handoverAnnounce => true
  | .tickInEdge _ => true
  | .linkDelayMeasure p _ => okPort p
  | .domainRecovery _ phase targets => 2 ≤ phase && phase ≤ 5 && targets < 2 ^ 32
  | .startupPhase => true
  | .dataFlit p f => okPort p && f.wf
  | .idleFlit p f => okPort p && f.wf
  | .alignFlit p lane _ f => okPort p && lane < 8 && f.wf
  | .trainFlit p t => okPort p && t.wf
  | .dyingRcvd p d => okPort p && d.wf
  | .dyingHoldEnd p => okPort p
  | .linkRetryTimeout p => okPort p
  | .laneFailed p lane => okPort p && lane < 8
  | .degradeReq p f => okPort p && f.wf
  | .laneSwitch p mask => okPort p && mask < 256
  | .laneRepaired p lane => okPort p && lane < 8
  | .restoreReq p f => okPort p && f.wf
  | .signalDetected p => okPort p
  | .equalizeDone p mask => okPort p && mask < 256
  | .lockDone p polarity => okPort p && polarity < 256
  | .paramDone p _ => okPort p
  | .portActive p => okPort p
  | .trainingTimeout p => okPort p
  | .retrainDone p => okPort p
  | .retrainTimeout p => okPort p
  | .lossOfSignal p => okPort p
  | .read src p => okIngress src && p.wf
  | .write src p => okIngress src && p.wf
  | .writePosted src p => okIngress src && p.wf
  | .atomic src p => okIngress src && p.wf
  | .resp src p => okIngress src && p.wf
  | .msg src p => okIngress src && p.wf
  | .jobPost src p => okIngress src && p.wf
  | .jobResult src p => okIngress src && p.wf
  | .reduceContrib src p => okIngress src && p.wf
  | .reduceResult src p => okIngress src && p.wf
  | .packetAdmit src turn => okIngress src && turn.wf
  | .packetEgressDone p cls _ => (okPort p || (512 ≤ p && p < 530)) && cls < 8
  | .hotWindowEnd q => okQuad q
  | .teaselAuditStart q => okQuad q
  | .teaselAuditDone q => okQuad q
  | .homeRead q => okQuad q
  | .homeWrite q => okQuad q
  | .homeAtomic q => okQuad q
  | .trayResp p pk => okPort p && pk.wf
  | .mergeWindowClose q _ => okQuad q
  | .mergeWriteDone q _ => okQuad q
  | .dedupStale q src e t => okQuad q && okFeid src && e < 256 && okU16 t
  | .dedupFree q src e t => okQuad q && okFeid src && e < 256 && okU16 t
  | .staleWindowEnd q => okQuad q
  | .requestRetryTimeout q tray t => okQuad q && okFeid tray && okU16 t
  | .bar2Read _ addr _ => addr < 2 ^ 40
  | .bar2Write _ addr _ => addr < 2 ^ 40
  | .bar2Unsupported _ addr _ _ => addr < 2 ^ 40
  | .stackFailed s _ => okStack s
  | .stackWake s => okStack s
  | .scrubSector s soft bad _ => okStack s && Ecc.wf { soft := soft, bad := bad }
  | .stagingFillResp slot block status data => slot < 65536 && block < 512 && status < 256 && data.length ≤ 4096
  | .stagingSlotRelease _ => true
  | .stagingDeadline c r => okComp c && r < 2 ^ 32
  | .pageWalkDone q ctx _ => okQuad q && okU16 ctx
  | .faultRecordWrite _ => true
  | .faultRespRetry _ f => okU16 f
  | .faultRespAbort _ f status => okU16 f && status < 256
  | .faultTimeout _ f => okU16 f
  | .invalReq a _ => okAcc a
  | .tlbInvalidate => true
  | .invalDrained => true
  | .ctxEntryWrite a e => okAcc a && okU16 e
  | .gets a l w => okAgent a && okLine l && w.wf
  | .getm a l w d => okAgent a && okLine l && w.wf && w.off + d.length ≤ 128
  | .wfull a l c d => okAgent a && okLine l && okU16 c && d.length = 128
  | .pute a l => okAgent a && okLine l
  | .putm a l => okAgent a && okLine l
  | .dirtyNotice a l d => okAgent a && okLine l && d.length ≤ 128
  | .hread _ off _ e => off < 2 ^ 40 && e.wf
  | .hwrite _ off _ => off < 2 ^ 40
  | .hatom _ off aop aw _ _ => off < 2 ^ 40 && aop < 16 && aw < 4
  | .snoopResponse a l => okAgent a && okLine l
  | .invalidationReceive a l => okAgent a && okLine l
  | .invalidationApply a => okAgent a
  | .heartbeat a slice => okAgent a && slice < 4
  | .agentDead a => okAgent a
  | .acquireWaitMet a off _ width _ => okAgent a && off < 2 ^ 40 && (width = 4 || width = 8)
  | .acquireWaitTimeout a => okAgent a
  | .releaseComplete a l d => okAgent a && okRelease l && d.length ≤ 128
  | .jobAdmit q => okQuad q
  | .quantumStart u => okUnit u
  | .quantumComplete u e => okUnit u && e.status < 256 && e.found.wf
  | .quantumOverrun u => okUnit u
  | .halveRestore q j => okQuad q && j < 256
  | .jobTimeout q j => okQuad q && j < 256
  | .jobCancel src sw _ p => okIngress src && sw < 32 && p.wf
  | .libVerify b img => b < 2 && img.wf
  | .libActivateA a => okAcc a
  | .libActivateB a => okAcc a
  | .libSwitch => true
  | .contribTake q => okQuad q
  | .chunkTimeout g c => okU16 g && c < 2 ^ 32
  | .chunkRound g c => okU16 g && c < 2 ^ 32
  | .resultAckTimeout g c d => okU16 g && c < 2 ^ 32 && okFeid d
  | .reduceAck src sw _ p => okIngress src && sw < 32 && p.wf
  | .reduceNack src sw _ p => okIngress src && sw < 32 && p.wf
  | .groupRegister a => okAcc a
  | .groupRemove a => okAcc a
  | .groupReadmit a => okAcc a
  | .registryRegister p src m => okPort p && src < 32 && m.wf
  | .registryRemove p src m => okPort p && src < 32 && m.wf
  | .registryReadmit p src m => okPort p && src < 32 && m.wf
  | .registryAccept p src m => okPort p && src < 32 && m.wf
  | .registryRefuse p src m => okPort p && src < 32 && m.wf
  | .registryActivate p src m => okPort p && src < 32 && m.wf
  | .groupActivationTick g => okU16 g
  | .registryAnswerTimeout g => okU16 g
  | .gfParityWork q => okQuad q
  | .planLoad a => okAcc a
  | .planUnload a => okAcc a
  | .planActivate slot => slot < 16
  | .nodeLate q j n => okQuad q && j < 256 && n < 64
  | .contribRetry q j g c => okQuad q && j < 256 && okU16 g && c < 2 ^ 32
  | .backupNotify p c m => okPort p && okComp c && m.wf
  | .backupClaim p c m => okPort p && okComp c && m.wf
  | .backupGrant p c m => okPort p && okComp c && m.wf
  | .backupDeny p c m => okPort p && okComp c && m.wf
  | .backupCancel p c m => okPort p && okComp c && m.wf
  | .claimWaitTimeout q j => okQuad q && j < 256
  | .claimEntryExpire c f w => okComp c && okFeid f && okU64 w
  | .engineQuantumStart q e => okQuad q && e < 5
  | .gatherElement q e index found => okQuad q && e < 2 && index < 2 ^ 20 && found.wf
  | .speculativeRead q e ahead _ found => okQuad q && e < 2 && ahead ≤ 256 && found.wf
  | .filterRows q _ first found => okQuad q && first < 2 ^ 28 && found.wf
  | .blockDecode t nblk blk _ _ _ _ _ => t < 120 && blk < nblk
  | .tableBufferWait q t => okQuad q && t < 120
  | .memberFailed g m => g < 1024 && m < 16
  | .failMember a => okAcc a
  | .rebuildStart g m => g < 1024 && m < 16
  | .rebuildStripe g e _ => g < 1024 && okU16 e
  | .rebuildRestart g => g < 1024
  | .transitionRevert e => okU16 e
  | .resyncStripe g _ e q ep => g < 1024 && okU16 e && okQuad q && okU16 ep
  | .stepFenceReq a c => okAcc a && okComp c
  | .stepFenceDone c => okComp c
  | .dieHeartbeatTimeout d => d < 5
  | .agentReset a => okAgent a
  | .agentRejoined a _ => okAgent a
  | .recoveryFence p m => okPort p && m.wf
  | .recoveryExpel p m => okPort p && m.wf
  | .recoveryRecover p m => okPort p && m.wf
  | .provisionalEnd => true
  | .healthReadmit a item => okAcc a && okU16 item
  | .eventDelivery _ log => log < 5
  | .evlogConsWrite _ c => c < 2 ^ 32
  | .flogConsWrite _ c => c < 2 ^ 32
  | .imageVerify img _ => img.wf
  | .image p t b off n d a => okPort p && t < 256 && b < 256 && off < 2 ^ 32 && n < 2 ^ 32 && d.length ≤ 16384 && a.all Image.wf
  | .svnCommit a c => okAcc a && c < 256
  | .reportRead a _ _ => okAcc a
  | .kdsHello src f c m => okIngress src && okFeid f && okComp c && m.wf
  | .kdsAccept src f c m => okIngress src && okFeid f && okComp c && m.wf
  | .kdsLoad src f c m => okIngress src && okFeid f && okComp c && m.wf
  | .kdsRetire src f c m => okIngress src && okFeid f && okComp c && m.wf
  | .kdsCerts src f c m => okIngress src && okFeid f && okComp c && m.wf
  | .kdsClose src f c m => okIngress src && okFeid f && okComp c && m.wf
  | .kdsSessionTimeout s => okU16 s
  | .keyLive s => s < 256
  | .keyRetired s => s < 256
  | .keyZeroized s g => s < 256 && g < 256
  | .slotRetire a => okAcc a
  | .debugToken a t => okAcc a && okU64 t.serial
  | .debugUnlockExpiry => true
  | .commit a => okAcc a
  | .resync a => okAcc a
  | .commitPrepare p src m => okPort p && src < 32 && m.wf
  | .commitReady p src m => okPort p && src < 32 && m.wf
  | .commitNotReady p src m => okPort p && src < 32 && m.wf
  | .commitAnnounce p src m => okPort p && src < 32 && m.wf
  | .commitAbort p src m => okPort p && src < 32 && m.wf
  | .commitDirty p src m => okPort p && src < 32 && m.wf
  | .commitAnswerTimeout => true
  | .commitFreezeTimeout => true
  | .commitApply => true
  | .usageReportPeriodic => true
  | .reportCmd a => okAcc a
  | .campionWatchdog => true
  | .campionRestartDone => true
  | .cmpHello m => m.wf
  | .cmpAccept m => m.wf
  | .cmpRead s c r e len => okU16 s && okU64 c && r < 2 ^ 32 && okEntry e && okU16 len
  | .cmpWrite s c r e d => okU16 s && okU64 c && r < 2 ^ 32 && okEntry e && d.length < 65536
  | .cmpSubscribe s c m => okU16 s && okU64 c && m < 256
  | .cmpClose s c => okU16 s && okU64 c
  | .cmpIdleTimeout s => okU16 s
  | .mbRead _ a o n => a < 2 ^ 32 && okU16 o && okU16 n
  | .mbWrite _ a o d => a < 2 ^ 32 && okU16 o && d.length < 65536
  | .smbusSelect e => okEntry e
  | .smbusRead n => n < 256
  | .smbusStatus => true
  | .smbusAlertResponse => true
  | .consoleRead e n => okEntry e && okU16 n
  | .consoleWrite e d => okEntry e && d.length < 65536
  | .sendSlotWrite _ s o d => s < 4 && o + d.length ≤ 16448
  | .rxringWrite _ => true
  | .rxringConsWrite _ c => c < 2 ^ 32
  | .msixUnmask _ v => v < 4
  | .hostPortReset _ => true
  | .rcRead a e => okAcc a && okEntry e
  | .cfgLockSet a => okAcc a
  | .cfgLockClear a => okAcc a
  | .ownerDebugHashWrite a h => okAcc a && h.length = 32
  | .pbModeWrite a b m => okAcc a && b < 96 && m < 256
  | .portEnableWrite a p e => okAcc a && okPort p && e < 256
  | .portRoleWrite a p sub v => okAcc a && okPort p && sub < 256 && v < 65536
  | .domainIdWrite a sub v => okAcc a && sub < 256 && v < 2 ^ 32
  | .hmapStage a e => okAcc a && e.length = 32
  | .regionStage a e => okAcc a && e.length = 16
  | .sgStage a e => okAcc a && e.length = 64
  | .dictWrite a e d => okAcc a && okEntry e && d.length < 65536
  | .quadOffSet a q => okAcc a && okQuad q
  | .quadOffClear a q => okAcc a && okQuad q
  | .refclkPrefWrite a v => okAcc a && v < 256
  | .bistRun a => okAcc a
  | .bistDone f => f < 2 ^ 256
  | .bistPacketRun p m => okPort p && m.wf
  | .bistPacketResult p m => okPort p && m.wf
  | .dipStart mv => mv < 2 ^ 32
  | .dipClassB => true
  | .dipEnd mv => mv < 2 ^ 32
  | .supplyStop => true
  | .overvoltage mv => mv < 2 ^ 32
  | .overvoltageTimeout => true
  | .powerOn mv f u a => mv < 2 ^ 32 && f < 2 ^ 256 && u < 2 ^ 12 && a < 2 ^ 5
  | .hbmTrainTimeout s => okStack s
  | .modResetN _ f u a => f < 2 ^ 256 && u < 2 ^ 12 && a < 2 ^ 5
  | .warmResetCmd a => okAcc a
  | .fundamentalResetCmd a => okAcc a
  | .resetBegin f u a => f < 2 ^ 256 && u < 2 ^ 12 && a < 2 ^ 5
  | .thermalTrip d c => d < 5 && c < 256
  | .refclkSwitch => true
  | .refclkLost => true
  | .pcieRefclkLoss _ => true
  | .mgmtClkLoss => true
  | .rungEntry d u => d < 5 && u < 1024
  | .rungWake d u => d < 5 && u < 1024
  | .flitSlot p => okPort p
  | .crossbarGrant => true
  | .hostLinkUp _ w g => w < 32 && g < 16
  | .switchLost sw => sw < 32
  | .fabricRefclkReturn _ => true
  | .mgmtClkReturn => true

end Sys2Proof
end

