-- ==== Sys2Proof/Tests/Slice0.lean ====
section
/-! SUPPORT. Tests: a concrete state for the hypotheses of every statement, ill-formed terms that the check of well-formedness refuses, and
single effects compared with the spec's own figures. -/

namespace Sys2Proof.Tests

open Sys2Proof.Machine

set_option maxRecDepth 20000
set_option linter.unusedVariables false

/-- A state with a given device. -/
abbrev dev (d : Dev) : State := { dev := d }

/-- Port 0 leads to endpoint 3 and port 4 to endpoint 5, both members of composition 1; the region 0 covers the first two megabytes of
tier H of switch 0 and region 1 those of tier P, which entry 0 homes on this switch. -/
abbrev served : Dev :=
  { regs := [(Reg.portState 0, 6), (Reg.portRole 0, 0), (Reg.portExpectFeid 0, 3), (Reg.portState 4, 6), (Reg.portRole 4, 0),
      (Reg.portExpectFeid 4, 5), (Reg.membersActive 1, 40), (Reg.svcQuadLevel, 255),
      (Reg.regionActive 0, windowBase 0 / 2 ^ 21 + 2 ^ 30 + 7 * 2 ^ 32 + 2 ^ 36 + 7 * 2 ^ 48),
      (Reg.regionActive 1, 2 ^ 30 + 7 * 2 ^ 32 + 2 ^ 36 + 7 * 2 ^ 48),
      (Reg.hmapActive 0, 9 * 2 ^ 25 + 2 ^ 50 + 2 ^ 64 + 5 * 2 ^ 96 + 2 ^ 130)]
    dom := { swId := 0, planeSet := 1 }
    yar := { insts := [(5, { desc := 2 ^ 16, contribs := [3], quad := 0, state := 2 })] } }

/-- A packet of endpoint 3 in composition 1. -/
abbrev base : Packet := { ptype := .read, cls := 2, src := 3, comp := 1, rkey := 7, srcDomain := 0xFFFF }

/-- Where the checks send a packet. -/
abbrev goOf (d : Dev) (src : Ingress) (p : Packet) : Routed := match (d.checks src p).1 with | .go r => r | _ => { dests := [] }

/-- Where the route sends a packet. -/
abbrev routeOf (d : Dev) (src : Ingress) (p : Packet) : Routed := match d.route src p with | .go r => r | _ => { dests := [] }


/-- A JOB_POST payload of one COPY node, four INLINE bytes to a RESULT (R318 to R320). -/
abbrev copyJob : Bytes :=
  [1, 1, 0, 0, 0xFF, 0xFF, 1, 0, 0, 0, 0, 0] ++ [9, 0, 0, 0] ++ List.replicate 8 0 ++ [0, 1, 4, 0] ++ List.replicate 100 0
    ++ ([13, 0, 0, 2] ++ List.replicate 28 0) ++ (List.replicate 8 0 ++ [3, 7, 0, 0, 4, 0, 0, 0]) ++ (List.replicate 8 0 ++ [4, 7, 0, 0, 4, 0, 0, 0])
    ++ List.replicate 64 0 ++ [5, 6, 7, 8]

/-- Its packet and its resident job. -/
abbrev post : Packet := { base with ptype := .jobPost, cls := 4, workId := 77, payload := copyJob }
abbrev resident : Job := { pkt := post, reply := 3, admitTick := 0, bank := 1, halvings := 0, nodes := [{}] }

/-- Its quantum, as the DMA engine of quadrant 0 runs it. -/
abbrev copying : Quantum := { quad := 0, job := 0, node := 0, first := 0, count := 1, slot := 0 }

/-- A payload of one node: opcode, P0, P1, operand count, operands, inline bytes. -/
abbrev nodeJob (op p0 p1 n : Nat) (opnds : List Bytes) (inl : Bytes) : Bytes :=
  [1, 1, 0, 0, 0xFF, 0xFF, 1, 0, 0, 0, 0, 0] ++ List.replicate 12 0 ++ [0, 1] ++ leBytes 2 inl.length ++ List.replicate 100 0
    ++ padTo 128 ([BitVec.ofNat 8 op, 0, 0, BitVec.ofNat 8 n] ++ List.replicate 12 0 ++ leBytes 4 p0 ++ leBytes 4 p1 ++ List.replicate 8 0 ++ opnds.flatten) ++ inl

/-- An operand: address, kind, format, length. -/
abbrev opnd (a k f n : Nat) : Bytes := leBytes 8 a ++ leBytes 1 k ++ leBytes 1 f ++ [0, 0] ++ leBytes 4 n

/-- A COPY of a STAGED unit, a FILTER of one row, a GATHER of one negative index and one of index 0 twice, a COMPRESS to a result stream. -/
abbrev stagedJob : Bytes := nodeJob 13 0 0 2 [opnd 0 2 7 4, opnd 0 4 7 4] []
abbrev filterJob : Bytes := nodeJob 9 1 8 5 [opnd 0 3 9 8, opnd 16 3 9 40, opnd 0 4 9 0] ([5] ++ List.replicate 15 0 ++ [1] ++ List.replicate 23 0 ++ [5] ++ List.replicate 15 0)
abbrev gatherJob : Bytes := nodeJob 8 1 32 3 [opnd 0 3 8 4, opnd 0 2 7 64, opnd 0 4 7 32] [255, 255, 255, 255]
abbrev gatherTwo : Bytes := nodeJob 8 2 32 3 [opnd 0 3 8 8, opnd 0 2 7 64, opnd 0 4 7 64] (List.replicate 8 0)
abbrev compressJob : Bytes := nodeJob 11 0 0 2 [opnd 0 3 7 4, opnd 0 4 7 4] [1, 2, 3, 4]

/-- An EXPAND of an INLINE stream of one RAW block of four bytes, to an operand of a given length (R445 to R448, R465). -/
abbrev expandJob (n : Nat) : Bytes := nodeJob 10 0 0 2 [leBytes 8 0 ++ [3, 9, 1, 0] ++ leBytes 4 n, opnd 0 4 9 n]
  ([1, 0, 0, 0] ++ List.replicate 12 0 ++ [3, 0, 4, 0, 4, 0, 0, 0, 1, 2, 3, 4])

/-- A resident job with a payload. -/
abbrev job (p : Bytes) : Job := { pkt := { post with payload := p }, reply := 3, admitTick := 0, bank := 1, halvings := 0, nodes := [{}] }

/-- The GEMM of the worked example after R336: M = 1,024, N = 4,096, K = 1,024, A and B in BF16 and C in FP32. -/
abbrev gemmJob : Bytes :=
  copyJob.take 128 ++ [1, 0, 0, 3] ++ List.replicate 12 0 ++ leBytes 4 1024 ++ leBytes 4 4096 ++ leBytes 4 1024 ++ leBytes 4 0
    ++ opnd 0 1 5 0 ++ opnd 0 1 5 0 ++ opnd 0 1 7 0 ++ List.replicate 48 0

/-- Its blocks: 256 × 256 at h = 0 and 128 × 256 at h = 1 (R330, R331, R336). -/
theorem test_gemm_block : ([0, 1].map fun h => ({} : Dev).chooseUnits 0 gemmJob 0 false h { first := 0, count := 5, wide := 2 }) =
    [{ first := 0, count := 4, wide := 1 }, { first := 0, count := 2, wide := 1 }] := by decide

/-- And what it leaves of the grid of 16 × 16 units: the bands beside the block, and the rows below. -/
theorem test_gemm_rest : Dev.restOf gemmJob 0 { first := 0, count := 16, wide := 16 } { first := 0, count := 4 } =
    [{ first := 16, count := 4, wide := 15 }, { first := 4, count := 12, wide := 16 }] := by decide

/-- The worked example of R228: window offset 0x84_8000_1A00 lies in stack 11, pseudo-channel 26 of the stack, channel 13. -/
theorem test_interleave : Dev.stackAt 0x8480001A00 = 11 ∧ Dev.pseudoChannel 0x8480001A00 = 26 ∧ Dev.channelOf 0x8480001A00 = 13 := by decide

/-- A COPY whose source lies in tier P: its quantum sends the READ to the tray by the home function, and waits for it (R227). -/
theorem test_unit_reads_tier_p : (match exec (.quantumComplete (.engine 0 3) {}) (dev { served with
      regs := (Reg.ctxEntry 0, 2 ^ 64 + 2 ^ 72) :: served.regs,
      jobs := { running := [(131, { copying with xlat := [⟨0, false, 0, 7, 0, 7⟩] })],
                recs := [(0, job (nodeJob 13 0 0 2 [opnd 64 1 7 256, opnd 0 4 7 256] []))] } }) with
    | .next t => ((t.dev.home 0).subs.map (fun s => (s.feid, s.write, s.addr, s.len)), Tab.has t.dev.jobs.running 131)
    | _ => ([], false)) = ([(5, false, 64, 256)], true) := by decide

/-! ### Well-formed commands: one of each passes, and a term that breaks one check is refused (R2, R82, R120) -/

abbrev pkt : Packet := { ptype := .read }
abbrev goodMarker : Marker := { tick := 1, master := 1, depth := 1, corr := 0, holdover := false, extAligned := false, handoverIn := 0 }
abbrev goodBeacon : Beacon :=
  { tick := 1, switchId := 1, svcLevel := 0, campion := 0, tickState := 0, depth := 0, flags := 0, domId := 0, serial := 0, meas := List.replicate 32 0 }
abbrev goodTrain : TrainInfo :=
  { role := 0, domId := 0, switchId := 0, feid := 0, laneSet := 255, credits := List.replicate 9 0, salt := 0, malformed := false }
abbrev goodDying : Dying := { reason := 1, srcKind := 0, srcId := 0, tick := 0, portsLeft := 0 }
abbrev goodBist : BistMsg := { op := 1, sw := 0, toSw := 0, pass := 0, tick := 0, detail := 0 }
abbrev goodImage : Image := { imgType := 0, keyIndex := 0, svn := 0, bodyDigest := [], pubkey := [], sig := [], body := [] }
abbrev goodToken : DebugToken := { serial := 0, challenge := [], scope := 0, authority := 0, expiryTicks := 0, pubkey := [], sig := [] }

/-- One command of each row, with operands that fit. -/
theorem test_wf_accepts_0 : ([.tickEdge {}, .beacon 0 goodBeacon, .tickMarker 0 goodMarker 0 0, .tickInEdge 0, .linkDelayMeasure 0 0,
    .domainRecovery true 2 0, .dataFlit 0 ({} : Flit), .idleFlit 0 ({} : Flit), .alignFlit 0 0 0 ({} : Flit), .trainFlit 0 goodTrain,
    .dyingRcvd 0 goodDying, .dyingHoldEnd 0, .linkRetryTimeout 0, .laneFailed 0 0, .degradeReq 0 ({} : Flit), .laneSwitch 0 0, .laneRepaired 0 0,
    .restoreReq 0 ({} : Flit), .signalDetected 0, .equalizeDone 0 0, .lockDone 0 0, .paramDone 0 0, .portActive 0, .trainingTimeout 0, .retrainDone 0,
    .retrainTimeout 0, .lossOfSignal 0, .read (.port 1) pkt, .write (.port 1) pkt, .writePosted (.port 1) pkt, .atomic (.port 1) pkt,
    .resp (.port 1) pkt, .msg (.port 1) pkt, .jobPost (.port 1) pkt, .jobResult (.port 1) pkt, .reduceContrib (.port 1) pkt,
    .reduceResult (.port 1) pkt, .packetAdmit (.port 1) { cls := 7, cycle := 7499 }, .packetEgressDone 0 0 true, .hotWindowEnd 0, .teaselAuditStart 0, .teaselAuditDone 0,
    .homeRead 0, .homeWrite 0, .homeAtomic 0, .trayResp 0 pkt, .mergeWindowClose 0 0, .mergeWriteDone 0 0, .dedupStale 0 0 0 0, .dedupFree 0 0 0 0,
    .staleWindowEnd 0, .requestRetryTimeout 0 0 0, .bar2Read .ha 0 0, .bar2Write .ha 0 [], .bar2Unsupported .ha 0 0 true, .stackFailed 0 true,
    .stackWake 0, .scrubSector 0 [] [] true, .stagingFillResp 0 511 0 [], .stagingSlotRelease 0, .stagingDeadline 0 0, .pageWalkDone 0 0 0,
    .faultRecordWrite .ha, .faultRespRetry .ha 0] : List Instr).all (·.wf) = true := by decide

/-- One command of each row, with operands that fit. -/
theorem test_wf_accepts_1 : ([.faultRespAbort .ha 0 0, .faultTimeout .ha 0, .invalReq 0 0, .ctxEntryWrite 0 0, .gets 0 0 { ctx := 0 }, .getm 0 0 { ctx := 0 } [],
    .wfull 0 0 0 (List.replicate 128 0), .pute 0 0, .putm 0 0, .dirtyNotice 0 0 [], .hread .home 0 0 {}, .hwrite .home 0 [],
    .hatom .home 0 0 0 true [], .snoopResponse 0 0, .invalidationReceive 0 0, .invalidationApply 0, .heartbeat 0 0, .agentDead 0,
    .acquireWaitMet 0 0 0 4 0, .acquireWaitTimeout 0, .releaseComplete 0 0 [], .jobAdmit 0, .quantumStart (.tile 1), .quantumComplete (.tile 1) {},
    .quantumOverrun (.tile 1), .halveRestore 0 0, .jobTimeout 0 0, .jobCancel (.port 1) 31 true pkt,
    .libVerify 0 goodImage, .libActivateA 0, .libActivateB 0, .contribTake 0, .chunkTimeout 0 0, .chunkRound 0 0, .resultAckTimeout 0 0 0,
    .reduceAck (.port 1) 31 true pkt, .reduceNack (.port 1) 31 true pkt, .groupRegister 0, .groupRemove 0, .groupReadmit 0,
    .registryRegister 0 0 ({ op := 1 } : RegistryMsg), .registryRemove 0 0 ({ op := 1 } : RegistryMsg),
    .registryReadmit 0 0 ({ op := 1 } : RegistryMsg), .registryAccept 0 0 ({ op := 1 } : RegistryMsg),
    .registryRefuse 0 0 ({ op := 1 } : RegistryMsg), .registryActivate 0 0 ({ op := 1 } : RegistryMsg), .groupActivationTick 0,
    .registryAnswerTimeout 0, .gfParityWork 0, .planLoad 0, .planUnload 0, .planActivate 0, .nodeLate 0 0 0, .contribRetry 0 0 0 0,
    .backupNotify 0 0 ({ workId := 1, op := 1 } : CancelMsg), .backupClaim 0 0 ({ workId := 1, op := 1 } : CancelMsg),
    .backupGrant 0 0 ({ workId := 1, op := 1 } : CancelMsg), .backupDeny 0 0 ({ workId := 1, op := 1 } : CancelMsg),
    .backupCancel 0 0 ({ workId := 1, op := 1 } : CancelMsg), .claimWaitTimeout 0 0, .claimEntryExpire 0 0 0, .engineQuantumStart 0 0,
    .gatherElement 0 0 0 Ecc.clean, .speculativeRead 0 0 0 true Ecc.clean] : List Instr).all (·.wf) = true := by decide

/-- One command of each row, with operands that fit. -/
theorem test_wf_accepts_2 : ([.filterRows 0 0 0 Ecc.clean, .blockDecode 0 1 0 0 0 0 [] 0, .tableBufferWait 0 0, .memberFailed 0 0, .failMember 0,
    .rebuildStart 0 0, .rebuildStripe 0 0 0, .rebuildRestart 0, .transitionRevert 0, .resyncStripe 0 0 65535 3 65535, .stepFenceReq 0 0,
    .stepFenceDone 0, .dieHeartbeatTimeout 0, .agentReset 0, .agentRejoined 0 true, .recoveryFence 0 ({ op := 1 } : RecoveryMsg),
    .recoveryExpel 0 ({ op := 1 } : RecoveryMsg), .recoveryRecover 0 ({ op := 1 } : RecoveryMsg), .healthReadmit 0 0, .eventDelivery .ha 0,
    .evlogConsWrite .ha 0, .flogConsWrite .ha 0, .imageVerify goodImage true, .image 0 0 0 0 0 [] none, .svnCommit 0 0, .reportRead 0 0 0,
    .kdsHello (.port 1) 0 0 ({ op := 1 } : SessMsg), .kdsAccept (.port 1) 0 0 ({ op := 1 } : SessMsg), .kdsLoad (.port 1) 0 0 ({ op := 1 } : SessMsg),
    .kdsRetire (.port 1) 0 0 ({ op := 1 } : SessMsg), .kdsCerts (.port 1) 0 0 ({ op := 1 } : SessMsg),
    .kdsClose (.port 1) 0 0 ({ op := 1 } : SessMsg), .kdsSessionTimeout 0, .keyLive 0, .keyRetired 0, .keyZeroized 0 0, .slotRetire 0,
    .debugToken 0 goodToken, .commit 0, .resync 0, .commitPrepare 0 0 ({ op := 1 } : CommitMsg), .commitReady 0 0 ({ op := 1 } : CommitMsg),
    .commitNotReady 0 0 ({ op := 1 } : CommitMsg), .commitAnnounce 0 0 ({ op := 1 } : CommitMsg), .commitAbort 0 0 ({ op := 1 } : CommitMsg),
    .commitDirty 0 0 ({ op := 1 } : CommitMsg), .reportCmd 0, .cmpHello ({ op := 1 } : SessMsg), .cmpAccept ({ op := 1 } : SessMsg),
    .cmpRead 0 0 0 { index := 1, sub := 1 } 0, .cmpWrite 0 0 0 { index := 1, sub := 1 } [], .cmpSubscribe 0 0 0, .cmpClose 0 0, .cmpIdleTimeout 0,
    .mbRead .ha 0 0 0, .mbWrite .ha 0 0 [], .smbusSelect { index := 1, sub := 1 }, .smbusRead 0, .consoleRead { index := 1, sub := 1 } 0,
    .consoleWrite { index := 1, sub := 1 } [], .sendSlotWrite .ha 0 0 [], .rxringWrite .ha, .rxringConsWrite .ha 0,
    .msixUnmask .ha 0] : List Instr).all (·.wf) = true := by decide

/-- One command of each row, with operands that fit. -/
theorem test_wf_accepts_3 : ([.hostPortReset .ha, .rcRead 0 { index := 1, sub := 1 }, .cfgLockSet 0, .cfgLockClear 0,
    .ownerDebugHashWrite 0 (List.replicate 32 0), .pbModeWrite 0 0 0, .portEnableWrite 0 0 0, .portRoleWrite 0 0 0 0, .domainIdWrite 0 0 0,
    .hmapStage 0 (List.replicate 32 0), .regionStage 0 (List.replicate 16 0), .sgStage 0 (List.replicate 64 0),
    .dictWrite 0 { index := 1, sub := 1 } [], .quadOffSet 0 0, .quadOffClear 0 0, .refclkPrefWrite 0 0, .bistRun 0, .bistDone 0,
    .bistPacketRun 0 goodBist, .bistPacketResult 0 goodBist, .dipStart 0, .dipEnd 0, .overvoltage 0, .powerOn 0 0 0 0, .hbmTrainTimeout 0,
    .modResetN true 0 0 0, .warmResetCmd 0, .fundamentalResetCmd 0, .resetBegin 0 0 0, .thermalTrip 0 0, .pcieRefclkLoss .ha, .rungEntry 0 0,
    .rungWake 0 0, .flitSlot 0, .hostLinkUp .ha 0 0, .switchLost 0, .fabricRefclkReturn true, .holdoverEntry, .masterLost, .handoverAnnounce,
    .startupPhase, .tlbInvalidate, .invalDrained, .libSwitch, .provisionalEnd, .debugUnlockExpiry, .commitAnswerTimeout, .commitFreezeTimeout,
    .commitApply, .usageReportPeriodic, .campionWatchdog, .campionRestartDone, .smbusStatus, .smbusAlertResponse, .dipClassB, .supplyStop,
    .overvoltageTimeout, .refclkSwitch, .refclkLost, .mgmtClkLoss, .crossbarGrant, .mgmtClkReturn] : List Instr).all (·.wf) = true := by decide

/-- One operand out of its range. -/
theorem test_wf_refuses_0 : ([.tickEdge { vinMv := 2 ^ 32 }, .beacon 384 goodBeacon, .beacon 0 { goodBeacon with meas := [] },
    .tickMarker 384 goodMarker 0 0, .tickMarker 0 { goodMarker with depth := 32 } 0 0, .linkDelayMeasure 384 0, .domainRecovery true 1 0,
    .domainRecovery true 6 0, .domainRecovery true 2 (2 ^ 32), .dataFlit 384 ({} : Flit), .dataFlit 0 ({ cls := 8 } : Flit),
    .idleFlit 384 ({} : Flit), .idleFlit 0 ({ cls := 8 } : Flit), .alignFlit 384 0 0 ({} : Flit), .alignFlit 0 8 0 ({} : Flit),
    .alignFlit 0 0 0 ({ cls := 8 } : Flit), .trainFlit 384 goodTrain, .trainFlit 0 { goodTrain with credits := [] }, .dyingRcvd 384 goodDying,
    .dyingRcvd 0 { goodDying with reason := 256 }, .dyingHoldEnd 384, .linkRetryTimeout 384, .laneFailed 384 0, .laneFailed 0 8,
    .degradeReq 384 ({} : Flit), .degradeReq 0 ({ cls := 8 } : Flit), .laneSwitch 384 0, .laneSwitch 0 256, .laneRepaired 384 0, .laneRepaired 0 8,
    .restoreReq 384 ({} : Flit), .restoreReq 0 ({ cls := 8 } : Flit), .signalDetected 384, .equalizeDone 384 0, .equalizeDone 0 256, .lockDone 384 0,
    .lockDone 0 256, .paramDone 384 0, .portActive 384, .trainingTimeout 384, .retrainDone 384, .retrainTimeout 384, .lossOfSignal 384,
    .read (.port 384) pkt, .read (.port 1) { pkt with dst := 4096 }, .write (.port 384) pkt, .write (.port 1) { pkt with dst := 4096 },
    .writePosted (.port 384) pkt] : List Instr).any (·.wf) = false := by decide

/-- One operand out of its range. -/
theorem test_wf_refuses_1 : ([.writePosted (.port 1) { pkt with dst := 4096 }, .atomic (.port 384) pkt, .atomic (.port 1) { pkt with dst := 4096 },
    .resp (.port 384) pkt, .resp (.port 1) { pkt with dst := 4096 }, .msg (.port 384) pkt, .msg (.port 1) { pkt with dst := 4096 },
    .jobPost (.port 384) pkt, .jobPost (.port 1) { pkt with dst := 4096 }, .jobResult (.port 384) pkt, .jobResult (.port 1) { pkt with dst := 4096 },
    .reduceContrib (.port 384) pkt, .reduceContrib (.port 1) { pkt with dst := 4096 }, .reduceResult (.port 384) pkt,
    .reduceResult (.port 1) { pkt with dst := 4096 }, .packetAdmit (.port 384) { cls := 0, cycle := 0 }, .packetAdmit (.port 1) { cls := 8, cycle := 0 }, .packetAdmit (.port 1) { cls := 0, cycle := 7500 }, .packetEgressDone 384 0 true,
    .packetEgressDone 0 8 true, .hotWindowEnd 4, .teaselAuditStart 4, .teaselAuditDone 4, .homeRead 4, .homeWrite 4, .homeAtomic 4, .trayResp 384 pkt,
    .trayResp 0 { pkt with dst := 4096 }, .mergeWindowClose 4 0, .mergeWriteDone 4 0, .dedupStale 4 0 0 0, .dedupStale 0 4096 0 0,
    .dedupStale 0 0 256 0, .dedupStale 0 0 0 65536, .dedupFree 4 0 0 0, .dedupFree 0 4096 0 0, .dedupFree 0 0 256 0, .dedupFree 0 0 0 65536,
    .staleWindowEnd 4, .requestRetryTimeout 4 0 0, .requestRetryTimeout 0 4096 0, .requestRetryTimeout 0 0 65536, .bar2Read .ha (2 ^ 40) 0,
    .bar2Write .ha (2 ^ 40) [], .bar2Unsupported .ha (2 ^ 40) 0 true, .stackFailed 12 true, .stackWake 12, .scrubSector 12 [] [] true, .scrubSector 0 [] [9663676416] true, .scrubSector 0 [9663676416] [] true,
    .stagingFillResp 65536 0 0 [], .stagingFillResp 0 512 0 [], .stagingFillResp 0 0 256 []] : List Instr).any (·.wf) = false := by decide

/-- One operand out of its range. -/
theorem test_wf_refuses_2 : ([.stagingDeadline 64 0, .stagingDeadline 0 (2 ^ 32), .pageWalkDone 4 0 0, .pageWalkDone 0 65536 0,
    .faultRespRetry .ha 65536, .faultRespAbort .ha 65536 0, .faultRespAbort .ha 0 256, .faultTimeout .ha 65536, .invalReq 4 0, .ctxEntryWrite 4 0,
    .ctxEntryWrite 0 65536, .gets 125 0 { ctx := 0 }, .gets 0 (2 ^ 33) { ctx := 0 }, .gets 0 0 { ctx := 65536 }, .gets 0 0 { ctx := 0, found := { l2 := [4831838208] } }, .getm 125 0 { ctx := 0 } [],
    .getm 0 (2 ^ 33) { ctx := 0 } [], .getm 0 0 { ctx := 65536 } [], .getm 0 0 { ctx := 0, found := { soft := [9663676416] } } [],
    .getm 0 0 { ctx := 0 } (List.replicate 129 0), .wfull 125 0 0 (List.replicate 128 0), .wfull 0 (2 ^ 33) 0 (List.replicate 128 0),
    .wfull 0 0 65536 (List.replicate 128 0), .wfull 0 0 0 (List.replicate 127 0), .pute 125 0, .pute 0 (2 ^ 33), .putm 125 0, .putm 0 (2 ^ 33),
    .dirtyNotice 125 0 [], .dirtyNotice 0 (2 ^ 33) [], .dirtyNotice 0 0 (List.replicate 129 0), .hread .home (2 ^ 40) 0 {}, .hread .home 0 0 { l2 := [4831838208] },
    .hwrite .home (2 ^ 40) [], .hatom .home (2 ^ 40) 0 0 true [], .hatom .home 0 16 0 true [], .hatom .home 0 0 4 true [], .snoopResponse 125 0,
    .snoopResponse 0 (2 ^ 33), .invalidationReceive 125 0, .invalidationReceive 0 (2 ^ 33), .invalidationApply 125, .heartbeat 125 0, .heartbeat 0 4,
    .agentDead 125, .acquireWaitMet 125 0 0 4 0, .acquireWaitMet 0 (2 ^ 40) 0 4 0, .acquireWaitMet 0 0 0 5 0, .acquireWaitTimeout 125,
    .releaseComplete 125 0 [], .releaseComplete 0 (2 ^ 33 + 0x2E0000000000 / 128) [], .packetAdmit (.port 1) { cls := 8, cycle := 0 }, .packetAdmit (.port 1) { cls := 7, cycle := 7500 },
    .getm 0 0 { ctx := 0, off := 1 } (List.replicate 128 0), .gets 0 0 { ctx := 0, atomic := some { off := 2, aop := 0, awidth := 0 } }] : List Instr).any (·.wf) = false := by decide

/-- One operand out of its range. -/
theorem test_wf_refuses_3 : ([.releaseComplete 0 0 (List.replicate 129 0), .jobAdmit 4, .quantumStart (.tile 120), .quantumComplete (.tile 120) {},
    .quantumComplete (.tile 1) { status := 256 }, .quantumOverrun (.tile 120), .halveRestore 4 0, .halveRestore 0 256, .jobTimeout 4 0,
    .jobTimeout 0 256, .jobCancel (.port 384) 0 true pkt, .jobCancel (.port 1) 32 true pkt, .jobCancel (.port 1) 0 true { pkt with dst := 4096 }, .libVerify 2 goodImage, .libVerify 0 { goodImage with imgType := 256 },
    .libActivateA 4, .libActivateB 4, .contribTake 4, .chunkTimeout 65536 0, .chunkTimeout 0 (2 ^ 32), .chunkRound 65536 0, .chunkRound 0 (2 ^ 32),
    .resultAckTimeout 65536 0 0, .resultAckTimeout 0 (2 ^ 32) 0, .resultAckTimeout 0 0 4096, .reduceAck (.port 384) 0 true pkt, .reduceAck (.port 1) 32 true pkt, .reduceAck (.port 1) 0 true { pkt with dst := 4096 }, .reduceNack (.port 384) 0 true pkt,
    .reduceNack (.port 1) 32 true pkt, .reduceNack (.port 1) 0 true { pkt with dst := 4096 }, .groupRegister 4, .groupRemove 4,
    .groupReadmit 4, .registryRegister 384 0 ({ op := 1 } : RegistryMsg), .registryRegister 0 32 ({ op := 1 } : RegistryMsg),
    .registryRegister 0 0 ({ op := 256 } : RegistryMsg), .registryRemove 384 0 ({ op := 1 } : RegistryMsg),
    .registryRemove 0 32 ({ op := 1 } : RegistryMsg), .registryRemove 0 0 ({ op := 256 } : RegistryMsg),
    .registryReadmit 384 0 ({ op := 1 } : RegistryMsg), .registryReadmit 0 32 ({ op := 1 } : RegistryMsg),
    .registryReadmit 0 0 ({ op := 256 } : RegistryMsg), .registryAccept 384 0 ({ op := 1 } : RegistryMsg),
    .registryAccept 0 32 ({ op := 1 } : RegistryMsg)] : List Instr).any (·.wf) = false := by decide

/-- One operand out of its range. -/
theorem test_wf_refuses_4 : ([.registryAccept 0 0 ({ op := 256 } : RegistryMsg), .registryRefuse 384 0 ({ op := 1 } : RegistryMsg),
    .registryRefuse 0 32 ({ op := 1 } : RegistryMsg), .registryRefuse 0 0 ({ op := 256 } : RegistryMsg),
    .registryActivate 384 0 ({ op := 1 } : RegistryMsg), .registryActivate 0 32 ({ op := 1 } : RegistryMsg),
    .registryActivate 0 0 ({ op := 256 } : RegistryMsg), .groupActivationTick 65536, .registryAnswerTimeout 65536, .gfParityWork 4, .planLoad 4,
    .planUnload 4, .planActivate 16, .nodeLate 4 0 0, .nodeLate 0 256 0, .nodeLate 0 0 64, .contribRetry 4 0 0 0, .contribRetry 0 256 0 0,
    .contribRetry 0 0 65536 0, .contribRetry 0 0 0 (2 ^ 32), .backupNotify 384 0 ({ workId := 1, op := 1 } : CancelMsg),
    .backupNotify 0 64 ({ workId := 1, op := 1 } : CancelMsg), .backupNotify 0 0 ({ workId := 1, op := 256 } : CancelMsg),
    .backupClaim 384 0 ({ workId := 1, op := 1 } : CancelMsg), .backupClaim 0 64 ({ workId := 1, op := 1 } : CancelMsg),
    .backupClaim 0 0 ({ workId := 1, op := 256 } : CancelMsg), .backupGrant 384 0 ({ workId := 1, op := 1 } : CancelMsg),
    .backupGrant 0 64 ({ workId := 1, op := 1 } : CancelMsg), .backupGrant 0 0 ({ workId := 1, op := 256 } : CancelMsg),
    .backupDeny 384 0 ({ workId := 1, op := 1 } : CancelMsg), .backupDeny 0 64 ({ workId := 1, op := 1 } : CancelMsg),
    .backupDeny 0 0 ({ workId := 1, op := 256 } : CancelMsg), .backupCancel 384 0 ({ workId := 1, op := 1 } : CancelMsg),
    .backupCancel 0 64 ({ workId := 1, op := 1 } : CancelMsg), .backupCancel 0 0 ({ workId := 1, op := 256 } : CancelMsg), .claimWaitTimeout 4 0,
    .claimWaitTimeout 0 256, .claimEntryExpire 64 0 0, .claimEntryExpire 0 4096 0, .claimEntryExpire 0 0 (2 ^ 64), .engineQuantumStart 4 0,
    .engineQuantumStart 0 5, .gatherElement 4 0 0 Ecc.clean, .gatherElement 0 2 0 Ecc.clean,
    .gatherElement 0 0 1048576 Ecc.clean, .speculativeRead 4 0 0 true Ecc.clean,
    .speculativeRead 0 2 0 true Ecc.clean, .speculativeRead 0 0 257 true Ecc.clean] : List Instr).any (·.wf) = false := by decide

/-- One operand out of its range. -/
theorem test_wf_refuses_5 : ([.filterRows 4 0 0 Ecc.clean, .filterRows 0 0 268435456 Ecc.clean, .blockDecode 120 1 0 0 0 0 [] 0, .blockDecode 0 1 1 0 0 0 [] 0,
    .tableBufferWait 4 0, .tableBufferWait 0 120, .memberFailed 1024 0, .memberFailed 0 16, .failMember 4, .rebuildStart 1024 0, .rebuildStart 0 16,
    .rebuildStripe 1024 0 0, .rebuildStripe 0 65536 0, .rebuildRestart 1024, .transitionRevert 65536, .resyncStripe 1024 0 0 0 0, .resyncStripe 0 0 65536 0 0, .resyncStripe 0 0 0 4 0, .resyncStripe 0 0 0 0 65536, .stepFenceReq 4 0, .stepFenceReq 0 64,
    .stepFenceDone 64, .dieHeartbeatTimeout 5, .agentReset 125, .agentRejoined 125 true, .recoveryFence 384 ({ op := 1 } : RecoveryMsg),
    .recoveryFence 0 ({ op := 256 } : RecoveryMsg), .recoveryExpel 384 ({ op := 1 } : RecoveryMsg), .recoveryExpel 0 ({ op := 256 } : RecoveryMsg),
    .recoveryRecover 384 ({ op := 1 } : RecoveryMsg), .recoveryRecover 0 ({ op := 256 } : RecoveryMsg), .healthReadmit 4 0, .healthReadmit 0 65536,
    .eventDelivery .ha 5, .evlogConsWrite .ha (2 ^ 32), .flogConsWrite .ha (2 ^ 32), .imageVerify { goodImage with imgType := 256 } true,
    .image 384 0 0 0 0 [] none, .image 0 256 0 0 0 [] none, .image 0 0 256 0 0 [] none, .image 0 0 0 (2 ^ 32) 0 [] none,
    .image 0 0 0 0 (2 ^ 32) [] none, .image 0 0 0 0 0 [] (some { goodImage with imgType := 256 }), .svnCommit 4 0, .svnCommit 0 256,
    .reportRead 4 0 0, .kdsHello (.port 384) 0 0 ({ op := 1 } : SessMsg), .kdsHello (.port 1) 4096 0 ({ op := 1 } : SessMsg),
    .kdsHello (.port 1) 0 64 ({ op := 1 } : SessMsg), .kdsHello (.port 1) 0 0 ({ op := 256 } : SessMsg),
    .kdsAccept (.port 384) 0 0 ({ op := 1 } : SessMsg),
    .kdsAccept (.port 1) 4096 0 ({ op := 1 } : SessMsg)] : List Instr).any (·.wf) = false := by decide

/-- One operand out of its range. -/
theorem test_wf_refuses_6 : ([.kdsAccept (.port 1) 0 64 ({ op := 1 } : SessMsg), .kdsAccept (.port 1) 0 0 ({ op := 256 } : SessMsg),
    .kdsLoad (.port 384) 0 0 ({ op := 1 } : SessMsg), .kdsLoad (.port 1) 4096 0 ({ op := 1 } : SessMsg),
    .kdsLoad (.port 1) 0 64 ({ op := 1 } : SessMsg), .kdsLoad (.port 1) 0 0 ({ op := 256 } : SessMsg),
    .kdsRetire (.port 384) 0 0 ({ op := 1 } : SessMsg), .kdsRetire (.port 1) 4096 0 ({ op := 1 } : SessMsg),
    .kdsRetire (.port 1) 0 64 ({ op := 1 } : SessMsg), .kdsRetire (.port 1) 0 0 ({ op := 256 } : SessMsg),
    .kdsCerts (.port 384) 0 0 ({ op := 1 } : SessMsg), .kdsCerts (.port 1) 4096 0 ({ op := 1 } : SessMsg),
    .kdsCerts (.port 1) 0 64 ({ op := 1 } : SessMsg), .kdsCerts (.port 1) 0 0 ({ op := 256 } : SessMsg),
    .kdsClose (.port 384) 0 0 ({ op := 1 } : SessMsg), .kdsClose (.port 1) 4096 0 ({ op := 1 } : SessMsg),
    .kdsClose (.port 1) 0 64 ({ op := 1 } : SessMsg), .kdsClose (.port 1) 0 0 ({ op := 256 } : SessMsg), .kdsSessionTimeout 65536, .keyLive 256,
    .keyRetired 256, .keyZeroized 256 0, .keyZeroized 0 256, .slotRetire 4, .debugToken 4 goodToken,
    .debugToken 0 { goodToken with serial := 2 ^ 64 }, .commit 4, .resync 4, .commitPrepare 384 0 ({ op := 1 } : CommitMsg),
    .commitPrepare 0 32 ({ op := 1 } : CommitMsg), .commitPrepare 0 0 ({ op := 256 } : CommitMsg), .commitReady 384 0 ({ op := 1 } : CommitMsg),
    .commitReady 0 32 ({ op := 1 } : CommitMsg), .commitReady 0 0 ({ op := 256 } : CommitMsg), .commitNotReady 384 0 ({ op := 1 } : CommitMsg),
    .commitNotReady 0 32 ({ op := 1 } : CommitMsg), .commitNotReady 0 0 ({ op := 256 } : CommitMsg), .commitAnnounce 384 0 ({ op := 1 } : CommitMsg),
    .commitAnnounce 0 32 ({ op := 1 } : CommitMsg), .commitAnnounce 0 0 ({ op := 256 } : CommitMsg), .commitAbort 384 0 ({ op := 1 } : CommitMsg),
    .commitAbort 0 32 ({ op := 1 } : CommitMsg), .commitAbort 0 0 ({ op := 256 } : CommitMsg), .commitDirty 384 0 ({ op := 1 } : CommitMsg),
    .commitDirty 0 32 ({ op := 1 } : CommitMsg), .commitDirty 0 0 ({ op := 256 } : CommitMsg), .reportCmd 4,
    .cmpHello ({ op := 256 } : SessMsg)] : List Instr).any (·.wf) = false := by decide

/-- One operand out of its range. -/
theorem test_wf_refuses_7 : ([.cmpAccept ({ op := 256 } : SessMsg), .cmpRead 65536 0 0 { index := 1, sub := 1 } 0,
    .cmpRead 0 (2 ^ 64) 0 { index := 1, sub := 1 } 0, .cmpRead 0 0 (2 ^ 32) { index := 1, sub := 1 } 0, .cmpRead 0 0 0 { index := 65536, sub := 0 } 0,
    .cmpRead 0 0 0 { index := 1, sub := 1 } 65536, .cmpWrite 65536 0 0 { index := 1, sub := 1 } [],
    .cmpWrite 0 (2 ^ 64) 0 { index := 1, sub := 1 } [], .cmpWrite 0 0 (2 ^ 32) { index := 1, sub := 1 } [],
    .cmpWrite 0 0 0 { index := 65536, sub := 0 } [], .cmpSubscribe 65536 0 0, .cmpSubscribe 0 (2 ^ 64) 0, .cmpSubscribe 0 0 256, .cmpClose 65536 0,
    .cmpClose 0 (2 ^ 64), .cmpIdleTimeout 65536, .mbRead .ha (2 ^ 32) 0 0, .mbRead .ha 0 65536 0, .mbRead .ha 0 0 65536, .mbWrite .ha (2 ^ 32) 0 [],
    .mbWrite .ha 0 65536 [], .smbusSelect { index := 65536, sub := 0 }, .smbusRead 256, .consoleRead { index := 65536, sub := 0 } 0,
    .consoleRead { index := 1, sub := 1 } 65536, .consoleWrite { index := 65536, sub := 0 } [], .sendSlotWrite .ha 4 0 [],
    .sendSlotWrite .ha 0 16448 [0], .rxringConsWrite .ha (2 ^ 32), .msixUnmask .ha 4, .rcRead 4 { index := 1, sub := 1 },
    .rcRead 0 { index := 65536, sub := 0 }, .cfgLockSet 4, .cfgLockClear 4, .ownerDebugHashWrite 4 (List.replicate 32 0),
    .ownerDebugHashWrite 0 (List.replicate 31 0), .pbModeWrite 4 0 0, .pbModeWrite 0 96 0, .pbModeWrite 0 0 256, .portEnableWrite 4 0 0,
    .portEnableWrite 0 384 0, .portEnableWrite 0 0 256, .portRoleWrite 4 0 0 0, .portRoleWrite 0 384 0 0, .portRoleWrite 0 0 256 0,
    .portRoleWrite 0 0 0 65536, .domainIdWrite 4 0 0, .domainIdWrite 0 256 0] : List Instr).any (·.wf) = false := by decide

/-- One operand out of its range. -/
theorem test_wf_refuses_8 : ([.domainIdWrite 0 0 (2 ^ 32), .hmapStage 4 (List.replicate 32 0), .hmapStage 0 (List.replicate 31 0),
    .regionStage 4 (List.replicate 16 0), .regionStage 0 (List.replicate 15 0), .sgStage 4 (List.replicate 64 0), .sgStage 0 (List.replicate 63 0),
    .dictWrite 4 { index := 1, sub := 1 } [], .dictWrite 0 { index := 65536, sub := 0 } [], .quadOffSet 4 0, .quadOffSet 0 4, .quadOffClear 4 0,
    .quadOffClear 0 4, .refclkPrefWrite 4 0, .refclkPrefWrite 0 256, .bistRun 4, .bistDone (2 ^ 256), .bistPacketRun 384 goodBist,
    .bistPacketRun 0 { goodBist with op := 256 }, .bistPacketResult 384 goodBist, .bistPacketResult 0 { goodBist with op := 256 }, .dipStart (2 ^ 32),
    .dipEnd (2 ^ 32), .overvoltage (2 ^ 32), .powerOn (2 ^ 32) 0 0 0, .powerOn 0 (2 ^ 256) 0 0, .powerOn 0 0 (2 ^ 12) 0, .powerOn 0 0 0 (2 ^ 5),
    .hbmTrainTimeout 12, .modResetN true (2 ^ 256) 0 0, .modResetN true 0 (2 ^ 12) 0, .modResetN true 0 0 (2 ^ 5), .warmResetCmd 4,
    .fundamentalResetCmd 4, .resetBegin (2 ^ 256) 0 0, .resetBegin 0 (2 ^ 12) 0, .resetBegin 0 0 (2 ^ 5), .thermalTrip 5 0, .thermalTrip 0 256,
    .rungEntry 5 0, .rungEntry 0 1024, .rungWake 5 0, .rungWake 0 1024, .flitSlot 384, .hostLinkUp .ha 32 0, .hostLinkUp .ha 0 16,
    .switchLost 32] : List Instr).any (·.wf) = false := by decide

/-- One field out of its width. -/
theorem test_wf_packet : ([{ pkt with cls := 8 }, { pkt with carrier := some 8 }, { pkt with dst := 4096 }, { pkt with src := 4096 }, { pkt with comp := 64 },
    { pkt with kslot := 256 }, { pkt with kgen := 256 }, { pkt with tag := 65536 }, { pkt with reqEpoch := 256 }, { pkt with status := 256 },
    { pkt with da := 2 ^ 46 }, { pkt with epoch := 65536 }, { pkt with rkey := 2 ^ 32 }, { pkt with rlen := 2 ^ 13 }, { pkt with aop := 16 },
    { pkt with awidth := 4 }, { pkt with swId := 32 }, { pkt with dstDomain := 65536 }, { pkt with srcDomain := 65536 }, { pkt with mqueue := 65536 },
    { pkt with workId := (2 ^ 64) }, { pkt with quad := 16 }, { pkt with node := 256 }, { pkt with part := 65536 }, { pkt with group := 65536 },
    { pkt with chunk := 2 ^ 32 }, { pkt with contrib := 4096 }, { pkt with ifmt := 16 }, { pkt with nelem := 65536 }, { pkt with rop := 16 },
    { pkt with ctype := 256 }, { pkt with srcSw := 32 }] : List Packet).any (·.wf) = false := by decide

/-- One field out of its width. -/
theorem test_wf_flit : ([{ ({} : Flit) with ftype := 16 }, { ({} : Flit) with cls := 8 }, { ({} : Flit) with seq := 4096 },
    { ({} : Flit) with ack := 4096 }, { ({} : Flit) with craSel := 16 }, { ({} : Flit) with craCnt := 256 }, { ({} : Flit) with crbSel := 16 },
    { ({} : Flit) with crbCnt := 256 }, { ({} : Flit) with sop := 256 }, { ({} : Flit) with lcmd := 16 }, { ({} : Flit) with lmask := 256 },
    { ({} : Flit) with payload := List.replicate 243 0 }] : List Flit).any (·.wf) = false := by decide

/-- One field out of its width. -/
theorem test_wf_marker : ([{ goodMarker with tick := (2 ^ 64) }, { goodMarker with master := 32 }, { goodMarker with depth := 32 },
    { goodMarker with corr := 2 ^ 32 }, { goodMarker with handoverIn := 256 }] : List Marker).any (·.wf) = false := by decide

/-- One field out of its width. -/
theorem test_wf_beacon : ([{ goodBeacon with tick := (2 ^ 64) }, { goodBeacon with switchId := 256 }, { goodBeacon with svcLevel := 256 },
    { goodBeacon with campion := 256 }, { goodBeacon with tickState := 256 }, { goodBeacon with depth := 256 }, { goodBeacon with flags := 256 },
    { goodBeacon with domId := 65536 }, { goodBeacon with serial := (2 ^ 64) },
    { goodBeacon with meas := List.replicate 31 0 }] : List Beacon).any (·.wf) = false := by decide

/-- One field out of its width. -/
theorem test_wf_trainInfo : ([{ goodTrain with role := 4 }, { goodTrain with domId := 65536 }, { goodTrain with switchId := 256 },
    { goodTrain with feid := 4096 }, { goodTrain with laneSet := 256 },
    { goodTrain with credits := List.replicate 8 0 }] : List TrainInfo).any (·.wf) = false := by decide

/-- One field out of its width. -/
theorem test_wf_dying : ([{ goodDying with reason := 256 }, { goodDying with srcKind := 256 }, { goodDying with srcId := 65536 },
    { goodDying with tick := (2 ^ 64) }, { goodDying with portsLeft := 65536 }] : List Dying).any (·.wf) = false := by decide

/-- One field out of its width. -/
theorem test_wf_commitMsg : ([{ ({ op := 1 } : CommitMsg) with op := 256 }, { ({ op := 1 } : CommitMsg) with reason := 256 },
    { ({ op := 1 } : CommitMsg) with sw := 256 }, { ({ op := 1 } : CommitMsg) with seq := (2 ^ 64) },
    { ({ op := 1 } : CommitMsg) with tick := (2 ^ 64) }, { ({ op := 1 } : CommitMsg) with changed := (2 ^ 64) },
    { ({ op := 1 } : CommitMsg) with digest := List.replicate 33 0 }] : List CommitMsg).any (·.wf) = false := by decide

/-- One field out of its width. -/
theorem test_wf_registryMsg : ([{ ({ op := 1 } : RegistryMsg) with op := 256 }, { ({ op := 1 } : RegistryMsg) with reason := 256 },
    { ({ op := 1 } : RegistryMsg) with groupId := 65536 }, { ({ op := 1 } : RegistryMsg) with part := 65536 },
    { ({ op := 1 } : RegistryMsg) with nparts := 65536 },
    { ({ op := 1 } : RegistryMsg) with tick := (2 ^ 64) }] : List RegistryMsg).any (·.wf) = false := by decide

/-- One field out of its width. -/
theorem test_wf_recoveryMsg : ([{ ({ op := 1 } : RecoveryMsg) with op := 256 }, { ({ op := 1 } : RecoveryMsg) with comp := 256 },
    { ({ op := 1 } : RecoveryMsg) with reason := 65536 }, { ({ op := 1 } : RecoveryMsg) with tick := (2 ^ 64) },
    { ({ op := 1 } : RecoveryMsg) with sw := 256 }, { ({ op := 1 } : RecoveryMsg) with kind := 256 },
    { ({ op := 1 } : RecoveryMsg) with id := 65536 }, { ({ op := 1 } : RecoveryMsg) with phase := 256 },
    { ({ op := 1 } : RecoveryMsg) with targets := 2 ^ 32 }] : List RecoveryMsg).any (·.wf) = false := by decide

/-- One field out of its width. -/
theorem test_wf_cancelMsg : ([{ ({ workId := 1, op := 1 } : CancelMsg) with workId := (2 ^ 64) },
    { ({ workId := 1, op := 1 } : CancelMsg) with op := 256 }, { ({ workId := 1, op := 1 } : CancelMsg) with sw := 256 },
    { ({ workId := 1, op := 1 } : CancelMsg) with replyFeid := 4096 },
    { ({ workId := 1, op := 1 } : CancelMsg) with toSw := 256 }] : List CancelMsg).any (·.wf) = false := by decide

/-- One field out of its width. -/
theorem test_wf_bistMsg : ([{ goodBist with op := 256 }, { goodBist with sw := 256 }, { goodBist with toSw := 256 }, { goodBist with pass := 256 },
    { goodBist with tick := (2 ^ 64) }, { goodBist with detail := 2 ^ 256 }] : List BistMsg).any (·.wf) = false := by decide

/-- One field out of its width. -/
theorem test_wf_sessMsg : ([{ ({ op := 1 } : SessMsg) with op := 256 }, { ({ op := 1 } : SessMsg) with status := 256 },
    { ({ op := 1 } : SessMsg) with session := 65536 },
    { ({ op := 1 } : SessMsg) with counter := (2 ^ 64) }] : List SessMsg).any (·.wf) = false := by decide

/-- One field out of its width. -/
theorem test_wf_image : ([{ goodImage with imgType := 256 }, { goodImage with keyIndex := 256 },
    { goodImage with svn := 2 ^ 32 }] : List Image).any (·.wf) = false := by decide

/-- An engine number, a slot of an engine, and an accessor out of range. -/
theorem test_wf_parts : ([.engine 4 0, .engine 0 5] : List RunUnit).any okUnit = false ∧ ([5, 15, 18, 33, 49] : List Nat).any okAcc = false
    ∧ ([{ index := 65536, sub := 0 }, { index := 0, sub := 256 },
    { index := 0, sub := 0, offset := 65536 }] : List EntryRef).any okEntry = false := by decide

/-- Data longer than a field admits. -/
theorem test_wf_long (d : Bytes) (h : 65536 ≤ d.length) : (.image 0 0 0 0 0 d none : Instr).wf = false
    ∧ (.cmpWrite 0 0 0 { index := 1, sub := 1 } d : Instr).wf = false ∧ (.mbWrite .ha 0 0 d : Instr).wf = false
    ∧ (.consoleWrite { index := 1, sub := 1 } d : Instr).wf = false ∧ (.dictWrite 0 { index := 1, sub := 1 } d : Instr).wf = false
    ∧ ({ pkt with payload := d } : Packet).wf = false ∧ ({ ({ op := 1 } : RegistryMsg) with body := d } : RegistryMsg).wf = false
    ∧ ({ ({ op := 1 } : SessMsg) with body := d } : SessMsg).wf = false := by
  simp [Instr.wf, Packet.wf, RegistryMsg.wf, SessMsg.wf]; omega

/-! ### Single values and effects, compared with the spec's own figures -/

/-- The windows of switches 5 and 6 (the example after R7). -/
theorem test_window_base : windowBase 5 = 0x30D000000000 ∧ windowBase 6 = 0x316000000000 := by decide

/-- Home plane 13 of DA 0x0012_0A35_1C40 (the example after R145). -/
theorem test_home_plane : homePlane (0x9000 + 0x91FF * 2 ^ 25 + 2 ^ 50 + 0xF0F0 * 2 ^ 64 + 4 * 2 ^ 53) 0 0x00120A351C40 = 13 := by decide

/-- P and Q of the stripe byte 01, 02, 80, FF (the example after R395). -/
theorem test_parity_bytes : parityP 4 [(0, [1]), (1, [2]), (2, [0x80]), (3, [0xFF])] = [0x7C]
    ∧ parityQ 4 [(0, [1]), (1, [2]), (2, [0x80]), (3, [0xFF])] = [0x94] := by decide

set_option maxRecDepth 200000 in
/-- Two data members rebuilt from P and Q (the example after R478). -/
theorem test_double_rebuild : rebuildData 4 [(0, [1]), (3, [0xFF]), (4, [0x7C]), (5, [0x94])] = [(0, [1]), (1, [2]), (2, [0x80]), (3, [0xFF]), (4, [0x7C]), (5, [0x94])] := by decide

/-- 2^24 + 1 + 1 + 0.5 rounds to 0x4B80_0001 in FP32 and to 0x4B80 in BF16 (the example after R368). -/
theorem test_exact_sum :
    let s := [0x4B800000, 0x3F800000, 0x3F800000, 0x3F000000].foldl (fun s x => slotAdd 0 7 s (decodeElem 7 x)) ({} : Slot)
    encodeF (ffmt 7) (slotNum 0 false s) = 0x4B800001 ∧ encodeF (ffmt 5) (slotNum 0 false s) = 0x4B80 := by decide

/-- The block's scale byte and its first elements in MXFP8 E4M3 (the example after R370). -/
theorem test_block_scale :
    let b := encodeBlock 3 ([Num.fin false 1000 0, decodeElem 7 0x40540000] ++ List.replicate 30 (Num.fin false 1 0))
    b.1 = 0x80 ∧ b.2.take 2 = [0x7E, 0x3D] := by decide

/-- A packet of 65 cells waits at 40,464 free cells and enters at 40,520; a READ of one cell enters (the example after R162). -/
theorem test_threshold : underThreshold (-3) 5000 65 40464 = false ∧ underThreshold (-3) 5000 65 40520 = true
    ∧ underThreshold (-1) 20000 1 40464 = true := by decide

/-- 300 offenders are held 1,758 cycles each at the defaults (the example after R181). -/
theorem test_hold_cycles : (dev {}).dev.holdCycles 300 = 1758 := by decide

/-- The level register's byte with Q2 at SL-F and the others at SL-C (the example after R34). -/
theorem test_level_byte :
    let d : Dev := { regs := [(Reg.svcQuadLevel, 0xDF)] }
    [d.level 0, d.level 1, d.level 2, d.level 3] = [3, 3, 1, 3] := by decide

/-- A length of MXFP4 B, K = 4,096 and N = 1,024, elements, pad and scales (the example after R354). -/
theorem test_mx_length : layoutLen 0 1024 4096 = 2228224 := by decide

theorem test_tickEdge_runs : ∃ (s : State) (m : EdgeMeas),
    (s.dev.power.on = true) ∧ (s.dev.reg Reg.tickState ≠ 1) ∧ (s.dev.tick + 1 < 2 ^ 64) :=
  ⟨dev { power := { on := true } }, {}, by and_intros <;> decide⟩

theorem test_tickEdge_runs2 : ∃ (s : State) (m : EdgeMeas),
    (s.dev.power.on = false) :=
  ⟨dev {}, {}, by decide⟩

theorem test_beacon_runs : ∃ (s : State) (port : Nat) (b : Beacon),
    (Rising s.dev.regs) ∧ (s.dev.isActive port = true) ∧ (s.dev.role port = 1) ∧ (b.domId = s.dev.dom.domId) ∧ ((b.switchId, b.serial, b.tick) ∉ s.dev.dom.seenBeacons) ∧ (b.switchId ≠ s.dev.dom.swId) :=
  ⟨dev { regs := [(Reg.portState 0, 6), (Reg.portRole 0, 1)] }, 0, { tick := 7, switchId := 3, svcLevel := 3, campion := 0, tickState := 2, depth := 1, flags := 4, domId := 0, serial := 9, meas := [] }, by and_intros <;> decide⟩

theorem test_beacon_runs2 : ∃ (s : State) (port : Nat) (b : Beacon),
    (s.dev.role port = 1) ∧ ((b.switchId, b.serial, b.tick) ∈ s.dev.dom.seenBeacons) :=
  ⟨dev { regs := [(Reg.portRole 0, 1)], dom := { seenBeacons := [(3, 9, 7)] } }, 0, { tick := 7, switchId := 3, svcLevel := 3, campion := 0, tickState := 2, depth := 1, flags := 4, domId := 0, serial := 9, meas := [] }, by and_intros <;> decide⟩

theorem test_tickMarker_runs : ∃ (s : State) (port : Nat) (m : Marker) (arrivalPs : Int) (residencePs : Nat),
    (s.dev.isActive port = true) ∧ (s.dev.role port = 1) ∧ (s.dev.isMaster = false) ∧ (s.dev.beforeElection = false) ∧ (s.dev.dom.markers = []) ∧ (m.depth < 31) :=
  ⟨dev { regs := [(Reg.portState 0, 6), (Reg.portRole 0, 1)] }, 0, { tick := 7, master := 3, depth := 30, corr := 0, holdover := false, extAligned := false, handoverIn := 0 }, 0, 0, by and_intros <;> decide⟩

theorem test_tickMarker_runs2 : ∃ (s : State) (port : Nat) (m : Marker) (arrivalPs : Int) (residencePs : Nat),
    (s.dev.isActive port = true) ∧ (s.dev.role port = 1) ∧ (s.dev.isMaster = false) ∧ (s.dev.beforeElection = true) :=
  ⟨dev { regs := [(Reg.portState 0, 6), (Reg.portRole 0, 1), (Reg.managerCur, 2)] }, 0, { tick := 7, master := 3, depth := 30, corr := 0, holdover := false, extAligned := false, handoverIn := 0 }, 0, 0, by and_intros <;> decide⟩

theorem test_holdoverEntry_runs : ∃ (s : State),
    (s.dev.reg Reg.tickState = 2) ∧ (s.dev.isMaster = false) ∧ ((∀ x ∈ s.dev.dom.markers, x.2.arrived ≠ s.dev.tick)) :=
  ⟨dev { regs := [(Reg.tickState, 2)] }, by and_intros <;> decide⟩

theorem test_linkDelayMeasure_runs : ∃ (s : State) (port rttPs : Nat),
    (s.dev.isActive port = true) ∧ (s.dev.role port = 1) :=
  ⟨dev { regs := [(Reg.portState 0, 6), (Reg.portRole 0, 1)] }, 0, 250, by and_intros <;> decide⟩

theorem test_masterLost_runs : ∃ (s : State),
    (s.dev.ownId.isSome = true) ∧ (s.dev.reg Reg.masterCur < 32) ∧ (s.dev.isMaster = false) ∧ (s.dev.silent (s.dev.reg Reg.masterCur) = true) :=
  ⟨dev { regs := [(Reg.masterCur, 3), (Reg.tickCount, 100)], dom := { swId := 0, planeSet := 9, beacons := [(3, { beacon := { tick := 7, switchId := 3, svcLevel := 3, campion := 0, tickState := 2, depth := 1, flags := 4, domId := 0, serial := 9, meas := [] }, arrived := 95 })] } }, by and_intros <;> decide⟩

theorem test_switchLost_runs : ∃ (s : State) (sw : Nat),
    (s.dev.ownId.isSome = true) ∧ (sw < 32) ∧ (sw ≠ s.dev.dom.swId) ∧ (bit s.dev.dom.planeSet sw = true) ∧ (sw ≠ s.dev.reg Reg.masterCur) ∧ (bit s.dev.dom.lostSwitches sw = false) ∧ (s.dev.silent sw = true) :=
  ⟨dev { regs := [(Reg.tickCount, 100)], dom := { swId := 0, planeSet := 9, beacons := [(3, { beacon := { tick := 7, switchId := 3, svcLevel := 3, campion := 0, tickState := 2, depth := 1, flags := 4, domId := 0, serial := 9, meas := [] }, arrived := 95 })] } }, 3, by and_intros <;> decide⟩

theorem test_handoverAnnounce_runs : ∃ (s : State),
    (s.dev.isMaster = true) ∧ (s.dev.ownId ≠ some (s.dev.reg Reg.masterCfg)) ∧ (s.dev.dom.candOf = s.dev.reg Reg.masterCfg) ∧ (2 ^ 20 ≤ s.dev.dom.candStreak) ∧ (s.dev.dom.handoverAt = none) :=
  ⟨dev { regs := [(Reg.masterCur, 3), (Reg.masterCfg, 4)], dom := { swId := 3, planeSet := 25, candStreak := 1048576, candOf := 4 } }, by and_intros <;> decide⟩

theorem test_tickInEdge_runs : ∃ (s : State) (offsetPs : Int),
    (s.dev.isMaster = true) ∧ (s.dev.dom.tickInMode ≠ 0) ∧ (s.dev.dom.formed = false) :=
  ⟨dev { regs := [(Reg.masterCur, 3)], dom := { swId := 3, planeSet := 8, tickInMode := 1 } }, 0, by and_intros <;> decide⟩

theorem test_startupPhase_runs : ∃ (s : State),
    (s.dev.power.on = true) ∧ (s.dev.reg Reg.managerCur ≠ 0xFF) :=
  ⟨dev { power := { on := true }, regs := [(Reg.managerCur, 3)] }, by and_intros <;> decide⟩

theorem test_domainRecovery_runs : ∃ (s : State) (phase targets : Nat),
    (s.dev.isManager = true) ∧ (2 ≤ phase) ∧ (phase ≤ 5) ∧ (s.dev.dom.restarted = true) ∧ (bit targets s.dev.dom.swId = true) :=
  ⟨dev { regs := [(Reg.managerCur, 3)], dom := { swId := 3, planeSet := 8 } }, 2, 8, by and_intros <;> decide⟩

theorem test_recoveryRecover_runs : ∃ (s : State) (port : Nat) (m : RecoveryMsg),
    (s.dev.ownId.isSome = true) ∧ (s.dev.isActive port = true) ∧ (s.dev.role port = 1) ∧ (s.dev.dom.seenNotices = []) ∧ (m.sw ≠ s.dev.dom.swId) ∧ (2 ≤ m.phase) ∧ (m.phase ≤ 5) ∧ (s.dev.dom.restarted = true) ∧ (bit m.targets s.dev.dom.swId = true) :=
  ⟨dev { regs := [(Reg.portState 0, 6), (Reg.portRole 0, 1)], dom := { swId := 3, planeSet := 8 } }, 0, { op := 3, sw := 1, phase := 5, targets := 8 }, by and_intros <;> decide⟩

theorem test_dataFlit_runs : ∃ (s : State) (port : Nat) (f : Flit),
    (port < 384) ∧ (s.dev.isActive port = true) ∧ (f.crcOk = true) ∧ (f.ftype = 1) ∧ (((s.dev.port port).laneReq = none ∨ (s.dev.port port).restoring = true)) ∧ (f.seq = (s.dev.port port).rxSeq) :=
  ⟨dev { regs := [(Reg.portState 383, 6)], ports := [(383, { rxSeq := 4095 })] }, 383, { ftype := 1, cls := 2, seq := 4095 }, by and_intros <;> decide⟩

theorem test_dataFlit_runs2 : ∃ (s : State) (port : Nat) (f : Flit),
    (port < 384) ∧ (s.dev.isActive port = true) ∧ (f.crcOk = false) :=
  ⟨dev { regs := [(Reg.portState 0, 6)] }, 0, { ftype := 1, crcOk := false }, by and_intros <;> decide⟩

theorem test_dataFlit_runs3 : ∃ (s : State) (port : Nat) (f : Flit),
    (port < 384) ∧ (s.dev.isActive port = true) ∧ (f.crcOk = true) ∧ (f.ftype = 1) ∧ (((s.dev.port port).laneReq = none ∨ (s.dev.port port).restoring = true)) ∧ (1 ≤ ((s.dev.port port).rxSeq + 4096 - f.seq) % 4096) ∧ (((s.dev.port port).rxSeq + 4096 - f.seq) % 4096 ≤ 2048) :=
  ⟨dev { regs := [(Reg.portState 0, 6)], ports := [(0, { rxSeq := 0 })] }, 0, { ftype := 1, seq := 2048 }, by and_intros <;> decide⟩

theorem test_idleFlit_runs : ∃ (s : State) (port : Nat) (f : Flit),
    (port < 384) ∧ (s.dev.isActive port = true) ∧ (f.crcOk = true) ∧ (f.ftype < 5) ∧ (f.craSel ≤ 8) ∧ (f.crbSel = 15) ∧ ((s.dev.port port).credits.length = 9) ∧ ((s.dev.port port).crSeen.length = 9) :=
  ⟨dev { regs := [(Reg.portState 0, 6)], ports := [(0, { credits := [1, 1, 1, 1, 1, 1, 1, 1, 1], crSeen := [0, 0, 0, 0, 0, 0, 0, 0, 250] })] }, 0, { craSel := 8, craCnt := 3 }, by and_intros <;> decide⟩

theorem test_alignFlit_runs : ∃ (s : State) (port lane skewNs : Nat) (f : Flit),
    (port < 384) ∧ (s.dev.isActive port = true) ∧ (f.crcOk = true) ∧ (f.ftype < 5) ∧ (skewNs ≤ 64) :=
  ⟨dev { regs := [(Reg.portState 0, 6)] }, 0, 7, 64, { ftype := 2 }, by and_intros <;> decide⟩

theorem test_linkRetryTimeout_runs : ∃ (s : State) (port : Nat),
    (port < 384) ∧ (s.dev.isActive port = true) ∧ ((s.dev.port port).replay ≠ []) ∧ ((s.dev.port port).expiries < 3) :=
  ⟨dev { regs := [(Reg.portState 0, 6)], ports := [(0, { replay := [{}], expiries := 2 })] }, 0, by and_intros <;> decide⟩

theorem test_linkRetryTimeout_runs2 : ∃ (s : State) (port : Nat),
    (port < 384) ∧ (s.dev.isActive port = true) ∧ ((s.dev.port port).replay ≠ []) ∧ (3 ≤ (s.dev.port port).expiries) :=
  ⟨dev { regs := [(Reg.portState 0, 6)], ports := [(0, { replay := [{}], expiries := 3 })] }, 0, by and_intros <;> decide⟩

theorem test_laneFailed_runs : ∃ (s : State) (port lane : Nat),
    (port < 384) ∧ (lane < 8) ∧ (s.dev.isActive port = true) ∧ (bit (s.dev.portLaneMask port) lane = true) :=
  ⟨dev { regs := [(Reg.portState 0, 6)], ports := [(0, { rxLanes := 255 })] }, 0, 7, by and_intros <;> decide⟩

theorem test_laneRepaired_runs : ∃ (s : State) (port lane : Nat),
    (port < 384) ∧ (lane < 8) ∧ (bit (s.dev.port port).failed lane = true) :=
  ⟨dev { ports := [(0, { failed := 128 })] }, 0, 7, by and_intros <;> decide⟩

theorem test_laneRepaired_runs2 : ∃ (s : State) (port lane g : Nat),
    (port < 384) ∧ (lane < 8) ∧ (s.dev.isActive port = true) ∧ (bit (s.dev.port port).failed lane = true) ∧ (s.dev.flag (Reg.pbAutoRestore (port / 4)) = true) ∧ ((s.dev.port port).laneReq = none) ∧ ((s.dev.port port).switchSent = false) ∧ ((s.dev.port port).switchDue = none) ∧ ((s.dev.port port).switching = false) ∧ (largestGroup 8 (s.dev.soundLanes port (setBit (s.dev.port port).failed lane false)) = some g) ∧ (laneCount (s.dev.port port).rxLanes < laneCount g) :=
  ⟨dev { regs := [(Reg.portState 0, 6), (Reg.pbAutoRestore 0, 1)], ports := [(0, { failed := 128, rxLanes := 15, txLanes := 15 })] }, 0, 7, 255, by and_intros <;> decide⟩

theorem test_degradeReq_runs : ∃ (s : State) (port : Nat) (f : Flit) (g : Nat),
    (port < 384) ∧ (s.dev.isActive port = true) ∧ (f.crcOk = true) ∧ (f.ftype < 5) ∧ ((s.dev.port port).restoring = false) ∧ (largestGroup 8 (f.lmask &&& s.dev.portLaneMask port) ≠ none) ∧ (Dev.txSet (s.dev.port port) &&& (f.lmask &&& s.dev.portLaneMask port) ≠ Dev.txSet (s.dev.port port)) ∧ (largestGroup 8 (f.lmask &&& s.dev.portLaneMask port &&& (s.dev.port port).laneReq.getD 0xFF) = some g) :=
  ⟨dev { regs := [(Reg.portState 0, 6)], ports := [(0, { laneReq := some 0x0F, txLanes := 255 })] }, 0, { lcmd := 1, lmask := 0xF3 }, 0x03, by and_intros <;> decide⟩

theorem test_degradeReq_runs2 : ∃ (s : State) (port : Nat) (f : Flit),
    (port < 384) ∧ (s.dev.isActive port = true) ∧ (f.crcOk = true) ∧ (f.ftype < 5) ∧ (Dev.txSet (s.dev.port port) &&& (f.lmask &&& s.dev.portLaneMask port) = Dev.txSet (s.dev.port port)) :=
  ⟨dev { regs := [(Reg.portState 0, 6)], ports := [(0, { txLanes := 3 })] }, 0, { lcmd := 1, lmask := 0x0F }, by and_intros <;> decide⟩

theorem test_degradeReq_runs3 : ∃ (s : State) (port : Nat) (f : Flit),
    (port < 384) ∧ (s.dev.isActive port = true) ∧ (f.crcOk = true) ∧ (f.ftype < 5) ∧ ((s.dev.port port).restoring = false) ∧ (largestGroup 8 (f.lmask &&& s.dev.portLaneMask port) ≠ none) ∧ (Dev.txSet (s.dev.port port) &&& (f.lmask &&& s.dev.portLaneMask port) ≠ Dev.txSet (s.dev.port port)) ∧ (largestGroup 8 (f.lmask &&& s.dev.portLaneMask port &&& (s.dev.port port).laneReq.getD 0xFF) = none) :=
  ⟨dev { regs := [(Reg.portState 0, 6)], ports := [(0, { laneReq := some 0x0F, txLanes := 255 })] }, 0, { lcmd := 1, lmask := 0xF0 }, by and_intros <;> decide⟩

theorem test_restoreReq_runs : ∃ (s : State) (port : Nat) (f : Flit) (g : Nat),
    (port < 384) ∧ (s.dev.isActive port = true) ∧ (f.crcOk = true) ∧ (f.ftype < 5) ∧ (((s.dev.port port).laneReq = none ∨ (s.dev.port port).restoring = true)) ∧ (largestGroup 8 (f.lmask &&& s.dev.portLaneMask port &&& (s.dev.port port).laneReq.getD 0xFF) = some g) ∧ (Dev.txSet (s.dev.port port) ≠ g) :=
  ⟨dev { regs := [(Reg.portState 0, 6)], ports := [(0, { txLanes := 15 })] }, 0, { lcmd := 2, lmask := 0xFF }, 0xFF, by and_intros <;> decide⟩

theorem test_laneSwitch_runs : ∃ (s : State) (port mask m : Nat),
    (port < 384) ∧ (s.dev.isActive port = true) ∧ (mask ≠ 0) ∧ (mask &&& (s.dev.port port).failed = 0) ∧ ((s.dev.port port).restoreDue = false) ∧ ((s.dev.port port).laneReq = some m) ∧ (m &&& mask = mask) ∧ (Dev.txSet (s.dev.port port) ≠ mask) :=
  ⟨dev { regs := [(Reg.portState 0, 6)], ports := [(0, { rxLanes := 255, txLanes := 255, failed := 0x80, laneReq := some 0x0F })] }, 0, 0x0F, 0x0F, by and_intros <;> decide⟩

theorem test_laneSwitch_runs2 : ∃ (s : State) (port mask : Nat),
    (port < 384) ∧ (s.dev.isActive port = true) ∧ (mask ≠ 0) ∧ (mask &&& (s.dev.port port).failed = 0) ∧ ((s.dev.port port).restoreDue = false) ∧ ((s.dev.port port).laneReq = none) :=
  ⟨dev { regs := [(Reg.portState 0, 6)], ports := [(0, { rxLanes := 255, failed := 0x80 })] }, 0, 0x0F, by and_intros <;> decide⟩

theorem test_laneSwitch_runs3 : ∃ (s : State) (port mask m : Nat),
    (port < 384) ∧ (s.dev.isActive port = true) ∧ (mask ≠ 0) ∧ ((s.dev.port port).laneReq = some m) ∧ (m &&& mask ≠ mask) :=
  ⟨dev { regs := [(Reg.portState 0, 6)], ports := [(0, { rxLanes := 255, laneReq := some 0x03 })] }, 0, 0xF0, 0x03, by and_intros <;> decide⟩

theorem test_laneSwitch_runs4 : ∃ (s : State) (port mask g : Nat),
    (port < 384) ∧ (s.dev.isActive port = true) ∧ (mask ≠ 0) ∧ (mask &&& (s.dev.port port).failed ≠ 0) ∧ ((s.dev.port port).laneReq = none) ∧ (largestGroup (laneCount mask / 2) (s.dev.soundLanes port (s.dev.port port).failed) = some g) :=
  ⟨dev { regs := [(Reg.portState 0, 6)], ports := [(0, { rxLanes := 255, failed := 0x81 })] }, 0, 0x0F, 0x0C, by and_intros <;> decide⟩

theorem test_flitSlot_runs : ∃ (s : State) (port : Nat),
    (s.dev.portState port = 4) ∧ ((s.dev.port port).dyingLeft = 0) ∧ ((s.dev.port port).closing = false) :=
  ⟨dev { regs := [(Reg.portState 4, 4)] }, 4, by and_intros <;> decide⟩

theorem test_signalDetected_runs : ∃ (s : State) (port : Nat),
    (s.dev.portState port = 1) ∧ (s.dev.portExists port = true) ∧ ((s.dev.port port).dyingHold = false) ∧ (s.dev.level (Dev.quadOf port) ≠ 0) ∧ (bit s.dev.health.failedUnits (port / 4) = false) ∧ (s.dev.power.refs ≠ 0) :=
  ⟨dev { regs := [(Reg.portState 4, 1), (Reg.svcQuadLevel, 255)] }, 4, by and_intros <;> decide⟩

theorem test_equalizeDone_runs : ∃ (s : State) (port passMask g : Nat),
    (port < 384) ∧ (s.dev.portState port = 2) ∧ (largestGroup 8 (passMask &&& s.dev.portLaneMask port) = some g) :=
  ⟨dev { regs := [(Reg.portState 4, 2)] }, 4, 0xF7, 0xF0, by and_intros <;> decide⟩

theorem test_equalizeDone_runs2 : ∃ (s : State) (port passMask : Nat),
    (port < 384) ∧ (s.dev.portState port = 2) ∧ (passMask &&& s.dev.portLaneMask port = 0) :=
  ⟨dev { regs := [(Reg.portState 4, 2)] }, 4, 0, by and_intros <;> decide⟩

theorem test_lockDone_runs : ∃ (s : State) (port polarity : Nat),
    (port < 384) ∧ (s.dev.portState port = 3) :=
  ⟨dev { regs := [(Reg.portState 4, 3)] }, 4, 0, by and_intros <;> decide⟩

theorem test_trainFlit_runs : ∃ (s : State) (port : Nat) (i : TrainInfo),
    (s.dev.portState port = 4) :=
  ⟨dev { regs := [(Reg.portState 4, 4)] }, 4, { role := 0, domId := 0, switchId := 0, feid := 1, laneSet := 255, credits := [], salt := 0, malformed := false }, by decide⟩

theorem test_paramDone_runs : ∃ (s : State) (port rttPs : Nat) (i : TrainInfo),
    (port < 384) ∧ (s.dev.portState port = 4) ∧ ((s.dev.port port).peer = some i) ∧ (leNat (s.dev.port port).salt ≠ i.salt) ∧ (i.malformed = false) ∧ (i.laneSet = (s.dev.port port).rxLanes) ∧ (i.credits = s.dev.trainAlloc port) ∧ (s.dev.role port = 0) ∧ (s.dev.reg (Reg.portExpectFeid port) = i.feid) ∧ (i.feid ≠ 0xFFFF) :=
  ⟨dev { regs := [(Reg.portState 4, 4), (Reg.portRole 4, 0), (Reg.portExpectFeid 4, 256)], ports := [(4, { rxLanes := 255, peer := some { role := 0, domId := 0, switchId := 0, feid := 256, laneSet := 255, credits := [8, 48, 32, 32, 48, 32, 32, 24, 768], salt := 9, malformed := false } })] }, 4, 70000000, { role := 0, domId := 0, switchId := 0, feid := 256, laneSet := 255, credits := [8, 48, 32, 32, 48, 32, 32, 24, 768], salt := 9, malformed := false }, by and_intros <;> decide⟩

theorem test_portActive_runs : ∃ (s : State) (port : Nat),
    (port < 384) ∧ (s.dev.portState port = 5) ∧ (s.dev.level (Dev.quadOf port) ≠ 0) ∧ (s.dev.ownId.isSome = true) ∧ (s.dev.dom.admitted = true) ∧ (s.dev.dom.phase = 5 ∨ s.dev.reg Reg.managerCur = 0xFF) :=
  ⟨dev { regs := [(Reg.portState 4, 5), (Reg.svcQuadLevel, 255)], dom := { swId := 0, planeSet := 1, admitted := true } }, 4, by and_intros <;> decide⟩

theorem test_trainingTimeout_runs : ∃ (s : State) (port : Nat),
    (2 ≤ s.dev.portState port) ∧ (s.dev.portState port ≤ 4) :=
  ⟨dev { regs := [(Reg.portState 4, 4)] }, 4, by and_intros <;> decide⟩

theorem test_retrainDone_runs : ∃ (s : State) (port : Nat),
    (s.dev.portState port = 7) :=
  ⟨dev { regs := [(Reg.portState 4, 7)] }, 4, by decide⟩

theorem test_retrainTimeout_runs : ∃ (s : State) (port : Nat),
    (port < 384) ∧ (s.dev.portState port = 7) :=
  ⟨dev { regs := [(Reg.portState 4, 7)] }, 4, by and_intros <;> decide⟩

theorem test_lossOfSignal_runs : ∃ (s : State) (port : Nat),
    (port < 384) ∧ (s.dev.isActive port = true) :=
  ⟨dev { regs := [(Reg.portState 4, 6)] }, 4, by and_intros <;> decide⟩

theorem test_dyingRcvd_runs : ∃ (s : State) (port : Nat) (m : Dying),
    (port < 384) ∧ (s.dev.isActive port = true) :=
  ⟨dev { regs := [(Reg.portState 4, 6)] }, 4, { reason := 1, srcKind := 0, srcId := 3, tick := 5, portsLeft := 20 }, by and_intros <;> decide⟩

theorem test_flitSlot_runs2 : ∃ (s : State) (port : Nat),
    (s.dev.portState port ≠ 0) ∧ (s.dev.portState port ≠ 1 ∨ s.dev.level (Dev.quadOf port) ≠ 0) ∧ (0 < (s.dev.port port).dyingLeft) :=
  ⟨dev { regs := [(Reg.portState 4, 6)], ports := [(4, { dyingLeft := 64 })] }, 4, by and_intros <;> decide⟩

theorem test_flitSlot_runs3 : ∃ (s : State) (port : Nat),
    (s.dev.portState port ≠ 0) ∧ (s.dev.portState port ≠ 1 ∨ s.dev.level (Dev.quadOf port) ≠ 0) ∧ ((s.dev.port port).dyingLeft = 0) ∧ ((s.dev.port port).closing = true) :=
  ⟨dev { regs := [(Reg.portState 4, 6)], ports := [(4, { closing := true })] }, 4, by and_intros <;> decide⟩

theorem test_read_runs : ∃ (s : State) (n : Nat) (p : Packet) (r : Routed) (k : Nat),
    (s.dev.isActive n = true) ∧ (s.dev.role n = 0) ∧ (p.ptype = .read) ∧ (p.cls ≠ 7) ∧ (p.mc = false) ∧ (p.srcDomain = 0xFFFF) ∧ (p.tagOk = true) ∧ ((s.dev.checks (.port n) p).1 = .go r) ∧ (r.dests = [k]) ∧ (k < 8192) ∧ (k / 8 < 384 → s.dev.role (k / 8) ≠ 2) ∧ (Tab.has s.dev.waiting (Dev.waitKey (.port n) p.cls) = false) ∧ (s.dev.isWithheld n = false) ∧ (s.dev.allowed p.comp p.cls (Dev.quadOf n) = true) ∧ ((poolFor s.dev (Dev.quadOf n) (k + p.cls) p.cls p.cells).isSome = true) :=
  ⟨dev served, 0, { base with da := windowBase 0, rlen := 4096 }, goOf served (.port 0) ({ base with da := windowBase 0, rlen := 4096 }), (goOf served (.port 0) ({ base with da := windowBase 0, rlen := 4096 })).dests.headD 0, by and_intros <;> decide⟩

theorem test_write_runs : ∃ (s : State) (n : Nat) (p : Packet) (r : Routed) (k : Nat),
    (s.dev.isActive n = true) ∧ (s.dev.role n = 0) ∧ (p.ptype = .write) ∧ (p.cls ≠ 7) ∧ (p.mc = false) ∧ (p.srcDomain = 0xFFFF) ∧ (p.tagOk = true) ∧ ((s.dev.checks (.port n) p).1 = .go r) ∧ (r.dests = [k]) ∧ (k < 8192) ∧ (k / 8 < 384 → s.dev.role (k / 8) ≠ 2) ∧ (Tab.has s.dev.waiting (Dev.waitKey (.port n) p.cls) = false) ∧ (s.dev.isWithheld n = false) ∧ (s.dev.allowed p.comp p.cls (Dev.quadOf n) = true) ∧ ((poolFor s.dev (Dev.quadOf n) (k + p.cls) p.cls p.cells).isSome = true) :=
  ⟨dev served, 0, { base with ptype := .write, payload := [1] }, goOf served (.port 0) ({ base with ptype := .write, payload := [1] }), (goOf served (.port 0) ({ base with ptype := .write, payload := [1] })).dests.headD 0, by and_intros <;> decide⟩

theorem test_writePosted_runs : ∃ (s : State) (n : Nat) (p : Packet) (r : Routed) (k : Nat),
    (s.dev.isActive n = true) ∧ (s.dev.role n = 0) ∧ (p.ptype = .writePosted) ∧ (p.cls ≠ 7) ∧ (p.mc = false) ∧ (p.srcDomain = 0xFFFF) ∧ (p.tagOk = true) ∧ ((s.dev.checks (.port n) p).1 = .go r) ∧ (r.dests = [k]) ∧ (k < 8192) ∧ (k / 8 < 384 → s.dev.role (k / 8) ≠ 2) ∧ (Tab.has s.dev.waiting (Dev.waitKey (.port n) p.cls) = false) ∧ (s.dev.isWithheld n = false) ∧ (s.dev.allowed p.comp p.cls (Dev.quadOf n) = true) ∧ ((poolFor s.dev (Dev.quadOf n) (k + p.cls) p.cls p.cells).isSome = true) :=
  ⟨dev served, 0, { base with ptype := .writePosted, payload := [1] }, goOf served (.port 0) ({ base with ptype := .writePosted, payload := [1] }), (goOf served (.port 0) ({ base with ptype := .writePosted, payload := [1] })).dests.headD 0, by and_intros <;> decide⟩

theorem test_atomic_runs : ∃ (s : State) (n : Nat) (p : Packet) (r : Routed) (k : Nat),
    (s.dev.isActive n = true) ∧ (s.dev.role n = 0) ∧ (p.ptype = .atomic) ∧ (p.cls ≠ 7) ∧ (p.mc = false) ∧ (p.srcDomain = 0xFFFF) ∧ (p.tagOk = true) ∧ ((s.dev.checks (.port n) p).1 = .go r) ∧ (r.dests = [k]) ∧ (k < 8192) ∧ (k / 8 < 384 → s.dev.role (k / 8) ≠ 2) ∧ (Tab.has s.dev.waiting (Dev.waitKey (.port n) p.cls) = false) ∧ (s.dev.isWithheld n = false) ∧ (s.dev.allowed p.comp p.cls (Dev.quadOf n) = true) ∧ ((poolFor s.dev (Dev.quadOf n) (k + p.cls) p.cls p.cells).isSome = true) :=
  ⟨dev served, 0, { base with ptype := .atomic, cls := 3, aop := 1, da := 4, payload := [1, 0, 0, 0] }, goOf served (.port 0) ({ base with ptype := .atomic, cls := 3, aop := 1, da := 4, payload := [1, 0, 0, 0] }), (goOf served (.port 0) ({ base with ptype := .atomic, cls := 3, aop := 1, da := 4, payload := [1, 0, 0, 0] })).dests.headD 0, by and_intros <;> decide⟩

theorem test_msg_runs : ∃ (s : State) (n : Nat) (p : Packet) (r : Routed) (k : Nat),
    (s.dev.isActive n = true) ∧ (s.dev.role n = 0) ∧ (p.ptype = .msg) ∧ (p.cls ≠ 7) ∧ (p.mc = false) ∧ (p.srcDomain = 0xFFFF) ∧ (p.tagOk = true) ∧ ((s.dev.checks (.port n) p).1 = .go r) ∧ (r.dests = [k]) ∧ (k < 8192) ∧ (k / 8 < 384 → s.dev.role (k / 8) ≠ 2) ∧ (Tab.has s.dev.waiting (Dev.waitKey (.port n) p.cls) = false) ∧ (s.dev.isWithheld n = false) ∧ (s.dev.allowed p.comp p.cls (Dev.quadOf n) = true) ∧ ((poolFor s.dev (Dev.quadOf n) (k + p.cls) p.cls p.cells).isSome = true) :=
  ⟨dev served, 0, { base with ptype := .msg, cls := 5, dst := 5 }, goOf served (.port 0) ({ base with ptype := .msg, cls := 5, dst := 5 }), (goOf served (.port 0) ({ base with ptype := .msg, cls := 5, dst := 5 })).dests.headD 0, by and_intros <;> decide⟩

theorem test_jobPost_runs : ∃ (s : State) (n : Nat) (p : Packet) (r : Routed) (k : Nat),
    (s.dev.isActive n = true) ∧ (s.dev.role n = 0) ∧ (p.ptype = .jobPost) ∧ (p.cls ≠ 7) ∧ (p.mc = false) ∧ (p.srcDomain = 0xFFFF) ∧ (p.tagOk = true) ∧ ((s.dev.checks (.port n) p).1 = .go r) ∧ (r.dests = [k]) ∧ (k < 8192) ∧ (k / 8 < 384 → s.dev.role (k / 8) ≠ 2) ∧ (Tab.has s.dev.waiting (Dev.waitKey (.port n) p.cls) = false) ∧ (s.dev.isWithheld n = false) ∧ (s.dev.allowed p.comp p.cls (Dev.quadOf n) = true) ∧ ((poolFor s.dev (Dev.quadOf n) (k + p.cls) p.cls p.cells).isSome = true) :=
  ⟨dev served, 0, { base with ptype := .jobPost, cls := 5, quad := 3, payload := List.replicate 128 0 }, goOf served (.port 0) ({ base with ptype := .jobPost, cls := 5, quad := 3, payload := List.replicate 128 0 }), (goOf served (.port 0) ({ base with ptype := .jobPost, cls := 5, quad := 3, payload := List.replicate 128 0 })).dests.headD 0, by and_intros <;> decide⟩

theorem test_jobResult_runs : ∃ (s : State) (n : Nat) (p : Packet) (r : Routed) (k : Nat),
    (s.dev.isActive n = true) ∧ (s.dev.role n = 0) ∧ (p.ptype = .jobResult) ∧ (p.cls ≠ 7) ∧ (p.mc = false) ∧ (p.srcDomain = 0xFFFF) ∧ (p.tagOk = true) ∧ ((s.dev.checks (.port n) p).1 = .go r) ∧ (r.dests = [k]) ∧ (k < 8192) ∧ (k / 8 < 384 → s.dev.role (k / 8) ≠ 2) ∧ (Tab.has s.dev.waiting (Dev.waitKey (.port n) p.cls) = false) ∧ (s.dev.isWithheld n = false) ∧ (s.dev.allowed p.comp p.cls (Dev.quadOf n) = true) ∧ ((poolFor s.dev (Dev.quadOf n) (k + p.cls) p.cls p.cells).isSome = true) :=
  ⟨dev served, 0, { base with ptype := .jobResult, cls := 5, dst := 5 }, goOf served (.port 0) ({ base with ptype := .jobResult, cls := 5, dst := 5 }), (goOf served (.port 0) ({ base with ptype := .jobResult, cls := 5, dst := 5 })).dests.headD 0, by and_intros <;> decide⟩

theorem test_reduceContrib_runs : ∃ (s : State) (n : Nat) (p : Packet) (r : Routed) (k : Nat),
    (s.dev.isActive n = true) ∧ (s.dev.role n = 0) ∧ (p.ptype = .reduceContrib) ∧ (p.cls ≠ 7) ∧ (p.mc = false) ∧ (p.srcDomain = 0xFFFF) ∧ (p.tagOk = true) ∧ ((s.dev.checks (.port n) p).1 = .go r) ∧ (r.dests = [k]) ∧ (k < 8192) ∧ (k / 8 < 384 → s.dev.role (k / 8) ≠ 2) ∧ (Tab.has s.dev.waiting (Dev.waitKey (.port n) p.cls) = false) ∧ (s.dev.isWithheld n = false) ∧ (s.dev.allowed p.comp p.cls (Dev.quadOf n) = true) ∧ ((poolFor s.dev (Dev.quadOf n) (k + p.cls) p.cls p.cells).isSome = true) :=
  ⟨dev served, 0, { base with ptype := .reduceContrib, cls := 4, group := 5, nelem := 1, payload := [0, 0] }, goOf served (.port 0) ({ base with ptype := .reduceContrib, cls := 4, group := 5, nelem := 1, payload := [0, 0] }), (goOf served (.port 0) ({ base with ptype := .reduceContrib, cls := 4, group := 5, nelem := 1, payload := [0, 0] })).dests.headD 0, by and_intros <;> decide⟩

theorem test_reduceResult_runs : ∃ (s : State) (n : Nat) (p : Packet) (r : Routed) (k : Nat),
    (s.dev.isActive n = true) ∧ (s.dev.role n = 0) ∧ (p.ptype = .reduceResult) ∧ (p.cls ≠ 7) ∧ (p.mc = false) ∧ (p.srcDomain = 0xFFFF) ∧ (p.tagOk = true) ∧ ((s.dev.checks (.port n) p).1 = .go r) ∧ (r.dests = [k]) ∧ (k < 8192) ∧ (k / 8 < 384 → s.dev.role (k / 8) ≠ 2) ∧ (Tab.has s.dev.waiting (Dev.waitKey (.port n) p.cls) = false) ∧ (s.dev.isWithheld n = false) ∧ (s.dev.allowed p.comp p.cls (Dev.quadOf n) = true) ∧ ((poolFor s.dev (Dev.quadOf n) (k + p.cls) p.cls p.cells).isSome = true) :=
  ⟨dev served, 0, { base with ptype := .reduceResult, cls := 1, dst := 5, nelem := 1, payload := [0, 0] }, goOf served (.port 0) ({ base with ptype := .reduceResult, cls := 1, dst := 5, nelem := 1, payload := [0, 0] }), (goOf served (.port 0) ({ base with ptype := .reduceResult, cls := 1, dst := 5, nelem := 1, payload := [0, 0] })).dests.headD 0, by and_intros <;> decide⟩

theorem test_resp_runs : ∃ (s : State) (n : Nat) (p : Packet) (r : Routed) (k : Nat),
    (s.dev.isActive n = true) ∧ (s.dev.role n = 0) ∧ (p.ptype = .resp) ∧ (p.cls = 1) ∧ (p.mc = false) ∧ (p.tagOk = true) ∧ (s.dev.findSub n p = none) ∧ (p.dst ≠ 0) ∧ ((s.dev.checks (.port n) p).1 = .go r) ∧ (r.dests = [k]) ∧ (k < 8192) ∧ (Tab.has s.dev.waiting (Dev.waitKey (.port n) p.cls) = false) ∧ (s.dev.allowed p.comp p.cls (Dev.quadOf n) = true) ∧ ((poolFor s.dev (Dev.quadOf n) (k + p.cls) p.cls p.cells).isSome = true) :=
  ⟨dev served, 0, { base with ptype := .resp, cls := 1, dst := 5 }, goOf served (.port 0) { base with ptype := .resp, cls := 1, dst := 5 }, 32, by and_intros <;> decide⟩

theorem test_packetAdmit_runs : ∃ (s : State) (n cls cycle : Nat) (w : Waiting) (rest : List Waiting) (r : Routed) (k : Nat),
    (Tab.look s.dev.waiting (Dev.waitKey (.port n) cls) = some (w :: rest)) ∧ (rest ≠ []) ∧ (w.pkt.cls = cls) ∧ (w.pkt.ptype ≠ .msg) ∧ (w.pkt.mc = false) ∧ (s.dev.route (.port n) w.pkt = .go r) ∧ ((cls = 2 → s.dev.paceHolds n (s.dev.coreCycle cycle) = false)) ∧ (r.dests = [k]) ∧ (k < 8192) ∧ (s.dev.allowed w.pkt.comp cls (Dev.quadOf n) = true) ∧ ((poolFor s.dev (Dev.quadOf n) (k + cls) cls w.pkt.cells).isSome = true) :=
  ⟨dev { served with waiting := [(2, [{ pkt := base }, { pkt := base }])] }, 0, 2, 9, { pkt := base }, [{ pkt := base }], routeOf served (.port 0) base, (routeOf served (.port 0) base).dests.headD 0, by and_intros <;> decide⟩

theorem test_checks_order :
    fieldsOk { base with rlen := 0 } = false ∧
    (served.checks (.host .ha) { base with rlen := 1, cls := 7 }).1 = .fail 0x10 ∧
    (served.checks (.port 0) { base with rlen := 1, enc := true }).1 = .fail 0x0C ∧
    (served.checks (.port 0) { base with rlen := 1, src := 4 }).1 = .fail 0x02 ∧
    (({ served with regs := (Reg.fenced, 2) :: served.regs } : Dev).checks (.port 0) { base with rlen := 1 }).1 = .fail 0x0E ∧
    (served.checks (.port 0) { base with rlen := 1, da := 2 ^ 44 }).1 = .fail 0x03 ∧
    (served.checks (.port 0) { base with rlen := 1, rkey := 8 }).1 = .fail 0x01 := by decide
theorem test_read_runs2 : ∃ (s : State) (n m : Nat) (p : Packet) (st : Nat),
    (s.dev.isActive n = true) ∧ (s.dev.role n = 0) ∧ (p.ptype = .read) ∧ (p.cls ≠ 7) ∧ (p.srcDomain = 0xFFFF) ∧ ((s.dev.checks (.port n) p).1 = .fail st) ∧ (s.dev.portOfFeid p.src = some m) :=
  ⟨dev served, 0, 0, { base with ptype := .read, dst := 0xFFF, cls := 0 }, 0x10, by and_intros <;> decide⟩

theorem test_write_runs2 : ∃ (s : State) (n m : Nat) (p : Packet) (st : Nat),
    (s.dev.isActive n = true) ∧ (s.dev.role n = 0) ∧ (p.ptype = .write) ∧ (p.cls ≠ 7) ∧ (p.srcDomain = 0xFFFF) ∧ ((s.dev.checks (.port n) p).1 = .fail st) ∧ (s.dev.portOfFeid p.src = some m) :=
  ⟨dev served, 0, 0, { base with ptype := .write, dst := 0xFFF, cls := 0 }, 0x10, by and_intros <;> decide⟩

theorem test_writePosted_runs2 : ∃ (s : State) (n m : Nat) (p : Packet) (st : Nat),
    (s.dev.isActive n = true) ∧ (s.dev.role n = 0) ∧ (p.ptype = .writePosted) ∧ (p.cls ≠ 7) ∧ (p.srcDomain = 0xFFFF) ∧ ((s.dev.checks (.port n) p).1 = .fail st) ∧ (s.dev.portOfFeid p.src = some m) :=
  ⟨dev served, 0, 0, { base with ptype := .writePosted, dst := 0xFFF, cls := 0 }, 0x10, by and_intros <;> decide⟩

theorem test_atomic_runs2 : ∃ (s : State) (n m : Nat) (p : Packet) (st : Nat),
    (s.dev.isActive n = true) ∧ (s.dev.role n = 0) ∧ (p.ptype = .atomic) ∧ (p.cls ≠ 7) ∧ (p.srcDomain = 0xFFFF) ∧ ((s.dev.checks (.port n) p).1 = .fail st) ∧ (s.dev.portOfFeid p.src = some m) :=
  ⟨dev served, 0, 0, { base with ptype := .atomic, dst := 0xFFF, cls := 0 }, 0x10, by and_intros <;> decide⟩

theorem test_msg_runs2 : ∃ (s : State) (n m : Nat) (p : Packet) (st : Nat),
    (s.dev.isActive n = true) ∧ (s.dev.role n = 0) ∧ (p.ptype = .msg) ∧ (p.cls ≠ 7) ∧ (p.srcDomain = 0xFFFF) ∧ ((s.dev.checks (.port n) p).1 = .fail st) ∧ (s.dev.portOfFeid p.src = some m) :=
  ⟨dev served, 0, 0, { base with ptype := .msg, dst := 0xFFF, cls := 0 }, 0x10, by and_intros <;> decide⟩

theorem test_reduceContrib_runs2 : ∃ (s : State) (n m : Nat) (p : Packet) (st : Nat),
    (s.dev.isActive n = true) ∧ (s.dev.role n = 0) ∧ (p.ptype = .reduceContrib) ∧ (p.cls ≠ 7) ∧ (p.srcDomain = 0xFFFF) ∧ ((s.dev.checks (.port n) p).1 = .fail st) ∧ (s.dev.portOfFeid p.src = some m) :=
  ⟨dev served, 0, 0, { base with ptype := .reduceContrib, dst := 0xFFF, cls := 0 }, 0x10, by and_intros <;> decide⟩

theorem test_jobPost_runs2 : ∃ (s : State) (n m : Nat) (p : Packet) (st : Nat),
    (s.dev.isActive n = true) ∧ (s.dev.role n = 0) ∧ (p.ptype = .jobPost) ∧ (p.cls ≠ 7) ∧ ((s.dev.checks (.port n) p).1 = .fail st) ∧ (s.dev.portOfFeid p.src = some m) :=
  ⟨dev served, 0, 0, { base with ptype := .jobPost, cls := 5, quad := 2, payload := List.replicate 127 0 }, 0x10, by and_intros <;> decide⟩

theorem test_jobResult_runs2 : ∃ (s : State) (n : Nat) (p : Packet) (st : Nat),
    (s.dev.isActive n = true) ∧ (s.dev.role n = 0) ∧ (p.ptype = .jobResult) ∧ (p.cls ≠ 7) ∧ ((s.dev.checks (.port n) p).1 = .fail st) :=
  ⟨dev served, 0, { base with ptype := .jobResult, cls := 1, dst := 0xFFF }, 0x10, by and_intros <;> decide⟩

theorem test_reduceResult_runs2 : ∃ (s : State) (n : Nat) (p : Packet) (st : Nat),
    (s.dev.isActive n = true) ∧ (s.dev.role n = 0) ∧ (p.ptype = .reduceResult) ∧ (p.cls ≠ 7) ∧ ((s.dev.checks (.port n) p).1 = .fail st) :=
  ⟨dev served, 0, { base with ptype := .reduceResult, cls := 1, dst := 0xFFF }, 0x10, by and_intros <;> decide⟩

theorem test_crossbarGrant_runs : ∃ (s : State) (b : Nat) (x : Proposal) (e : QEnt) (bs : Bytes),
    (s.dev.mcHeld = []) ∧ ((List.range 18).flatMap s.dev.unitProposal = []) ∧ ((s.dev.activePorts.map (· / 4)).eraseDups = [b]) ∧ (s.dev.propose b = some x) ∧ (x.quad < 4) ∧ ((∀ q < 4, (s.dev.core q).bridge = [])) ∧ (Tab.look (s.dev.port x.port).inProgress x.cls = none) ∧ (s.dev.nextEntry x.quad x.port x.cls = some e) ∧ ((s.dev.sealPkt x.port e.pkt (!e.pkt.tagOk)).1 = some bs) :=
  ⟨dev { regs := [(Reg.portState 0, 6), (Reg.portRole 0, 0)], cores := [(1, { queues := [(voqKey 0 5, [{ id := 1, pkt := { ptype := .msg, cls := 5 }, src := .port 96, n := 1 }])] })] }, 0, { block := 0, port := 0, cls := 5, quad := 1 }, { id := 1, pkt := { ptype := .msg, cls := 5 }, src := .port 96, n := 1 }, (Dev.sealPkt {} 0 { ptype := .msg, cls := 5 } false).1.getD [], by and_intros <;> decide⟩

theorem test_crossbarGrant_runs2 : ∃ (s : State) (u q cls : Nat) (e : QEnt),
    (s.dev.mcHeld = []) ∧ (s.dev.activePorts = []) ∧ (u < 16) ∧ (u / 4 ≠ 2) ∧ (q < 4) ∧ (cls < 8) ∧ (s.dev.health.deadDies = 0) ∧ (s.dev.cores = [(q, { queues := [(unitKey u cls, [e])] })]) ∧ (e.granted < e.n) :=
  ⟨dev { cores := [(2, { queues := [(unitKey 1 3, [{ id := 1, pkt := { ptype := .atomic, cls := 3 }, src := .port 4, n := 2 }])] })] }, 1, 2, 3, { id := 1, pkt := { ptype := .atomic, cls := 3 }, src := .port 4, n := 2 }, by and_intros <;> decide⟩

theorem test_packetEgressDone_runs : ∃ (s : State) (port cls q : Nat) (e : QEnt),
    (port < 384) ∧ (s.dev.firstDone port cls = some (q, e)) ∧ (q < 4) ∧ (e.desc = none) ∧ (e.pool = 0) ∧ ((s.dev.core q).shared = []) :=
  ⟨dev { cores := [(3, { freeCnt := 196607, queues := [(voqKey 0 5, [{ id := 1, pkt := { ptype := .msg, cls := 5 }, src := .port 96, n := 1, granted := 1 }])] })] }, 0, 5, 3, { id := 1, pkt := { ptype := .msg, cls := 5 }, src := .port 96, n := 1, granted := 1 }, by and_intros <;> decide⟩

theorem test_hotWindowEnd_runs : ∃ (s : State) (q : Nat) (h : HotLine),
    (q < 4) ∧ (s.dev.flag Reg.hotEnable = true) ∧ (h ∈ (s.dev.core q).hot) ∧ (s.dev.reg Reg.hotThresh ≤ h.count) :=
  ⟨dev { regs := [(Reg.hotThresh, 9)], cores := [(3, { hot := [{ line := 7, count := 9 }] })] }, 3, { line := 7, count := 9 }, by and_intros <;> decide⟩

theorem test_teaselAuditStart_runs : ∃ (s : State) (q : Nat),
    (q < 4) ∧ (s.dev.flag Reg.teaselEnable = true) ∧ ((s.dev.core q).auditing = false) ∧ ((s.dev.core q).auditDue ≤ s.dev.tick) :=
  ⟨dev {}, 3, by and_intros <;> decide⟩

theorem test_teaselAuditStart_runs2 : ∃ (s : State) (q : Nat),
    (q < 4) ∧ (s.dev.flag Reg.teaselEnable = true) ∧ ((s.dev.core q).auditing = true) ∧ ((s.dev.core q).auditDue ≤ s.dev.tick) :=
  ⟨dev { cores := [(3, { auditing := true })] }, 3, by and_intros <;> decide⟩

theorem test_teaselAuditDone_runs : ∃ (s : State) (q : Nat),
    ((s.dev.core q).auditing = true) ∧ (q < 4) :=
  ⟨dev { cores := [(3, { auditing := true })] }, 3, by and_intros <;> decide⟩

theorem test_homeRead_runs : ∃ (s : State) (q a k m : Nat) (e : QEnt),
    (q < 4) ∧ (2 ≤ s.dev.level q) ∧ (s.dev.homeHead q (fun p => p.ptype = .read) = some (a, k, e, false)) ∧ ((s.dev.home q).ops = []) ∧ ((s.dev.home q).merges = []) ∧ (HMap.stripe e.hmap = false) ∧ (Region.restEnc e.region = false) ∧ (Region.restMac e.region = false) ∧ ((∀ b ∈ (s.dev.home q).subs, b.op ≠ 0 ∧ (b.fwd = true ∨ b.tag ≠ e.pkt.tag ∨ e.pkt.src ≠ 0))) ∧ (s.dev.portOfFeid (HMap.tray e.hmap) = some m) :=
  ⟨dev { served with cores := [(0, { queues := [(unitKey 0 2, [{ id := 1, pkt := { base with rlen := 1 }, src := .port 0, hmap := served.reg (Reg.hmapActive 0) }])] })] }, 0, 0, unitKey 0 2, 4, { id := 1, pkt := { base with rlen := 1 }, src := .port 0, hmap := served.reg (Reg.hmapActive 0) }, by and_intros <;> decide⟩

theorem test_homeWrite_runs : ∃ (s : State) (q a k m : Nat) (e : QEnt),
    (q < 4) ∧ (2 ≤ s.dev.level q) ∧ (s.dev.homeHead q (fun p => p.ptype = .write || p.ptype = .writePosted) = some (a, k, e, false)) ∧ ((s.dev.home q).ops = []) ∧ ((s.dev.home q).merges = []) ∧ (HMap.stripe e.hmap = false) ∧ (Region.restEnc e.region = false) ∧ (Region.restMac e.region = false) ∧ ((∀ b ∈ (s.dev.home q).subs, b.op ≠ 0 ∧ (b.fwd = true ∨ b.tag ≠ e.pkt.tag ∨ e.pkt.src ≠ 0))) ∧ (s.dev.portOfFeid (HMap.tray e.hmap) = some m) :=
  ⟨dev { served with cores := [(0, { queues := [(unitKey 0 2, [{ id := 1, pkt := { base with ptype := .writePosted, payload := [1] }, src := .port 0, hmap := served.reg (Reg.hmapActive 0) }])] })] }, 0, 0, unitKey 0 2, 4, { id := 1, pkt := { base with ptype := .writePosted, payload := [1] }, src := .port 0, hmap := served.reg (Reg.hmapActive 0) }, by and_intros <;> decide⟩

theorem test_trayResp_runs : ∃ (s : State) (n m q : Nat) (p : Packet) (b : TraySub) (op : HomeOp),
    (s.dev.isActive n = true) ∧ (s.dev.role n = 0) ∧ (p.ptype = .resp) ∧ (fieldsOk p = true) ∧ (p.cls ≠ 7) ∧ (p.enc = false) ∧ (p.tagOk = true) ∧ (s.dev.rightsOk (.port n) p = true) ∧ (s.dev.findSub n p = some (q, b)) ∧ (s.dev.opOf q b.op = some op) ∧ ((s.dev.home q).ops = [op]) ∧ (op.kind = .read ∨ op.kind = .write) ∧ (op.atoms = []) ∧ (op.own = false) ∧ (op.fill = none) ∧ (op.grp = none) ∧ (op.tierH = false) ∧ (Region.restEnc op.region = false) ∧ (Region.restMac op.region = false) ∧ (p.epoch = HMap.epoch (s.dev.reg (Reg.hmapActive b.hmapNo))) ∧ (p.status ≠ 3) ∧ (s.dev.portOfFeid op.pkt.src = some m) :=
  ⟨dev { served with homes := [(0, { ops := [{ id := 1, kind := .read, pkt := { base with rlen := 1, tag := 9 }, len := 1, started := true }], subs := [{ port := 4, feid := 5, src := 3, reqEpoch := 0, tag := 9, write := false, addr := 0, len := 1, op := 1 }] })] }, 4, 0, 0, { ptype := .resp, cls := 1, src := 5, dst := 3, comp := 1, tag := 9, payload := [77] }, { port := 4, feid := 5, src := 3, reqEpoch := 0, tag := 9, write := false, addr := 0, len := 1, op := 1 }, { id := 1, kind := .read, pkt := { base with rlen := 1, tag := 9 }, len := 1, started := true }, by and_intros <;> decide⟩

theorem test_requestRetryTimeout_runs : ∃ (s : State) (q feid tag m : Nat) (b : TraySub),
    (s.dev.ownSub q feid tag = some b) ∧ (b.tries < s.dev.reg Reg.reqRetryMax) ∧ (b.stopped = false) ∧ (b.data = []) ∧ (s.dev.portOfFeid b.feid = some m) :=
  ⟨dev { served with homes := [(0, { subs := [{ port := 4, feid := 5, src := 0, reqEpoch := 0, tag := 9, write := false, addr := 0, len := 128, tries := 0 }] })] }, 0, 5, 9, 4, { port := 4, feid := 5, src := 0, reqEpoch := 0, tag := 9, write := false, addr := 0, len := 128, tries := 0 }, by and_intros <;> decide⟩

theorem test_requestRetryTimeout_runs2 : ∃ (s : State) (q feid tag m g : Nat) (b : TraySub),
    (s.dev.ownSub q feid tag = some b) ∧ (b.tries < s.dev.reg Reg.reqRetryMax) ∧ (b.stopped = false) ∧ (b.write = true) ∧ (b.data ≠ []) ∧ (s.dev.portOfFeid b.feid = some m) ∧ (s.dev.linkSlotOf (s.dev.reg (Reg.linkSlot b.comp)) b.comp = true) ∧ (s.dev.newestLive (s.dev.reg (Reg.linkSlot b.comp)) = some g) :=
  ⟨dev { served with regs := (Reg.linkSlot 1, 4) :: (Reg.slotComp 4, 1) :: served.regs, keys := [(4, { gens := [{ num := 1, state := 1 }] })], homes := [(0, { subs := [{ port := 4, feid := 5, src := 0, reqEpoch := 0, tag := 9, write := true, addr := 0, len := 1, data := [7], comp := 1, tries := 0 }] })] }, 0, 5, 9, 4, 1, { port := 4, feid := 5, src := 0, reqEpoch := 0, tag := 9, write := true, addr := 0, len := 1, data := [7], comp := 1, tries := 0 }, by and_intros <;> decide⟩

theorem test_requestRetryTimeout_runs3 : ∃ (s : State) (q feid tag : Nat) (b : TraySub),
    (s.dev.ownSub q feid tag = some b) ∧ (b.tries < s.dev.reg Reg.reqRetryMax) ∧ (b.stopped = true) :=
  ⟨dev { served with homes := [(0, { subs := [{ port := 4, feid := 5, src := 0, reqEpoch := 0, tag := 9, write := false, addr := 0, len := 128, tries := 0, stopped := true }] })] }, 0, 5, 9, { port := 4, feid := 5, src := 0, reqEpoch := 0, tag := 9, write := false, addr := 0, len := 128, tries := 0, stopped := true }, by and_intros <;> decide⟩

theorem test_homeAtomic_runs : ∃ (s : State) (q a k : Nat) (e : QEnt) (tierH : Bool),
    (q < 4) ∧ (2 ≤ s.dev.level q) ∧ (s.dev.homeHead q (fun p => p.ptype = .atomic && s.dev.atomicFits q p) = some (a, k, e, tierH)) ∧ ((s.dev.home q).staleArmed = false) ∧ ((s.dev.home q).staleUntil = none) ∧ (Tab.look (s.dev.home q).dedup (Dev.tripleOf e.pkt) = none) ∧ ((s.dev.home q).dedup.length < 1048576) ∧ ((s.dev.home q).ops = []) ∧ ((s.dev.home q).merges = []) ∧ (HMap.stripe e.hmap = false) ∧ (Region.restEnc e.region = false) ∧ (Region.restMac e.region = false) ∧ (s.dev.reg Reg.combWindowNs ≠ 0) ∧ (2 ≤ s.dev.reg Reg.combMaxOps) :=
  ⟨dev { served with homes := [(0, { staleArmed := false })], cores := [(0, { queues := [(unitKey 0 3, [{ id := 1, pkt := { base with ptype := .atomic, cls := 3, aop := 1, payload := [1, 0, 0, 0] }, src := .port 0, hmap := served.reg (Reg.hmapActive 0) }])] })] }, 0, 0, unitKey 0 3, { id := 1, pkt := { base with ptype := .atomic, cls := 3, aop := 1, payload := [1, 0, 0, 0] }, src := .port 0, hmap := served.reg (Reg.hmapActive 0) }, false, by and_intros <;> decide⟩

theorem test_homeAtomic_runs2 : ∃ (s : State) (q a k u m : Nat) (e : QEnt) (tierH : Bool),
    (q < 4) ∧ (2 ≤ s.dev.level q) ∧ (s.dev.homeHead q (fun p => p.ptype = .atomic && s.dev.atomicFits q p) = some (a, k, e, tierH)) ∧ ((s.dev.home q).staleArmed = false) ∧ ((s.dev.home q).staleUntil = some u) ∧ (s.dev.tick < u) ∧ (s.dev.portOfFeid e.pkt.src = some m) :=
  ⟨dev { served with homes := [(0, { staleArmed := false, staleUntil := some 1 })], cores := [(0, { queues := [(unitKey 0 3, [{ id := 1, pkt := { base with ptype := .atomic, cls := 3, aop := 1, payload := [1, 0, 0, 0] }, src := .port 0, hmap := served.reg (Reg.hmapActive 0) }])] })] }, 0, 0, unitKey 0 3, 1, 0, { id := 1, pkt := { base with ptype := .atomic, cls := 3, aop := 1, payload := [1, 0, 0, 0] }, src := .port 0, hmap := served.reg (Reg.hmapActive 0) }, false, by and_intros <;> decide⟩

theorem test_mergeWindowClose_runs : ∃ (s : State) (q line : Nat) (r : MergeRec) (a : Packet) (rest : List Packet),
    (Tab.look (s.dev.home q).merges line = some r) ∧ (r.atoms = a :: rest) ∧ (r.tierH = true) ∧ ((s.dev.home q).ops = []) :=
  ⟨dev { homes := [(0, { merges := [(5, { atoms := [{ base with ptype := .atomic }], tierH := true })] })] }, 0, 5, { atoms := [{ base with ptype := .atomic }], tierH := true }, { base with ptype := .atomic }, [], by and_intros <;> decide⟩

theorem test_mergeWriteDone_runs : ∃ (s : State) (q line m : Nat) (op : HomeOp) (a : Packet) (x : Bytes),
    ((s.dev.home q).ops = [op]) ∧ (op.kind = .merge) ∧ (op.phase = 3) ∧ (op.pkt.da / 128 = line) ∧ (op.atoms = [a]) ∧ (op.priors = [x]) ∧ (op.status = 0) ∧ ((op.grp = none ∨ (op.ecc = [] ∧ s.dev.subsOf q op.id = []))) ∧ (Tab.look (s.dev.home q).dedup (Dev.tripleOf a) = none) ∧ (s.dev.portOfFeid a.src = some m) :=
  ⟨dev { served with homes := [(0, { ops := [{ id := 1, kind := .merge, pkt := base, phase := 3, atoms := [base], priors := [[9]] }] })] }, 0, 0, 0, { id := 1, kind := .merge, pkt := base, phase := 3, atoms := [base], priors := [[9]] }, base, [9], by and_intros <;> decide⟩

theorem test_dedupStale_runs : ∃ (s : State) (q src reqEpoch tag : Nat) (r : Dedup),
    (Tab.look (s.dev.home q).dedup (src * 2 ^ 24 + reqEpoch * 2 ^ 16 + tag) = some r) ∧ (r.state = 1) ∧ (r.tick + 17 ≤ s.dev.tick) :=
  ⟨dev { regs := [(Reg.tickCount, 17)], homes := [(0, { dedup := [(5, { da := 0, aop := 1, awidth := 0, asigned := false, payload := [], state := 1, tick := 0 })] })] }, 0, 0, 0, 5, { da := 0, aop := 1, awidth := 0, asigned := false, payload := [], state := 1, tick := 0 }, by and_intros <;> decide⟩

theorem test_dedupFree_runs : ∃ (s : State) (q src reqEpoch tag : Nat) (r : Dedup),
    (Tab.look (s.dev.home q).dedup (src * 2 ^ 24 + reqEpoch * 2 ^ 16 + tag) = some r) ∧ (r.state = 2) ∧ (r.tick + 65 ≤ s.dev.tick) :=
  ⟨dev { regs := [(Reg.tickCount, 65)], homes := [(0, { dedup := [(5, { da := 0, aop := 1, awidth := 0, asigned := false, payload := [], state := 2, tick := 0 })] })] }, 0, 0, 0, 5, { da := 0, aop := 1, awidth := 0, asigned := false, payload := [], state := 2, tick := 0 }, by and_intros <;> decide⟩

theorem test_staleWindowEnd_runs : ∃ (s : State) (q u : Nat),
    ((s.dev.home q).staleUntil = some u) ∧ (u ≤ s.dev.tick) :=
  ⟨dev { regs := [(Reg.tickCount, 65)], homes := [(0, { staleUntil := some 65 })] }, 0, 65, by and_intros <;> decide⟩

theorem test_gets_runs : ∃ (s : State) (a l ctx : Nat),
    (a < 124) ∧ (l < windowSize / 128) ∧ (s.dev.isDead a = false) ∧ (s.dev.copyOf a l = none) ∧ (s.dev.lineBusy l = false) ∧ (s.dev.l2Refuses l = none) ∧ (s.dev.stackSleeps l = false) ∧ (s.dev.roomFor a l = true) ∧ (l ∉ s.dev.coh.lost) ∧ (s.dev.coh.dir = []) ∧ (l ∉ s.dev.tiers.l2err) ∧ (s.dev.badSectors (l * 128) 128 = []) :=
  ⟨dev { regs := [(Reg.hbmState 11, 2), (Reg.svcQuadLevel, 255)] }, 119, windowSize / 128 - 1, 5, by and_intros <;> decide⟩

theorem test_getm_runs : ∃ (s : State) (a l : Nat) (w : AgentAccess) (data : Bytes),
    (a < 124) ∧ (l < windowSize / 128) ∧ (w.found = {}) ∧ (s.dev.isDead a = false) ∧ (s.dev.copyOf a l = none) ∧ (s.dev.lineBusy l = false) ∧ (s.dev.l2Refuses l = none) ∧ (s.dev.stackSleeps l = false) ∧ (s.dev.roomFor a l = true) ∧ (l ∉ s.dev.coh.lost) ∧ (s.dev.coh.dir = []) ∧ (l ∉ s.dev.tiers.l2err) ∧ (s.dev.badSectors (l * 128) 128 = []) ∧ (Tab.getD s.dev.coh.invq a [] = []) ∧ (Tab.getD s.dev.coh.held a [] = []) :=
  ⟨dev { regs := [(Reg.hbmState 0, 2), (Reg.svcQuadLevel, 255)] }, 123, 0, { ctx := 5, off := 4 }, [1], by and_intros <;> decide⟩

theorem test_getm_runs2 : ∃ (s : State) (a l : Nat) (w : AgentAccess) (data : Bytes) (c : Copy),
    (a < 124) ∧ (l < windowSize / 128) ∧ (w.found = {}) ∧ (s.dev.isDead a = false) ∧ (s.dev.copyOf a l = some c) ∧ (c.ctx = w.ctx) ∧ (Tab.look s.dev.coh.dir l = some { st := 3, agents := 1 <<< a }) ∧ (s.dev.lineBusy l = false) ∧ (s.dev.l2Refuses l = none) ∧ (s.dev.stackSleeps l = false) ∧ (l ∉ s.dev.coh.lost) ∧ (Tab.getD s.dev.coh.invq a [] = []) ∧ (Tab.getD s.dev.coh.held a [] = []) :=
  ⟨dev { regs := [(Reg.hbmState 0, 2), (Reg.svcQuadLevel, 255)], coh := { dir := [(0, { st := 3, agents := 8 })], copies := [(copyKey 3 0, { st := 3, ctx := 5, data := List.replicate 128 0 })] } }, 3, 0, { ctx := 5, off := 4, atomic := some { aop := 1, awidth := 0, asigned := false, off := 4, operand := [1] } }, [], { st := 3, ctx := 5, data := List.replicate 128 0 }, by and_intros <;> decide⟩

theorem test_wfull_runs : ∃ (s : State) (a l ctx : Nat) (data : Bytes),
    (a < 124) ∧ (l < windowSize / 128) ∧ (s.dev.isDead a = false) ∧ (s.dev.copyOf a l = none) ∧ (s.dev.lineBusy l = false) ∧ (s.dev.l2Refuses l = none) ∧ (s.dev.stackSleeps l = false) ∧ (s.dev.roomFor a l = true) ∧ (l ∉ s.dev.coh.lost) ∧ (s.dev.coh.dir = []) ∧ (Tab.getD s.dev.coh.invq a [] = []) :=
  ⟨dev { regs := [(Reg.hbmState 0, 2), (Reg.svcQuadLevel, 255)] }, 0, 0, 5, [1], by and_intros <;> decide⟩

theorem test_pute_runs : ∃ (s : State) (a l : Nat) (c : Copy),
    (s.dev.copyOf a l = some c) ∧ (c.st = 2) ∧ (s.dev.isDead a = false) ∧ (s.dev.l2Refuses l ≠ some St.unmapped) ∧ (s.dev.coh.snoops = []) ∧ (s.dev.coh.blocked = []) :=
  ⟨dev { regs := [(Reg.hbmState 0, 2), (Reg.svcQuadLevel, 255)], coh := { copies := [(5, { st := 2, ctx := 0, data := [] })] } }, 0, 5, { st := 2, ctx := 0, data := [] }, by and_intros <;> decide⟩

theorem test_putm_runs : ∃ (s : State) (a l : Nat) (c : Copy),
    (s.dev.copyOf a l = some c) ∧ (c.st = 3) ∧ (s.dev.isDead a = false) ∧ (s.dev.l2Refuses l = none) ∧ (s.dev.coh.snoops = []) ∧ (s.dev.coh.blocked = []) :=
  ⟨dev { regs := [(Reg.hbmState 0, 2), (Reg.svcQuadLevel, 255)], coh := { copies := [(5, { st := 3, ctx := 0, data := [7] })] } }, 0, 5, { st := 3, ctx := 0, data := [7] }, by and_intros <;> decide⟩

theorem test_putm_runs2 : ∃ (s : State) (a l : Nat) (c : Copy),
    (s.dev.copyOf a l = some c) ∧ (c.st = 3) ∧ (s.dev.isDead a = false) ∧ (s.dev.l2Refuses l = some St.ecc) ∧ (s.dev.coh.snoops = []) ∧ (s.dev.coh.blocked = []) :=
  ⟨dev { regs := [(Reg.hbmState 0, 4), (Reg.svcQuadLevel, 255)], coh := { copies := [(5, { st := 3, ctx := 0, data := [7] })] } }, 0, 5, { st := 3, ctx := 0, data := [7] }, by and_intros <;> decide⟩

theorem test_putm_runs3 : ∃ (s : State) (a l : Nat) (c : Copy),
    (s.dev.copyOf a l = some c) ∧ (c.st = 3) ∧ (s.dev.isDead a = false) ∧ (s.dev.l2Refuses l = some St.unmapped) :=
  ⟨dev { coh := { copies := [(5, { st := 3, ctx := 0, data := [7] })] } }, 0, 5, { st := 3, ctx := 0, data := [7] }, by and_intros <;> decide⟩

theorem test_dirtyNotice_runs : ∃ (s : State) (a l : Nat) (c : Copy) (data : Bytes),
    (s.dev.copyOf a l = some c) ∧ (c.st = 2) ∧ (s.dev.isDead a = false) :=
  ⟨dev { coh := { copies := [(5, { st := 2, ctx := 0, data := [7] })] } }, 0, 5, { st := 2, ctx := 0, data := [7] }, [8], by and_intros <;> decide⟩

theorem test_snoopResponse_runs : ∃ (s : State) (a b l ctx : Nat) (c : Copy),
    (a < 124) ∧ (b < 124) ∧ (a ≠ b) ∧ (s.dev.isDead a = false) ∧ (s.dev.coh.noData = []) ∧ (s.dev.coh.posted = []) ∧ (s.dev.coh.blocked = []) ∧ (s.dev.coh.lost = []) ∧ (l ∉ s.dev.tiers.l2err) ∧ (s.dev.badSectors (l * 128) 128 = []) ∧ (Tab.getD s.dev.coh.invq a [] = []) ∧ (s.dev.coh.snoops = [{ agent := a, line := l, req := .gets b l ctx }]) ∧ (s.dev.copyOf a l = some c) ∧ (c.st = 2) ∧ (s.dev.l2Refuses l = none) ∧ (s.dev.stackSleeps l = false) :=
  ⟨dev { regs := [(Reg.hbmState 0, 2), (Reg.svcQuadLevel, 255)], coh := { copies := [(5, { st := 2, ctx := 0, data := [7] })], snoops := [{ agent := 0, line := 5, req := .gets 9 5 0 }] } }, 0, 9, 5, 0, { st := 2, ctx := 0, data := [7] }, by and_intros <;> decide⟩

theorem test_invalidationReceive_runs : ∃ (s : State) (a l : Nat),
    (s.dev.isDead a = false) ∧ (s.dev.coh.posted = [(a, l)]) ∧ (Tab.getD s.dev.coh.held a [] = []) ∧ ((Tab.getD s.dev.coh.invq a []).length < 256) ∧ (s.dev.coh.blocked = []) :=
  ⟨dev { coh := { posted := [(3, 5)] } }, 3, 5, by and_intros <;> decide⟩

theorem test_invalidationApply_runs : ∃ (s : State) (a l : Nat) (rest : List Nat) (c : Copy),
    (Tab.getD s.dev.coh.invq a [] = l :: rest) ∧ (rest.length < 256) ∧ (Tab.getD s.dev.coh.held a [] = []) ∧ (s.dev.copyOf a l = some c) ∧ (c.st = 1) ∧ (s.dev.coh.blocked = []) :=
  ⟨dev { coh := { invq := [(0, [5])], copies := [(5, { st := 1, ctx := 0, data := [7] })] } }, 0, 5, [], { st := 1, ctx := 0, data := [7] }, by and_intros <;> decide⟩

theorem test_heartbeat_runs : ∃ (s : State) (a slice : Nat),
    (slice < 4) ∧ (s.dev.isDead a = false) ∧ (s.dev.watched a slice = true) :=
  ⟨dev { coh := { copies := [(copyKey 3 0, { st := 1, ctx := 0, data := [] })] } }, 3, 0, by and_intros <;> decide⟩

theorem test_hread_runs : ∃ (s : State) (off len : Nat),
    (0 < len) ∧ (off % 128 + len ≤ 128) ∧ (off + len ≤ windowSize) ∧ (s.dev.lineBusy (off / 128) = false) ∧ (s.dev.l2Refuses (off / 128) = none) ∧ (s.dev.stackSleeps (off / 128) = false) ∧ (off / 128 ∉ s.dev.tiers.l2err) ∧ (off / 128 ∉ s.dev.coh.lost) ∧ (Tab.look s.dev.coh.dir (off / 128) = none) ∧ (s.dev.badSectors off len = []) :=
  ⟨dev { regs := [(Reg.hbmState 0, 2), (Reg.svcQuadLevel, 255)] }, 120, 8, by and_intros <;> decide⟩

theorem test_hread_runs2 : ∃ (s : State) (off len : Nat),
    (0 < len) ∧ (off % 64 + len ≤ 64) ∧ (off + len ≤ windowSize) ∧ (s.dev.lineBusy (off / 128) = false) ∧ (s.dev.l2Refuses (off / 128) = none) ∧ (s.dev.stackSleeps (off / 128) = false) ∧ (off / 128 ∉ s.dev.tiers.l2err) ∧ (off / 128 ∉ s.dev.coh.lost) ∧ (Tab.look s.dev.coh.dir (off / 128) = none) ∧ (s.dev.tiers.bad = []) ∧ (s.dev.inL2 (off / 128) = false) :=
  ⟨dev { regs := [(Reg.hbmState 0, 2), (Reg.svcQuadLevel, 255)] }, 120, 8, by and_intros <;> decide⟩

theorem test_hwrite_runs : ∃ (s : State) (off : Nat) (data : Bytes),
    (data ≠ []) ∧ (off % 128 + data.length ≤ 128) ∧ (off + data.length ≤ windowSize) ∧ (s.dev.lineBusy (off / 128) = false) ∧ (s.dev.l2Refuses (off / 128) = none) ∧ (s.dev.stackSleeps (off / 128) = false) ∧ (off / 128 ∉ s.dev.tiers.l2err) ∧ (off / 128 ∉ s.dev.coh.lost) ∧ (Tab.look s.dev.coh.dir (off / 128) = none) ∧ (s.dev.badPartials off data.length = []) :=
  ⟨dev { regs := [(Reg.hbmState 0, 2), (Reg.svcQuadLevel, 255)] }, 127, [1], by and_intros <;> decide⟩

theorem test_hatom_runs : ∃ (s : State) (off : Nat) (x : L2Req) (op : HomeOp) (a : Packet),
    (Tab.getD s.dev.l2 (sliceOf (off / 128)) [] = [x]) ∧ (x.kind = 2) ∧ (x.off = off) ∧ (x.asked = false) ∧ (x.host = none) ∧ (s.dev.opOf (sliceOf (off / 128)) x.op = some op) ∧ (op.kind = .merge) ∧ (op.atoms = [a]) ∧ ((s.dev.home (sliceOf (off / 128))).ops = [op]) ∧ (s.dev.lineBusy (off / 128) = false) ∧ (s.dev.l2Refuses (off / 128) = none) ∧ (s.dev.stackSleeps (off / 128) = false) ∧ (off / 128 ∉ s.dev.tiers.l2err) ∧ (off / 128 ∉ s.dev.coh.lost) ∧ (Tab.look s.dev.coh.dir (off / 128) = none) ∧ (s.dev.badSectors (off / 128 * 128) 128 = []) :=
  ⟨dev { regs := [(Reg.hbmState 0, 2), (Reg.svcQuadLevel, 255)], l2 := [(0, [{ kind := 2, off := 8, len := 4, op := 1 }])], homes := [(0, { ops := [{ id := 1, kind := .merge, pkt := base, atoms := [{ base with da := 8, aop := 1, payload := [1, 0, 0, 0] }] }] })] }, 8, { kind := 2, off := 8, len := 4, op := 1 }, { id := 1, kind := .merge, pkt := base, atoms := [{ base with da := 8, aop := 1, payload := [1, 0, 0, 0] }] }, { base with da := 8, aop := 1, payload := [1, 0, 0, 0] }, by and_intros <;> decide⟩

theorem test_bar2Read_runs : ∃ (s : State) (h : HostId) (addr len off : Nat) (r : Nat),
    ((s.dev.host h).up = true) ∧ (Dev.bar2Bad addr len = false) ∧ (off = s.dev.bar2Base h + addr) ∧ ((s.dev.bar2Check h off 0).1 = .ok r) :=
  ⟨dev { served with regs := (Reg.bar2CompHa, 1) :: (Reg.bar2RkeyHa, 7) :: served.regs, hostA := { up := true } }, .ha, 0, 4096, 0, served.reg (Reg.regionActive 0), by and_intros <;> decide⟩

theorem test_bar2Write_runs : ∃ (s : State) (h : HostId) (addr off : Nat) (data : Bytes) (r : Nat),
    ((s.dev.host h).up = true) ∧ (Dev.bar2Bad addr data.length = false) ∧ (off = s.dev.bar2Base h + addr) ∧ ((s.dev.bar2Check h off 1).1 = .ok r) :=
  ⟨dev { served with regs := (Reg.bar2CompHa, 1) :: (Reg.bar2RkeyHa, 7) :: served.regs, hostA := { up := true } }, .ha, 0, 0, [1], served.reg (Reg.regionActive 0), by and_intros <;> decide⟩

theorem test_bar2Unsupported_runs : ∃ (s : State) (h : HostId) (addr len : Nat) (atomicOp : Bool),
    ((s.dev.host h).up = true) ∧ ((atomicOp || Dev.bar2Bad addr len) = true) :=
  ⟨dev { hostB := { up := true } }, .hb, 4095, 2, false, by and_intros <;> decide⟩

theorem test_scrubSector_runs : ∃ (s : State) (st : Nat) (cancelled : Bool),
    (st ≤ 11) ∧ (Tab.getD s.dev.tiers.scrubPos st 0 < sectorsPerStack) ∧ (s.dev.reg (Reg.hbmState st) = 2) ∧ (s.dev.l2Refuses ((st * stackBytes + Tab.getD s.dev.tiers.scrubPos st 0 * 64) / 128) = none) ∧ (s.dev.reg (Reg.hbmScrubTicks st) ≠ 0) ∧ ((st * stackBytes + Tab.getD s.dev.tiers.scrubPos st 0 * 64) / 128 ∉ s.dev.coh.lost) ∧ (s.dev.lineBusy ((st * stackBytes + Tab.getD s.dev.tiers.scrubPos st 0 * 64) / 128) = false) ∧ (Tab.look s.dev.coh.dir ((st * stackBytes + Tab.getD s.dev.tiers.scrubPos st 0 * 64) / 128) = none) ∧ ((st * stackBytes + Tab.getD s.dev.tiers.scrubPos st 0 * 64) / 128 ∉ s.dev.tiers.l2err) ∧ (s.dev.badSectors (st * stackBytes + Tab.getD s.dev.tiers.scrubPos st 0 * 64) 64 = []) :=
  ⟨dev { regs := [(Reg.hbmState 11, 2), (Reg.svcQuadLevel, 255)], tiers := { scrubPos := [(11, sectorsPerStack - 1)] } }, 11, false, by and_intros <;> decide⟩

theorem test_scrubSector_runs2 : ∃ (s : State) (st : Nat) (cancelled : Bool),
    (st ≤ 11) ∧ (Tab.getD s.dev.tiers.scrubPos st 0 < sectorsPerStack) ∧ (s.dev.reg (Reg.hbmState st) = 2) ∧ (s.dev.l2Refuses ((st * stackBytes + Tab.getD s.dev.tiers.scrubPos st 0 * 64) / 128) = none) ∧ (s.dev.reg (Reg.hbmScrubTicks st) ≠ 0) ∧ ((st * stackBytes + Tab.getD s.dev.tiers.scrubPos st 0 * 64) / 128 ∉ s.dev.coh.lost) ∧ (s.dev.lineBusy ((st * stackBytes + Tab.getD s.dev.tiers.scrubPos st 0 * 64) / 128) = false) ∧ (Tab.look s.dev.coh.dir ((st * stackBytes + Tab.getD s.dev.tiers.scrubPos st 0 * 64) / 128) = none) ∧ ((st * stackBytes + Tab.getD s.dev.tiers.scrubPos st 0 * 64) / 128 ∉ s.dev.tiers.l2err) ∧ (s.dev.tiers.bad = []) ∧ (s.dev.inL2 ((st * stackBytes + Tab.getD s.dev.tiers.scrubPos st 0 * 64) / 128) = false) :=
  ⟨dev { regs := [(Reg.hbmState 0, 2), (Reg.svcQuadLevel, 255)] }, 0, false, by and_intros <;> decide⟩

theorem test_stagingFillResp_runs : ∃ (s : State) (slot block id : Nat) (data : Bytes) (x : StageSlot),
    (Tab.look s.dev.tiers.slots slot = some x) ∧ (x.state = 1) ∧ (x.gone = false) ∧ (block < 512) ∧ (x.read = some (block, id)) ∧ (x.answer = some (0, data)) ∧ (s.dev.tiers.poolBase % 2 ^ 21 = 0) ∧ (∀ i < 32, s.dev.l2Refuses ((s.dev.slotAddr slot + 4096 * block) / 128 + i) = none ∧ s.dev.stackSleeps ((s.dev.slotAddr slot + 4096 * block) / 128 + i) = false) ∧ (s.dev.coh.dir = []) ∧ (s.dev.coh.lost = []) ∧ (s.dev.coh.snoops = []) ∧ (s.dev.coh.posted = []) ∧ (s.dev.coh.blocked = []) :=
  ⟨dev { regs := [(Reg.hbmState 0, 2), (Reg.svcQuadLevel, 255)], tiers := { slots := [(1, { comp := 1, unit := 0, deadline := 5, read := some (511, 3), answer := some (0, [7]) })] } }, 1, 511, 3, [7], { comp := 1, unit := 0, deadline := 5, read := some (511, 3), answer := some (0, [7]) }, by and_intros <;> decide⟩

theorem test_stagingFillResp_runs2 : ∃ (s : State) (slot block id : Nat) (data : Bytes) (x : StageSlot),
    (Tab.look s.dev.tiers.slots slot = some x) ∧ (x.state = 1) ∧ (x.gone = false) ∧ (block < 512) ∧ (x.read = some (block, id)) ∧ (x.answer = some (St.homeLost, data)) ∧ (bit x.retried block = false) :=
  ⟨dev { tiers := { slots := [(1, { comp := 1, unit := 0, deadline := 5, read := some (511, 3), answer := some (4, []) })] } }, 1, 511, 3, [], { comp := 1, unit := 0, deadline := 5, read := some (511, 3), answer := some (4, []) }, by and_intros <;> decide⟩

theorem test_stagingFillResp_runs3 : ∃ (s : State) (slot block id status : Nat) (data : Bytes) (x : StageSlot),
    (Tab.look s.dev.tiers.slots slot = some x) ∧ (x.state = 1) ∧ (x.gone = false) ∧ (block < 512) ∧ (x.read = some (block, id)) ∧ (x.answer = some (status, data)) ∧ (status ≠ 0) ∧ (status = St.homeLost → bit x.retried block = true) :=
  ⟨dev { tiers := { slots := [(1, { comp := 1, unit := 0, deadline := 5, read := some (511, 3), answer := some (3, []) })] } }, 1, 511, 3, 3, [], { comp := 1, unit := 0, deadline := 5, read := some (511, 3), answer := some (3, []) }, by and_intros <;> decide⟩

theorem test_stagingSlotRelease_runs : ∃ (s : State) (slot k c u dl : Nat),
    ((Tab.look s.dev.tiers.slots slot).any (fun x => !x.pins.isEmpty) = false) ∧ (s.dev.tiers.waits = [(c, u, dl)]) ∧ (s.dev.freeSlot = some k) ∧ (s.dev.slotOf c u = none) ∧ (s.dev.unitHomeHere u = true) :=
  ⟨dev { served with regs := (Reg.svcStacks, 1) :: served.regs, tiers := { waits := [(1, 0, 9)], poolSlots := 2 } }, 1, 0, 1, 0, 9, by and_intros <;> decide⟩

theorem test_stagingSlotRelease_runs2 : ∃ (s : State) (slot : Nat) (x : StageSlot),
    (Tab.look s.dev.tiers.slots slot = some x) ∧ (x.pins ≠ []) :=
  ⟨dev { tiers := { slots := [(1, { comp := 1, unit := 0, deadline := 5, pins := [5] })] } }, 1, { comp := 1, unit := 0, deadline := 5, pins := [5] }, by and_intros <;> decide⟩

theorem test_stagingDeadline_runs : ∃ (s : State) (comp reqId : Nat) (r : StageReq),
    (s.dev.tiers.reqs = [r]) ∧ (r.comp = comp) ∧ (r.reqId = reqId) ∧ (r.late = false) ∧ (s.dev.readyUnits r ≠ r.count) ∧ (r.deadline ≤ s.dev.tick) :=
  ⟨dev { tiers := { reqs := [{ comp := 1, reqId := 7, first := 0, count := 1, deadline := 0, owner := 0 }] } }, 1, 7, { comp := 1, reqId := 7, first := 0, count := 1, deadline := 0, owner := 0 }, by and_intros <;> decide⟩

theorem test_stackFailed_runs : ∃ (s : State) (st : Nat) (thermal : Bool),
    (st ≤ 11) ∧ (s.dev.reg (Reg.hbmState st) ≠ 0) ∧ (s.dev.reg (Reg.hbmState st) ≠ 4) ∧ (thermal = true ∨ s.dev.reg (Reg.hbmState st) ≠ 1) :=
  ⟨dev { regs := [(Reg.hbmState 11, 2)] }, 11, false, by and_intros <;> decide⟩

theorem test_stackWake_runs : ∃ (s : State) (st : Nat),
    (s.dev.reg (Reg.hbmState st) = 3) ∧ (s.dev.coh.blocked = []) :=
  ⟨dev { regs := [(Reg.hbmState 11, 3)] }, 11, by and_intros <;> decide⟩

theorem test_dieHeartbeatTimeout_runs : ∃ (s : State) (die : Nat),
    (die < 4) ∧ (s.dev.power.on = true) ∧ (bit s.dev.health.deadDies die = false) :=
  ⟨dev { power := { on := true } }, 3, by and_intros <;> decide⟩

theorem test_dieHeartbeatTimeout_runs2 : ∃ (s : State),
    (s.dev.power.on = true) ∧ (s.dev.health.controlDead = false) ∧ (bit s.dev.health.deadDies 4 = false) :=
  ⟨dev { power := { on := true } }, by and_intros <;> decide⟩

theorem test_agentDead_runs : ∃ (s : State) (a l : Nat),
    (a ≤ 123) ∧ (s.dev.overdue a = true) ∧ (s.dev.coh.dir = [(l, { st := 3, agents := 1 <<< a })]) ∧ (s.dev.coh.lost = []) ∧ (s.dev.coh.snoops = []) ∧ (s.dev.coh.blocked = []) ∧ (s.dev.agentUnits a = []) :=
  ⟨dev { regs := [(Reg.tickCount, 5)], coh := { dir := [(9, { st := 3, agents := 1 <<< 123 })], copies := [(123 * 2 ^ 33 + 9, { st := 3, ctx := 0, data := [] })], beats := [(123 * 4, 0)] } }, 123, 9, by and_intros <;> decide⟩

theorem test_agentReset_runs : ∃ (s : State) (a : Nat),
    (s.dev.isDead a = true) ∧ (bit s.dev.health.agentsOut a = false) ∧ (bit s.dev.health.resetting a = false) ∧ (s.dev.agentEdge a = true) :=
  ⟨dev { regs := [(Reg.deadAgents, 1)] }, 0, by and_intros <;> decide⟩

theorem test_agentRejoined_runs : ∃ (s : State) (a : Nat),
    (bit s.dev.health.resetting a = true) ∧ (s.dev.agentEdge a = true) :=
  ⟨dev { regs := [(Reg.deadAgents, 1)], health := { resetting := 1 } }, 0, by and_intros <;> decide⟩

theorem test_agentRejoined_runs2 : ∃ (s : State) (a : Nat),
    (bit s.dev.health.resetting a = true) ∧ (s.dev.agentEdge a = true) :=
  ⟨dev { regs := [(Reg.deadAgents, 1)], health := { resetting := 1 } }, 0, by and_intros <;> decide⟩

theorem test_pageWalkDone_runs : ∃ (s : State) (q ctx page pte : Nat) (w : PageWalk),
    (Tab.getD s.dev.trans.walks q [] = [w]) ∧ (w.ctx = ctx) ∧ (w.page = page) ∧ (w.running = true) ∧ (w.stale = false) ∧ (s.dev.ctxLive ctx = true) ∧ ((Dev.readPte (CX.ptBase (s.dev.reg (Reg.ctxEntry ctx)) + 16 * page) s.mem s.dev).1 = .ok pte) ∧ (PTE.v pte = true) ∧ (PTE.ok pte = true) :=
  ⟨dev { regs := [(Reg.hbmState 0, 2), (Reg.svcQuadLevel, 255), (Reg.ctxEntry 2, 2 ^ 64)], trans := { walks := [(0, [{ ctx := 2, page := 3, accs := [], running := true }])] }, coh := { dir := [(0, { st := 3, agents := 1 })], copies := [(0, { st := 3, ctx := 0, data := List.replicate 48 0 ++ [1] })] } }, 0, 2, 3, 1, { ctx := 2, page := 3, accs := [], running := true }, by and_intros <;> decide⟩

theorem test_pageWalkDone_runs2 : ∃ (s : State) (q ctx page pte : Nat) (w : PageWalk) (a : XAccess) (x : Quantum),
    (Tab.getD s.dev.trans.walks q [] = [w]) ∧ (w.ctx = ctx) ∧ (w.page = page) ∧ (w.running = true) ∧ (w.stale = false) ∧ (w.accs = [a]) ∧ (s.dev.ctxLive ctx = true) ∧ ((Dev.readPte (CX.ptBase (s.dev.reg (Reg.ctxEntry ctx)) + 16 * page) s.mem s.dev).1 = .ok pte) ∧ (PTE.v pte = false) ∧ (s.dev.trans.faults.any (Dev.faultOn ctx page) = false) ∧ (Tab.look s.dev.jobs.running a.unit = some x) ∧ (s.dev.attemptsOf a.unit page < 8) :=
  ⟨dev { regs := [(Reg.hbmState 0, 2), (Reg.svcQuadLevel, 255), (Reg.ctxEntry 2, 2 ^ 64)], trans := { walks := [(0, [{ ctx := 2, page := 3, accs := [{ unit := 0, va := 3 * 2 ^ 29, kind := 1 }], running := true }])] }, jobs := { running := [(0, { quad := 0, job := 0, node := 0, first := 0, count := 1, slot := 0 })] } }, 0, 2, 3, 0, { ctx := 2, page := 3, accs := [{ unit := 0, va := 3 * 2 ^ 29, kind := 1 }], running := true }, { unit := 0, va := 3 * 2 ^ 29, kind := 1 }, { quad := 0, job := 0, node := 0, first := 0, count := 1, slot := 0 }, by and_intros <;> decide⟩

theorem test_faultRecordWrite_runs : ∃ (s : State) (h : HostId) (f : PageFault) (n : Nat),
    (s.dev.trans.faults = [f]) ∧ (f.host = h) ∧ (f.id = 0) ∧ ((s.dev.host h).up = true) ∧ (s.dev.flogFull h = false) ∧ ((match h with | .ha => s.dev.trans.idA | .hb => s.dev.trans.idB) = n) :=
  ⟨dev { hostB := { up := true }, trans := { faults := [{ host := .hb, q := 0, ctx := 2, page := 3, reason := 1, access := 1, agent := 0, va := 0, pte := 0, tick := 0, workId := 0, comp := 1, attempt := 1, accs := [] }] } }, .hb, { host := .hb, q := 0, ctx := 2, page := 3, reason := 1, access := 1, agent := 0, va := 0, pte := 0, tick := 0, workId := 0, comp := 1, attempt := 1, accs := [] }, 0, by and_intros <;> decide⟩

theorem test_faultRespRetry_runs : ∃ (s : State) (h : HostId) (id : Nat) (f : PageFault),
    (s.dev.mayWriteKey (Dev.hostAcc h) Reg.faultResp = true) ∧ (s.dev.bar2Drained h = true) ∧ (s.dev.trans.faults = [f]) ∧ (f.host = h) ∧ (f.id ≠ 0) ∧ (f.id = id % 2 ^ 32) ∧ (Tab.getD s.dev.trans.walks f.q [] = []) :=
  ⟨dev { power := { on := true }, trans := { faults := [{ id := 9, host := .hb, q := 0, ctx := 2, page := 3, reason := 1, access := 1, agent := 0, va := 0, pte := 0, tick := 0, workId := 0, comp := 1, attempt := 1, accs := [] }] } }, .hb, 9, { id := 9, host := .hb, q := 0, ctx := 2, page := 3, reason := 1, access := 1, agent := 0, va := 0, pte := 0, tick := 0, workId := 0, comp := 1, attempt := 1, accs := [] }, by and_intros <;> decide⟩

theorem test_faultRespAbort_runs : ∃ (s : State) (h : HostId) (id st : Nat) (f : PageFault) (a : XAccess),
    (s.dev.mayWriteKey (Dev.hostAcc h) Reg.faultResp = true) ∧ (s.dev.bar2Drained h = true) ∧ (s.dev.trans.faults = [f]) ∧ (f.host = h) ∧ (f.id ≠ 0) ∧ (f.id = id % 2 ^ 32) ∧ (f.accs = [a]) ∧ (st ∈ [0, St.rights, St.unmapped, St.pageFault]) ∧ (s.dev.elementAccess a = false) :=
  ⟨dev { power := { on := true }, trans := { faults := [{ id := 9, host := .ha, q := 0, ctx := 2, page := 3, reason := 1, access := 1, agent := 0, va := 0, pte := 0, tick := 0, workId := 0, comp := 1, attempt := 1, accs := [{ unit := 0, va := 3 * 2 ^ 29, kind := 1 }] }] } }, .ha, 9, 0, { id := 9, host := .ha, q := 0, ctx := 2, page := 3, reason := 1, access := 1, agent := 0, va := 0, pte := 0, tick := 0, workId := 0, comp := 1, attempt := 1, accs := [{ unit := 0, va := 3 * 2 ^ 29, kind := 1 }] }, { unit := 0, va := 3 * 2 ^ 29, kind := 1 }, by and_intros <;> decide⟩

theorem test_faultTimeout_runs : ∃ (s : State) (h : HostId) (id : Nat) (f : PageFault) (a : XAccess),
    (s.dev.trans.faults = [f]) ∧ (f.host = h) ∧ (f.id = id) ∧ (f.tick + s.dev.reg Reg.faultTimeoutUs / 5 ≤ s.dev.tick) ∧ (f.accs = [a]) ∧ (s.dev.elementAccess a = false) :=
  ⟨dev { regs := [(Reg.tickCount, 2 ^ 40)], trans := { faults := [{ id := 9, host := .ha, q := 0, ctx := 2, page := 3, reason := 1, access := 1, agent := 0, va := 0, pte := 0, tick := 0, workId := 0, comp := 1, attempt := 1, accs := [{ unit := 0, va := 3 * 2 ^ 29, kind := 1 }] }] } }, .ha, 9, { id := 9, host := .ha, q := 0, ctx := 2, page := 3, reason := 1, access := 1, agent := 0, va := 0, pte := 0, tick := 0, workId := 0, comp := 1, attempt := 1, accs := [{ unit := 0, va := 3 * 2 ^ 29, kind := 1 }] }, { unit := 0, va := 3 * 2 ^ 29, kind := 1 }, by and_intros <;> decide⟩

theorem test_invalReq_runs : ∃ (s : State) (acc tag : Nat),
    (s.dev.mayWriteKey acc Reg.invalReq = true) :=
  ⟨dev { power := { on := true } }, 0x10, 255, by decide⟩

theorem test_invalDrained_runs : ∃ (s : State) (rest : List (List Nat)),
    (s.dev.trans.draining = [] :: rest) :=
  ⟨dev { trans := { draining := [[], [3]] } }, [[3]], by decide⟩

theorem test_ctxEntryWrite_runs : ∃ (s : State) (acc e : Nat),
    (s.dev.mayWriteKey acc (Reg.ctxEntry 0) = true) ∧ (bits e 66 6 = 0) ∧ (e >>> 80 = 0) ∧ (CX.comp e ≤ 63) ∧ (CX.ptBase e >>> 40 = 0) ∧ (CX.ptBase e % 2 ^ 21 = 0) ∧ (Dev.allocatable (CX.ptBase e) (2 ^ 21) = true) ∧ (s.dev.poolOverlap (CX.ptBase e) (2 ^ 21) = false) ∧ ((CX.valid (s.dev.reg (Reg.ctxEntry (s.dev.ctxSel acc))) && CX.valid e) = false) :=
  ⟨dev { power := { on := true }, regs := [(Reg.debugState, 1)] }, 0x30, 2 ^ 64, by and_intros <;> decide⟩

theorem test_jobAdmit_runs : ∃ (s : State) (q a k r : Nat) (e : QEnt),
    (q < 4) ∧ (s.dev.level q = 3) ∧ (s.dev.unitHead (12 + q) (fun e => e.pkt.ptype = .jobPost) = some (a, k, e)) ∧ ((List.range 256).find? (fun r => !Tab.has s.dev.jobs.recs (q * 256 + r)) = some r) ∧ (s.dev.admitCheck q e.pkt = none) ∧ (s.dev.claimOf e.pkt.comp (Dev.replyOf e.pkt) e.pkt.workId = none) ∧ (s.dev.jobs.activate = none) :=
  ⟨dev { served with regs := (Reg.compJobMax, 1) :: (Reg.ctxEntry 0, 2 ^ 64 + 2 ^ 72) :: served.regs, jobs := { bankA := { state := 2, opMask := 2 ^ 13 } }, cores := [(0, { queues := [(unitKey 12 4, [{ id := 1, pkt := post, src := .port 0 }])] })] }, 0, 0, unitKey 12 4, 0, { id := 1, pkt := post, src := .port 0 }, by and_intros <;> decide⟩

theorem test_jobAdmit_runs2 : ∃ (s : State) (q a k r st : Nat) (e : QEnt),
    (q < 4) ∧ (s.dev.level q = 3) ∧ (s.dev.unitHead (12 + q) (fun e => e.pkt.ptype = .jobPost) = some (a, k, e)) ∧ ((List.range 256).find? (fun r => !Tab.has s.dev.jobs.recs (q * 256 + r)) = some r) ∧ (s.dev.admitCheck q e.pkt = some st) ∧ (s.dev.jobs.activate = none) :=
  ⟨dev { served with cores := [(0, { queues := [(unitKey 12 4, [{ id := 1, pkt := { post with payload := [] }, src := .port 0 }])] })] }, 0, 0, unitKey 12 4, 0, St.badDesc, { id := 1, pkt := { post with payload := [] }, src := .port 0 }, by and_intros <;> decide⟩

theorem test_quantumStart_runs : ∃ (s : State) (u : RunUnit) (sl : TickSlot) (j : Job) (i : Nat) (n : NodeRt),
    (RunUnit.ok u = true) ∧ (s.dev.tileHeld (RunUnit.num u) = false) ∧ (Tab.look s.dev.jobs.slots (RunUnit.num u) = some sl) ∧ (s.dev.job sl.job = some j) ∧ (sl.tick = s.dev.tick) ∧ (sl.used = 0) ∧ ((s.dev.freeUnits (sl.job / 256)).contains (RunUnit.num u) = true) ∧ (s.dev.jobReady sl.job j (RunUnit.num u) = true) ∧ ((List.range (JD.nnodes j.pkt.payload)).find? (s.dev.nodeReady sl.job j (RunUnit.num u)) = some i) ∧ (j.nodes.getD i {} = n) ∧ (Dev.wantsTable j.pkt.payload i = false) ∧ (JD.opcode j.pkt.payload i ≠ 8) ∧ ((List.range 260).all (fun k => JD.kind j.pkt.payload i k != 1) = true) :=
  ⟨dev { served with jobs := { slots := [(131, { tick := 0, job := 0 })], recs := [(0, resident)] } }, .engine 0 3, { tick := 0, job := 0 }, resident, 0, {}, by and_intros <;> decide⟩

theorem test_quantumComplete_runs : ∃ (s : State) (u : RunUnit) (e : QuantumEnd) (x : Quantum),
    (RunUnit.ok u = true) ∧ (Tab.look s.dev.jobs.running (RunUnit.num u) = some x) ∧ (x.parked = false) ∧ (x.contribs = []) ∧ (s.dev.tileHeld (RunUnit.num u) = false) ∧ (Tab.has s.dev.coh.waits (RunUnit.num u) = false) ∧ (e.status = 0) ∧ ((engineOf (RunUnit.num u)).any (fun n => n ≤ 2) = false) ∧ (s.dev.unitWaits (RunUnit.num u) = false) ∧ (x.worked = false) ∧ (((Dev.unitsRun (RunUnit.num u) s.mem (s.dev.strike e.found)).bind (fun r => Tab.look r.2.jobs.running (RunUnit.num u))).map (fun y => (y.contribs, y.sectors, y.trays.filter (·.write))) = some ([], [], [])) :=
  ⟨dev { served with jobs := { running := [(131, copying)], recs := [(0, resident)] } }, .engine 0 3, {}, copying, by and_intros <;> decide⟩

theorem test_quantumComplete_runs2 : ∃ (s : State) (u : RunUnit) (e : QuantumEnd) (x : Quantum),
    (RunUnit.ok u = true) ∧ (Tab.look s.dev.jobs.running (RunUnit.num u) = some x) ∧ (x.parked = false) ∧ (x.contribs = []) ∧ (s.dev.tileHeld (RunUnit.num u) = false) ∧ (Tab.has s.dev.coh.waits (RunUnit.num u) = false) ∧ (e.status ≠ 0) :=
  ⟨dev { served with jobs := { running := [(131, copying)], recs := [(0, resident)] } }, .engine 0 3, { status := 5 }, copying, by and_intros <;> decide⟩

theorem test_quantumComplete_runs3 : ∃ (s : State) (q n : Nat) (e : QuantumEnd) (x : Quantum),
    (q < 4) ∧ (n ≤ 2) ∧ (Tab.look s.dev.jobs.running (128 + 8 * q + n) = some x) ∧ (Tab.has s.dev.coh.waits (128 + 8 * q + n) = false) ∧ (x.parked = false) ∧ (x.contribs = []) ∧ (e.status = 0) ∧ (x.first + x.count ≤ x.pos) ∧ (s.dev.unitWaits (128 + 8 * q + n) = false) ∧ (x.worked = false) ∧ (((Dev.partRuns (128 + 8 * q + n) (fun env _ => QM.deliver env x.stores) s.mem (s.dev.strike e.found)).bind (fun r => Tab.look r.2.jobs.running (128 + 8 * q + n))).map (fun y => (y.contribs, y.sectors, y.trays.filter (·.write))) = some ([], [], [])) :=
  ⟨dev { served with jobs := { running := [(128, { copying with pos := 1 })], recs := [(0, resident)] } }, 0, 0, {}, { copying with pos := 1 }, by and_intros <;> decide⟩

theorem test_quantumComplete_runs4 : ∃ (s : State) (u : RunUnit) (e : QuantumEnd) (x : Quantum),
    (RunUnit.ok u = true) ∧ (Tab.look s.dev.jobs.running (RunUnit.num u) = some x) ∧ (x.parked = false) ∧ (x.contribs = []) ∧ (s.dev.tileHeld (RunUnit.num u) = false) ∧ (Tab.has s.dev.coh.waits (RunUnit.num u) = false) ∧ (x.sectors = []) ∧ (e.status = 0) ∧ (x.worked = true) ∧ (((engineOf (RunUnit.num u)).any (fun n => n ≤ 2) && decide (x.pos < x.first + x.count)) = false) ∧ (x.trays.any (fun a => a.write && a.answer.isNone) = true) ∧ (x.trays.all (fun a => !a.write || a.answer.all (fun r => r.1 = 0)) = true) :=
  ⟨dev { served with jobs := { running := [(131, { copying with worked := true, trays := [{ write := true, da := 0, len := 128, quad := 0, op := 1 }] })], recs := [(0, resident)] } }, .engine 0 3, {}, { copying with worked := true, trays := [{ write := true, da := 0, len := 128, quad := 0, op := 1 }] }, by and_intros <;> decide⟩

theorem test_gfParityWork_runs : ∃ (s : State) (q : Nat) (x : Quantum),
    (q < 4) ∧ (Tab.look s.dev.jobs.running (132 + 8 * q) = some x) ∧ (Tab.has s.dev.coh.waits (132 + 8 * q) = false) ∧ (x.parked = false) ∧ (x.contribs = []) ∧ (s.dev.unitWaits (132 + 8 * q) = false) ∧ (x.worked = false) ∧ (((Dev.unitsRun (132 + 8 * q) s.mem s.dev).bind (fun r => Tab.look r.2.jobs.running (132 + 8 * q))).map (fun y => (y.contribs, y.sectors, y.trays.filter (·.write))) = some ([], [], [])) :=
  ⟨dev { served with jobs := { running := [(132, copying)], recs := [(0, resident)] } }, 0, copying, by and_intros <;> decide⟩

theorem test_quantumOverrun_runs : ∃ (s : State) (u : RunUnit) (x : Quantum) (j : Job),
    (Tab.look s.dev.jobs.running (RunUnit.num u) = some x) ∧ (x.parked = false) ∧ (x.late = false) ∧ (x.excused = false) ∧ (x.slot < s.dev.tick) ∧ (s.dev.tileHeld (RunUnit.num u) = false) ∧ (s.dev.job (x.quad * 256 + x.job) = some j) :=
  ⟨dev { served with regs := (Reg.tickCount, 1) :: served.regs, jobs := { running := [(131, copying)], recs := [(0, resident)] } }, .engine 0 3, copying, resident, by and_intros <;> decide⟩

theorem test_halveRestore_runs : ∃ (s : State) (q k : Nat) (j : Job),
    (s.dev.job (q * 256 + k) = some j) ∧ (s.dev.reg Reg.halveRestore ≠ 0) ∧ (j.calm + s.dev.reg Reg.halveRestore ≤ s.dev.tick) ∧ (JD.qshift j.pkt.payload < j.halvings) :=
  ⟨dev { regs := [(Reg.tickCount, 2 ^ 40)], jobs := { recs := [(0, { resident with halvings := 1 })] } }, 0, 0, { resident with halvings := 1 }, by and_intros <;> decide⟩

theorem test_jobTimeout_runs : ∃ (s : State) (q k : Nat) (j : Job),
    (s.dev.job (q * 256 + k) = some j) ∧ (s.dev.unitsOfJob (q * 256 + k) = []) ∧ (JD.timeout j.pkt.payload ≠ 0) ∧ (j.admitTick + JD.timeout j.pkt.payload + j.heldTicks ≤ s.dev.tick) ∧ (s.dev.power.suspended = none) ∧ (j.backup = 0) ∧ (j.held = []) :=
  ⟨dev { served with regs := (Reg.tickCount, 9) :: served.regs, jobs := { recs := [(0, resident)] } }, 0, 0, resident, by and_intros <;> decide⟩

theorem test_jobCancel_runs : ∃ (s : State) (n k w : Nat) (f : Bool) (p : Packet) (m : CancelMsg) (r : Routed) (j : Job),
    (s.dev.isActive n = true) ∧ (s.dev.role n = 0) ∧ (p.cls ≠ 7) ∧ (p.enc = true → p.tagOk = true) ∧ ((s.dev.checks (.port n) (p.asCtrl 6 w f)).1 = .go r) ∧ (m = cancelOf p.payload) ∧ (m.op = 0) ∧ (m.replyFeid < 4096) ∧ (s.dev.jobs.recs.find? (fun (kv : Nat × Job) => kv.2.pkt.comp = p.comp && kv.2.reply = m.replyFeid && kv.2.pkt.workId = m.workId && (kv.2.pkt.src = p.src || kv.2.reply = p.src)) = some (k, j)) ∧ (s.dev.unitsOfJob k = []) :=
  ⟨dev { served with jobs := { recs := [(0, resident)] } }, 0, 0, 0, false, { base with cls := 5, payload := CancelMsg.bytes { workId := 77, op := 0, replyFeid := 3 } }, { workId := 77, op := 0, replyFeid := 3 }, { dests := [8192] }, resident, by and_intros <;> decide⟩

theorem test_acquireWaitMet_runs : ∃ (s : State) (a off cond width value : Nat) (x : Quantum) (j : Job) (d : Dev) (bs : Bytes),
    (a < 120) ∧ (s.dev.isDead a = false) ∧ (Tab.look s.dev.jobs.running a = some x) ∧ (s.dev.job (x.quad * 256 + x.job) = some j) ∧ (x.parked = false) ∧ (x.worked = false) ∧ (0 < width) ∧ (width ≤ 8) ∧ (off + width ≤ windowSize) ∧ (s.dev.enterWait a off cond width value = some d) ∧ ((Dev.l2ReadBy a off width s.mem d).1 = .ok bs) ∧ (Dev.waitHolds cond (leNat bs) value = true) ∧ (s.dev.coh.blocked = []) :=
  ⟨dev { served with regs := (Reg.hbmState 0, 2) :: served.regs, jobs := { running := [(0, copying)], recs := [(0, resident)] }, coh := { waits := [(0, { off := 8, cond := 0, width := 4, value := 0, since := 0, ticks := 1 })] } }, 0, 8, 0, 4, 0, copying, resident, ({ served with regs := (Reg.hbmState 0, 2) :: served.regs, jobs := { running := [(0, copying)], recs := [(0, resident)] }, coh := { waits := [(0, { off := 8, cond := 0, width := 4, value := 0, since := 0, ticks := 1 })] } } : Dev), [0, 0, 0, 0], by and_intros <;> decide⟩

theorem test_acquireWaitMet_runs2 : ∃ (s : State) (a off cond width value : Nat) (x : Quantum) (j : Job) (bs : Bytes) (w : AcqWait),
    (a < 120) ∧ (s.dev.isDead a = false) ∧ (Tab.look s.dev.jobs.running a = some x) ∧ (s.dev.job (x.quad * 256 + x.job) = some j) ∧ (x.parked = false) ∧ (x.worked = false) ∧ (0 < width) ∧ (width ≤ 8) ∧ (off + width ≤ windowSize) ∧ (Tab.look s.dev.coh.waits a = some w) ∧ (w.off = off) ∧ (w.cond = cond) ∧ (w.width = width) ∧ (w.value = value) ∧ ((Dev.l2ReadBy a off width s.mem s.dev).1 = .ok bs) ∧ (Dev.waitHolds cond (leNat bs) value = false) ∧ (s.dev.coh.blocked = []) :=
  ⟨dev { served with regs := (Reg.hbmState 0, 2) :: served.regs, jobs := { running := [(0, copying)], recs := [(0, resident)] }, coh := { waits := [(0, { off := 8, cond := 1, width := 4, value := 0, since := 0, ticks := 1 })] } }, 0, 8, 1, 4, 0, copying, resident, [0, 0, 0, 0], { off := 8, cond := 1, width := 4, value := 0, since := 0, ticks := 1 }, by and_intros <;> decide⟩

theorem test_acquireWaitTimeout_runs : ∃ (s : State) (a : Nat) (w : AcqWait),
    (a < 120) ∧ (Tab.has s.dev.jobs.running a = true) ∧ (s.dev.tileHeld a = false) ∧ (Tab.look s.dev.coh.waits a = some w) ∧ (w.since + w.ticks ≤ s.dev.tick) :=
  ⟨dev { served with regs := (Reg.tickCount, 2) :: served.regs, jobs := { running := [(0, copying)], recs := [(0, resident)] }, coh := { waits := [(0, { off := 8, cond := 1, width := 4, value := 0, since := 0, ticks := 2 })] } }, 0, { off := 8, cond := 1, width := 4, value := 0, since := 0, ticks := 2 }, by and_intros <;> decide⟩

theorem test_acquireWaitTimeout_runs2 : ∃ (s : State) (a : Nat) (w : AcqWait),
    (Tab.look s.dev.coh.waits a = some w) ∧ (s.dev.tick < w.since + w.ticks) :=
  ⟨dev { coh := { waits := [(0, { off := 8, cond := 1, width := 4, value := 0, since := 0, ticks := 2 })] } }, 0, { off := 8, cond := 1, width := 4, value := 0, since := 0, ticks := 2 }, by and_intros <;> decide⟩

theorem test_releaseComplete_runs : ∃ (s : State) (a l : Nat) (data : Bytes) (c : Copy),
    (s.dev.isDead a = false) ∧ (s.dev.unseen a = false) ∧ (l < 2 ^ 33) ∧ (s.dev.copyOf a l = some c) ∧ (c.st ≠ 1) :=
  ⟨dev { coh := { copies := [(5, { st := 2, ctx := 0, data := [7] })] } }, 0, 5, [8], { st := 2, ctx := 0, data := [7] }, by and_intros <;> decide⟩

theorem test_releaseComplete_runs2 : ∃ (s : State) (a l : Nat) (data : Bytes),
    (s.dev.unseen a = true) :=
  ⟨dev { served with jobs := { running := [(0, { copying with trays := [{ write := true, da := 0, len := 128, quad := 0, op := 1 }] })] } }, 0, 2 ^ 33, [8], by decide⟩

theorem test_releaseComplete_runs3 : ∃ (s : State) (l : Nat) (data : Bytes) (x : Quantum) (j : Job) (e : TlbEnt),
    (s.dev.isDead 123 = false) ∧ (s.dev.unseen 123 = false) ∧ (2 ^ 33 ≤ l) ∧ (data ≠ []) ∧ (s.dev.agentUnits 123 = [155]) ∧ (Tab.look s.dev.jobs.running 155 = some x) ∧ (s.dev.job (x.quad * 256 + x.job) = some j) ∧ (Tab.getD s.dev.trans.micro 155 [] = []) ∧ (Tab.getD s.dev.trans.quad 3 [] = [e]) ∧ (e.ctx = JD.ctx j.pkt.payload) ∧ (bit e.rights 1 = true) ∧ (e.big = false) ∧ (e.target * 2 ^ 29 ≤ (l - 2 ^ 33) * 128) ∧ ((l - 2 ^ 33) * 128 < (e.target + 1) * 2 ^ 29) ∧ (s.dev.fenced j.pkt.comp = true) :=
  ⟨dev { served with regs := (Reg.fenced, 2) :: served.regs, jobs := { running := [(155, copying)], recs := [(0, resident)] }, trans := { quad := [(3, [⟨0, false, 0, 7, 0, 7⟩])] } }, 2 ^ 33 + 1, [8], copying, resident, ⟨0, false, 0, 7, 0, 7⟩, by and_intros <;> decide⟩

theorem test_libVerify_runs : ∃ (s : State) (b : Nat) (i : Image),
    (b = 1 ∨ b = 2) ∧ ((s.dev.bankOf b).state < 2) :=
  ⟨dev {}, 2, { imgType := 3, keyIndex := 0, svn := 1, bodyDigest := [], pubkey := [], sig := [], body := [] }, by and_intros <;> decide⟩

theorem test_libVerify_runs2 : ∃ (s : State) (b : Nat) (i : Image),
    (2 ≤ (s.dev.bankOf b).state) :=
  ⟨dev { jobs := { bankA := { state := 2 } } }, 1, { imgType := 3, keyIndex := 0, svn := 1, bodyDigest := [], pubkey := [], sig := [], body := [] }, by decide⟩

theorem test_libActivateA_runs : ∃ (s : State) (acc : Nat),
    (s.dev.mayWriteKey acc Reg.libActivate = true) ∧ (s.dev.jobs.bankA.state = 1) ∧ (s.dev.jobs.bankB.state ≠ 3) :=
  ⟨dev { power := { on := true }, regs := [(Reg.debugState, 1)], jobs := { bankA := { state := 1 } } }, 0x30, by and_intros <;> decide⟩

theorem test_libActivateB_runs : ∃ (s : State) (acc : Nat),
    (s.dev.mayWriteKey acc Reg.libActivate = true) ∧ (s.dev.jobs.bankB.state = 1) ∧ (s.dev.jobs.bankA.state ≠ 3) :=
  ⟨dev { power := { on := true }, regs := [(Reg.debugState, 1)], jobs := { bankB := { state := 1 } } }, 0x30, by and_intros <;> decide⟩

theorem test_libSwitch_runs : ∃ (s : State) (b : Nat),
    (s.dev.jobs.activate = some b) ∧ (b = 1 ∨ b = 2) ∧ (s.dev.jobs.activateTick < s.dev.tick) :=
  ⟨dev { regs := [(Reg.tickCount, 1)], jobs := { activate := some 2, bankA := { state := 2 }, bankB := { state := 1 } } }, 2, by and_intros <;> decide⟩

theorem test_libSwitch_runs2 : ∃ (s : State),
    (s.dev.tick ≤ s.dev.jobs.activateTick) :=
  ⟨dev { jobs := { activate := some 2, bankA := { state := 2 }, bankB := { state := 1 } } }, by decide⟩

theorem test_imageVerify_runs : ∃ (s : State) (i : Image) (atBoot : Bool),
    (s.dev.power.on = true) :=
  ⟨dev { power := { on := true } }, { imgType := 3, keyIndex := 0, svn := 1, bodyDigest := [], pubkey := [], sig := [], body := [] }, true, by decide⟩

theorem test_image_runs : ∃ (s : State) (port imgType bank off total : Nat) (data : Bytes) (img : Option Image),
    (s.dev.isActive port = true) ∧ (s.dev.role port = 1) ∧ (s.dev.isManager = false) ∧ (1 ≤ imgType) ∧ (imgType ≤ 3) ∧ (48 ≤ data.length) ∧ (data.length ≤ 16368) ∧ (off + data.length ≤ total) ∧ (data.length < total) ∧ (Tab.look s.dev.sec.assembly (imgType * 4 + bank) = none) :=
  ⟨dev { regs := [(Reg.portState 0, 6), (Reg.portRole 0, 1), (Reg.managerCur, 9)] }, 0, 3, 2, 1, 50, List.replicate 48 0, none, by and_intros <;> decide⟩

theorem test_image_runs2 : ∃ (s : State) (port imgType bank : Nat) (data : Bytes) (img : Option Image),
    (s.dev.isActive port = true) ∧ (s.dev.role port = 1) ∧ (s.dev.isManager = false) ∧ (1 ≤ imgType) ∧ (imgType ≤ 3) ∧ (48 ≤ data.length) ∧ (data.length ≤ 16368) ∧ (Tab.look s.dev.sec.assembly (imgType * 4 + bank) = none) :=
  ⟨dev { regs := [(Reg.portState 0, 6), (Reg.portRole 0, 1), (Reg.managerCur, 9)] }, 0, 3, 2, List.replicate 48 0, none, by and_intros <;> decide⟩

theorem test_svnCommit_runs : ∃ (s : State) (acc c : Nat),
    (s.dev.mayWriteKey acc Reg.svnCommit = true) ∧ (c < 2) :=
  ⟨dev { power := { on := true }, regs := [(Reg.debugState, 1)] }, 0x30, 1, by and_intros <;> decide⟩

theorem test_kdsHello_runs : ∃ (s : State) (src : Ingress) (feid comp : Nat) (m : SessMsg),
    (s.dev.kdsPasses src feid comp 1 m = true) ∧ (m.body.length = 40) ∧ (le m.body 0 1 = comp) ∧ (s.dev.sec.refuseKds = false) ∧ (s.dev.sec.sessions.length < 8) :=
  ⟨dev { served with power := { on := true }, regs := (Reg.kdsFeid, 77) :: served.regs }, .port 0, 3, 1, { op := 1, body := [1] ++ List.replicate 39 0 }, by and_intros <;> decide⟩

theorem test_kdsAccept_runs : ∃ (s : State) (src : Ingress) (feid comp : Nat) (m : SessMsg) (x : KdsSession),
    (s.dev.kdsPasses src feid comp 3 m = true) ∧ (s.dev.kdsSession m.session = some x) ∧ (x.comp = comp) ∧ (x.state = 1) ∧ (m.body.length = 1088 + 1952 + 3309) :=
  ⟨dev { served with power := { on := true }, regs := (Reg.kdsFeid, 77) :: served.regs, sec := { sessions := [(5, { comp := 1, tenant := 3 })] } }, .port 0, 3, 1, { op := 3, session := 5, body := List.replicate (1088 + 1952 + 3309) 0 }, { comp := 1, tenant := 3 }, by decide +kernel, by decide, by decide, by decide, List.length_replicate⟩

theorem test_kdsLoad_runs : ∃ (s : State) (src : Ingress) (feid comp : Nat) (m : SessMsg) (x : KdsSession),
    (s.dev.kdsPasses src feid comp 5 m = true) ∧ (s.dev.kdsSession m.session = some x) ∧ (x.comp = comp) :=
  ⟨dev { served with power := { on := true }, regs := (Reg.kdsFeid, 77) :: served.regs, sec := { sessions := [(5, { comp := 1, tenant := 3 })] } }, .port 0, 3, 1, { op := 5, session := 5, counter := 1 }, { comp := 1, tenant := 3 }, by and_intros <;> decide⟩

theorem test_kdsRetire_runs : ∃ (s : State) (src : Ingress) (feid comp : Nat) (m : SessMsg) (x : KdsSession),
    (s.dev.kdsPasses src feid comp 7 m = true) ∧ (s.dev.kdsSession m.session = some x) ∧ (x.comp = comp) :=
  ⟨dev { served with power := { on := true }, regs := (Reg.kdsFeid, 77) :: served.regs, sec := { sessions := [(5, { comp := 1, tenant := 3 })] } }, .port 0, 3, 1, { op := 7, session := 5, counter := 1 }, { comp := 1, tenant := 3 }, by and_intros <;> decide⟩

theorem test_kdsCerts_runs : ∃ (s : State) (src : Ingress) (feid comp n : Nat) (m : SessMsg),
    (s.dev.kdsPasses src feid comp 8 m = true) ∧ (m.session = 0) ∧ (le m.body 0 1 = 0) ∧ (s.dev.portOfFeid (s.dev.kdsSender src feid) = some n) :=
  ⟨dev { served with power := { on := true }, regs := (Reg.kdsFeid, 77) :: served.regs }, .port 0, 3, 1, 0, { op := 8, body := [0] }, by and_intros <;> decide⟩

theorem test_kdsClose_runs : ∃ (s : State) (src : Ingress) (feid comp : Nat) (m : SessMsg) (x : KdsSession),
    (s.dev.kdsPasses src feid comp 9 m = true) ∧ (s.dev.kdsSession m.session = some x) ∧ (x.comp = comp) :=
  ⟨dev { served with power := { on := true }, regs := (Reg.kdsFeid, 77) :: served.regs, sec := { sessions := [(5, { comp := 1, tenant := 3 })] } }, .port 0, 3, 1, { op := 9, session := 5 }, { comp := 1, tenant := 3 }, by and_intros <;> decide⟩

theorem test_kdsSessionTimeout_runs : ∃ (s : State) (n : Nat) (x : KdsSession),
    (s.dev.kdsSession n = some x) ∧ (x.last + 1024 ≤ s.dev.tick) :=
  ⟨dev { regs := [(Reg.tickCount, 1024)], sec := { sessions := [(5, { comp := 1, tenant := 3 })] } }, 5, { comp := 1, tenant := 3 }, by and_intros <;> decide⟩

theorem test_keyLive_runs : ∃ (s : State) (k : Nat) (g : KeyGen),
    ((s.dev.keySlot k).gens = [g]) ∧ (g.state = 3) ∧ (g.loaded < s.dev.tick) ∧ (g.asked = none) :=
  ⟨dev { regs := [(Reg.tickCount, 1)], keys := [(255, { gens := [{ num := 1, state := 3 }] })] }, 255, { num := 1, state := 3 }, by and_intros <;> decide⟩

theorem test_keyRetired_runs : ∃ (s : State) (k a : Nat) (g : KeyGen),
    ((s.dev.keySlot k).gens = [g]) ∧ (g.state = 1) ∧ (g.asked = some a) ∧ (a < s.dev.tick) :=
  ⟨dev { regs := [(Reg.tickCount, 1)], keys := [(255, { gens := [{ num := 1, state := 1, asked := some 0 }] })] }, 255, 0, { num := 1, state := 1, asked := some 0 }, by and_intros <;> decide⟩

theorem test_keyZeroized_runs : ∃ (s : State) (k n : Nat) (g : KeyGen),
    (s.dev.keyGen k n = some g) ∧ (g.state = 2) ∧ (g.e0 + 4 ≤ s.dev.tick) :=
  ⟨dev { regs := [(Reg.tickCount, 4)], keys := [(255, { gens := [{ num := 1, state := 2 }] })] }, 255, 1, { num := 1, state := 2 }, by and_intros <;> decide⟩

theorem test_slotRetire_runs : ∃ (s : State) (acc : Nat),
    (s.dev.mayWriteKey acc Reg.slotCmd = true) :=
  ⟨dev { power := { on := true }, regs := [(Reg.debugState, 1)] }, 0x30, by decide⟩

theorem test_debugToken_runs : ∃ (s : State) (acc : Nat) (k : DebugToken),
    (s.dev.mayWriteKey acc Reg.debugToken = true) :=
  ⟨dev { power := { on := true }, regs := [(Reg.debugState, 1)] }, 0x30, { serial := 0, challenge := [], scope := 1, authority := 0, expiryTicks := 5, pubkey := [], sig := [] }, by decide⟩

theorem test_contribTake_runs : ∃ (s : State) (q a k : Nat) (e : QEnt) (x : Inst) (c : Chunk),
    (2 ≤ s.dev.level q) ∧ (s.dev.enterAll = s.dev) ∧ (s.dev.unitHead (8 + q) (fun e => e.pkt.ptype = .reduceContrib) = some (a, k, e)) ∧ (e.unit = none) ∧ (s.dev.inst e.pkt.group = some x) ∧ (x.state = 2) ∧ (x.quad = q) ∧ (e.pkt.comp = GD.comp x.desc) ∧ (e.pkt.contrib < GD.ncontrib x.desc) ∧ (e.pkt.ifmt = GD.ifmt x.desc) ∧ (e.pkt.rop = GD.rop x.desc) ∧ (e.pkt.nelem = GD.elems x.desc) ∧ (e.pkt.payload.length = inBytes x.desc) ∧ (Tab.look x.chunks e.pkt.chunk = some c) ∧ (c.phase = 1) ∧ (bit c.bits e.pkt.contrib = false) ∧ (x.isExcluded (some c) e.pkt.contrib = false) ∧ (x.isSubst (some c) e.pkt.contrib = false) ∧ (CE.isLocal (x.contribs.getD e.pkt.contrib 0) = false) ∧ (e.pkt.src = CE.feid (x.contribs.getD e.pkt.contrib 0)) ∧ (x.isComplete e.pkt.chunk = false) ∧ (e.pkt.chunk < x.low + 4096) :=
  ⟨dev { served with cores := [(0, { queues := [(unitKey 8 2, [{ id := 1, pkt := { base with ptype := .reduceContrib, group := 5, payload := [] }, src := .port 0 }])] })], yar := { insts := [(5, { desc := 2 ^ 16 + 2 ^ 64, contribs := [3], quad := 0, state := 2, chunks := [(0, { slots := [], opened := 0 })] })] } }, 0, 0, unitKey 8 2, { id := 1, pkt := { base with ptype := .reduceContrib, group := 5, payload := [] }, src := .port 0 }, { desc := 2 ^ 16 + 2 ^ 64, contribs := [3], quad := 0, state := 2, chunks := [(0, { slots := [], opened := 0 })] }, { slots := [], opened := 0 }, by and_intros <;> decide⟩

theorem test_contribTake_runs2 : ∃ (s : State) (q a k u : Nat) (e : QEnt) (y : Quantum) (c : Contribution),
    (2 ≤ s.dev.level q) ∧ (s.dev.enterAll = s.dev) ∧ (s.dev.unitHead (8 + q) (fun e => e.pkt.ptype = .reduceContrib) = some (a, k, e)) ∧ (e.unit = some u) ∧ (Tab.look s.dev.jobs.running u = some y) ∧ (y.contribs = [c]) ∧ (c.queued = true) ∧ (c.pkt = e.pkt) ∧ (((s.dev.consume a k e).takeContrib q e.pkt true).1 = .added) :=
  ⟨dev { served with cores := [(0, { queues := [(unitKey 8 2, [{ id := 1, pkt := { base with ptype := .reduceContrib, group := 5, payload := [] }, src := .host .ha, unit := some 0 }])] })], jobs := { running := [(0, { copying with contribs := [{ pkt := { base with ptype := .reduceContrib, group := 5, payload := [] }, queued := true }] })], recs := [(0, resident)] }, yar := { insts := [(5, { desc := 2 ^ 16 + 2 ^ 64, contribs := [2 ^ 25], quad := 0, state := 2 })] } }, 0, 0, unitKey 8 2, 0, { id := 1, pkt := { base with ptype := .reduceContrib, group := 5, payload := [] }, src := .host .ha, unit := some 0 }, { copying with contribs := [{ pkt := { base with ptype := .reduceContrib, group := 5, payload := [] }, queued := true }] }, { pkt := { base with ptype := .reduceContrib, group := 5, payload := [] }, queued := true }, by and_intros <;> decide⟩

theorem test_chunkTimeout_runs : ∃ (s : State) (g n : Nat) (x : Inst) (c : Chunk),
    (s.dev.inst g = some x) ∧ (Tab.look x.chunks n = some c) ∧ (x.state = 2) ∧ (c.phase = 1) ∧ (c.opened + GD.timeout x.desc + 1 ≤ s.dev.tick) ∧ (GD.policy x.desc = 0) :=
  ⟨dev { regs := [(Reg.tickCount, 1)], yar := { insts := [(5, { desc := 0, contribs := [3], quad := 0, state := 2, chunks := [(7, { slots := [], opened := 0 })] })] } }, 5, 7, { desc := 0, contribs := [3], quad := 0, state := 2, chunks := [(7, { slots := [], opened := 0 })] }, { slots := [], opened := 0 }, by and_intros <;> decide⟩

theorem test_chunkTimeout_runs2 : ∃ (s : State) (g n : Nat) (x : Inst) (c : Chunk),
    (s.dev.inst g = some x) ∧ (Tab.look x.chunks n = some c) ∧ (x.state = 2) ∧ (c.phase = 1) ∧ (c.opened + GD.timeout x.desc + 1 ≤ s.dev.tick) ∧ (GD.policy x.desc = 1) ∧ (GD.ncontrib x.desc ≤ 4096) ∧ (x.missing c ≠ 0) :=
  ⟨dev { regs := [(Reg.tickCount, 1)], yar := { insts := [(5, { desc := 2 ^ 24 + 2 ^ 64, contribs := [3], quad := 0, state := 2, chunks := [(7, { slots := [], opened := 0 })] })] } }, 5, 7, { desc := 2 ^ 24 + 2 ^ 64, contribs := [3], quad := 0, state := 2, chunks := [(7, { slots := [], opened := 0 })] }, { slots := [], opened := 0 }, by and_intros <;> decide⟩

theorem test_chunkRound_runs : ∃ (s : State) (g n f : Nat) (fs : List Nat) (x : Inst) (c : Chunk),
    (s.dev.inst g = some x) ∧ (Tab.look x.chunks n = some c) ∧ (x.state = 2) ∧ (c.phase = 2) ∧ ((s.dev.journal x.quad).length < 32768) ∧ (GD.policy x.desc ≠ 1) ∧ (GD.destMode x.desc ≠ 0) ∧ (s.dev.destinations x n = f :: fs) :=
  ⟨dev { yar := { insts := [(5, { desc := 2 ^ 26 + 3 * 2 ^ 160, contribs := [3], quad := 0, state := 2, chunks := [(7, { phase := 2, slots := [], opened := 0 })] })] } }, 5, 7, 3, [], { desc := 2 ^ 26 + 3 * 2 ^ 160, contribs := [3], quad := 0, state := 2, chunks := [(7, { phase := 2, slots := [], opened := 0 })] }, { phase := 2, slots := [], opened := 0 }, by and_intros <;> decide⟩

theorem test_chunkRound_runs2 : ∃ (s : State) (g n f q gen : Nat) (fs : List Nat) (x : Inst) (c : Chunk) (pk : Packet),
    (s.dev.inst g = some x) ∧ (Tab.look x.chunks n = some c) ∧ (x.state = 2) ∧ (c.phase = 2) ∧ (s.dev.journal x.quad = []) ∧ (GD.policy x.desc ≠ 1) ∧ (GD.destMode x.desc = 0) ∧ (GD.id x.desc = g) ∧ (s.dev.destinations x n = f :: fs) ∧ (s.dev.linkSlotOf (s.dev.reg (Reg.linkSlot (GD.comp x.desc))) (GD.comp x.desc) = true) ∧ (s.dev.newestLive (s.dev.reg (Reg.linkSlot (GD.comp x.desc))) = some gen) ∧ (s.dev.mcHeld = [(q, pk)]) ∧ (q = x.quad) :=
  ⟨dev { served with regs := served.regs ++ [(Reg.mcMembers 0, 1), (Reg.linkSlot 1, 9), (Reg.slotComp 9, 1), (Reg.slotPurpose 9, 0)], keys := [(9, { gens := [{ num := 1, state := 1 }] })], mcHeld := [(0, base)], yar := { insts := [(5, { desc := 5 + 2 ^ 16, contribs := [3], quad := 0, state := 2, chunks := [(7, { phase := 2, slots := [], opened := 0 })] })] } }, 5, 7, 3, 0, 1, [], { desc := 5 + 2 ^ 16, contribs := [3], quad := 0, state := 2, chunks := [(7, { phase := 2, slots := [], opened := 0 })] }, { phase := 2, slots := [], opened := 0 }, base, by and_intros <;> decide⟩

theorem test_resultAckTimeout_runs : ∃ (s : State) (g n dest q : Nat) (e : JEnt) (y : JDest),
    (s.dev.entryFor g n = some (q, e)) ∧ (e.dests = [y]) ∧ (y.feid = dest) ∧ (y.acked = false) ∧ (y.tries < s.dev.reg Reg.resultRetries) :=
  ⟨dev { yar := { insts := [(5, { desc := 0, contribs := [3], quad := 0, state := 2 })], journals := [(0, [{ group := 5, chunk := 7, pkt := base, dests := [{ feid := 3 }] }])] } }, 5, 7, 3, 0, { group := 5, chunk := 7, pkt := base, dests := [{ feid := 3 }] }, { feid := 3 }, by and_intros <;> decide⟩

theorem test_reduceAck_runs : ∃ (s : State) (n q w : Nat) (f : Bool) (p : Packet) (r : Routed) (e : JEnt) (y : JDest),
    (s.dev.isActive n = true) ∧ (s.dev.role n = 0) ∧ (p.cls ≠ 7) ∧ (p.enc = true → p.tagOk = true) ∧ ((s.dev.checks (.port n) (p.asCtrl 5 w f)).1 = .go r) ∧ (s.dev.entryFor (Dev.ackGroup p) (Dev.ackChunk p) = some (q, e)) ∧ (s.dev.journal q = [e]) ∧ (e.dests = [y]) ∧ (y.feid = p.src) :=
  ⟨dev { served with yar := { insts := [(5, { desc := 0, contribs := [3], quad := 0, state := 2 })], journals := [(0, [{ group := 5, chunk := 7, pkt := base, dests := [{ feid := 3 }] }])] } }, 0, 0, 0, false, { base with cls := 1, payload := [5, 0, 7] ++ List.replicate 13 0 }, { dests := [8192] }, { group := 5, chunk := 7, pkt := base, dests := [{ feid := 3 }] }, { feid := 3 }, by and_intros <;> decide⟩

theorem test_reduceNack_runs : ∃ (s : State) (n q m gen w : Nat) (f : Bool) (p : Packet) (r : Routed) (e : JEnt) (y : JDest) (x : Inst),
    (s.dev.isActive n = true) ∧ (s.dev.role n = 0) ∧ (p.cls ≠ 7) ∧ (p.enc = true → p.tagOk = true) ∧ ((s.dev.checks (.port n) (p.asCtrl 5 w f)).1 = .go r) ∧ (s.dev.inst (Dev.ackGroup p) = some x) ∧ (x.isComplete (Dev.ackChunk p) = true) ∧ (s.dev.entryFor (Dev.ackGroup p) (Dev.ackChunk p) = some (q, e)) ∧ (e.dests = [y]) ∧ (y.feid = p.src) ∧ (s.dev.portOfFeid p.src = some m) ∧ (e.pkt.payload ≠ []) ∧ (s.dev.linkSlotOf (s.dev.reg (Reg.linkSlot e.pkt.comp)) e.pkt.comp = true) ∧ (s.dev.newestLive (s.dev.reg (Reg.linkSlot e.pkt.comp)) = some gen) :=
  ⟨dev { served with regs := served.regs ++ [(Reg.linkSlot 1, 9), (Reg.slotComp 9, 1), (Reg.slotPurpose 9, 0)], keys := [(9, { gens := [{ num := 1, state := 1 }] })], yar := { insts := [(5, { desc := 0, contribs := [3], quad := 0, state := 2, low := 8 })], journals := [(0, [{ group := 5, chunk := 7, pkt := { base with payload := [1] }, dests := [{ feid := 3 }] }])] } }, 0, 0, 0, 1, 0, false, { base with cls := 1, payload := [5, 0, 7, 0, 0, 0, 1] ++ List.replicate 9 0 }, { dests := [8192] }, { group := 5, chunk := 7, pkt := { base with payload := [1] }, dests := [{ feid := 3 }] }, { feid := 3 }, { desc := 0, contribs := [3], quad := 0, state := 2, low := 8 }, by and_intros <;> decide⟩

theorem test_groupRegister_runs : ∃ (s : State) (acc : Nat),
    (Rising s.dev.regs) ∧ (s.dev.mayWriteKey acc Reg.groupCmd = true) ∧ (s.dev.groupOk (s.dev.reg Reg.groupStage) = true) ∧ (GD.id (s.dev.reg Reg.groupStage) = s.dev.regAs acc Reg.groupSelect) ∧ (((List.range (GD.ncontrib (s.dev.reg Reg.groupStage))).any fun i => s.dev.reg (Reg.contribStage i) >>> 26 != 0) = false) ∧ (s.dev.reg Reg.masterCur ≠ 0xFF) ∧ (s.dev.isMaster = false) :=
  ⟨dev { power := { on := true }, dom := { swId := 0, planeSet := 1 }, regs := [(Reg.portState 0, 6), (Reg.portRole 0, 1), (Reg.groupStage, 2 ^ 26 + 2 ^ 32 + 2 ^ 64 + 5 * 2 ^ 80 + 5 * 2 ^ 88 + 15 * 2 ^ 104 + 32 * 2 ^ 112 + 2 ^ 128 + 2 ^ 144 + 2 ^ 192), (Reg.masterCur, 9)] }, 0x10, by and_intros <;> decide⟩

theorem test_groupRegister_runs2 : ∃ (s : State) (acc i : Nat),
    (s.dev.mayWriteKey acc Reg.groupCmd = true) ∧ (i < GD.ncontrib (s.dev.reg Reg.groupStage)) ∧ (s.dev.reg (Reg.contribStage i) >>> 26 ≠ 0) :=
  ⟨dev { power := { on := true }, regs := [(Reg.groupStage, 2 ^ 64), (Reg.contribStage 0, 2 ^ 26)] }, 0x10, 0, by and_intros <;> decide⟩

theorem test_groupRemove_runs : ∃ (s : State) (acc : Nat),
    (Rising s.dev.regs) ∧ (s.dev.mayWriteKey acc Reg.groupCmd = true) ∧ (s.dev.reg Reg.masterCur ≠ 0xFF) ∧ (s.dev.isMaster = false) :=
  ⟨dev { power := { on := true }, regs := [(Reg.portState 0, 6), (Reg.portRole 0, 1), (Reg.masterCur, 9)] }, 0x10, by and_intros <;> decide⟩

theorem test_groupReadmit_runs : ∃ (s : State) (acc : Nat),
    (Rising s.dev.regs) ∧ (s.dev.mayWriteKey acc Reg.groupCmd = true) ∧ (s.dev.reg Reg.masterCur ≠ 0xFF) ∧ (s.dev.isMaster = false) :=
  ⟨dev { power := { on := true }, regs := [(Reg.portState 0, 6), (Reg.portRole 0, 1), (Reg.masterCur, 9)] }, 0x10, by and_intros <;> decide⟩

theorem test_registryRegister_runs : ∃ (s : State) (port src q : Nat) (m : RegistryMsg),
    (s.dev.isActive port = true) ∧ (s.dev.role port = 1) ∧ (s.dev.ownId.isSome = true) ∧ (s.dev.ownId ≠ some src) ∧ (s.dev.yar.seen = []) ∧ (s.dev.isMaster = false) ∧ (s.dev.reg Reg.masterCur = src) ∧ (m.part = 0) ∧ (m.nparts = 1) ∧ (Tab.look s.dev.yar.parts (src * 65536 + m.groupId) = none) ∧ (bit (GD.planes (leNat (m.body.take 64))) s.dev.dom.swId = true) ∧ (s.dev.placeFor (leNat (m.body.take 64)) = some q) :=
  ⟨dev { dom := { swId := 0, planeSet := 1 }, regs := [(Reg.portState 0, 6), (Reg.portRole 0, 1), (Reg.svcQuadLevel, 255), (Reg.masterCur, 9)] }, 0, 9, 0, { op := 1, groupId := 5, body := leBytes 64 (2 ^ 32 + 2 ^ 64) ++ [3, 0, 0, 0] }, by and_intros <;> decide⟩

theorem test_registryRemove_runs : ∃ (s : State) (port src : Nat) (m : RegistryMsg) (x : Inst),
    (s.dev.isActive port = true) ∧ (s.dev.role port = 1) ∧ (s.dev.ownId.isSome = true) ∧ (s.dev.ownId ≠ some src) ∧ (s.dev.yar.seen = []) ∧ ((s.dev.isMaster = false ∧ s.dev.reg Reg.masterCur = src) ∨ (s.dev.dom.prevMaster = src ∧ m.tick ≠ 0)) ∧ (s.dev.inst m.groupId = some x) :=
  ⟨dev { dom := { swId := 0, planeSet := 1 }, regs := [(Reg.portState 0, 6), (Reg.portRole 0, 1), (Reg.masterCur, 9)], yar := { insts := [(5, { desc := 0, contribs := [3], quad := 0 })] } }, 0, 9, { op := 2, groupId := 5, tick := 8 }, { desc := 0, contribs := [3], quad := 0 }, by and_intros <;> decide⟩

theorem test_registryReadmit_runs : ∃ (s : State) (port src : Nat) (m : RegistryMsg) (x : Inst),
    (s.dev.isActive port = true) ∧ (s.dev.role port = 1) ∧ (s.dev.ownId.isSome = true) ∧ (s.dev.ownId ≠ some src) ∧ (s.dev.yar.seen = []) ∧ ((s.dev.isMaster = false ∧ s.dev.reg Reg.masterCur = src) ∨ (s.dev.dom.prevMaster = src ∧ m.tick ≠ 0)) ∧ (s.dev.inst m.groupId = some x) :=
  ⟨dev { dom := { swId := 0, planeSet := 1 }, regs := [(Reg.portState 0, 6), (Reg.portRole 0, 1), (Reg.masterCur, 9)], yar := { insts := [(5, { desc := 0, contribs := [3], quad := 0 })] } }, 0, 9, { op := 3, groupId := 5, tick := 8, body := [1, 0] }, { desc := 0, contribs := [3], quad := 0 }, by and_intros <;> decide⟩

theorem test_registryAccept_runs : ∃ (s : State) (port src : Nat) (m : RegistryMsg) (x : Inst) (e : RegEnt),
    (s.dev.isActive port = true) ∧ (s.dev.role port = 1) ∧ (s.dev.ownId.isSome = true) ∧ (s.dev.ownId ≠ some src) ∧ (s.dev.yar.seen = []) ∧ (s.dev.isMaster = true) ∧ (s.dev.inst m.groupId = some x) ∧ (s.dev.regEnt m.groupId = some e) ∧ (e.phase = 1) ∧ ((e.accepted ||| (1 <<< src)) &&& GD.planes e.desc = GD.planes e.desc) :=
  ⟨dev { dom := { swId := 0, planeSet := 1 }, regs := [(Reg.portState 0, 6), (Reg.portRole 0, 1), (Reg.masterCur, 0)], yar := { insts := [(5, { desc := 3 * 2 ^ 32, contribs := [3], quad := 0 })], registry := [(5, { desc := 3 * 2 ^ 32, contribs := [3], accepted := 1 })] } }, 0, 1, { op := 4, groupId := 5 }, { desc := 3 * 2 ^ 32, contribs := [3], quad := 0 }, { desc := 3 * 2 ^ 32, contribs := [3], accepted := 1 }, by and_intros <;> decide⟩

theorem test_registryRefuse_runs : ∃ (s : State) (port src : Nat) (m : RegistryMsg) (e : RegEnt),
    (s.dev.isActive port = true) ∧ (s.dev.role port = 1) ∧ (s.dev.ownId.isSome = true) ∧ (s.dev.ownId ≠ some src) ∧ (s.dev.yar.seen = []) ∧ (s.dev.isMaster = true) ∧ (s.dev.regEnt m.groupId = some e) ∧ (e.phase = 1) ∧ (m.reason ≠ 0) :=
  ⟨dev { dom := { swId := 0, planeSet := 1 }, regs := [(Reg.portState 0, 6), (Reg.portRole 0, 1), (Reg.masterCur, 0)], yar := { registry := [(5, { desc := 3 * 2 ^ 32, contribs := [3], accepted := 1 })] } }, 0, 1, { op := 5, groupId := 5, reason := 3 }, { desc := 3 * 2 ^ 32, contribs := [3], accepted := 1 }, by and_intros <;> decide⟩

theorem test_registryActivate_runs : ∃ (s : State) (port src : Nat) (m : RegistryMsg) (x : Inst),
    (s.dev.isActive port = true) ∧ (s.dev.role port = 1) ∧ (s.dev.ownId.isSome = true) ∧ (s.dev.ownId ≠ some src) ∧ (s.dev.yar.seen = []) ∧ ((s.dev.isMaster = false ∧ s.dev.reg Reg.masterCur = src) ∨ (s.dev.dom.prevMaster = src ∧ m.tick ≠ 0)) ∧ (s.dev.inst m.groupId = some x) :=
  ⟨dev { dom := { swId := 0, planeSet := 1 }, regs := [(Reg.portState 0, 6), (Reg.portRole 0, 1), (Reg.masterCur, 9)], yar := { insts := [(5, { desc := 0, contribs := [3], quad := 0 })] } }, 0, 9, { op := 6, groupId := 5, tick := 8 }, { desc := 0, contribs := [3], quad := 0 }, by and_intros <;> decide⟩

theorem test_groupActivationTick_runs : ∃ (s : State) (g a : Nat) (x : Inst),
    (s.dev.inst g = some x) ∧ (x.state = 1) ∧ (x.active = some a) ∧ (a ≤ s.dev.tick) ∧ (x.removeAt = none) ∧ (x.readmits = []) ∧ ((s.dev.regEnt g).any (fun e => e.phase = 3) = false) :=
  ⟨dev { regs := [(Reg.tickCount, 1)], yar := { insts := [(5, { desc := 0, contribs := [3], quad := 0, active := some 1 })] } }, 5, 1, { desc := 0, contribs := [3], quad := 0, active := some 1 }, by and_intros <;> decide⟩

theorem test_groupActivationTick_runs2 : ∃ (s : State) (g a : Nat) (x : Inst),
    (s.dev.inst g = some x) ∧ (x.removeAt = some a) ∧ (a ≤ s.dev.tick) :=
  ⟨dev { regs := [(Reg.tickCount, 1)], yar := { insts := [(5, { desc := 0, contribs := [3], quad := 0, removeAt := some 1 })] } }, 5, 1, { desc := 0, contribs := [3], quad := 0, removeAt := some 1 }, by and_intros <;> decide⟩

theorem test_registryAnswerTimeout_runs : ∃ (s : State) (g : Nat) (e : RegEnt),
    (s.dev.isMaster = true) ∧ (s.dev.regEnt g = some e) ∧ (e.phase = 1) ∧ (e.deadline < s.dev.tick) :=
  ⟨dev { dom := { swId := 0, planeSet := 1 }, regs := [(Reg.tickCount, 1), (Reg.masterCur, 0)], yar := { registry := [(5, { desc := 0, contribs := [3] })] } }, 5, { desc := 0, contribs := [3] }, by and_intros <;> decide⟩

theorem test_planLoad_runs : ∃ (s : State) (acc k : Nat) (head bs : Bytes) (recs : List Nat),
    (s.dev.mayWriteKey acc Reg.planCmd = true) ∧ (s.dev.planSel acc = k) ∧ ((Dev.planRead (s.dev.reg (Reg.planBase k)) s.mem s.dev).1 = .ok (some head, some bs)) ∧ ((Dev.planRead (s.dev.reg (Reg.planBase k)) s.mem s.dev).2.1 = s.mem) ∧ (Dev.planRecs bs = recs) ∧ ((Dev.planRead (s.dev.reg (Reg.planBase k)) s.mem s.dev).2.2.planRefused k head recs = 0) :=
  ⟨{ mem := Memory.write [] 0 (leBytes 4 0x53504C4E ++ [1, 0, 1, 0] ++ List.replicate 40 0 ++ [128]), dev := { served with power := { on := true }, regs := (Reg.hbmState 0, 2) :: served.regs } }, 0x10, 0, leBytes 4 0x53504C4E ++ [1, 0, 1, 0] ++ List.replicate 24 0, List.replicate 16 0 ++ [128] ++ List.replicate 15 0, [2 ^ 135], by and_intros <;> decide⟩

theorem test_planLoad_runs2 : ∃ (s : State) (acc k : Nat),
    (s.dev.mayWriteKey acc Reg.planCmd = true) ∧ (s.dev.planSel acc = k) ∧ ((Dev.planStep k s.mem s.dev).1 ≠ s.mem) :=
  ⟨dev { served with power := { on := true }, regs := (Reg.hbmState 0, 2) :: served.regs, coh := { dir := [(0, { st := 3, agents := 1 })], copies := [(0, { st := 3, ctx := 0, data := leBytes 4 0x53504C4E ++ [1, 0, 1, 0] ++ List.replicate 40 0 ++ [128] ++ List.replicate 15 0 })] } }, 0x10, 0, by and_intros <;> decide⟩

theorem test_planUnload_runs : ∃ (s : State) (acc : Nat),
    (s.dev.mayWriteKey acc Reg.planCmd = true) :=
  ⟨dev { power := { on := true } }, 0x10, by decide⟩

theorem test_planActivate_runs : ∃ (s : State) (k c : Nat) (recs : List Nat),
    ((s.dev.plan k).loading = false) ∧ ((s.dev.plan k).next = some (c, recs)) ∧ ((s.dev.plan k).since < s.dev.tick) :=
  ⟨dev { regs := [(Reg.tickCount, 1)], jobs := { plans := [(15, { next := some (1, [7]) })] } }, 15, 1, [7], by and_intros <;> decide⟩

theorem test_planActivate_runs2 : ∃ (s : State) (k : Nat),
    ((s.dev.plan k).loading = false) ∧ ((s.dev.plan k).next = none) ∧ ((s.dev.plan k).unload = true) ∧ ((s.dev.plan k).since < s.dev.tick) :=
  ⟨dev { regs := [(Reg.tickCount, 1)], jobs := { plans := [(15, { state := 1, recs := [7], unload := true })] } }, 15, by and_intros <;> decide⟩

theorem test_planActivate_runs3 : ∃ (s : State) (k : Nat) (head bs : Bytes),
    ((s.dev.plan k).loading = true) ∧ ((Dev.planRead (s.dev.reg (Reg.planBase k)) s.mem s.dev).1 = .ok (some head, some bs)) ∧ ((Dev.planRead (s.dev.reg (Reg.planBase k)) s.mem s.dev).2.2.planRefused k head (Dev.planRecs bs) = 0) :=
  ⟨{ mem := Memory.write [] 0 (leBytes 4 0x53504C4E ++ [1, 0, 1, 0] ++ List.replicate 40 0 ++ [128]), dev := { served with regs := (Reg.hbmState 0, 2) :: served.regs, jobs := { plans := [(0, { loading := true })] } } }, 0, leBytes 4 0x53504C4E ++ [1, 0, 1, 0] ++ List.replicate 24 0, List.replicate 16 0 ++ [128] ++ List.replicate 15 0, by and_intros <;> decide⟩

theorem test_nodeLate_runs : ∃ (s : State) (q r i o u sl : Nat) (j : Job) (x : StageSlot),
    (s.dev.job (q * 256 + r) = some j) ∧ (i < JD.nnodes j.pkt.payload) ∧ (i < j.nodes.length) ∧ (j.ending = none) ∧ ((j.nodes.getD i {}).st ≤ 1) ∧ ((j.nodes.getD i {}).back = false) ∧ (Dev.runsLeft j.pkt.payload i (j.nodes.getD i {}) ≠ []) ∧ ((j.nodes.getD i {}).chosen = false) ∧ ((j.nodes.getD i {}).late = false) ∧ (Dev.depsDone j i = true) ∧ (JD.policy j.pkt.payload = 0) ∧ (JD.stagedOpnds j.pkt.payload i = [o]) ∧ (s.dev.namedUnits j.pkt.comp j.pkt.payload i o = [u]) ∧ (s.dev.slotNamed j.pkt.comp u = some (sl, x)) ∧ (s.dev.stagedReady j i = false) ∧ (x.state = 1) ∧ (x.deadline ≤ s.dev.tick) :=
  ⟨dev { served with jobs := { recs := [(0, job stagedJob)] }, tiers := { slots := [(0, { comp := 1, unit := 0, deadline := 0 })] } }, 0, 0, 0, 0, 0, 0, job stagedJob, { comp := 1, unit := 0, deadline := 0 }, by and_intros <;> decide⟩

theorem test_nodeLate_runs2 : ∃ (s : State) (q r i o u sl sh : Nat) (j : Job) (x : StageSlot),
    (s.dev.job (q * 256 + r) = some j) ∧ (i < JD.nnodes j.pkt.payload) ∧ (i < j.nodes.length) ∧ (j.ending = none) ∧ ((j.nodes.getD i {}).st = 0) ∧ ((j.nodes.getD i {}).back = false) ∧ (Dev.runsLeft j.pkt.payload i (j.nodes.getD i {}) ≠ []) ∧ ((j.nodes.getD i {}).chosen = false) ∧ (Dev.depsDone j i = true) ∧ (JD.policy j.pkt.payload = 1) ∧ (JD.stagedOpnds j.pkt.payload i = [o]) ∧ (s.dev.namedUnits j.pkt.comp j.pkt.payload i o = [u]) ∧ (s.dev.slotNamed j.pkt.comp u = some (sl, x)) ∧ (s.dev.stagedReady j i = false) ∧ (x.state = 1) ∧ (x.deadline ≤ s.dev.tick) ∧ (QM.shadowOf s.dev j.pkt.comp j.pkt.payload i o = some sh) :=
  ⟨dev { served with jobs := { recs := [(0, job (stagedJob.set 9 1))], plans := [(2, { state := 1, comp := 1, recs := [4 * 2 ^ 64] })] }, tiers := { slots := [(0, { comp := 1, unit := 0, deadline := 0 })] } }, 0, 0, 0, 0, 0, 0, 4 * 2 ^ 64, job (stagedJob.set 9 1), { comp := 1, unit := 0, deadline := 0 }, by and_intros <;> decide⟩

theorem test_nodeLate_runs3 : ∃ (s : State) (q r i o u sl : Nat) (j : Job) (x : StageSlot),
    (s.dev.job (q * 256 + r) = some j) ∧ (i < JD.nnodes j.pkt.payload) ∧ (i < j.nodes.length) ∧ (j.ending = none) ∧ ((j.nodes.getD i {}).st = 0) ∧ ((j.nodes.getD i {}).back = false) ∧ (Dev.runsLeft j.pkt.payload i (j.nodes.getD i {}) ≠ []) ∧ ((j.nodes.getD i {}).chosen = false) ∧ (Dev.depsDone j i = true) ∧ (JD.policy j.pkt.payload = 2) ∧ (JD.stagedOpnds j.pkt.payload i = [o]) ∧ (s.dev.namedUnits j.pkt.comp j.pkt.payload i o = [u]) ∧ (s.dev.slotNamed j.pkt.comp u = some (sl, x)) ∧ (s.dev.stagedReady j i = false) ∧ (x.state = 1) ∧ (x.deadline ≤ s.dev.tick) ∧ (JD.kind j.pkt.payload i 0 ≠ 1) ∧ (s.dev.claimOf j.pkt.comp j.reply j.pkt.workId = none ∨ j.output = true) :=
  ⟨dev { served with jobs := { recs := [(0, job (stagedJob.set 9 2))] }, tiers := { slots := [(0, { comp := 1, unit := 0, deadline := 0 })] } }, 0, 0, 0, 0, 0, 0, job (stagedJob.set 9 2), { comp := 1, unit := 0, deadline := 0 }, by and_intros <;> decide⟩

theorem test_nodeLate_runs4 : ∃ (s : State) (q r i : Nat) (j : Job) (bs : Bytes) (m : Memory) (d : Dev),
    (s.dev.job (q * 256 + r) = some j) ∧ (i < JD.nnodes j.pkt.payload) ∧ (j.ending = none) ∧ ((j.nodes.getD i {}).back = true) ∧ (StateT.run (ExceptT.run (QM.backBytes (q * 256 + r) i j.pkt.payload)) (s.mem, s.dev) = (.ok bs, m, d)) ∧ (s.dev.claimOf j.pkt.comp j.reply j.pkt.workId = none ∨ j.output = true) :=
  ⟨dev { served with jobs := { recs := [(0, { job (nodeJob 13 0 0 2 [opnd 0 3 7 4, opnd 0 4 7 4] [1, 2, 3, 4]) with nodes := [{ back := true }] })] } }, 0, 0, 0, { job (nodeJob 13 0 0 2 [opnd 0 3 7 4, opnd 0 4 7 4] [1, 2, 3, 4]) with nodes := [{ back := true }] }, [1, 2, 3, 4], [], ({ served with jobs := { recs := [(0, { job (nodeJob 13 0 0 2 [opnd 0 3 7 4, opnd 0 4 7 4] [1, 2, 3, 4]) with nodes := [{ back := true }] })] } } : Dev), by decide, by decide, by decide, by decide, rfl, by decide⟩

theorem test_contribRetry_runs : ∃ (s : State) (q r g n u : Nat) (x : Quantum) (c : Contribution) (j : Job) (i : Inst),
    (s.dev.jobs.running = [(u, x)]) ∧ (x.quad * 256 + x.job = q * 256 + r) ∧ (x.contribs = [c]) ∧ (c.waits = true) ∧ (c.queued = false) ∧ (c.pkt.group = g) ∧ (c.pkt.chunk = n) ∧ (s.dev.job (q * 256 + r) = some j) ∧ (j.backup = 0 ∨ j.backup = 3) ∧ (s.dev.inst g = some i) ∧ (i.state = 2) ∧ (2 ≤ s.dev.level i.quad) ∧ ((poolFor s.dev i.quad (unitKey (8 + i.quad) c.pkt.cls) c.pkt.cls c.pkt.cells).isSome = true) :=
  ⟨dev { served with jobs := { running := [(0, { copying with contribs := [{ pkt := { base with ptype := .reduceContrib, group := 5 }, waits := true }] })], recs := [(0, resident)] } }, 0, 0, 5, 0, 0, { copying with contribs := [{ pkt := { base with ptype := .reduceContrib, group := 5 }, waits := true }] }, { pkt := { base with ptype := .reduceContrib, group := 5 }, waits := true }, resident, { desc := 2 ^ 16, contribs := [3], quad := 0, state := 2 }, by and_intros <;> decide⟩

theorem test_contribRetry_runs2 : ∃ (s : State) (q r g n u : Nat) (x : Quantum) (c : Contribution) (i : Inst),
    (s.dev.jobs.running = [(u, x)]) ∧ (x.quad * 256 + x.job = q * 256 + r) ∧ (x.contribs = [c]) ∧ (c.waits = true) ∧ (c.pkt.group = g) ∧ (c.pkt.chunk = n) ∧ (s.dev.inst g = some i) ∧ (i.state = 2) ∧ (2 ≤ s.dev.level i.quad) ∧ (poolFor s.dev i.quad (unitKey (8 + i.quad) c.pkt.cls) c.pkt.cls c.pkt.cells = none) :=
  ⟨dev { served with cores := [(0, { free := [], freeCnt := 0 })], jobs := { running := [(0, { copying with contribs := [{ pkt := { base with ptype := .reduceContrib, group := 5 }, waits := true }] })], recs := [(0, resident)] } }, 0, 0, 5, 0, 0, { copying with contribs := [{ pkt := { base with ptype := .reduceContrib, group := 5 }, waits := true }] }, { pkt := { base with ptype := .reduceContrib, group := 5 }, waits := true }, { desc := 2 ^ 16, contribs := [3], quad := 0, state := 2 }, by and_intros <;> decide⟩

theorem test_backupNotify_runs : ∃ (s : State) (port comp : Nat) (m : CancelMsg),
    (s.dev.isActive port = true) ∧ (s.dev.role port = 1) ∧ (s.dev.ownId = some m.toSw) ∧ ((m.sw, 1, m.workId) ∉ s.dev.jobs.seen) ∧ (s.dev.claimOf comp m.replyFeid m.workId = none) ∧ (s.dev.jobs.claims.length < 4096) :=
  ⟨dev { dom := { swId := 0, planeSet := 1 }, regs := [(Reg.portState 0, 6), (Reg.portRole 0, 1)] }, 0, 1, { workId := 77, op := 1, sw := 4, replyFeid := 3 }, by and_intros <;> decide⟩

theorem test_backupClaim_runs : ∃ (s : State) (port comp : Nat) (m : CancelMsg) (c : Claim),
    (s.dev.isActive port = true) ∧ (s.dev.role port = 1) ∧ (s.dev.ownId = some m.toSw) ∧ ((m.sw, 2, m.workId) ∉ s.dev.jobs.seen) ∧ (s.dev.claimOf comp m.replyFeid m.workId = some c) ∧ (c.st = 1) ∧ (s.dev.jobs.claims.length ≤ 4096) :=
  ⟨dev { dom := { swId := 0, planeSet := 1 }, regs := [(Reg.portState 0, 6), (Reg.portRole 0, 1)], jobs := { claims := [{ comp := 1, reply := 3, work := 77, st := 1, peer := 4, tick := 0 }] } }, 0, 1, { workId := 77, op := 2, sw := 4, replyFeid := 3 }, { comp := 1, reply := 3, work := 77, st := 1, peer := 4, tick := 0 }, by and_intros <;> decide⟩

theorem test_backupGrant_runs : ∃ (s : State) (port comp k : Nat) (m : CancelMsg) (j : Job),
    (s.dev.isActive port = true) ∧ (s.dev.role port = 1) ∧ (s.dev.ownId = some m.toSw) ∧ ((m.sw, 3, m.workId) ∉ s.dev.jobs.seen) ∧ (s.dev.jobOfKey comp m.replyFeid m.workId true = some k) ∧ (s.dev.job k = some j) ∧ (j.backup = 2) ∧ (j.held = []) ∧ (∀ u ∈ s.dev.unitsOfJob k, (Tab.look s.dev.jobs.running u).all (fun x => x.contribs.isEmpty) = true) :=
  ⟨dev { dom := { swId := 0, planeSet := 1 }, regs := [(Reg.portState 0, 6), (Reg.portRole 0, 1)], jobs := { recs := [(0, { job ([1, 1, 0, 2] ++ copyJob.drop 4) with backup := 2 })] } }, 0, 1, 0, { workId := 77, op := 3, sw := 4, replyFeid := 3 }, { job ([1, 1, 0, 2] ++ copyJob.drop 4) with backup := 2 }, by and_intros <;> decide⟩

theorem test_backupDeny_runs : ∃ (s : State) (port comp k : Nat) (m : CancelMsg) (j : Job),
    (s.dev.isActive port = true) ∧ (s.dev.role port = 1) ∧ (s.dev.ownId = some m.toSw) ∧ ((m.sw, 4, m.workId) ∉ s.dev.jobs.seen) ∧ (s.dev.jobOfKey comp m.replyFeid m.workId true = some k) ∧ (s.dev.job k = some j) ∧ (j.backup = 2) ∧ (s.dev.unitsOfJob k = []) :=
  ⟨dev { dom := { swId := 0, planeSet := 1 }, regs := [(Reg.portState 0, 6), (Reg.portRole 0, 1)], jobs := { recs := [(0, { job ([1, 1, 0, 2] ++ copyJob.drop 4) with backup := 2 })] } }, 0, 1, 0, { workId := 77, op := 4, sw := 4, replyFeid := 3 }, { job ([1, 1, 0, 2] ++ copyJob.drop 4) with backup := 2 }, by and_intros <;> decide⟩

theorem test_backupCancel_runs : ∃ (s : State) (port comp k : Nat) (m : CancelMsg) (j : Job),
    (s.dev.isActive port = true) ∧ (s.dev.role port = 1) ∧ (s.dev.ownId = some m.toSw) ∧ ((m.sw, 0, m.workId) ∉ s.dev.jobs.seen) ∧ (s.dev.jobOfKey comp m.replyFeid m.workId true = some k) ∧ (s.dev.job k = some j) ∧ (j.backup = 1 ∨ j.backup = 2) ∧ (s.dev.unitsOfJob k = []) :=
  ⟨dev { dom := { swId := 0, planeSet := 1 }, regs := [(Reg.portState 0, 6), (Reg.portRole 0, 1)], jobs := { recs := [(0, { job ([1, 1, 0, 2] ++ copyJob.drop 4) with backup := 1 })] } }, 0, 1, 0, { workId := 77, op := 0, sw := 4, replyFeid := 3 }, { job ([1, 1, 0, 2] ++ copyJob.drop 4) with backup := 1 }, by and_intros <;> decide⟩

theorem test_claimWaitTimeout_runs : ∃ (s : State) (q r : Nat) (j : Job),
    (s.dev.job (q * 256 + r) = some j) ∧ (j.backup = 2) ∧ (j.claimTick + s.dev.reg Reg.claimWaitTicks ≤ s.dev.tick) ∧ (j.held = []) ∧ (∀ u ∈ s.dev.unitsOfJob (q * 256 + r), (Tab.look s.dev.jobs.running u).all (fun x => x.contribs.isEmpty) = true) :=
  ⟨dev { regs := [(Reg.tickCount, 2 ^ 40)], jobs := { recs := [(0, { job copyJob with backup := 2 })] } }, 0, 0, { job copyJob with backup := 2 }, by and_intros <;> decide⟩

theorem test_claimEntryExpire_runs : ∃ (s : State) (comp reply work : Nat) (c : Claim),
    (s.dev.jobs.claims = [c]) ∧ (c.comp = comp) ∧ (c.reply = reply) ∧ (c.work = work) ∧ (c.st ≠ 1) ∧ (c.tick + s.dev.reg Reg.claimHoldTicks ≤ s.dev.tick) :=
  ⟨dev { regs := [(Reg.tickCount, 2 ^ 40)], jobs := { claims := [{ comp := 1, reply := 3, work := 77, st := 2, peer := 4, tick := 0 }] } }, 1, 3, 77, { comp := 1, reply := 3, work := 77, st := 2, peer := 4, tick := 0 }, by and_intros <;> decide⟩

theorem test_engineQuantumStart_runs : ∃ (s : State) (q e i : Nat) (sl : TickSlot) (j : Job) (n : NodeRt),
    (q < 4) ∧ (e < 3) ∧ (Tab.look s.dev.jobs.slots (128 + 8 * q + e) = some sl) ∧ (s.dev.job sl.job = some j) ∧ (sl.tick = s.dev.tick) ∧ (sl.used = 0) ∧ ((s.dev.freeUnits (sl.job / 256)).contains (128 + 8 * q + e) = true) ∧ (s.dev.jobReady sl.job j (128 + 8 * q + e) = true) ∧ ((List.range (JD.nnodes j.pkt.payload)).find? (s.dev.nodeReady sl.job j (128 + 8 * q + e)) = some i) ∧ (j.nodes.getD i {} = n) ∧ (JD.opcode j.pkt.payload i = 9) ∧ ((List.range 260).all (fun k => JD.kind j.pkt.payload i k != 1) = true) :=
  ⟨dev { served with jobs := { slots := [(130, { tick := 0, job := 0 })], recs := [(0, job filterJob)] } }, 0, 2, 0, { tick := 0, job := 0 }, job filterJob, {}, by and_intros <;> decide⟩

theorem test_engineQuantumStart_runs2 : ∃ (s : State) (q e i lt : Nat) (sl : TickSlot) (j : Job) (n : NodeRt),
    (q < 4) ∧ (e < 3) ∧ (Tab.look s.dev.jobs.slots (128 + 8 * q + e) = some sl) ∧ (s.dev.job sl.job = some j) ∧ (sl.tick = s.dev.tick) ∧ (sl.used = 0) ∧ ((s.dev.freeUnits (sl.job / 256)).contains (128 + 8 * q + e) = true) ∧ (s.dev.jobReady sl.job j (128 + 8 * q + e) = true) ∧ ((List.range (JD.nnodes j.pkt.payload)).find? (s.dev.nodeReady sl.job j (128 + 8 * q + e)) = some i) ∧ (j.nodes.getD i {} = n) ∧ (JD.opcode j.pkt.payload i = 8) ∧ (s.dev.landingTile (sl.job / 256) = some lt) ∧ ((List.range 260).all (fun k => JD.kind j.pkt.payload i k != 1) = true) :=
  ⟨dev { served with jobs := { slots := [(128, { tick := 0, job := 0 })], recs := [(0, job gatherJob)] }, tiers := { slots := [(0, { comp := 1, unit := 0, deadline := 0, state := 2 })] } }, 0, 0, 0, 0, { tick := 0, job := 0 }, job gatherJob, {}, by and_intros <;> decide⟩

theorem test_gatherElement_runs : ∃ (s : State) (q e : Nat) (found : Ecc) (x y : Quantum),
    (q < 4) ∧ (e < 2) ∧ (Tab.look s.dev.jobs.running (128 + 8 * q + e) = some x) ∧ (x.parked = false) ∧ (x.pos < x.first + x.count) ∧ (s.dev.unitWaits (128 + 8 * q + e) = false) ∧ ((Dev.partRuns (128 + 8 * q + e) (fun env _ => QM.gatherStep q env x.pos (Tab.look x.spec x.pos)) s.mem (s.dev.strike found)).bind (fun r => Tab.look r.2.jobs.running (128 + 8 * q + e)) = some y) :=
  ⟨dev { served with jobs := { running := [(128, copying)], recs := [(0, job gatherJob)] } }, 0, 0, Ecc.clean, copying, { copying with out := [(0, List.replicate 32 0)] }, by and_intros <;> decide⟩

theorem test_gatherElement_runs2 : ∃ (s : State) (q e st : Nat) (found : Ecc) (x : Quantum),
    (q < 4) ∧ (e < 2) ∧ (Tab.look s.dev.jobs.running (128 + 8 * q + e) = some x) ∧ (x.parked = false) ∧ (x.pos < x.first + x.count) ∧ (s.dev.unitWaits (128 + 8 * q + e) = false) ∧ (Dev.partFails (128 + 8 * q + e) (fun env _ => QM.gatherStep q env x.pos (Tab.look x.spec x.pos)) s.mem (s.dev.strike found) = some st) :=
  ⟨dev { served with jobs := { running := [(128, copying)], recs := [(0, job (nodeJob 8 1 32 3 [opnd 0 3 8 4, opnd 0 2 7 64, opnd 0 4 7 32] [100, 0, 0, 0]))] } }, 0, 0, St.badDesc, Ecc.clean, copying, by and_intros <;> decide⟩

theorem test_speculativeRead_runs : ∃ (s : State) (q e ahead k : Nat) (found : Ecc) (b : Bytes) (x : Quantum) (env : QEnv),
    (q < 4) ∧ (e < 2) ∧ (Tab.look s.dev.jobs.running (128 + 8 * q + e) = some x) ∧ ((s.dev.strike found).envOf (128 + 8 * q + e) x = some (env, k)) ∧ (x.parked = false) ∧ (s.dev.flag Reg.specEnable = true) ∧ (1 ≤ ahead) ∧ (ahead ≤ Dev.specWindow env) ∧ (x.pos + ahead < x.first + x.count) ∧ (Dev.specBytes (128 + 8 * q + e) { env with index := some (x.pos + ahead) } (x.pos + ahead) s.mem (s.dev.strike found) = .ok (some b)) :=
  ⟨dev { served with regs := (Reg.specEnable, 1) :: (Reg.hbmState 0, 2) :: served.regs, jobs := { running := [(128, { copying with count := 2 })], recs := [(0, job gatherTwo)] }, tiers := { slots := [(0, { comp := 1, unit := 0, deadline := 0, state := 2 })] } }, 0, 0, 1, 0, Ecc.clean, List.replicate 32 0, { copying with count := 2 }, { unit := 128, job := 0, node := 0, p := gatherTwo, comp := 1, ctx := 0, xlat := [] }, by and_intros <;> decide⟩

theorem test_filterRows_runs : ∃ (s : State) (q rows n : Nat) (found : Ecc) (j : Job) (x y : Quantum),
    (q < 4) ∧ (Tab.look s.dev.jobs.running (130 + 8 * q) = some x) ∧ (x.parked = false) ∧ (s.dev.job (x.quad * 256 + x.job) = some j) ∧ (n = min (min rows (65536 / max 1 (JD.param j.pkt.payload x.node 1))) (x.first + x.count - x.pos)) ∧ (0 < n) ∧ (s.dev.unitWaits (130 + 8 * q) = false) ∧ ((Dev.partRuns (130 + 8 * q) (fun env _ => QM.filterStep q env x.pos n) s.mem (s.dev.strike found)).bind (fun r => Tab.look r.2.jobs.running (130 + 8 * q)) = some y) :=
  ⟨dev { served with jobs := { running := [(130, copying)], recs := [(0, job filterJob)] } }, 0, 1, 1, Ecc.clean, job filterJob, copying, { copying with out := [(0, [5, 0, 0, 0, 0, 0, 0, 0])], kept := 1 }, by and_intros <;> decide⟩

theorem test_blockDecode_runs : ∃ (s : State) (tile nblk blk idx idxNext opLen waited : Nat) (block : Bytes) (x y : Quantum),
    (tile < 120) ∧ (Tab.look s.dev.jobs.running tile = some x) ∧ (x.parked = false) ∧ (s.dev.unitWaits tile = false) ∧ (nblk = nblkOf opLen) ∧ (blk < nblk) ∧ ((Dev.partRuns tile (fun env _ => QM.decodeAhead env x.cut opLen blk waited (idx, idxNext, block)) s.mem s.dev).bind (fun r => Tab.look r.2.jobs.running tile) = some y) :=
  ⟨dev { served with jobs := { running := [(0, copying)], recs := [(0, job (expandJob 4))] } }, 0, 1, 0, 1, 0, 4, 2, [3, 0, 4, 0, 4, 0, 0, 0, 1, 2, 3, 4], copying, { copying with drawn := [(0, 0)] }, by and_intros <;> decide⟩

theorem test_blockDecode_runs2 : ∃ (s : State) (tile nblk blk idx idxNext opLen waited st : Nat) (block : Bytes) (x : Quantum),
    (tile < 120) ∧ (Tab.look s.dev.jobs.running tile = some x) ∧ (x.parked = false) ∧ (s.dev.unitWaits tile = false) ∧ (nblk = nblkOf opLen) ∧ (blk < nblk) ∧ (Dev.partFails tile (fun env _ => QM.decodeAhead env x.cut opLen blk waited (idx, idxNext, block)) s.mem s.dev = some st) :=
  ⟨dev { served with jobs := { running := [(0, copying)], recs := [(0, job (expandJob 3))] } }, 0, 1, 0, 1, 0, 3, 2, St.badDesc, [3, 0, 4, 0, 4, 0, 0, 0, 1, 2, 3, 4], copying, by and_intros <;> decide⟩

theorem test_tableBufferWait_runs : ∃ (s : State) (q tile i : Nat) (sl : TickSlot) (j : Job),
    (tile < 120) ∧ (tile / 30 = q) ∧ (s.dev.tileHeld tile = false) ∧ (Tab.look s.dev.jobs.slots tile = some sl) ∧ (s.dev.job sl.job = some j) ∧ (sl.tick = s.dev.tick) ∧ ((s.dev.freeUnits (sl.job / 256)).contains tile = true) ∧ (s.dev.jobReady sl.job j tile = true) ∧ ((List.range (JD.nnodes j.pkt.payload)).find? (s.dev.nodeReady sl.job j tile) = some i) ∧ (Dev.wantsTable j.pkt.payload i = true) ∧ (i < j.nodes.length) ∧ (s.dev.tableFree sl.job i = false) :=
  ⟨dev { served with jobs := { slots := [(0, { tick := 0, job := 0 })], recs := [(0, job compressJob)], tableBuf := [(0, 5)] } }, 0, 0, 0, { tick := 0, job := 0 }, job compressJob, by and_intros <;> decide⟩

theorem test_memberFailed_runs : ∃ (s : State) (g m : Nat),
    (SG.gstate (s.dev.sg g) = 1) ∧ (SG.k (s.dev.sg g) ≤ 14) ∧ (m < SG.k (s.dev.sg g) + 2) ∧ ((List.range (SG.k (s.dev.sg g) + 2)).all (fun n => SG.mstate (s.dev.sg g) n = 0) = true) ∧ ((s.dev.home (SG.quad (s.dev.sg g))).ops = []) :=
  ⟨dev { regs := [(Reg.sgActive 7, 4 + 16)] }, 7, 5, by and_intros <;> decide⟩

theorem test_memberFailed_runs2 : ∃ (s : State) (g m n : Nat),
    (SG.gstate (s.dev.sg g) = 3) ∧ (SG.k (s.dev.sg g) ≤ 14) ∧ (m < SG.k (s.dev.sg g) + 2) ∧ (n < SG.k (s.dev.sg g) + 2) ∧ (n ≠ m) ∧ ((List.range (SG.k (s.dev.sg g) + 2)).all (fun x => x = n || SG.mstate (s.dev.sg g) x = 0) = true) ∧ (SG.mstate (s.dev.sg g) n = 2) ∧ ((s.dev.home (SG.quad (s.dev.sg g))).ops = []) :=
  ⟨dev { regs := [(Reg.sgActive 7, 4 + 48 + 2 ^ 128 * 2 ^ 139)] }, 7, 4, 5, by and_intros <;> decide⟩

theorem test_memberFailed_runs3 : ∃ (s : State) (g m : Nat),
    (SG.gstate (s.dev.sg g) = 2) ∧ (SG.k (s.dev.sg g) ≤ 14) ∧ (m < SG.k (s.dev.sg g) + 2) ∧ (SG.mstate (s.dev.sg g) m = 0) ∧ (((List.range (SG.k (s.dev.sg g) + 2)).filter (fun n => SG.mstate (s.dev.sg g) n = 1)).length = 2) ∧ ((s.dev.home (SG.quad (s.dev.sg g))).ops = []) ∧ ((s.dev.home (SG.quad (s.dev.sg g))).merges = []) :=
  ⟨dev { regs := [(Reg.sgActive 7, 4 + 32 + 2 ^ 128 * 2 ^ 136 + 2 ^ 128 * 2 ^ 138)] }, 7, 0, by and_intros <;> decide⟩

theorem test_failMember_runs : ∃ (s : State) (acc g m : Nat),
    (s.dev.mayWriteKey acc Reg.sgCmd = true) ∧ (g = s.dev.regAs acc Reg.sgSelect) ∧ (m = s.dev.regAs acc Reg.sgMember) ∧ (SG.gstate (s.dev.sg g) = 1) ∧ (SG.k (s.dev.sg g) ≤ 14) ∧ (m < SG.k (s.dev.sg g) + 2) ∧ ((List.range (SG.k (s.dev.sg g) + 2)).all (fun n => SG.mstate (s.dev.sg g) n = 0) = true) ∧ ((s.dev.home (SG.quad (s.dev.sg g))).ops = []) :=
  ⟨dev { power := { on := true }, regs := [(Reg.debugState, 1), (Reg.sgActive 0, 4 + 16)] }, 0x30, 0, 0, by and_intros <;> decide⟩

theorem test_rebuildStart_runs : ∃ (s : State) (g m i : Nat) (rest : List Nat),
    (SG.gstate (s.dev.sg g) = 2) ∧ (SG.k (s.dev.sg g) ≤ 14) ∧ (m < SG.k (s.dev.sg g) + 2) ∧ (SG.mstate (s.dev.sg g) m = 1) ∧ ((s.dev.group g).restart = false) ∧ (s.dev.edgePast g = true) ∧ (s.dev.freeSpares g = i :: rest) ∧ (s.dev.groupServed g = true) :=
  ⟨dev { regs := [(Reg.sgActive 7, 4 + 32 + 2 ^ 156 * 2 ^ 157 + 2 ^ 128 * 2 ^ 138), (Reg.svcQuadLevel, 255)] }, 7, 5, 1, [], by and_intros <;> decide⟩

theorem test_rebuildStripe_runs : ∃ (s : State) (g no hm st q k : Nat),
    (s.dev.hmapOfGroup g = some (no, hm)) ∧ (SG.gstate (s.dev.sg g) = 3) ∧ (SG.mask (s.dev.sg g) ≠ 0) ∧ ((s.dev.group g).restart = false) ∧ (s.dev.edgePast g = true) ∧ (s.dev.backReady = true) ∧ (s.dev.groupServed g = true) ∧ (s.dev.ownStripe hm (SG.cursor (s.dev.sg g)) = some st) ∧ (st < SG.stripes (s.dev.sg g)) ∧ (q = SG.quad (s.dev.sg g)) ∧ (k = SG.k (s.dev.sg g)) ∧ (1 ≤ k) ∧ ((s.dev.home q).ops = []) ∧ ((s.dev.home q).subs = []) ∧ ((List.range k).any (s.dev.pastEnd g hm st) = false) ∧ (k ≤ ((List.range (k + 2)).filter (fun u => (s.dev.unitTray g st u).isSome)).length) :=
  ⟨dev { dom := { swId := 0, planeSet := 1 }, regs := [(Reg.hmapActive 0, 100 * 2 ^ 25 + 2 ^ 50 + 2 ^ 52 + 2 ^ 64 + 2 ^ 130), (Reg.sgActive 0, 4 + 48 + 2 ^ 256 * 2 + 8 * 2 ^ 176 * 2 ^ 176 + 2 ^ 192 * 2 ^ 192), (Reg.svcQuadLevel, 255)] }, 0, 0, 100 * 2 ^ 25 + 2 ^ 50 + 2 ^ 52 + 2 ^ 64 + 2 ^ 130, 0, 0, 4, by and_intros <;> decide⟩

theorem test_trayResp_runs2 : ∃ (s : State) (n q g m : Nat) (p : Packet) (b : TraySub) (op : HomeOp),
    (s.dev.isActive n = true) ∧ (s.dev.role n = 0) ∧ (p.ptype = .resp) ∧ (p.cls ≠ 7) ∧ (fieldsOk p = true) ∧ (p.enc = false) ∧ (s.dev.rightsOk (.port n) p = true) ∧ (s.dev.findSub n p = some (q, b)) ∧ (s.dev.opOf q b.op = some op) ∧ ((s.dev.home q).ops = [op]) ∧ ((s.dev.home q).subs = [b]) ∧ (op.kind = .rebuild) ∧ (op.atoms = []) ∧ (op.grp = some g) ∧ (op.phase = 2) ∧ (b.role < 200) ∧ (p.epoch = HMap.epoch (s.dev.reg (Reg.hmapActive b.hmapNo))) ∧ (p.status = 0) ∧ (s.dev.ownStripe op.hmap (op.stripe + 1) = some m) ∧ (m < SG.stripes (s.dev.sg g)) :=
  ⟨dev { served with regs := served.regs ++ [(Reg.sgActive 0, 4 + 48 + 2 ^ 256 * 2 + 8 * 2 ^ 176 * 2 ^ 176 + 2 ^ 192 * 2 ^ 192)], homes := [(0, { ops := [{ id := 1, kind := .rebuild, pkt := { base with cls := 7 }, hmap := 100 * 2 ^ 25 + 2 ^ 50 + 2 ^ 52 + 2 ^ 64 + 2 ^ 130, grp := some 0, len := 4096, started := true, phase := 2 }], subs := [{ port := 4, feid := 5, src := 0, reqEpoch := 0, tag := 9, write := true, addr := 0, len := 4096, op := 1, cls := 7 }] })] }, 4, 0, 0, 1, { ptype := .resp, cls := 1, src := 5, dst := 0, comp := 1, tag := 9 }, { port := 4, feid := 5, src := 0, reqEpoch := 0, tag := 9, write := true, addr := 0, len := 4096, op := 1, cls := 7 }, { id := 1, kind := .rebuild, pkt := { base with cls := 7 }, hmap := 100 * 2 ^ 25 + 2 ^ 50 + 2 ^ 52 + 2 ^ 64 + 2 ^ 130, grp := some 0, len := 4096, started := true, phase := 2 }, by and_intros <;> decide⟩

theorem test_trayResp_runs3 : ∃ (s : State) (n q : Nat) (p : Packet) (b : TraySub) (op : HomeOp),
    (s.dev.isActive n = true) ∧ (s.dev.role n = 0) ∧ (p.ptype = .resp) ∧ (p.cls ≠ 7) ∧ (fieldsOk p = true) ∧ (p.enc = false) ∧ (s.dev.rightsOk (.port n) p = true) ∧ (s.dev.findSub n p = some (q, b)) ∧ (s.dev.opOf q b.op = some op) ∧ ((s.dev.home q).ops = [op]) ∧ (op.kind = .read) ∧ (op.atoms = []) ∧ (op.grp = none) ∧ (op.phase = 1) ∧ (p.epoch = HMap.epoch (s.dev.reg (Reg.hmapActive b.hmapNo))) ∧ (p.status = St.unmapped) :=
  ⟨dev { served with homes := [(0, { ops := [{ id := 1, kind := .read, pkt := { base with tag := 1 }, len := 128, started := true, phase := 1 }], subs := [{ port := 4, feid := 5, src := 0, reqEpoch := 0, tag := 9, write := false, addr := 0, len := 128, op := 1, cls := 2 }] })] }, 4, 0, { ptype := .resp, cls := 1, src := 5, dst := 0, comp := 1, tag := 9, status := St.unmapped }, { port := 4, feid := 5, src := 0, reqEpoch := 0, tag := 9, write := false, addr := 0, len := 128, op := 1, cls := 2 }, { id := 1, kind := .read, pkt := { base with tag := 1 }, len := 128, started := true, phase := 1 }, by and_intros <;> decide⟩

theorem test_rebuildRestart_runs : ∃ (s : State) (g : Nat),
    (SG.gstate (s.dev.sg g) = 2 ∨ SG.gstate (s.dev.sg g) = 3) ∧ ((s.dev.group g).restart = true) ∧ (s.dev.edgePast g = true) ∧ (s.dev.groupServed g = true) ∧ (SG.mask (s.dev.sg g) ≠ 0) ∧ ((List.range (SG.k (s.dev.sg g) + 2)).any (fun m => SG.mstate (s.dev.sg g) m = 1) = false) :=
  ⟨dev { regs := [(Reg.sgActive 7, 4 + 48 + 2 ^ 192 * 2 ^ 192 + 5 * 2 ^ 160 * 2 ^ 160), (Reg.svcQuadLevel, 255)], groups := [(7, { restart := true })] }, 7, by and_intros <;> decide⟩

theorem test_transitionRevert_runs : ∃ (s : State) (i e : Nat),
    (s.dev.reg (Reg.hmapActive i) = e) ∧ (HMap.state e = 2) ∧ (HMap.transTick e + 3 ≤ s.dev.tick) :=
  ⟨dev { regs := [(Reg.hmapActive 3, 2 * 2 ^ 50), (Reg.tickCount, 3)] }, 3, 2 * 2 ^ 50, by and_intros <;> decide⟩

theorem test_resyncStripe_runs : ∃ (s : State) (g st no hm q k : Nat),
    (s.dev.hmapOfGroup g = some (no, hm)) ∧ (SG.gstate (s.dev.sg g) = 1) ∧ (s.dev.backReady = true) ∧ (st < SG.stripes (s.dev.sg g)) ∧ (s.dev.ownStripe hm st = some st) ∧ (s.dev.stripeUnverified g hm st = true) ∧ (s.dev.groupServed g = true) ∧ (q = SG.quad (s.dev.sg g)) ∧ (k = SG.k (s.dev.sg g)) ∧ (1 ≤ k) ∧ ((s.dev.home q).ops = []) ∧ ((s.dev.home q).subs = []) ∧ ((List.range k).any (s.dev.pastEnd g hm st) = false) ∧ ((List.range k).all (fun u => (s.dev.unitTray g st u).isSome) = true) :=
  ⟨dev { dom := { swId := 0, planeSet := 1 }, regs := [(Reg.hmapActive 0, 100 * 2 ^ 25 + 2 ^ 50 + 2 ^ 52 + 2 ^ 64 + 2 ^ 130), (Reg.sgActive 0, 4 + 16 + 8 * 2 ^ 176 * 2 ^ 176), (Reg.svcQuadLevel, 255)], groups := [(0, { unverified := [{ old := 0 }] })] }, 0, 7, 0, 100 * 2 ^ 25 + 2 ^ 50 + 2 ^ 52 + 2 ^ 64 + 2 ^ 130, 0, 4, by and_intros <;> decide⟩

theorem test_trayResp_runs4 : ∃ (s : State) (n q g : Nat) (p : Packet) (b : TraySub) (op : HomeOp),
    (s.dev.isActive n = true) ∧ (s.dev.role n = 0) ∧ (p.ptype = .resp) ∧ (p.cls ≠ 7) ∧ (fieldsOk p = true) ∧ (p.enc = false) ∧ (s.dev.rightsOk (.port n) p = true) ∧ (s.dev.findSub n p = some (q, b)) ∧ (s.dev.opOf q b.op = some op) ∧ ((s.dev.home q).ops = [op]) ∧ ((s.dev.home q).subs = [b]) ∧ (op.kind = .resync) ∧ (op.atoms = []) ∧ (op.grp = some g) ∧ (op.phase = 2) ∧ (b.role < 200) ∧ (p.epoch = HMap.epoch (s.dev.reg (Reg.hmapActive b.hmapNo))) ∧ (p.status = 0) :=
  ⟨dev { served with groups := [(0, { unverified := [{ old := 0 }] })], homes := [(0, { ops := [{ id := 1, kind := .resync, pkt := { base with cls := 7 }, grp := some 0, len := 4096, started := true, phase := 2 }], subs := [{ port := 4, feid := 5, src := 0, reqEpoch := 0, tag := 9, write := true, addr := 0, len := 128, op := 1, cls := 7 }] })] }, 4, 0, 0, { ptype := .resp, cls := 1, src := 5, dst := 0, comp := 1, tag := 9 }, { port := 4, feid := 5, src := 0, reqEpoch := 0, tag := 9, write := true, addr := 0, len := 128, op := 1, cls := 7 }, { id := 1, kind := .resync, pkt := { base with cls := 7 }, grp := some 0, len := 4096, started := true, phase := 2 }, by and_intros <;> decide⟩

theorem test_stepFenceReq_runs : ∃ (s : State) (acc c : Nat),
    (s.dev.mayWriteKey acc Reg.stepFenceReq = true) ∧ (c < 64) :=
  ⟨dev { power := { on := true } }, 0x10, 63, by and_intros <;> decide⟩

theorem test_stepFenceDone_runs : ∃ (s : State) (c n : Nat),
    (Tab.look s.dev.stepFences c = some { tick := some n }) ∧ (s.dev.writesBefore c n = false) :=
  ⟨dev { stepFences := [(63, { tick := some 9 })] }, 63, 9, by and_intros <;> decide⟩

theorem test_recoveryFence_runs : ∃ (s : State) (port : Nat) (m : RecoveryMsg),
    (s.dev.ownId.isSome = true) ∧ (s.dev.isActive port = true) ∧ (s.dev.role port = 1) ∧ (m.comp < 64) ∧ (recoveryId { m with op := 1 } ∉ s.dev.dom.seenNotices) ∧ (s.dev.fenced m.comp = false) :=
  ⟨dev { dom := { swId := 0, planeSet := 1 }, regs := [(Reg.portState 0, 6), (Reg.portRole 0, 1)] }, 0, { op := 1, comp := 63, reason := 7, sw := 4 }, by and_intros <;> decide⟩

theorem test_recoveryExpel_runs : ∃ (s : State) (port : Nat) (m : RecoveryMsg),
    (s.dev.ownId.isSome = true) ∧ (s.dev.isActive port = true) ∧ (s.dev.role port = 1) ∧ (recoveryId { m with op := 2 } ∉ s.dev.dom.seenNotices) :=
  ⟨dev { dom := { swId := 0, planeSet := 1 }, regs := [(Reg.portState 0, 6), (Reg.portRole 0, 1)] }, 0, { op := 2, comp := 63, reason := 7, sw := 4 }, by and_intros <;> decide⟩

theorem test_provisionalEnd_runs : ∃ (s : State),
    (s.dev.health.matured = false) ∧ (s.dev.health.provisionalEnd ≤ s.dev.tick) :=
  ⟨dev {}, by and_intros <;> decide⟩

theorem test_healthReadmit_runs : ∃ (s : State) (acc i : Nat) (h : Health),
    (s.dev.mayWriteKey acc Reg.readmit = true) ∧ (i < 0x3000) ∧ (itemKind i = 0 → itemNo i < 384) ∧ (Tab.look s.dev.health.items i = some h) :=
  ⟨dev { power := { on := true }, regs := [(Reg.debugState, 1)], health := { items := [(383, { state := 3 })] } }, 0x30, 383, { state := 3 }, by and_intros <;> decide⟩

theorem test_eventDelivery_runs : ∃ (s : State) (h : HostId) (l slot : Nat) (r : LogRec),
    (s.dev.nextForHost h l = some (slot, r)) ∧ ((s.dev.host h).up = true) ∧ (s.dev.evlogFull h = false) :=
  ⟨dev { regs := [(Reg.evlogBaseHa, 4096), (Reg.evlogMaskHa, 31)], hostA := { up := true }, logs := [(4, { recs := [(0, { seq := 1, code := 1, severity := 1, srcLog := 4, tick := 0 })] })] }, .ha, 4, 0, { seq := 1, code := 1, severity := 1, srcLog := 4, tick := 0 }, by and_intros <;> decide⟩

theorem test_evlogConsWrite_runs : ∃ (s : State) (h : HostId) (c : Nat),
    (s.dev.mayWriteKey (Dev.hostAcc h) (Dev.evlogConsKey h) = true) :=
  ⟨dev { power := { on := true } }, .hb, 70000, by decide⟩

theorem test_flogConsWrite_runs : ∃ (s : State) (h : HostId) (c : Nat),
    (s.dev.mayWriteKey (Dev.hostAcc h) (Dev.flogConsKey h) = true) :=
  ⟨dev { power := { on := true } }, .hb, 70000, by decide⟩

theorem test_campionWatchdog_runs : ∃ (s : State),
    (s.dev.campionUp = true) :=
  ⟨dev { power := { on := true } }, by decide⟩

theorem test_campionRestartDone_runs : ∃ (s : State),
    (s.dev.power.on = true) ∧ (s.dev.reg Reg.campionState = 1) :=
  ⟨dev { power := { on := true }, regs := [(Reg.campionState, 1)] }, by and_intros <;> decide⟩

theorem test_cmpHello_runs : ∃ (s : State) (m : SessMsg) (k : Nat),
    (s.dev.cmpServed = true) ∧ (32 ≤ m.body.length) ∧ ((List.range 4).find? (fun k => !Tab.has s.dev.mgmt.cmp k) = some k) :=
  ⟨dev { power := { on := true } }, { op := 1, body := List.replicate 32 0 }, 0, by and_intros <;> decide⟩

theorem test_cmpAccept_runs : ∃ (s : State) (m : SessMsg) (x : CmpSession),
    (Tab.look s.dev.mgmt.cmp m.session = some x) ∧ (s.dev.cmpServed = true) ∧ (x.state = 1) :=
  ⟨dev { power := { on := true }, mgmt := { cmp := [(3, { state := 1 })] } }, { op := 3, session := 3 }, { state := 1 }, by and_intros <;> decide⟩

theorem test_cmpRead_runs : ∃ (s : State) (n c id len : Nat) (e : EntryRef) (x : CmpSession),
    (s.dev.cmpFor n c = some x) ∧ (x.cache.find? (fun r => r.1 = id) = none) :=
  ⟨dev { power := { on := true }, mgmt := { cmp := [(3, { state := 2 })] } }, 3, 1, 9, 4, { index := 0x8000, sub := 8 }, { state := 2 }, by and_intros <;> decide⟩

theorem test_cmpRead_runs2 : ∃ (s : State) (n c id len : Nat) (e : EntryRef) (x : CmpSession) (st : Nat) (bs : Bytes),
    (s.dev.cmpFor n c = some x) ∧ (x.cache.find? (fun r => r.1 = id) = some (id, st, bs)) :=
  ⟨dev { power := { on := true }, mgmt := { cmp := [(3, { state := 2, cache := [(9, 0, [7])] })] } }, 3, 1, 9, 4, { index := 0x8000, sub := 8 }, { state := 2, cache := [(9, 0, [7])] }, 0, [7], by and_intros <;> decide⟩

theorem test_cmpWrite_runs : ∃ (s : State) (n c id : Nat) (e : EntryRef) (data : Bytes) (x : CmpSession),
    (s.dev.cmpFor n c = some x) ∧ (x.cache.find? (fun r => r.1 = id) = none) :=
  ⟨dev { power := { on := true }, mgmt := { cmp := [(3, { state := 2 })] } }, 3, 1, 9, { index := 0x8000, sub := 1 }, [1, 0], { state := 2 }, by and_intros <;> decide⟩

theorem test_cmpWrite_runs2 : ∃ (s : State) (n c id : Nat) (e : EntryRef) (data : Bytes) (x : CmpSession) (st : Nat) (bs : Bytes),
    (s.dev.cmpFor n c = some x) ∧ (x.cache.find? (fun r => r.1 = id) = some (id, st, bs)) :=
  ⟨dev { power := { on := true }, mgmt := { cmp := [(3, { state := 2, cache := [(9, 0, [7])] })] } }, 3, 1, 9, { index := 0x8000, sub := 1 }, [1, 0], { state := 2, cache := [(9, 0, [7])] }, 0, [7], by and_intros <;> decide⟩

theorem test_cmpSubscribe_runs : ∃ (s : State) (n c mask : Nat) (x : CmpSession),
    (s.dev.cmpFor n c = some x) :=
  ⟨dev { power := { on := true }, mgmt := { cmp := [(3, { state := 2 })] } }, 3, 1, 31, { state := 2 }, by decide⟩

theorem test_cmpClose_runs : ∃ (s : State) (n c : Nat) (x : CmpSession),
    (s.dev.cmpFor n c = some x) :=
  ⟨dev { power := { on := true }, mgmt := { cmp := [(3, { state := 2 })] } }, 3, 1, { state := 2 }, by decide⟩

theorem test_cmpIdleTimeout_runs : ∃ (s : State) (n : Nat) (x : CmpSession),
    (Tab.look s.dev.mgmt.cmp n = some x) ∧ (s.dev.campionUp = true) ∧ (x.last + 12000000 ≤ s.dev.tick) :=
  ⟨dev { power := { on := true }, regs := [(Reg.tickCount, 12000000)], mgmt := { cmp := [(3, { state := 2 })] } }, 3, { state := 2 }, by and_intros <;> decide⟩

theorem test_reportRead_runs : ∃ (s : State) (acc len : Nat),
    (s.dev.mayRead s.fuses.ownerHash.isSome acc 0x6000 0x06 0 len = true) :=
  ⟨dev { power := { on := true } }, 0x10, 4800, by decide⟩

theorem test_mbRead_runs : ∃ (s : State) (h : HostId) (addr off len : Nat),
    (s.dev.accLive (Dev.hostAcc h) = true) :=
  ⟨dev { power := { on := true } }, .ha, 0x88000, 0, 8, by decide⟩

theorem test_mbWrite_runs : ∃ (s : State) (h : HostId) (addr off : Nat) (data : Bytes),
    ((World.mk s.fuses s.mem s.dev).writeReady (Dev.hostAcc h) { index := bits addr 0 16, sub := bits addr 16 8, offset := off } = true) :=
  ⟨dev { power := { on := true } }, .ha, 0x45400, 0, [7], by decide⟩

theorem test_smbusSelect_runs : ∃ (s : State) (e : EntryRef),
    (s.dev.accLive 0x20 = true) :=
  ⟨dev { power := { on := true } }, { index := 0x9000, sub := 1 }, by decide⟩

theorem test_smbusRead_runs : ∃ (s : State) (len : Nat) (e : EntryRef),
    (s.dev.accLive 0x20 = true) ∧ (s.dev.mgmt.smbus = some e) ∧ (s.dev.mgmt.smbusStatus = 0) ∧ ((entryOf e.index e.sub).any Entry.octets = false) :=
  ⟨dev { power := { on := true }, mgmt := { smbus := some { index := 0x9000, sub := 1 } } }, 4, { index := 0x9000, sub := 1 }, by and_intros <;> decide⟩

theorem test_smbusRead_runs2 : ∃ (s : State) (len : Nat) (e : EntryRef),
    (s.dev.accLive 0x20 = true) ∧ (s.dev.mgmt.smbus = some e) ∧ (s.dev.mgmt.smbusStatus ≠ 0) :=
  ⟨dev { power := { on := true }, mgmt := { smbus := some { index := 1, sub := 1 }, smbusStatus := 1 } }, 4, { index := 1, sub := 1 }, by and_intros <;> decide⟩

theorem test_smbusStatus_runs : ∃ (s : State),
    (s.dev.accLive 0x20 = true) :=
  ⟨dev { power := { on := true } }, by decide⟩

theorem test_smbusAlertResponse_runs : ∃ (s : State),
    (s.dev.accLive 0x20 = true) ∧ (s.dev.mgmt.alertLow = true) :=
  ⟨dev { power := { on := true }, mgmt := { alertLow := true } }, by and_intros <;> decide⟩

theorem test_consoleRead_runs : ∃ (s : State) (e : EntryRef) (len : Nat),
    (s.dev.accLive 0x30 = true) :=
  ⟨dev { power := { on := true }, regs := [(Reg.debugState, 1)] }, { index := 0x9000, sub := 1 }, 4, by decide⟩

theorem test_consoleWrite_runs : ∃ (s : State) (e : EntryRef) (data : Bytes),
    (s.dev.accLive 0x30 = true) :=
  ⟨dev { power := { on := true }, regs := [(Reg.debugState, 1)] }, { index := 0x9000, sub := 1 }, [4], by decide⟩

theorem test_rcRead_runs : ∃ (s : State) (acc : Nat) (e : EntryRef) (x : Entry),
    (entryOf e.index e.sub = some x) ∧ (column acc x = .rc) ∧ (x.octets = false) ∧ (s.dev.mayRead s.fuses.ownerHash.isSome acc e.index e.sub e.offset x.size = true) :=
  ⟨dev { power := { on := true }, regs := [(Reg.debugState, 1)] }, 0x30, { index := 0x6000, sub := 0x15 }, ent 0x15 4 .num .rc .rc .rc 0 .s, by and_intros <;> decide⟩

theorem test_cfgLockSet_runs : ∃ (s : State) (acc : Nat),
    (s.dev.mayWrite s.fuses.ownerHash.isSome acc 0x1000 0x0D = true) :=
  ⟨dev { power := { on := true }, mgmt := { cmp := [(0, { state := 2 })] } }, 0, by decide⟩

theorem test_cfgLockClear_runs : ∃ (s : State) (acc : Nat),
    (s.dev.mayWrite s.fuses.ownerHash.isSome acc 0x1000 0x0D = true) ∧ (acc < 4) :=
  ⟨dev { power := { on := true }, mgmt := { cmp := [(0, { state := 2 })] } }, 0, by and_intros <;> decide⟩

theorem test_ownerDebugHashWrite_runs : ∃ (s : State) (acc : Nat) (hash : Bytes),
    (s.fuses.ownerHash = none) ∧ (s.dev.mayWrite false acc 0x6000 0x1B = true) ∧ (hash.length = 32) :=
  ⟨dev { power := { on := true }, mgmt := { cmp := [(0, { state := 2 })] } }, 0, List.replicate 32 7, by and_intros <;> decide⟩

theorem test_pbModeWrite_runs : ∃ (s : State) (acc b mode : Nat),
    (b < 96) ∧ (mode ≤ 2) ∧ (s.dev.mayWrite s.fuses.ownerHash.isSome acc (keyIdx (Reg.pbMode b)) (keySub (Reg.pbMode b)) = true) :=
  ⟨dev { power := { on := true }, mgmt := { cmp := [(0, { state := 2 })] } }, 0, 95, 2, by and_intros <;> decide⟩

theorem test_portEnableWrite_runs : ∃ (s : State) (acc p : Nat),
    (p < 384) ∧ (s.dev.mayWrite s.fuses.ownerHash.isSome acc (keyIdx (Reg.portEnable p)) (keySub (Reg.portEnable p)) = true) :=
  ⟨dev { power := { on := true }, mgmt := { cmp := [(0, { state := 2 })] } }, 0, 380, by and_intros <;> decide⟩

theorem test_portEnableWrite_runs2 : ∃ (s : State) (acc p : Nat),
    (p < 384) ∧ (s.dev.mayWrite s.fuses.ownerHash.isSome acc (keyIdx (Reg.portEnable p)) (keySub (Reg.portEnable p)) = true) ∧ (s.dev.role p ≠ 3) ∧ (s.dev.portState p = 0) :=
  ⟨dev { power := { on := true }, regs := [(Reg.portRole 380, 1)], mgmt := { cmp := [(0, { state := 2 })] } }, 0, 380, by and_intros <;> decide⟩

theorem test_portRoleWrite_runs : ∃ (s : State) (acc p v : Nat),
    (p < 384) ∧ (v ≤ 2) ∧ (s.dev.mayWrite s.fuses.ownerHash.isSome acc (keyIdx (Reg.portRole p)) (keySub (Reg.portRole p)) = true) ∧ (s.dev.portState p = 6) :=
  ⟨dev { power := { on := true }, regs := [(Reg.portState 380, 6)], mgmt := { cmp := [(0, { state := 2 })] } }, 0, 380, 2, by and_intros <;> decide⟩

theorem test_domainIdWrite_runs : ∃ (s : State) (acc v : Nat),
    (v < 65536) ∧ (s.dev.mayWrite s.fuses.ownerHash.isSome acc 0x8000 1 = true) :=
  ⟨dev { power := { on := true }, mgmt := { cmp := [(0, { state := 2 })] } }, 0, 65535, by and_intros <;> decide⟩

theorem test_domainIdWrite_runs2 : ∃ (s : State) (acc v : Nat),
    (v < 32) ∧ (s.dev.mayWrite s.fuses.ownerHash.isSome acc 0x8000 2 = true) :=
  ⟨dev { power := { on := true }, mgmt := { cmp := [(0, { state := 2 })] } }, 0, 31, by and_intros <;> decide⟩

theorem test_hmapStage_runs : ∃ (s : State) (acc : Nat) (x : Bytes),
    (s.dev.mayWrite s.fuses.ownerHash.isSome acc 0x3400 3 = true) ∧ ((entryOf 0x3400 3).map (·.size) = some x.length) ∧ (s.dev.hmapEntryOk (leNat x) = true) :=
  ⟨dev { power := { on := true }, mgmt := { cmp := [(0, { state := 2 })] } }, 0, List.replicate 32 0, by and_intros <;> decide⟩

theorem test_regionStage_runs : ∃ (s : State) (acc : Nat) (x : Bytes),
    (s.dev.mayWrite s.fuses.ownerHash.isSome acc 0x3800 3 = true) ∧ ((entryOf 0x3800 3).map (·.size) = some x.length) ∧ (s.dev.regionEntryOk (leNat x) = true) :=
  ⟨dev { power := { on := true }, mgmt := { cmp := [(0, { state := 2 })] } }, 0, List.replicate 16 0, by and_intros <;> decide⟩

theorem test_sgStage_runs : ∃ (s : State) (acc : Nat) (x : Bytes),
    (s.dev.mayWrite s.fuses.ownerHash.isSome acc 0x5600 3 = true) ∧ ((entryOf 0x5600 3).map (·.size) = some x.length) ∧ (s.dev.sgEntryOk (leNat x) = true) :=
  ⟨dev { power := { on := true }, mgmt := { cmp := [(0, { state := 2 })] } }, 0, List.replicate 64 0, by and_intros <;> decide⟩

theorem test_dictWrite_runs : ∃ (s : State) (acc k : Nat) (e : EntryRef) (data : Bytes) (x : Entry),
    (entryOf e.index e.sub = some x) ∧ (e.offset = 0) ∧ (data.length = x.size) ∧ (x.size ≤ accessLimit acc) ∧ (s.dev.mayWrite s.fuses.ownerHash.isSome acc e.index e.sub = true) ∧ (s.dev.keyAs acc e.index e.sub = k) ∧ (k ∉ [Reg.svnCommit, Reg.debugToken, Reg.ownerDebugHash, Reg.quadOff, Reg.faultResp]) ∧ ((Dev.actsA ++ Dev.actsC ++ Dev.actsB).all (fun a => a.1 != entryCode k) = true) ∧ (rangeOk k (leNat data) = true) ∧ (s.dev.ruleOk k (leNat data) = true) ∧ (s.dev.slotFixed k (leNat data) = false) :=
  ⟨dev { power := { on := true }, mgmt := { cmp := [(0, { state := 2 })] } }, 0, Reg.healthEnable, { index := 0x7020, sub := 1 }, [1], ent 0x01 1 .bool .rw .ro .no 1 .f, by and_intros <;> decide⟩

theorem test_dictWrite_runs2 : ∃ (s : State) (acc : Nat) (e : EntryRef) (data : Bytes),
    (s.dev.accLive acc = true) ∧ (s.dev.accCheck s.fuses.ownerHash.isSome acc true e.index e.sub e.offset data.length ≠ 0) :=
  ⟨dev { power := { on := true }, mgmt := { cmp := [(0, { state := 2 })] } }, 0, { index := 1, sub := 1 }, [1], by and_intros <;> decide⟩

theorem test_commit_runs : ∃ (s : State) (acc : Nat),
    (s.dev.mayWriteKey acc Reg.commitCmd = true) ∧ (s.dev.ownId.isNone = true ∨ s.dev.reg Reg.masterCur = 0xFF) :=
  ⟨dev { power := { on := true } }, 0x10, by and_intros <;> decide⟩

theorem test_commit_runs2 : ∃ (s : State) (acc : Nat),
    (Rising s.dev.regs) ∧ (s.dev.mayWriteKey acc Reg.commitCmd = true) ∧ (s.dev.ownId.isSome = true) ∧ (s.dev.reg Reg.masterCur ≠ 0xFF) ∧ (s.dev.isMaster = false) :=
  ⟨dev { power := { on := true }, dom := { swId := 0, planeSet := 1 }, regs := [(Reg.portState 0, 6), (Reg.portRole 0, 1), (Reg.masterCur, 9)] }, 0x10, by and_intros <;> decide⟩

theorem test_commit_runs3 : ∃ (s : State) (acc : Nat),
    (Rising s.dev.regs) ∧ (s.dev.mayWriteKey acc Reg.commitCmd = true) ∧ (s.dev.reg Reg.masterCur ≠ 0xFF) ∧ (s.dev.isMaster = true) ∧ (s.dev.commit.lead = none) ∧ (s.dev.commit.announced = none) ∧ (s.dev.campionUp = true) :=
  ⟨dev { power := { on := true }, dom := { swId := 0, planeSet := 1 }, regs := [(Reg.portState 0, 6), (Reg.portRole 0, 1), (Reg.masterCur, 0)] }, 0x10, by and_intros <;> decide⟩

theorem test_commit_runs4 : ∃ (s : State) (acc : Nat),
    (Rising s.dev.regs) ∧ (s.dev.mayWriteKey acc Reg.commitCmd = true) ∧ (s.dev.reg Reg.masterCur ≠ 0xFF) ∧ (s.dev.isMaster = true) ∧ (s.dev.commit.lead.isSome = true ∨ s.dev.commit.announced.isSome = true) :=
  ⟨dev { power := { on := true }, dom := { swId := 0, planeSet := 1 }, commit := { lead := some 5 }, regs := [(Reg.portState 0, 6), (Reg.portRole 0, 1), (Reg.masterCur, 0)] }, 0x10, by and_intros <;> decide⟩

theorem test_commitPrepare_runs : ∃ (s : State) (port src : Nat) (m : CommitMsg),
    (Rising s.dev.regs) ∧ (s.dev.isActive port = true) ∧ (s.dev.role port = 1) ∧ (s.dev.ownId.isSome = true) ∧ (s.dev.ownId ≠ some src) ∧ (s.dev.commit.seen = []) ∧ (s.dev.isMaster = false) ∧ (s.dev.reg Reg.masterCur = src) ∧ (s.dev.campionUp = true) ∧ (m.seq ≠ 0) ∧ (m.seq = s.dev.reg Reg.commitSeq + 1) ∧ (s.dev.partsOk = true) :=
  ⟨dev { power := { on := true }, dom := { swId := 0, planeSet := 1 }, regs := [(Reg.portState 0, 6), (Reg.portRole 0, 1), (Reg.masterCur, 9)] }, 0, 9, { op := 1, seq := 1 }, by and_intros <;> decide⟩

theorem test_commitPrepare_runs2 : ∃ (s : State) (port src : Nat) (m : CommitMsg),
    (Rising s.dev.regs) ∧ (s.dev.isActive port = true) ∧ (s.dev.role port = 1) ∧ (s.dev.ownId.isSome = true) ∧ (s.dev.ownId ≠ some src) ∧ (s.dev.commit.seen = []) ∧ (s.dev.isMaster = false) ∧ (s.dev.reg Reg.masterCur = src) ∧ (s.dev.campionUp = true) ∧ (m.seq ≠ 0) ∧ (m.seq ≠ s.dev.reg Reg.commitSeq + 1) :=
  ⟨dev { power := { on := true }, dom := { swId := 0, planeSet := 1 }, regs := [(Reg.portState 0, 6), (Reg.portRole 0, 1), (Reg.masterCur, 9)] }, 0, 9, { op := 1, seq := 7 }, by and_intros <;> decide⟩

theorem test_commitReady_runs : ∃ (s : State) (port src : Nat) (m : CommitMsg),
    (Rising s.dev.regs) ∧ (s.dev.isActive port = true) ∧ (s.dev.role port = 1) ∧ (s.dev.ownId ≠ some src) ∧ (s.dev.commit.seen = []) ∧ (s.dev.isMaster = true) ∧ (s.dev.commit.lead.isSome = true) ∧ (s.dev.commit.announced = none) ∧ (m.seq = s.dev.commit.seq) :=
  ⟨dev { power := { on := true }, dom := { swId := 0, planeSet := 3 }, commit := { lead := some 0, seq := 1, ready := 1 }, regs := [(Reg.portState 0, 6), (Reg.portRole 0, 1), (Reg.masterCur, 0)] }, 0, 1, { op := 1, seq := 1 }, by and_intros <;> decide⟩

theorem test_commitNotReady_runs : ∃ (s : State) (port src : Nat) (m : CommitMsg),
    (Rising s.dev.regs) ∧ (s.dev.isActive port = true) ∧ (s.dev.role port = 1) ∧ (s.dev.ownId ≠ some src) ∧ (s.dev.commit.seen = []) ∧ (s.dev.isMaster = true) ∧ (s.dev.commit.lead.isSome = true) ∧ (s.dev.commit.announced = none) ∧ (m.seq = s.dev.commit.seq) :=
  ⟨dev { power := { on := true }, dom := { swId := 0, planeSet := 3 }, commit := { lead := some 0, seq := 1, ready := 1 }, regs := [(Reg.portState 0, 6), (Reg.portRole 0, 1), (Reg.masterCur, 0)] }, 0, 1, { op := 1, seq := 1, reason := 4 }, by and_intros <;> decide⟩

theorem test_commitAnnounce_runs : ∃ (s : State) (port src : Nat) (m : CommitMsg),
    (s.dev.isActive port = true) ∧ (s.dev.role port = 1) ∧ (s.dev.ownId.isSome = true) ∧ (s.dev.ownId ≠ some src) ∧ (s.dev.commit.seen = []) ∧ ((s.dev.isMaster = false ∧ s.dev.reg Reg.masterCur = src) ∨ s.dev.commit.leader = src) ∧ (s.dev.commit.frozen.isSome = true) ∧ (m.seq = s.dev.commit.seq) :=
  ⟨dev { power := { on := true }, dom := { swId := 0, planeSet := 1 }, commit := { frozen := some 3, seq := 1 }, regs := [(Reg.portState 0, 6), (Reg.portRole 0, 1), (Reg.masterCur, 9)] }, 0, 9, { op := 1, seq := 1, tick := 50 }, by and_intros <;> decide⟩

theorem test_commitAnnounce_runs2 : ∃ (s : State) (port src : Nat) (m : CommitMsg),
    (s.dev.isActive port = true) ∧ (s.dev.role port = 1) ∧ (s.dev.ownId.isSome = true) ∧ (s.dev.ownId ≠ some src) ∧ (s.dev.commit.seen = []) ∧ (s.dev.commit.leader ≠ src) ∧ (s.dev.reg Reg.masterCur ≠ src) :=
  ⟨dev { power := { on := true }, dom := { swId := 0, planeSet := 1 }, commit := { frozen := some 3, seq := 1, leader := 9 }, regs := [(Reg.portState 0, 6), (Reg.portRole 0, 1), (Reg.masterCur, 8)] }, 0, 7, { op := 1, seq := 1, tick := 50 }, by and_intros <;> decide⟩

theorem test_commitAbort_runs : ∃ (s : State) (port src : Nat) (m : CommitMsg),
    (s.dev.isActive port = true) ∧ (s.dev.role port = 1) ∧ (s.dev.ownId.isSome = true) ∧ (s.dev.ownId ≠ some src) ∧ (s.dev.commit.seen = []) ∧ (s.dev.isMaster = false) ∧ (s.dev.reg Reg.masterCur = src) ∧ (s.dev.commit.announced = none) ∧ ((m.seq = 0 ∧ s.dev.commit.taker = true ∧ s.dev.commit.frozen = none) ∨ (m.seq ≠ 0 ∧ m.seq = s.dev.commit.seq ∧ s.dev.commit.frozen.isSome = true)) :=
  ⟨dev { power := { on := true }, dom := { swId := 0, planeSet := 1 }, commit := { frozen := some 3, seq := 1 }, regs := [(Reg.portState 0, 6), (Reg.portRole 0, 1), (Reg.masterCur, 9)] }, 0, 9, { op := 1, seq := 1, reason := 3 }, by and_intros <;> decide⟩

theorem test_commitDirty_runs : ∃ (s : State) (port src : Nat) (m : CommitMsg),
    (s.dev.isActive port = true) ∧ (s.dev.role port = 1) ∧ (s.dev.ownId.isSome = true) ∧ (s.dev.ownId ≠ some src) ∧ (s.dev.commit.seen = []) ∧ (s.dev.isMaster = false) ∧ (s.dev.reg Reg.masterCur = src) ∧ (s.dev.reg Reg.commitSeq ≠ m.tick) :=
  ⟨dev { power := { on := true }, dom := { swId := 0, planeSet := 1 }, regs := [(Reg.portState 0, 6), (Reg.portRole 0, 1), (Reg.masterCur, 9)] }, 0, 9, { op := 6, tick := 3, changed := 2 ^ 63 }, by and_intros <;> decide⟩

theorem test_resync_runs : ∃ (s : State) (acc : Nat),
    (s.dev.mayWriteKey acc Reg.commitCmd = true) :=
  ⟨dev { power := { on := true } }, 0x10, by decide⟩

theorem test_commitAnswerTimeout_runs : ∃ (s : State) (t0 : Nat),
    (Rising s.dev.regs) ∧ (s.dev.commit.announced = none) ∧ (s.dev.commit.lead = some t0) ∧ (t0 + 200 ≤ s.dev.tick) :=
  ⟨dev { commit := { lead := some 0 }, regs := [(Reg.tickCount, 200)] }, 0, by and_intros <;> decide⟩

theorem test_commitFreezeTimeout_runs : ∃ (s : State) (t0 : Nat),
    (s.dev.commit.announced = none) ∧ (s.dev.commit.frozen = some t0) ∧ (t0 + 264 ≤ s.dev.tick) :=
  ⟨dev { commit := { frozen := some 0 }, regs := [(Reg.tickCount, 264)] }, 0, by and_intros <;> decide⟩

theorem test_commitApply_runs : ∃ (s : State) (tk seq ch : Nat),
    (s.dev.commit.announced = some (tk, seq, ch)) ∧ (tk ≤ s.dev.tick) :=
  ⟨dev { commit := { announced := some (5, 1, 2) }, regs := [(Reg.tickCount, 5)] }, 5, 1, 2, by and_intros <;> decide⟩

theorem test_commitApply_runs2 : ∃ (s : State) (seq : Nat),
    (s.dev.commit.announced = none) ∧ (s.dev.commit.resync = true) ∧ (s.dev.commit.dirty = some seq) :=
  ⟨dev { commit := { resync := true, dirty := some 8 } }, 8, by and_intros <;> decide⟩

theorem test_commitApply_runs3 : ∃ (s : State) (tk seq ch : Nat),
    (s.dev.commit.announced = some (tk, seq, ch)) ∧ (s.dev.tick < tk) ∧ (s.dev.commit.resync = false) :=
  ⟨dev { commit := { announced := some (5, 1, 2) } }, 5, 1, 2, by and_intros <;> decide⟩

theorem test_usageReportPeriodic_runs : ∃ (s : State),
    (s.dev.power.on = true) ∧ (s.dev.tick % 2 ^ 20 = 0) :=
  ⟨dev { power := { on := true }, regs := [(Reg.compActive 63, 1), (Reg.tickCount, 2 ^ 20)] }, by and_intros <;> decide⟩

theorem test_usageReportPeriodic_runs2 : ∃ (s : State),
    (s.dev.tick % 2 ^ 20 ≠ 0) :=
  ⟨dev { regs := [(Reg.tickCount, 2 ^ 10)] }, by decide⟩

theorem test_reportCmd_runs : ∃ (s : State) (acc : Nat),
    (s.dev.mayWriteKey acc Reg.reportCmd = true) :=
  ⟨dev { power := { on := true } }, 0x10, by decide⟩

theorem test_hostLinkUp_runs : ∃ (s : State) (h : HostId) (width gen : Nat),
    (s.dev.power.on = true) ∧ (s.dev.power.stopping = false) :=
  ⟨dev { power := { on := true } }, .hb, 8, 6, by and_intros <;> decide⟩

theorem test_sendSlotWrite_runs : ∃ (s : State) (h : HostId) (slot off : Nat) (data : Bytes) (x : SendSlot),
    ((s.dev.host h).up = true) ∧ (slot < 4) ∧ (off + data.length ≤ 32768) ∧ (data ≠ []) ∧ (Tab.look (s.dev.host h).slots slot = some x) ∧ (x.busy = true) :=
  ⟨dev { hostA := { up := true, slots := [(3, { busy := true })] } }, .ha, 3, 32767, [1], { busy := true }, by and_intros <;> decide⟩

theorem test_sendSlotWrite_runs2 : ∃ (s : State) (h : HostId) (slot : Nat) (data : Bytes),
    ((s.dev.host h).up = true) ∧ (slot < 4) ∧ (data.length ≤ 32768) ∧ (data ≠ []) ∧ ((Tab.look (s.dev.host h).slots slot).any (·.busy) = false) ∧ (data.length < 16 ∨ data.length < 8 * bits (le data 0 16) 12 3 + bits (le data 0 16) 64 15) :=
  ⟨dev { hostA := { up := true, slots := [(3, { bytes := [1, 2] })] } }, .ha, 3, [7], by and_intros <;> decide⟩

theorem test_sendSlotWrite_runs3 : ∃ (s : State) (h : HostId) (slot : Nat) (data : Bytes),
    ((s.dev.host h).up = true) ∧ (slot < 4) ∧ (data.length ≤ 32768) ∧ (16 ≤ data.length) ∧ ((Tab.look (s.dev.host h).slots slot).any (·.busy) = false) ∧ (8 * bits (le data 0 16) 12 3 + bits (le data 0 16) 64 15 ≤ data.length) ∧ (bit (le data 0 16) 11 = true ∨ 16416 < 8 * bits (le data 0 16) 12 3 + bits (le data 0 16) 64 15 ∨ frameLen data = none) :=
  ⟨dev { hostB := { up := true } }, .hb, 0, List.replicate 16 0, by and_intros <;> decide⟩

theorem test_sendSlotWrite_runs4 : ∃ (s : State) (h : HostId) (slot : Nat) (data : Bytes) (p : Packet),
    ((s.dev.host h).up = true) ∧ (slot < 4) ∧ (data.length ≤ 32768) ∧ (16 ≤ data.length) ∧ ((Tab.look (s.dev.host h).slots slot).any (·.busy) = false) ∧ (8 * bits (le data 0 16) 12 3 + bits (le data 0 16) 64 15 ≤ data.length) ∧ (bit (le data 0 16) 11 = false) ∧ (8 * bits (le data 0 16) 12 3 + bits (le data 0 16) 64 15 ≤ 16416) ∧ ((frameLen data).isSome = true) ∧ (packetOf (data.take (8 * bits (le data 0 16) 12 3 + bits (le data 0 16) 64 15)) = some p) ∧ (p.ptype = .ctrl → p.ctype ≠ 5 ∧ p.ctype ≠ 6) :=
  ⟨dev { hostB := { up := true } }, .hb, 0, base.bytes [], (packetOf (base.bytes [])).getD base, by and_intros <;> decide⟩

theorem test_rxringWrite_runs : ∃ (s : State) (h : HostId) (q k : Nat) (e : QEnt),
    ((s.dev.host h).up = true) ∧ (s.dev.reg (Reg.rxringBase (hostNo h)) ≠ 0) ∧ (s.dev.ringFull h = false) ∧ (s.dev.unitHead (Dev.hostUnit h) (fun _ => true) = some (q, k, e)) :=
  ⟨dev { regs := [(Reg.rxringBase 0, 4096)], hostA := { up := true }, cores := [(0, { queues := [(unitKey 16 1, [{ id := 5, src := .port 0, pkt := base }])] })] }, .ha, 0, unitKey 16 1, { id := 5, src := .port 0, pkt := base }, by and_intros <;> decide⟩

theorem test_rxringWrite_runs2 : ∃ (s : State) (h : HostId),
    (s.dev.reg (Reg.rxringBase (hostNo h)) = 0 ∨ s.dev.ringFull h = true) :=
  ⟨dev {}, .hb, by decide⟩

theorem test_rxringConsWrite_runs : ∃ (s : State) (h : HostId) (cons : Nat),
    (s.dev.mayWriteKey (Dev.hostAcc h) (Reg.rxringCons (hostNo h)) = true) :=
  ⟨dev { power := { on := true } }, .hb, 65535, by decide⟩

theorem test_msixUnmask_runs : ∃ (s : State) (h : HostId) (v : Nat),
    (v < 4) :=
  ⟨dev { hostA := { pend := 8 } }, .ha, 3, by decide⟩

theorem test_dipStart_runs : ∃ (s : State) (mV : Nat),
    (s.dev.power.on = true) ∧ (s.dev.power.stopping = false) ∧ (s.dev.power.dip = none) ∧ (mV < 40000) :=
  ⟨dev { power := { on := true } }, 39999, by and_intros <;> decide⟩

theorem test_dipStart_runs2 : ∃ (s : State) (mV : Nat),
    (40000 ≤ mV) :=
  ⟨dev { power := { on := true } }, 40000, by decide⟩

theorem test_dipClassB_runs : ∃ (s : State),
    (s.dev.power.on = true) ∧ (s.dev.power.stopping = false) ∧ (s.dev.power.dip = some 1) :=
  ⟨dev { power := { on := true, dip := some 1 } }, by and_intros <;> decide⟩

theorem test_dipEnd_runs : ∃ (s : State) (mV c : Nat),
    (s.dev.power.on = true) ∧ (s.dev.power.stopping = false) ∧ (40500 ≤ mV) ∧ (s.dev.power.dip = some c) :=
  ⟨dev { power := { on := true, dip := some 2 } }, 40500, 2, by and_intros <;> decide⟩

theorem test_dipEnd_runs2 : ∃ (s : State) (mV : Nat),
    (mV < 40500) :=
  ⟨dev { power := { on := true, dip := some 2 } }, 40499, by decide⟩

theorem test_supplyStop_runs : ∃ (s : State) (c : Nat),
    (s.dev.power.on = true) ∧ (s.dev.power.stopping = false) ∧ (s.dev.power.dip = some c) :=
  ⟨dev { power := { on := true, dip := some 2 } }, 2, by and_intros <;> decide⟩

theorem test_overvoltage_runs : ∃ (s : State) (mV : Nat),
    (s.dev.power.on = true) ∧ (s.dev.power.stopping = false) ∧ (60000 < mV) ∧ (mV ≤ 80000) :=
  ⟨dev { power := { on := true } }, 60001, by and_intros <;> decide⟩

theorem test_overvoltage_runs2 : ∃ (s : State) (mV : Nat),
    (s.dev.power.on = true) ∧ (s.dev.power.stopping = false) ∧ (80000 < mV) ∧ (mV ≤ 90000) :=
  ⟨dev { power := { on := true } }, 90000, by and_intros <;> decide⟩

theorem test_overvoltage_beyond : ∃ mV : Nat, 90000 < mV := ⟨90001, by decide⟩
theorem test_overvoltageTimeout_runs : ∃ (s : State),
    (s.dev.power.on = true) ∧ (s.dev.power.stopping = false) ∧ (s.dev.power.overV = true) :=
  ⟨dev { power := { on := true, overV := true } }, by and_intros <;> decide⟩

theorem test_thermalTrip_runs : ∃ (s : State) (die celsius : Nat),
    (s.dev.power.on = true) ∧ (s.dev.power.stopping = false) ∧ (die ≤ 4) ∧ (s.dev.reg Reg.dieTripC ≤ celsius) :=
  ⟨dev { power := { on := true } }, 4, 110, by and_intros <;> decide⟩

theorem test_thermalTrip_runs2 : ∃ (s : State) (die celsius : Nat),
    (celsius < s.dev.reg Reg.dieTripC) :=
  ⟨dev { power := { on := true } }, 4, 109, by decide⟩

theorem test_refclkSwitch_runs : ∃ (s : State),
    (s.dev.power.on = true) ∧ (bit s.dev.power.refs (1 - s.dev.power.running) = true) ∧ (s.dev.power.running < 2) :=
  ⟨dev { power := { on := true } }, by and_intros <;> decide⟩

theorem test_refclkSwitch_runs2 : ∃ (s : State),
    (s.dev.power.on = true) ∧ (bit s.dev.power.refs (1 - s.dev.power.running) = false) :=
  ⟨dev { power := { on := true, refs := 1 } }, by and_intros <;> decide⟩

theorem test_refclkLost_runs : ∃ (s : State),
    (s.dev.power.on = true) ∧ (Rising s.dev.regs) :=
  ⟨dev { power := { on := true }, regs := [(Reg.portState 0, 6)] }, by and_intros <;> decide⟩

theorem test_refclkPrefWrite_runs : ∃ (s : State) (acc value : Nat),
    (s.dev.mayWriteKey acc Reg.refclkPref = true) ∧ (value ≤ 1) :=
  ⟨dev { power := { on := true }, mgmt := { cmp := [(0, { state := 2 })] } }, 0, 1, by and_intros <;> decide⟩

theorem test_fabricRefclkReturn_runs : ∃ (s : State) (b : Bool),
    (s.dev.power.boot = none) :=
  ⟨dev { power := { on := true, refs := 0 } }, true, by decide⟩

theorem test_fabricRefclkReturn_runs2 : ∃ (s : State) (b : Bool) (w : BootWait),
    (s.dev.power.boot = some w) ∧ (s.dev.power.resetLow = false) :=
  ⟨dev { power := { boot := some { cause := 1 }, refs := 0 } }, true, { cause := 1 }, by and_intros <;> decide⟩

theorem test_powerOn_runs : ∃ (s : State) (mV failed untrained attest : Nat),
    (s.dev.power.on = false ∧ s.dev.power.boot = none ∨ s.dev.power.stopping = true) ∧ (40000 ≤ mV) ∧ (mV ≤ 60000) ∧ (s.dev.power.resetLow = false) ∧ (s.dev.power.refs ≠ 0) :=
  ⟨dev {}, 48000, 0, 0, 0, by and_intros <;> decide⟩

theorem test_powerOn_runs2 : ∃ (s : State) (mV failed untrained attest : Nat),
    (mV < 40000 ∨ 60000 < mV) :=
  ⟨dev {}, 60001, 0, 0, 0, by decide⟩

theorem test_modResetN_runs : ∃ (s : State) (failed untrained attest : Nat),
    (s.dev.power.on = true) ∧ (s.dev.power.resetLow = false) ∧ (s.dev.power.stopping = false) ∧ (s.dev.power.boot = none) :=
  ⟨dev { power := { on := true } }, 0, 0, 0, by and_intros <;> decide⟩

theorem test_modResetN_runs2 : ∃ (s : State) (failed untrained attest : Nat) (w : BootWait),
    (s.dev.power.boot = some w) ∧ (s.dev.power.refs ≠ 0) :=
  ⟨dev { power := { resetLow := true, boot := some { cause := 2 } } }, 0, 0, 0, { cause := 2 }, by and_intros <;> decide⟩

theorem test_warmResetCmd_runs : ∃ (s : State) (acc : Nat),
    (s.dev.mayWriteKey acc Reg.resetCmd = true) ∧ (s.dev.power.stopping = false) :=
  ⟨dev { power := { on := true }, mgmt := { cmp := [(0, { state := 2 })] } }, 0, by and_intros <;> decide⟩

theorem test_fundamentalResetCmd_runs : ∃ (s : State) (acc : Nat),
    (s.dev.mayWriteKey acc Reg.resetCmd = true) ∧ (s.dev.power.stopping = false) :=
  ⟨dev { power := { on := true, reset := some 4 }, mgmt := { cmp := [(0, { state := 2 })] } }, 0, by and_intros <;> decide⟩

theorem test_resetBegin_runs : ∃ (s : State) (failed untrained attest : Nat),
    (s.dev.power.on = true) ∧ (s.dev.power.stopping = false) ∧ (s.dev.power.reset = some 3) ∧ (s.dev.power.resetLow = false) ∧ (s.dev.power.refs ≠ 0) :=
  ⟨dev { power := { on := true, reset := some 3 } }, 0, 0, 0, by and_intros <;> decide⟩

theorem test_resetBegin_runs2 : ∃ (s : State) (failed untrained attest c : Nat),
    (s.dev.power.on = true) ∧ (s.dev.power.stopping = false) ∧ (s.dev.power.reset = some c) ∧ (c ≠ 3) ∧ (s.dev.power.resetLow = false) ∧ (s.dev.power.refs ≠ 0) :=
  ⟨dev { power := { on := true, reset := some 5 } }, 0, 0, 0, 5, by and_intros <;> decide⟩

theorem test_hbmTrainTimeout_runs : ∃ (s : State) (st : Nat),
    (s.dev.power.on = true) ∧ (s.dev.coh.blocked = []) ∧ (st < 12) ∧ (bit s.dev.power.training st = true) ∧ (s.dev.reg (Reg.hbmState st) = 1) :=
  ⟨dev { power := { on := true, training := 2048 }, regs := [(Reg.hbmState 11, 1)] }, 11, by and_intros <;> decide⟩

theorem test_bistRun_runs : ∃ (s : State) (acc : Nat),
    (s.dev.mayWriteKey acc Reg.bistCmd = true) ∧ (s.dev.endpointPorts = []) :=
  ⟨dev { power := { on := true }, mgmt := { cmp := [(0, { state := 2 })] } }, 0, by and_intros <;> decide⟩

theorem test_bistRun_runs2 : ∃ (s : State) (acc : Nat),
    (s.dev.mayWriteKey acc Reg.bistCmd = true) ∧ (s.dev.endpointPorts ≠ []) :=
  ⟨dev { power := { on := true }, regs := [(Reg.portState 0, 6)], mgmt := { cmp := [(0, { state := 2 })] } }, 0, by and_intros <;> decide⟩

theorem test_bistDone_runs : ∃ (s : State) (failed : Nat),
    (s.dev.coh.blocked = []) ∧ (s.dev.reg Reg.bistState = 1) :=
  ⟨dev { power := { on := true }, regs := [(Reg.bistState, 1)] }, 1, by and_intros <;> decide⟩

theorem test_bistPacketRun_runs : ∃ (s : State) (port : Nat) (m : BistMsg),
    (s.dev.isActive port = true) ∧ (s.dev.role port = 1) ∧ (m.toSw = s.dev.dom.swId) :=
  ⟨dev { regs := [(Reg.portState 0, 6), (Reg.portRole 0, 1)], dom := { swId := 2 } }, 0, { op := 1, sw := 1, toSw := 2, pass := 0, tick := 0, detail := 0 }, by and_intros <;> decide⟩

theorem test_bistPacketResult_runs : ∃ (s : State) (port : Nat) (m : BistMsg),
    (s.dev.isActive port = true) ∧ (s.dev.role port = 1) ∧ (m.toSw = s.dev.dom.swId) ∧ (s.dev.isManager = true) :=
  ⟨dev { regs := [(Reg.portState 0, 6), (Reg.portRole 0, 1), (Reg.managerCur, 2)], dom := { swId := 2 } }, 0, { op := 2, sw := 1, toSw := 2, pass := 1, tick := 9, detail := 0 }, by and_intros <;> decide⟩

theorem test_quadOffSet_runs : ∃ (s : State) (acc q : Nat),
    (s.dev.mayWriteKey acc Reg.quadOff = true) ∧ (q < 4) ∧ (s.dev.reg Reg.quadOff < 16) ∧ (bit (s.dev.reg Reg.quadOff) q = false) ∧ (s.dev.quadBusy q = false) :=
  ⟨dev { power := { on := true }, mgmt := { cmp := [(0, { state := 2 })] } }, 0, 3, by and_intros <;> decide⟩

theorem test_quadOffSet_runs2 : ∃ (s : State) (acc q : Nat),
    (s.dev.mayWriteKey acc Reg.quadOff = true) ∧ (q < 4) ∧ (bit (s.dev.reg Reg.quadOff) q = false) ∧ (s.dev.quadBusy q = true) :=
  ⟨dev { power := { on := true }, mgmt := { cmp := [(0, { state := 2 })] }, jobs := { recs := [(256, resident)] } }, 0, 1, by and_intros <;> decide⟩

theorem test_quadOffClear_runs : ∃ (s : State) (acc q : Nat),
    (s.dev.mayWriteKey acc Reg.quadOff = true) ∧ (q < 4) ∧ (s.dev.reg Reg.quadOff < 16) ∧ (bit (s.dev.reg Reg.quadOff) q = true) :=
  ⟨dev { power := { on := true }, regs := [(Reg.quadOff, 8)], mgmt := { cmp := [(0, { state := 2 })] } }, 0, 3, by and_intros <;> decide⟩

theorem test_rungEntry_runs : ∃ (s : State) (domain unit : Nat),
    (s.dev.power.on = true) ∧ (Tab.getD s.dev.power.rungs (domain * 1024 + unit) 0 < s.dev.rungFor domain unit) :=
  ⟨dev { power := { on := true }, regs := [(Reg.hbmState 11, 2), (Reg.hbmIdleSleep, 1), (Reg.tickCount, 5)] }, 3, 11, by and_intros <;> decide⟩

theorem test_rungEntry_runs2 : ∃ (s : State) (domain unit : Nat),
    (s.dev.rungFor domain unit ≤ Tab.getD s.dev.power.rungs (domain * 1024 + unit) 0) :=
  ⟨dev {}, 2, 96, by decide⟩

theorem test_rungWake_runs : ∃ (s : State) (domain unit : Nat),
    (Tab.has s.dev.power.rungs (domain * 1024 + unit) = true) ∧ (unit < 1024) ∧ (domain = 1 ∨ domain = 2) :=
  ⟨dev { power := { on := true, rungs := [(2143, 2)] } }, 2, 95, by and_intros <;> decide⟩

theorem test_rungWake_runs2 : ∃ (s : State) (unit : Nat),
    (unit < 120) ∧ (1 ≤ Tab.getD s.dev.power.rungs unit 0) ∧ (s.dev.power.suspended = none) :=
  ⟨dev { power := { on := true, rungs := [(119, 4)] } }, 119, by and_intros <;> decide⟩

theorem test_rungWake_runs3 : ∃ (s : State) (unit : Nat),
    (Tab.has s.dev.power.rungs (3072 + unit) = true) ∧ (unit < 1024) :=
  ⟨dev { power := { on := true, rungs := [(3083, 3)] } }, 11, by and_intros <;> decide⟩

theorem test_front_hyp : ∃ (s : State) (c : Instr) (rest : List Instr), s.pending = c :: rest := ⟨{ pending := [.resetBegin 0 0 0, .powerOn 48000 0 0 0] }, _, _, rfl⟩
theorem test_idle : step State.reset = .next State.reset := rfl
theorem test_wf_hyp : ∃ s t : State, s.mem.wf = true ∧ step s = .next t := ⟨{ pending := [.mgmtClkLoss], mem := [(5, 1), (9, 2)] }, _, by decide, rfl⟩
theorem test_fuses_hyp : ∃ s t : State, step s = .next t ∧ t.fuses.ownerHash = some 7 := ⟨{ pending := [.mgmtClkLoss], fuses := { ownerHash := some 7 } }, _, rfl, rfl⟩
theorem test_regs_hyp : ∃ s t : State, RegsCanonical s.dev ∧ step s = .next t := ⟨{ pending := [.mgmtClkLoss], dev := { regs := [(Reg.tickCount, 5)] } }, _, by unfold RegsCanonical; decide, rfl⟩
theorem test_frozen_hyp : ∃ (d : Dev) (hash : Bool) (acc idx sub : Nat), d.commit.frozen.isSome = true ∧
    (idx, sub) ∈ [(0x8100, 0x03), (0x8100, 0x05), (0x8100, 0x07), (0x3400, 0x03), (0x3800, 0x03), (0x5600, 0x03)] ∧ ({ d with commit := {} } : Dev).mayWrite hash acc idx sub = true := ⟨{ power := { on := true }, mgmt := { cmp := [(0, { state := 2 })] }, commit := { frozen := some 0 } }, false, 0, 0x5600, 3, by decide, by decide, by decide⟩
theorem test_commitFreezeTimeout_runs2 : ∃ (s : State) (t0 : Nat),
    (s.dev.commit.announced = none) ∧ (s.dev.commit.frozen = some t0) ∧ (t0 + 264 ≤ s.dev.tick) :=
  ⟨dev { commit := { frozen := some 0 }, regs := [(Reg.tickCount, 264)] }, 0, by and_intros <;> decide⟩

theorem test_clkLost_hyp : ∃ s : State, s.dev.mgmt.clkLost = true ∧ s.dev.campionUp = true := ⟨dev { power := { on := true }, mgmt := { clkLost := true } }, rfl, by decide⟩
theorem test_campionWatchdog_runs2 : ∃ (s : State),
    (s.dev.mgmt.clkLost = true) ∧ (s.dev.campionUp = true) :=
  ⟨dev { power := { on := true }, mgmt := { clkLost := true } }, by and_intros <;> decide⟩

theorem test_ownerDebugHashWrite_runs2 : ∃ (s : State) (acc : Nat) (hash : Bytes),
    (s.fuses.ownerHash = none) ∧ (s.dev.mayWrite false acc 0x6000 0x1B = true) ∧ (hash.length = 32) :=
  ⟨dev { power := { on := true }, mgmt := { cmp := [(0, { state := 2 })] } }, 0, List.replicate 32 7, by and_intros <;> decide⟩

theorem test_ownerHash_hyp : ∃ (acc off len : Nat) (e : Entry), entryOf 0x6000 0x1B = some e ∧ (column acc e).writable = true ∧ lengthOk acc e off len = true := ⟨0, 0, 32, (entryOf 0x6000 0x1B).getD (ent 0 0 .num .no .no .no 0 .f), by decide, by decide, by decide⟩
theorem test_cmpHello_runs2 : ∃ (s : State) (m : SessMsg),
    (s.dev.cmpServed = true) ∧ (32 ≤ m.body.length) ∧ ((List.range 4).all (fun k => Tab.has s.dev.mgmt.cmp k) = true) :=
  ⟨dev { power := { on := true }, mgmt := { cmp := [(0, {}), (1, {}), (2, {}), (3, {})] } }, { op := 1, body := List.replicate 32 0 }, by and_intros <;> decide⟩

theorem test_hello_hyp : ∃ (s t : State) (m : SessMsg) (k : Nat), exec (.cmpHello m) s = .next t ∧ Tab.has t.dev.mgmt.cmp k = true := ⟨dev { mgmt := { cmp := [(0, {})] } }, _, { op := 1 }, 0, rfl, by decide⟩
theorem test_cmpIdleTimeout_runs2 : ∃ (s : State) (n : Nat) (x : CmpSession),
    (Tab.look s.dev.mgmt.cmp n = some x) ∧ (s.dev.campionUp = true) ∧ (x.last + 12000000 ≤ s.dev.tick) :=
  ⟨dev { power := { on := true }, regs := [(Reg.tickCount, 12000000)], mgmt := { cmp := [(3, { state := 2 })] } }, 3, { state := 2 }, by and_intros <;> decide⟩

theorem test_cmpAccept_runs2 : ∃ (s : State) (m : SessMsg) (x : CmpSession),
    (Tab.look s.dev.mgmt.cmp m.session = some x) ∧ (s.dev.cmpServed = true) ∧ (x.state = 1) :=
  ⟨dev { power := { on := true }, mgmt := { cmp := [(3, { state := 1 })] } }, { op := 3, session := 3 }, { state := 1 }, by and_intros <;> decide⟩

theorem test_LinkAndDomainFrames_hyp : ∃ t, exec (.signalDetected 0) State.reset = .next t := ⟨_, rfl⟩
theorem test_TrafficFrames_hyp : ∃ t, exec (.msixUnmask .ha 0) State.reset = .next t := ⟨_, rfl⟩
theorem test_HomeAndCoherenceFrames_hyp : ∃ t, exec (.dedupFree 0 0 0 0) State.reset = .next t := ⟨_, rfl⟩
theorem test_JobFrames_hyp : ∃ t, exec (.libActivateB 0) State.reset = .next t := ⟨_, rfl⟩
theorem test_YarrowErasureAndHealthFrames_hyp : ∃ t, exec (.provisionalEnd) State.reset = .next t := ⟨_, rfl⟩
theorem test_SecurityManagementAndPowerFrames_hyp : ∃ t, exec (.mgmtClkReturn) State.reset = .next t := ⟨_, rfl⟩
theorem test_WideFrames_hyp : ∃ t, exec (.stackFailed 0 false) State.reset = .next t := ⟨_, rfl⟩
end Sys2Proof.Tests
end

section
/-! SUPPORT. The dictionary's table stays canonical under its writers: a value given to an entry (`Dev.setReg`) and
a reset (`Dev.cold`, `Dev.warm`). -/

namespace Sys2Proof.Machine

/-- What every step of a fold keeps holds of its result. -/
theorem foldl_keeps {α β : Type} (P : β → Prop) (l : List α) {f : β → α → β} (hf : ∀ b a, P b → P (f b a)) {b : β} (hb : P b) :
    P (l.foldl f b) := List.foldlRecOn l f hb fun b hb a _ => hf b a hb

/-- The canonical form of the dictionary's table: keys rising, no default listed. -/
def CanonRegs (t : Tab Nat) : Prop := Tab.Sorted t ∧ ∀ kv ∈ t, kv.2 ≠ regDefault kv.1

theorem regsCanonical_iff (d : Dev) : RegsCanonical d ↔ CanonRegs d.regs := Iff.rfl

/-- An update that leaves the dictionary's table alone keeps it canonical. -/
theorem RegsCanonical.of_regs_eq {d d' : Dev} (h : RegsCanonical d) (e : d'.regs = d.regs) : RegsCanonical d' := by
  rw [regsCanonical_iff, e]
  exact h

theorem CanonRegs.nil : CanonRegs [] := ⟨List.Pairwise.nil, by simp⟩

theorem CanonRegs.filter {t : Tab Nat} (h : CanonRegs t) (p : Nat × Nat → Bool) : CanonRegs (t.filter p) :=
  ⟨Tab.sorted_filter p h.1, fun kv hkv => h.2 kv (List.mem_of_mem_filter hkv)⟩

theorem CanonRegs.set {t : Tab Nat} (h : CanonRegs t) (k v : Nat) : CanonRegs (Tab.set t k v (regDefault k)) := by
  refine ⟨Tab.sorted_set k v _ h.1, fun kv hkv => ?_⟩
  unfold Tab.set at hkv
  split at hkv
  · exact (h.filter _).2 kv hkv
  · next hv =>
    rcases Tab.mem_put hkv with rfl | hkv
    · exact hv
    · exact h.2 kv hkv

namespace Dev
variable {d : Dev}

theorem setReg_canon (h : RegsCanonical d) (k v : Nat) : RegsCanonical (d.setReg k v) := CanonRegs.set h k v

theorem each_canon {α : Type} (h : RegsCanonical d) (l : List α) {f : Dev → α → Dev}
    (hf : ∀ d a, RegsCanonical d → RegsCanonical (f d a)) : RegsCanonical (d.each l f) := foldl_keeps RegsCanonical l hf h

theorem keptRegs_canon (h : RegsCanonical d) (keep : RClass → Bool) : CanonRegs (d.keptRegs keep) := CanonRegs.filter h _

theorem cold_canon (h : RegsCanonical d) (powerOn : Bool) : RegsCanonical (d.cold powerOn) := by
  rw [regsCanonical_iff, cold]
  cases powerOn
  · simpa using keptRegs_canon h _
  · exact CanonRegs.nil

theorem warm_canon (h : RegsCanonical d) : RegsCanonical d.warm := by
  rw [regsCanonical_iff, warm]
  simpa using keptRegs_canon h _

end Dev

theorem snd_ite_canon {α : Type} {c : Prop} [Decidable c] {x y : α × Dev} (hx : RegsCanonical x.2) (hy : RegsCanonical y.2) :
    RegsCanonical (if c then x else y).2 := by
  split
  · exact hx
  · exact hy

end Sys2Proof.Machine
end

section
/-! SUPPORT. What a quantum's monad keeps: one rule for each way in which a part of a quantum is put together. -/

namespace Sys2Proof.Machine

/-- A part of a quantum keeps the dictionary canonical, whether it goes through, fails or waits. -/
structure QM.Keeps {α : Type} (x : QM α) : Prop where
  run : ∀ s : Memory × Dev, RegsCanonical s.2 → RegsCanonical (StateT.run (ExceptT.run x) s).2.2

namespace QM
variable {α β : Type}

theorem keeps_pure (a : α) : Keeps (pure a : QM α) := ⟨fun _ h => h⟩

theorem keeps_throw (e : QErr) : Keeps (throw e : QM α) := ⟨fun _ h => h⟩

theorem keeps_fail (s : Nat) : Keeps (fail s : QM α) := ⟨fun _ h => h⟩

theorem keeps_bind {x : QM α} {f : α → QM β} (hx : Keeps x) (hf : ∀ a, Keeps (f a)) : Keeps (x >>= f) := by
  refine ⟨fun s h => ?_⟩
  have hs := hx.run s h
  simp only [ExceptT.run_bind, StateT.run_bind]
  rcases e : StateT.run (ExceptT.run x) s with ⟨r, t⟩
  rw [e] at hs
  cases r with
  | ok a => exact (hf a).run t hs
  | error e => exact hs

theorem keeps_ite {c : Prop} [Decidable c] {x y : QM α} (hx : Keeps x) (hy : Keeps y) : Keeps (if c then x else y) := by
  split
  · exact hx
  · exact hy

/-- What follows a look at the device may take the device it saw to be canonical. -/
theorem keeps_dev_bind {f : Dev → QM β} (hf : ∀ d, RegsCanonical d → Keeps (f d)) : Keeps (dev >>= f) :=
  ⟨fun s h => (hf s.2 h).run s h⟩

theorem keeps_get_bind {f : Memory × Dev → QM β} (hf : ∀ s, RegsCanonical s.2 → Keeps (f s)) : Keeps ((get : QM (Memory × Dev)) >>= f) :=
  ⟨fun s h => (hf s h).run s h⟩

theorem keeps_modDev {f : Dev → Dev} (hf : ∀ d, RegsCanonical d → RegsCanonical (f d)) : Keeps (modDev f) := ⟨fun s h => hf s.2 h⟩

theorem keeps_modBoth {f : Memory → Dev → Memory × Dev} (hf : ∀ m d, RegsCanonical d → RegsCanonical (f m d).2) : Keeps (modBoth f) :=
  ⟨fun s h => hf s.1 s.2 h⟩

/-- The check is stated with its arguments apart, so that the kernel compares them one by one and runs no check. -/
theorem keeps_check {ι κ μ : Type} {f : Dev → ι → κ → μ → Except Nat α × Dev}
    (hf : ∀ d i k m, RegsCanonical d → RegsCanonical (f d i k m).2) (i : ι) (k : κ) (m : μ) : Keeps (check fun d => f d i k m) := by
  unfold check
  refine keeps_get_bind fun s h => ?_
  have hs := hf s.2 i k m h
  split <;> next e =>
    rw [show f s.2 i k m = _ from e] at hs
    exact ⟨fun _ _ => hs⟩

theorem keeps_atL2 {f : Memory → Dev → Except QErr α × Memory × Dev} (hf : ∀ m d, RegsCanonical d → RegsCanonical (f m d).2.2) :
    Keeps (atL2 f) := by
  unfold atL2
  refine keeps_get_bind fun s h => ?_
  have hs := hf s.1 s.2 h
  split <;> next e =>
    rw [e] at hs
    exact ⟨fun _ _ => hs⟩

theorem keeps_tryCatch {x : QM α} {f : QErr → QM α} (hx : Keeps x) (hf : ∀ e, Keeps (f e)) : Keeps (tryCatch x f) := by
  refine ⟨fun s h => ?_⟩
  have hs := hx.run s h
  simp only [ExceptT.run_tryCatch, StateT.run_bind]
  rcases e : StateT.run (ExceptT.run x) s with ⟨r, t⟩
  rw [e] at hs
  cases r with
  | ok a => exact hs
  | error err => exact (hf err).run t hs

theorem keeps_forM (l : List α) {f : α → QM Unit} (hf : ∀ a, Keeps (f a)) : Keeps (l.forM f) := by
  induction l with
  | nil => exact keeps_pure _
  | cons a l ih => exact keeps_bind (hf a) fun _ => ih

theorem keeps_mapM (l : List α) {f : α → QM β} (hf : ∀ a, Keeps (f a)) : Keeps (l.mapM f) := by
  induction l with
  | nil => exact keeps_pure _
  | cons a l ih =>
    rw [List.mapM_cons]
    exact keeps_bind (hf a) fun _ => keeps_bind ih fun _ => keeps_pure _

end QM

end Sys2Proof.Machine
end

section
/-! SUPPORT. Every function of the model keeps the dictionary canonical: one lemma for each, in the order of the model, from the
lemmas of those it calls. A function that writes no entry keeps it by computation. -/

namespace Sys2Proof.Machine

/-! ### `Machine/Ops` -/

theorem Dev.bump_canon {d : Dev} (h : RegsCanonical d) (k n) : RegsCanonical (d.bump k n) := by
  unfold bump
  grind [setReg_canon]

theorem Dev.emit_canon {d : Dev} (h : RegsCanonical d) (o) : RegsCanonical (d.emit o) := h

theorem Dev.fresh_canon {d : Dev} (h : RegsCanonical d) : RegsCanonical d.fresh.2 := h

theorem Dev.freshBytes_canon {d : Dev} (h : RegsCanonical d) (n) : RegsCanonical (d.freshBytes n).2 := h

theorem Dev.modPort_canon {d : Dev} (h : RegsCanonical d) (p f) : RegsCanonical (d.modPort p f) := h

theorem Dev.modCore_canon {d : Dev} (h : RegsCanonical d) (q f) : RegsCanonical (d.modCore q f) := h

theorem Dev.modHome_canon {d : Dev} (h : RegsCanonical d) (q f) : RegsCanonical (d.modHome q f) := h

theorem Dev.modGroup_canon {d : Dev} (h : RegsCanonical d) (g f) : RegsCanonical (d.modGroup g f) := h

theorem Dev.modDom_canon {d : Dev} (h : RegsCanonical d) (f) : RegsCanonical (d.modDom f) := h

theorem Dev.modHealth_canon {d : Dev} (h : RegsCanonical d) (f) : RegsCanonical (d.modHealth f) := h

theorem Dev.setPower_canon {d : Dev} (h : RegsCanonical d) (p) : RegsCanonical (d.setPower p) := h

theorem Dev.ctrlDrop_canon {d : Dev} (h : RegsCanonical d) (p) : RegsCanonical (d.ctrlDrop p) := by
  unfold ctrlDrop
  grind [bump_canon]

theorem Dev.sendPort_canon {d : Dev} (h : RegsCanonical d) (p pk) : RegsCanonical (d.sendPort p pk) := h

theorem Dev.flood_canon {d : Dev} (h : RegsCanonical d) (except pk) : RegsCanonical (d.flood except pk) := by
  unfold flood
  grind [each_canon, sendPort_canon]

theorem Dev.setSg_canon {d : Dev} (h : RegsCanonical d) (g v) : RegsCanonical (d.setSg g v) := setReg_canon h ..

/-! ### `Machine/Flags` -/

theorem Dev.modLog_canon {d : Dev} (h : RegsCanonical d) (l f) : RegsCanonical (d.modLog l f) := h

theorem Dev.modHost_canon {d : Dev} (h : RegsCanonical d) (h0 f) : RegsCanonical (d.modHost h0 f) := by
  unfold modHost
  grind [regsCanonical_iff]

theorem Dev.modMgmt_canon {d : Dev} (h : RegsCanonical d) (f) : RegsCanonical (d.modMgmt f) := h

theorem Dev.msix_canon {d : Dev} (h : RegsCanonical d) (h0 v) : RegsCanonical (d.msix h0 v) := by
  unfold msix
  grind [emit_canon, modHost_canon]

theorem Dev.cmpSend_canon {d : Dev} (h : RegsCanonical d) (s op status body) : RegsCanonical (d.cmpSend s op status body) := by
  unfold cmpSend
  grind [emit_canon, modMgmt_canon]

theorem Dev.event_canon {d : Dev} (h : RegsCanonical d) (q e) : RegsCanonical (d.event q e) := by
  unfold event
  grind [bump_canon, cmpSend_canon, each_canon, modLog_canon, modMgmt_canon, setReg_canon]

/-! ### `Machine/Buffer` -/

theorem Dev.coreUsed_canon {d : Dev} (h : RegsCanonical d) (q c) : RegsCanonical (d.coreUsed q c) := setReg_canon h ..

theorem Dev.flushPort_canon {d : Dev} (h : RegsCanonical d) (p) : RegsCanonical (d.flushPort p) := by
  unfold flushPort
  grind [bump_canon, each_canon, modCore_canon]

theorem Dev.flushUnit_canon {d : Dev} (h : RegsCanonical d) (u) : RegsCanonical (d.flushUnit u) := by
  unfold flushUnit
  grind [bump_canon, each_canon, modCore_canon, regsCanonical_iff]

theorem Dev.turnPast_canon {d : Dev} (h : RegsCanonical d) (b k cls q) : RegsCanonical (d.turnPast b k cls q) := h

theorem Dev.consume_canon {d : Dev} (h : RegsCanonical d) (q k e) : RegsCanonical (d.consume q k e) := h

/-! ### `Machine/LinkCrypto` -/

theorem Dev.sealPkt_canon {d : Dev} (h : RegsCanonical d) (p pk badTag) : RegsCanonical (d.sealPkt p pk badTag).2 := by
  unfold sealPkt
  grind [modPort_canon]

theorem Dev.countRx_canon {d : Dev} (h : RegsCanonical d) (src pk) : RegsCanonical (d.countRx src pk) := by
  unfold countRx
  grind [modPort_canon]

/-! ### `Machine/Link` -/

theorem Dev.sample_canon {d : Dev} (h : RegsCanonical d) (p f) : RegsCanonical (d.sample p f) := h

theorem Dev.showLanes_canon {d : Dev} (h : RegsCanonical d) (p lanes) : RegsCanonical (d.showLanes p lanes) := setReg_canon (setReg_canon h ..) ..

theorem Dev.enterRetrain_canon {d : Dev} (h : RegsCanonical d) (p) : RegsCanonical (d.enterRetrain p) := by
  unfold enterRetrain
  grind [bump_canon, modPort_canon, setReg_canon, showLanes_canon]

theorem Dev.enterActive_canon {d : Dev} (h : RegsCanonical d) (p) : RegsCanonical (d.enterActive p) := showLanes_canon (setReg_canon h ..) ..

theorem Dev.drainFifo_canon {d : Dev} (h : RegsCanonical d) (p cls n) : RegsCanonical (d.drainFifo p cls n) := h

theorem Dev.leaveFifo_canon {d : Dev} (h : RegsCanonical d) (src pk) : RegsCanonical (d.leaveFifo src pk) := by
  unfold leaveFifo
  grind [drainFifo_canon]

theorem Dev.ctrlTaken_canon {d : Dev} (h : RegsCanonical d) (p cls n) : RegsCanonical (d.ctrlTaken p cls n) := by
  unfold ctrlTaken
  grind [drainFifo_canon]

theorem Dev.requestReplay_canon {d : Dev} (h : RegsCanonical d) (p) : RegsCanonical (d.requestReplay p) := by
  unfold requestReplay
  grind [bump_canon, modPort_canon]

theorem Dev.applyHeader_canon {d : Dev} (h : RegsCanonical d) (p f) : RegsCanonical (d.applyHeader p f) := by
  unfold applyHeader
  grind [bump_canon, modPort_canon]

theorem Dev.acceptData_canon {d : Dev} (h : RegsCanonical d) (p f) : RegsCanonical (d.acceptData p f) := by
  unfold acceptData
  grind [bump_canon, modPort_canon]

theorem Dev.badFlit_canon {d : Dev} (h : RegsCanonical d) (p) : RegsCanonical (d.badFlit p) := by
  unfold badFlit
  grind [bump_canon]

theorem Dev.dataFlit_canon {d : Dev} (h : RegsCanonical d) (p f) : RegsCanonical (d.dataFlit p f) := by
  unfold dataFlit
  grind [acceptData_canon, applyHeader_canon, badFlit_canon, bump_canon, requestReplay_canon]

theorem Dev.plainFlit_canon {d : Dev} (h : RegsCanonical d) (p f) : RegsCanonical (d.plainFlit p f) := by
  unfold plainFlit
  grind [applyHeader_canon, badFlit_canon]

theorem Dev.alignFlitIn_canon {d : Dev} (h : RegsCanonical d) (p f) : RegsCanonical (d.alignFlitIn p f) := by
  unfold alignFlitIn
  grind [modPort_canon, plainFlit_canon]

theorem Dev.retryTimeout_canon {d : Dev} (h : RegsCanonical d) (p) : RegsCanonical (d.retryTimeout p) := by
  unfold retryTimeout
  grind [bump_canon, enterRetrain_canon, modPort_canon, sample_canon]

theorem Dev.askDegrade_canon {d : Dev} (h : RegsCanonical d) (p set) : RegsCanonical (d.askDegrade p set) := by
  unfold askDegrade
  grind [enterRetrain_canon, modPort_canon, requestReplay_canon]

theorem Dev.tryRestore_canon {d : Dev} (h : RegsCanonical d) (p) : RegsCanonical (d.tryRestore p) := by
  unfold tryRestore
  grind [modPort_canon]

theorem Dev.laneFailed_canon {d : Dev} (h : RegsCanonical d) (p lane) : RegsCanonical (d.laneFailed p lane) := by
  unfold laneFailed
  grind [askDegrade_canon, event_canon, modPort_canon, setReg_canon]

theorem Dev.switchTx_canon {d : Dev} (h : RegsCanonical d) (p target replay) : RegsCanonical (d.switchTx p target replay) := h

theorem Dev.degradeReq_canon {d : Dev} (h : RegsCanonical d) (p f) : RegsCanonical (d.degradeReq p f) := by
  unfold degradeReq
  grind [applyHeader_canon, badFlit_canon, enterRetrain_canon, modPort_canon, switchTx_canon]

theorem Dev.restoreReq_canon {d : Dev} (h : RegsCanonical d) (p f) : RegsCanonical (d.restoreReq p f) := by
  unfold restoreReq
  grind [applyHeader_canon, badFlit_canon, switchTx_canon]

theorem Dev.laneSwitch_canon {d : Dev} (h : RegsCanonical d) (p mask) : RegsCanonical (d.laneSwitch p mask) := by
  unfold laneSwitch
  grind [askDegrade_canon, bump_canon, modPort_canon, showLanes_canon, switchTx_canon, tryRestore_canon]

theorem Dev.laneRepaired_canon {d : Dev} (h : RegsCanonical d) (p lane) : RegsCanonical (d.laneRepaired p lane) := by
  unfold laneRepaired
  grind [modPort_canon, setReg_canon, tryRestore_canon]

theorem Dev.stageTxq_canon {d : Dev} (h : RegsCanonical d) (p cls) : RegsCanonical (d.stageTxq p cls) := by
  unfold stageTxq
  grind [bump_canon, each_canon, modPort_canon, sealPkt_canon]

theorem Dev.putOn_canon {d : Dev} (h : RegsCanonical d) (p lanes f) : RegsCanonical (d.putOn p lanes f) := h

theorem Dev.putFlit_canon {d : Dev} (h : RegsCanonical d) (p f) : RegsCanonical (d.putFlit p f) := h

theorem Dev.countStall_canon {d : Dev} (h : RegsCanonical d) (p) : RegsCanonical (d.countStall p) := by
  unfold countStall
  grind [bump_canon]

theorem Dev.sendTrain_canon {d : Dev} (h : RegsCanonical d) (p) : RegsCanonical (d.sendTrain p) := h

theorem Dev.newData_canon {d : Dev} (h : RegsCanonical d) (p) : RegsCanonical (d.newData p) := by
  unfold newData
  grind [bump_canon, modPort_canon, putFlit_canon]

theorem Dev.activeSlot_canon {d : Dev} (h : RegsCanonical d) (p) : RegsCanonical (d.activeSlot p) := by
  unfold activeSlot
  grind [bump_canon, countStall_canon, each_canon, modPort_canon, newData_canon, putFlit_canon, sample_canon, stageTxq_canon, tryRestore_canon]

theorem Dev.flitSlot_canon {d : Dev} (h : RegsCanonical d) (p) : RegsCanonical (d.flitSlot p) := by
  unfold flitSlot
  grind [activeSlot_canon, modPort_canon, putFlit_canon, putOn_canon, sendTrain_canon]

theorem Dev.signalDetected_canon {d : Dev} (h : RegsCanonical d) (p) : RegsCanonical (d.signalDetected p) := by
  unfold signalDetected
  grind [modPort_canon, setReg_canon]

theorem Dev.showTrained_canon {d : Dev} (h : RegsCanonical d) (p ok) : RegsCanonical (d.showTrained p ok) := setReg_canon (setReg_canon h ..) ..

theorem Dev.untrained_canon {d : Dev} (h : RegsCanonical d) (p nx) : RegsCanonical (d.untrained p nx) := setReg_canon (showTrained_canon h ..) ..

theorem Dev.equalizeDone_canon {d : Dev} (h : RegsCanonical d) (p passed) : RegsCanonical (d.equalizeDone p passed) := by
  unfold equalizeDone
  grind [modPort_canon, setReg_canon, showTrained_canon, untrained_canon]

theorem Dev.lockDone_canon {d : Dev} (h : RegsCanonical d) (p polarity) : RegsCanonical (d.lockDone p polarity) := by
  unfold lockDone
  grind [freshBytes_canon, modPort_canon, setReg_canon]

theorem Dev.trainFlit_canon {d : Dev} (h : RegsCanonical d) (p t) : RegsCanonical (d.trainFlit p t) := by
  unfold trainFlit
  grind [modPort_canon]

theorem Dev.trainingTimeout_canon {d : Dev} (h : RegsCanonical d) (p) : RegsCanonical (d.trainingTimeout p) := by
  unfold trainingTimeout
  grind [untrained_canon]

theorem Dev.retrainDone_canon {d : Dev} (h : RegsCanonical d) (p) : RegsCanonical (d.retrainDone p) := by
  unfold retrainDone
  grind [modPort_canon, setReg_canon, tryRestore_canon]

/-! ### `Machine/Teasel` -/

theorem Dev.auditStart_canon {d : Dev} (h : RegsCanonical d) (q) : RegsCanonical (d.auditStart q) := by
  unfold auditStart
  grind [modCore_canon]

theorem Dev.auditDone_canon {d : Dev} (h : RegsCanonical d) (q) : RegsCanonical (d.auditDone q) := by
  unfold auditDone
  grind [bump_canon, event_canon, modCore_canon, setReg_canon]

theorem Dev.noteStore_canon {d : Dev} (h : RegsCanonical d) (q line src) : RegsCanonical (d.noteStore q line src) := by
  unfold noteStore
  grind [modCore_canon]

theorem Dev.hotWindowEnd_canon {d : Dev} (h : RegsCanonical d) (q) : RegsCanonical (d.hotWindowEnd q) := by
  unfold hotWindowEnd
  grind [bump_canon, modCore_canon]

theorem Dev.hotOff_canon {d : Dev} (h : RegsCanonical d) : RegsCanonical d.hotOff := h

theorem Dev.teaselOn_canon {d : Dev} (h : RegsCanonical d) : RegsCanonical d.teaselOn := h

/-! ### `Machine/Router` -/

theorem Dev.countOut_canon {d : Dev} (h : RegsCanonical d) (pk) : RegsCanonical (d.countOut pk) := by
  unfold countOut
  grind [bump_canon]

theorem Dev.toHost_canon {d : Dev} (h : RegsCanonical d) (h0 pk) : RegsCanonical (d.toHost h0 pk) := h

theorem Dev.sendFeid_canon {d : Dev} (h : RegsCanonical d) (pk) : RegsCanonical (d.sendFeid pk) := by
  unfold sendFeid
  grind [bump_canon, countOut_canon, sendPort_canon, toHost_canon]

theorem Dev.sendKeyed_canon {d : Dev} (h : RegsCanonical d) (pk) : RegsCanonical (d.sendKeyed pk) := by
  unfold sendKeyed
  grind [bump_canon, sendFeid_canon]

theorem Dev.failPacket_canon {d : Dev} (h : RegsCanonical d) (src p status) : RegsCanonical (d.failPacket src p status) := by
  unfold failPacket
  grind [bump_canon, countOut_canon, sendFeid_canon, sendPort_canon]

theorem Dev.regionCheck_canon {d : Dev} (h : RegsCanonical d) (comp da rkey kind) : RegsCanonical (d.regionCheck comp da rkey kind).2 := by
  unfold regionCheck
  grind [bump_canon]

theorem Dev.checks_canon {d : Dev} (h : RegsCanonical d) (src p) : RegsCanonical (d.checks src p).2 := by
  unfold checks
  grind [bump_canon, regionCheck_canon]

theorem Dev.takeAllowance_canon {d : Dev} (h : RegsCanonical d) (c cls q n) : RegsCanonical (d.takeAllowance c cls q n) := by
  unfold takeAllowance
  grind [regsCanonical_iff]

theorem Dev.sourceDone_canon {d : Dev} (h : RegsCanonical d) (src p) : RegsCanonical (d.sourceDone src p) := by
  unfold sourceDone
  grind [leaveFifo_canon, modHost_canon, setReg_canon]

theorem Dev.countCut_canon {d : Dev} (h : RegsCanonical d) (cut store) : RegsCanonical (d.countCut cut store) := by
  unfold countCut
  grind [bump_canon]

theorem Dev.admitOne_canon {d : Dev} (h : RegsCanonical d) (src p r dest) {d' : Dev} (e' : d.admitOne src p r dest = some d') : RegsCanonical d' := by
  unfold admitOne at e'
  grind [bump_canon, coreUsed_canon, countCut_canon, sourceDone_canon, takeAllowance_canon]

theorem Dev.placeMulticast_canon {d : Dev} (h : RegsCanonical d) (q src p dests) {d' : Dev} (e' : d.placeMulticast q src p dests = some d') :
    RegsCanonical d' := by
  unfold placeMulticast at e'
  grind [bump_canon, coreUsed_canon, countCut_canon]

theorem Dev.admitMany_canon {d : Dev} (h : RegsCanonical d) (src p dests) {d' : Dev} (e' : d.admitMany src p dests = some d') : RegsCanonical d' := by
  unfold admitMany at e'
  extract_lets parts at e'
  split at e'
  · cases e'
  · obtain ⟨d₁, e₁, rfl⟩ := Option.map_eq_some_iff.1 e'
    refine sourceDone_canon (bump_canon ?_ _ _) src p
    refine foldl_keeps (fun o : Option Dev => ∀ d, o = some d → RegsCanonical d) parts (fun o x ho d e => ?_) (fun d e => ?_) d₁ e₁
    · obtain ⟨d₂, e₂, e⟩ := Option.bind_eq_some_iff.1 e
      obtain ⟨d₃, e₃, rfl⟩ := Option.map_eq_some_iff.1 e
      exact takeAllowance_canon (placeMulticast_canon (ho d₂ e₂) _ _ _ _ e₃) _ _ _ _
    · exact Option.some.inj e ▸ h

theorem Dev.countSkipped_canon {d : Dev} (h : RegsCanonical d) (src p) : RegsCanonical (d.countSkipped src p) := by
  unfold countSkipped
  grind [bump_canon, each_canon]

theorem Dev.setDests_canon {d : Dev} (h : RegsCanonical d) (q pk feids) : RegsCanonical (d.setDests q pk feids) := h

theorem Dev.placeResult_canon {d : Dev} (h : RegsCanonical d) (q pk) {d' : Dev} (e' : d.placeResult q pk = some d') : RegsCanonical d' := by
  unfold placeResult at e'
  obtain ⟨d₁, e₁, rfl⟩ := Option.map_eq_some_iff.1 e'
  have h₁ : RegsCanonical d₁ := by
    split at e₁
    · exact Option.some.inj e₁ ▸ h
    · exact placeMulticast_canon h q _ pk _ e₁
  grind [setDests_canon, bump_canon, regsCanonical_iff]

theorem Dev.admitTo_canon {d : Dev} (h : RegsCanonical d) (src p r) {d' : Dev} (e' : d.admitTo src p r = some d') : RegsCanonical d' := by
  unfold admitTo at e'
  grind [Option.map_eq_some_iff, → admitMany_canon, → admitOne_canon, countSkipped_canon, sourceDone_canon]

theorem Dev.hold_canon {d : Dev} (h : RegsCanonical d) (src p region) : RegsCanonical (d.hold src p region) := h

theorem Dev.passOn_canon {d : Dev} (h : RegsCanonical d) (src p r) : RegsCanonical (d.passOn src p r) := by
  unfold passOn
  grind [bump_canon, countRx_canon, hold_canon, sourceDone_canon, → admitTo_canon]

theorem Dev.takeCtrl_canon {d : Dev} (h : RegsCanonical d) (src p act) (hact : ∀ d, RegsCanonical d → RegsCanonical (act d)) :
    RegsCanonical (d.takeCtrl src p act) := by
  unfold takeCtrl
  grind [bump_canon, countRx_canon, sourceDone_canon]

theorem Dev.arrive_canon {d : Dev} (h : RegsCanonical d) (src p pass) (hpass : ∀ a0 a1 d, RegsCanonical d → RegsCanonical (pass a0 a1 d)) :
    RegsCanonical (d.arrive src p pass) := by
  unfold arrive
  grind [bump_canon, checks_canon, event_canon, failPacket_canon, sourceDone_canon]

theorem Dev.ingest_canon {d : Dev} (h : RegsCanonical d) (src p) : RegsCanonical (d.ingest src p) := by
  unfold ingest
  grind [arrive_canon, passOn_canon]

theorem Dev.ctrlIn_canon {d : Dev} (h : RegsCanonical d) (src p act) (hact : ∀ a0 d, RegsCanonical d → RegsCanonical (act a0 d)) :
    RegsCanonical (d.ctrlIn src p act) := by
  unfold ctrlIn
  grind [arrive_canon, takeCtrl_canon]

theorem Dev.notePace_canon {d : Dev} (h : RegsCanonical d) (ing now) : RegsCanonical (d.notePace ing now) := by
  unfold notePace
  grind [regsCanonical_iff]

theorem Dev.retest_canon {d : Dev} (h : RegsCanonical d) (src cls cycle) : RegsCanonical (d.retest src cls cycle) := by
  unfold retest
  split
  · extract_lets p now out
    have hout : RegsCanonical out := h
    clear_value out
    grind [→ admitTo_canon, notePace_canon, bump_canon, sourceDone_canon, failPacket_canon]
  · exact h

/-! ### `Machine/Units` -/

theorem Dev.modTiers_canon {d : Dev} (h : RegsCanonical d) (f) : RegsCanonical (d.modTiers f) := h

theorem Dev.modTrans_canon {d : Dev} (h : RegsCanonical d) (f) : RegsCanonical (d.modTrans f) := h

theorem Dev.modJobs_canon {d : Dev} (h : RegsCanonical d) (f) : RegsCanonical (d.modJobs f) := h

theorem Dev.modYar_canon {d : Dev} (h : RegsCanonical d) (f) : RegsCanonical (d.modYar f) := h

theorem Dev.modJob_canon {d : Dev} (h : RegsCanonical d) (k f) : RegsCanonical (d.modJob k f) := h

theorem Dev.modNode_canon {d : Dev} (h : RegsCanonical d) (k i f) : RegsCanonical (d.modNode k i f) := h

theorem Dev.startFill_canon {d : Dev} (h : RegsCanonical d) (s) : RegsCanonical (d.startFill s) := by
  unfold startFill
  grind [bump_canon, modTiers_canon]

theorem Dev.dropSlot_canon {d : Dev} (h : RegsCanonical d) (s) : RegsCanonical (d.dropSlot s) := h

theorem Dev.giveSlot_canon {d : Dev} (h : RegsCanonical d) (comp unit deadline) {d' : Dev} (e' : d.giveSlot comp unit deadline = some d') :
    RegsCanonical d' := by
  unfold giveSlot at e'
  grind [bump_canon, modTiers_canon, startFill_canon]

theorem Dev.retestWaits_canon {d : Dev} (h : RegsCanonical d) : RegsCanonical d.retestWaits := by
  unfold retestWaits
  refine foldl_keeps RegsCanonical _ (fun d w h => ?_) h
  grind [→ giveSlot_canon, modTiers_canon]

theorem Dev.stageUnit_canon {d : Dev} (h : RegsCanonical d) (comp unit deadline refresh) :
    RegsCanonical (d.stageUnit comp unit deadline refresh) := by
  unfold stageUnit
  grind [bump_canon, modTiers_canon, startFill_canon, → giveSlot_canon]

theorem Dev.stageComplete_canon {d : Dev} (h : RegsCanonical d) : RegsCanonical d.stageComplete := h

theorem Dev.stageRequest_canon {d : Dev} (h : RegsCanonical d) (comp owner sd) : RegsCanonical (d.stageRequest comp owner sd) := by
  unfold stageRequest
  grind [each_canon, modTiers_canon, stageComplete_canon, stageUnit_canon]

theorem Dev.unpin_canon {d : Dev} (h : RegsCanonical d) (u slots) : RegsCanonical (d.unpin u slots) := by
  unfold unpin
  grind [each_canon, modTiers_canon, retestWaits_canon, startFill_canon]

theorem Dev.withdrawFaults_canon {d : Dev} (h : RegsCanonical d) (units) : RegsCanonical (d.withdrawFaults units) := h

theorem Dev.setWalks_canon {d : Dev} (h : RegsCanonical d) (q ws) : RegsCanonical (d.setWalks q ws) := by
  unfold setWalks
  grind [bump_canon, modTrans_canon]

theorem Dev.takeScratch_canon {d : Dev} (h : RegsCanonical d) (t comp holder us) : RegsCanonical (d.takeScratch t comp holder us) := h

theorem Dev.returnScratch_canon {d : Dev} (h : RegsCanonical d) (holder) : RegsCanonical (d.returnScratch holder) := h

theorem Dev.clearScratch_canon {d : Dev} (h : RegsCanonical d) (t) : RegsCanonical (d.clearScratch t) := h

theorem Dev.parkDone_canon {d : Dev} (h : RegsCanonical d) (x) : RegsCanonical (d.parkDone x) := by
  unfold parkDone
  grind [modJob_canon]

theorem Dev.dropQuantum_canon {d : Dev} (h : RegsCanonical d) (u) : RegsCanonical (d.dropQuantum u) := by
  unfold dropQuantum
  grind [each_canon, modJobs_canon, modTrans_canon, parkDone_canon, returnScratch_canon, setWalks_canon, unpin_canon, withdrawFaults_canon,
      regsCanonical_iff]

theorem Dev.sendCancel_canon {d : Dev} (h : RegsCanonical d) (workId reply op toSw) : RegsCanonical (d.sendCancel workId reply op toSw) :=
  flood_canon (modJobs_canon h ..) ..

theorem Dev.setClaim_canon {d : Dev} (h : RegsCanonical d) (comp reply work f) : RegsCanonical (d.setClaim comp reply work f) := h

theorem Dev.arbitrate_canon {d : Dev} (h : RegsCanonical d) (j) : RegsCanonical (d.arbitrate j).2 := by
  unfold arbitrate
  grind [bump_canon, sendCancel_canon, setClaim_canon]

theorem Dev.jobOutput_canon {d : Dev} (h : RegsCanonical d) (k pk) : RegsCanonical (d.jobOutput k pk) := by
  unfold jobOutput
  grind [arbitrate_canon, modJob_canon, sendCancel_canon, sendKeyed_canon]

theorem Dev.setBank_canon {d : Dev} (h : RegsCanonical d) (b x) : RegsCanonical (d.setBank b x) := setReg_canon h ..

theorem Dev.libSwitch_canon {d : Dev} (h : RegsCanonical d) : RegsCanonical d.libSwitch := by
  unfold libSwitch
  grind [modJobs_canon, setBank_canon, setReg_canon]

theorem Dev.freeJob_canon {d : Dev} (h : RegsCanonical d) (k) : RegsCanonical (d.freeJob k) := by
  unfold freeJob
  grind [modJobs_canon, modTiers_canon, setReg_canon]

theorem Dev.finishJob_canon {d : Dev} (h : RegsCanonical d) (k) : RegsCanonical (d.finishJob k) := by
  unfold finishJob
  grind [arbitrate_canon, bump_canon, freeJob_canon, jobOutput_canon, sendKeyed_canon]

theorem Dev.quantumGone_canon {d : Dev} (h : RegsCanonical d) (k) : RegsCanonical (d.quantumGone k) := by
  unfold quantumGone
  grind [finishJob_canon]

theorem Dev.endJob_canon {d : Dev} (h : RegsCanonical d) (k status node) : RegsCanonical (d.endJob k status node) := by
  unfold endJob
  grind [dropQuantum_canon, each_canon, finishJob_canon, modJob_canon, withdrawFaults_canon]

theorem Dev.noteNode_canon {d : Dev} (h : RegsCanonical d) (k node status) : RegsCanonical (d.noteNode k node status) := by
  unfold noteNode
  grind [sendKeyed_canon]

theorem Dev.failNode_canon {d : Dev} (h : RegsCanonical d) (k node status) : RegsCanonical (d.failNode k node status) := by
  unfold failNode
  grind [endJob_canon, modNode_canon, noteNode_canon]

theorem Dev.failQuantum_canon {d : Dev} (h : RegsCanonical d) (u status) : RegsCanonical (d.failQuantum u status) := by
  unfold failQuantum
  grind [dropQuantum_canon, failNode_canon]

theorem Dev.setEnt_canon {d : Dev} (h : RegsCanonical d) (g e) : RegsCanonical (d.setEnt g e) := h

theorem Dev.setShown_canon {d : Dev} (h : RegsCanonical d) (g s) : RegsCanonical (d.setShown g s) := h

theorem Dev.noteRegistry_canon {d : Dev} (h : RegsCanonical d) (src m) : RegsCanonical (d.noteRegistry src m) := h

theorem Dev.sendRegistry_canon {d : Dev} (h : RegsCanonical d) (m) : RegsCanonical (d.sendRegistry m) := flood_canon (noteRegistry_canon h ..) ..

theorem Dev.outcome_canon {d : Dev} (h : RegsCanonical d) (g state reason) : RegsCanonical (d.outcome g state reason) := by
  unfold outcome
  grind [setShown_canon]

theorem Dev.removeAt_canon {d : Dev} (h : RegsCanonical d) (g tick reason) : RegsCanonical (d.removeAt g tick reason) := by
  unfold removeAt
  grind [modYar_canon, outcome_canon, setShown_canon]

theorem Dev.reportInst_canon {d : Dev} (h : RegsCanonical d) (g) : RegsCanonical (d.reportInst g) := by
  unfold reportInst
  grind [flood_canon, removeAt_canon, sendRegistry_canon]

theorem Dev.freeJournal_canon {d : Dev} (h : RegsCanonical d) (g) : RegsCanonical (d.freeJournal g) := h

theorem Dev.failInst_canon {d : Dev} (h : RegsCanonical d) (g) : RegsCanonical (d.failInst g) := by
  unfold failInst
  grind [modYar_canon, reportInst_canon]

/-! ### `Machine/Fence` -/

theorem Dev.sendRecovery_canon {d : Dev} (h : RegsCanonical d) (m) : RegsCanonical (d.sendRecovery m) := by
  unfold sendRecovery
  grind [flood_canon, modDom_canon]

theorem Dev.takeNotice_canon {d : Dev} (h : RegsCanonical d) (port id pk) : RegsCanonical (d.takeNotice port id pk).2 := by
  unfold takeNotice
  grind [flood_canon, modDom_canon]

theorem Dev.fenceParts_canon {d : Dev} (h : RegsCanonical d) (c) : RegsCanonical (d.fenceParts c) := by
  unfold fenceParts
  grind [each_canon, endJob_canon, failInst_canon, freeJournal_canon, modTiers_canon, modTrans_canon, retestWaits_canon]

theorem Dev.fence_canon {d : Dev} (h : RegsCanonical d) (c code origin notice) : RegsCanonical (d.fence c code origin notice) := by
  unfold fence
  grind [bump_canon, event_canon, fenceParts_canon, sendRecovery_canon, setReg_canon]

theorem Dev.fenceOwn_canon {d : Dev} (h : RegsCanonical d) (code p) : RegsCanonical (d.fenceOwn code p) := by
  unfold fenceOwn
  grind [each_canon, fence_canon]

theorem Dev.recoveryFence_canon {d : Dev} (h : RegsCanonical d) (port m) : RegsCanonical (d.recoveryFence port m) := by
  unfold recoveryFence
  grind [ctrlDrop_canon, fence_canon, takeNotice_canon]

theorem Dev.recoveryExpel_canon {d : Dev} (h : RegsCanonical d) (port m) : RegsCanonical (d.recoveryExpel port m) := by
  unfold recoveryExpel
  grind [ctrlDrop_canon, event_canon, takeNotice_canon]

/-! ### `Machine/Access` -/

theorem Dev.setAs_canon {d : Dev} (h : RegsCanonical d) (acc k v) : RegsCanonical (d.setAs acc k v) := by
  unfold setAs
  grind [setReg_canon, regsCanonical_iff]

theorem Dev.wrote_canon {d : Dev} (h : RegsCanonical d) (acc idx sub status) : RegsCanonical (d.wrote acc idx sub status) := by
  unfold wrote
  grind [bump_canon, setReg_canon]

theorem Dev.writeBy_canon {d : Dev} (h : RegsCanonical d) (hash acc idx sub f) (hf : ∀ d, RegsCanonical d → RegsCanonical (f d).2) :
    RegsCanonical (d.writeBy hash acc idx sub f) := by
  unfold writeBy
  grind [wrote_canon]

theorem Dev.writeKey_canon {d : Dev} (h : RegsCanonical d) (acc k f) (hf : ∀ d, RegsCanonical d → RegsCanonical (f d).2) :
    RegsCanonical (d.writeKey acc k f) := by
  unfold writeKey
  grind [writeBy_canon]

theorem Dev.endAccessor_canon {d : Dev} (h : RegsCanonical d) (acc) : RegsCanonical (d.endAccessor acc) := h

theorem Dev.orReject_canon {d : Dev} (h : RegsCanonical d) {r : Option Dev} (hr : ∀ d', r = some d' → RegsCanonical d') :
    RegsCanonical (d.orReject r).2 := by
  unfold orReject
  grind []

/-! ### `Machine/YarrowCore` -/

theorem Dev.setInst_canon {d : Dev} (h : RegsCanonical d) (g x) : RegsCanonical (d.setInst g x) := h

theorem Dev.setJournal_canon {d : Dev} (h : RegsCanonical d) (q l) : RegsCanonical (d.setJournal q l) := h

theorem Dev.giveUp_canon {d : Dev} (h : RegsCanonical d) (g idx) : RegsCanonical (d.giveUp g idx) := by
  unfold giveUp
  grind [bump_canon, setInst_canon]

theorem Dev.contribGone_canon {d : Dev} (h : RegsCanonical d) (feid) : RegsCanonical (d.contribGone feid) := by
  unfold contribGone
  grind [each_canon, giveUp_canon]

theorem Dev.sendResult_canon {d : Dev} (h : RegsCanonical d) (pk feid) : RegsCanonical (d.sendResult pk feid) := sendKeyed_canon h ..

theorem Dev.sendFirst_canon {d : Dev} (h : RegsCanonical d) (q pk feids) : RegsCanonical (d.sendFirst q pk feids) := by
  unfold sendFirst
  grind [bump_canon, each_canon, sendResult_canon, setDests_canon, regsCanonical_iff, → placeResult_canon]

theorem Dev.chunkRound_canon {d : Dev} (h : RegsCanonical d) (g n) : RegsCanonical (d.chunkRound g n) := by
  unfold chunkRound
  grind [bump_canon, sendFirst_canon, setInst_canon, setJournal_canon]

theorem Dev.resendTo_canon {d : Dev} (h : RegsCanonical d) (feid) : RegsCanonical (d.resendTo feid) := by
  unfold resendTo
  grind [bump_canon, each_canon, sendResult_canon]

/-! ### `Machine/Groups` -/

theorem Dev.assignSpare_canon {d : Dev} (h : RegsCanonical d) (g m) : RegsCanonical (d.assignSpare g m) := by
  unfold assignSpare
  grind [modGroup_canon, setSg_canon]

theorem Dev.rebuildDone_canon {d : Dev} (h : RegsCanonical d) (g) : RegsCanonical (d.rebuildDone g) := by
  unfold rebuildDone
  grind [bump_canon, event_canon, modGroup_canon, setReg_canon, setSg_canon]

theorem Dev.rebuildFrom_canon {d : Dev} (h : RegsCanonical d) (g hmap s) : RegsCanonical (d.rebuildFrom g hmap s) := by
  unfold rebuildFrom
  grind [rebuildDone_canon, setSg_canon]

/-! ### `Machine/Home` -/

theorem Dev.setOp_canon {d : Dev} (h : RegsCanonical d) (q o) : RegsCanonical (d.setOp q o) := h

theorem Dev.dropOp_canon {d : Dev} (h : RegsCanonical d) (q id) : RegsCanonical (d.dropOp q id) := h

theorem Dev.addOp_canon {d : Dev} (h : RegsCanonical d) (q op) : RegsCanonical (d.addOp q op) := h

theorem Dev.countLost_canon {d : Dev} (h : RegsCanonical d) (status n) : RegsCanonical (d.countLost status n) := by
  unfold countLost
  grind [bump_canon]

theorem Dev.answerAtomic_canon {d : Dev} (h : RegsCanonical d) (q a status prior) : RegsCanonical (d.answerAtomic q a status prior) := by
  unfold answerAtomic
  grind [each_canon, sendFeid_canon]

theorem Dev.settleDedup_canon {d : Dev} (h : RegsCanonical d) (q op status a) : RegsCanonical (d.settleDedup q op status a) := h

theorem Dev.answerUnit_canon {d : Dev} (h : RegsCanonical d) (q id status data) : RegsCanonical (d.answerUnit q id status data) := h

theorem Dev.answerRead_canon {d : Dev} (h : RegsCanonical d) (q op status data) : RegsCanonical (d.answerRead q op status data) := by
  unfold answerRead
  grind [answerUnit_canon, modTiers_canon, sendFeid_canon]

theorem Dev.completeOp_canon {d : Dev} (h : RegsCanonical d) (q op status data) : RegsCanonical (d.completeOp q op status data) := by
  unfold completeOp
  grind [answerAtomic_canon, answerRead_canon, answerUnit_canon, dropOp_canon, each_canon, sendFeid_canon, settleDedup_canon]

theorem Dev.holdRebuild_canon {d : Dev} (h : RegsCanonical d) (g) : RegsCanonical (d.holdRebuild g) := h

theorem Dev.failOp_canon {d : Dev} (h : RegsCanonical d) (q op status) : RegsCanonical (d.failOp q op status) := by
  unfold failOp
  grind [completeOp_canon, countLost_canon, holdRebuild_canon]

theorem Dev.sendOwn_canon {d : Dev} (h : RegsCanonical d) (q op role feid write addr len data) :
    RegsCanonical (d.sendOwn q op role feid write addr len data) := sendKeyed_canon (modHome_canon h ..) ..

theorem Dev.forward_canon {d : Dev} (h : RegsCanonical d) (q op feid port) : RegsCanonical (d.forward q op feid port) :=
  countOut_canon (modHome_canon h ..) ..

theorem Dev.applyMerge_canon {d : Dev} (h : RegsCanonical d) (q op line) : RegsCanonical (d.applyMerge q op line).2.2 := by
  unfold applyMerge
  refine bump_canon (foldl_keeps (fun x : Bytes × List Bytes × Dev => RegsCanonical x.2.2) _ (fun _ _ h => ?_) ?_) _ _
  · exact modHome_canon h _ _
  · exact h

theorem Dev.newRange_canon {d : Dev} (h : RegsCanonical d) (q op old) : RegsCanonical (d.newRange q op old).2.2 := by
  unfold newRange
  grind [applyMerge_canon]

theorem Dev.singleWrite_canon {d : Dev} (h : RegsCanonical d) (q op new) : RegsCanonical (d.singleWrite q op new) := by
  unfold singleWrite
  grind [failOp_canon, sendOwn_canon, setOp_canon]

theorem Dev.singleRead_canon {d : Dev} (h : RegsCanonical d) (q op) : RegsCanonical (d.singleRead q op) := by
  unfold singleRead
  grind [bump_canon, completeOp_canon, event_canon, failOp_canon, newRange_canon, singleWrite_canon]

theorem Dev.startSingle_canon {d : Dev} (h : RegsCanonical d) (q op) : RegsCanonical (d.startSingle q op) := by
  unfold startSingle
  grind [failOp_canon, forward_canon, sendOwn_canon, setOp_canon, singleWrite_canon]

theorem Dev.stripeReads_canon {d : Dev} (h : RegsCanonical d) (q g op units) : RegsCanonical (d.stripeReads q g op units) := by
  unfold stripeReads
  grind [each_canon, sendOwn_canon, setOp_canon]

theorem Dev.stripeRepair_canon {d : Dev} (h : RegsCanonical d) (q g op full written) : RegsCanonical (d.stripeRepair q g op full written) := by
  unfold stripeRepair
  grind [each_canon, sendOwn_canon]

theorem Dev.gfWork_canon {d : Dev} (h : RegsCanonical d) (q n) : RegsCanonical (d.gfWork q n) := bump_canon h ..

theorem Dev.stripeAnswer_canon {d : Dev} (h : RegsCanonical d) (q g op) : RegsCanonical (d.stripeAnswer q g op) := by
  unfold stripeAnswer
  grind [answerRead_canon, bump_canon, dropOp_canon, failOp_canon, gfWork_canon, setOp_canon, stripeRepair_canon]

theorem Dev.stripeAfter_canon {d : Dev} (h : RegsCanonical d) (q op) : RegsCanonical (d.stripeAfter q op) := by
  unfold stripeAfter
  grind [dropOp_canon, setOp_canon, stripeRepair_canon]

theorem Dev.answerWrite_canon {d : Dev} (h : RegsCanonical d) (q op) : RegsCanonical (d.answerWrite q op) := by
  unfold answerWrite
  grind [answerUnit_canon, countLost_canon, sendFeid_canon]

theorem Dev.stripeWritten_canon {d : Dev} (h : RegsCanonical d) (q op) : RegsCanonical (d.stripeWritten q op) := by
  unfold stripeWritten
  grind [answerWrite_canon, dropOp_canon, modGroup_canon, rebuildFrom_canon, setOp_canon, stripeAfter_canon]

theorem Dev.backBytes_canon {d : Dev} (h : RegsCanonical d) (n) : RegsCanonical (d.backBytes n) := bump_canon h ..

theorem Dev.rebuildWrite_canon {d : Dev} (h : RegsCanonical d) (q g op) : RegsCanonical (d.rebuildWrite q g op) := by
  unfold rebuildWrite
  grind [backBytes_canon, each_canon, gfWork_canon, sendOwn_canon, setOp_canon, stripeRepair_canon, stripeWritten_canon]

theorem Dev.resyncWrite_canon {d : Dev} (h : RegsCanonical d) (q g op) : RegsCanonical (d.resyncWrite q g op) := by
  unfold resyncWrite
  grind [backBytes_canon, bump_canon, each_canon, gfWork_canon, sendOwn_canon, setOp_canon, stripeWritten_canon]

theorem Dev.stripeWrite_canon {d : Dev} (h : RegsCanonical d) (q g op) : RegsCanonical (d.stripeWrite q g op) := by
  unfold stripeWrite
  grind [bump_canon, each_canon, failOp_canon, gfWork_canon, newRange_canon, sendOwn_canon, setOp_canon, stripeWritten_canon]

theorem Dev.stripeLost_canon {d : Dev} (h : RegsCanonical d) (q op) : RegsCanonical (d.stripeLost q op) := by
  unfold stripeLost
  grind [bump_canon, event_canon, failOp_canon]

theorem Dev.stripeGo_canon {d : Dev} (h : RegsCanonical d) (q g op) : RegsCanonical (d.stripeGo q g op) := by
  unfold stripeGo
  grind [rebuildWrite_canon, resyncWrite_canon, stripeAnswer_canon, stripeLost_canon, stripeReads_canon, stripeWrite_canon]

theorem Dev.startTierH_canon {d : Dev} (h : RegsCanonical d) (q op) : RegsCanonical (d.startTierH q op) := h

theorem Dev.startOp_canon {d : Dev} (h : RegsCanonical d) (q op) : RegsCanonical (d.startOp q op) := by
  unfold startOp
  grind [failOp_canon, setOp_canon, startSingle_canon, startTierH_canon, stripeGo_canon]

theorem Dev.pump_canon {d : Dev} (h : RegsCanonical d) (q) : RegsCanonical (d.pump q) := by
  unfold pump
  refine foldl_keeps RegsCanonical _ (fun d id h => ?_) h
  grind [startOp_canon]

theorem Dev.closeMerge_canon {d : Dev} (h : RegsCanonical d) (q line) : RegsCanonical (d.closeMerge q line) := by
  unfold closeMerge
  grind [addOp_canon, modHome_canon]

theorem Dev.armStale_canon {d : Dev} (h : RegsCanonical d) (q) : RegsCanonical (d.armStale q) := by
  unfold armStale
  grind [modHome_canon]

theorem Dev.homeConsume_canon {d : Dev} (h : RegsCanonical d) (q a k e) : RegsCanonical (d.homeConsume q a k e) :=
  armStale_canon (modHome_canon (consume_canon h ..) ..) ..

theorem Dev.homePlain_canon {d : Dev} (h : RegsCanonical d) (q want) : RegsCanonical (d.homePlain q want) := by
  unfold homePlain
  grind [addOp_canon, closeMerge_canon, each_canon, failOp_canon, homeConsume_canon, noteStore_canon, pump_canon]

theorem Dev.fillRead_canon {d : Dev} (h : RegsCanonical d) (s) : RegsCanonical (d.fillRead s) := by
  unfold fillRead
  split
  · exact h
  split
  · exact h
  extract_lets da
  split
  · exact h
  extract_lets q d₁ o op d₂ d₃
  have h₁ : RegsCanonical d₁ := each_canon h _ fun d l h => closeMerge_canon h q l
  have h₃ : RegsCanonical d₃ := addOp_canon (modTiers_canon h₁ _) _ _
  clear_value d₃
  split
  · exact pump_canon (failOp_canon h₃ _ _ _) _
  · exact pump_canon h₃ _

theorem Dev.fillReads_canon {d : Dev} (h : RegsCanonical d) : RegsCanonical d.fillReads := by
  unfold fillReads
  grind [each_canon, fillRead_canon]

theorem Dev.joinMerge_canon {d : Dev} (h : RegsCanonical d) (q e tierH) : RegsCanonical (d.joinMerge q e tierH) := by
  unfold joinMerge
  grind [closeMerge_canon, modHome_canon]

theorem Dev.homeAtomicTake_canon {d : Dev} (h : RegsCanonical d) (q a k e) : RegsCanonical (d.homeAtomicTake q a k e) :=
  bump_canon (homeConsume_canon h ..) ..

theorem Dev.homeAtomic_canon {d : Dev} (h : RegsCanonical d) (q) : RegsCanonical (d.homeAtomic q) := by
  unfold homeAtomic
  grind [bump_canon, countLost_canon, homeAtomicTake_canon, joinMerge_canon, modHome_canon, pump_canon, sendFeid_canon]

theorem Dev.windowClose_canon {d : Dev} (h : RegsCanonical d) (q line) : RegsCanonical (d.windowClose q line) := by
  unfold windowClose
  grind [closeMerge_canon, pump_canon]

theorem Dev.mergeDone_canon {d : Dev} (h : RegsCanonical d) (q line) : RegsCanonical (d.mergeDone q line) := by
  unfold mergeDone
  grind [answerAtomic_canon, each_canon, modHome_canon, pump_canon, stripeAfter_canon]

theorem Dev.failMerges_canon {d : Dev} (h : RegsCanonical d) (q status p) : RegsCanonical (d.failMerges q status p) := by
  unfold failMerges
  grind [closeMerge_canon, each_canon, failOp_canon]

theorem Dev.groupLost_canon {d : Dev} (h : RegsCanonical d) (g) : RegsCanonical (d.groupLost g) := by
  unfold groupLost
  grind [bump_canon, dropOp_canon, each_canon, event_canon, failMerges_canon, failOp_canon, fenceOwn_canon, modGroup_canon, pump_canon, setSg_canon]

theorem Dev.caught_canon {d : Dev} (h : RegsCanonical d) (q g m op) : RegsCanonical (d.caught q g m op) := by
  unfold caught
  grind [dropOp_canon, failOp_canon, modHome_canon, stripeWritten_canon]

theorem Dev.memberFailed_canon {d : Dev} (h : RegsCanonical d) (g m) : RegsCanonical (d.memberFailed g m) := by
  unfold memberFailed
  grind [bump_canon, caught_canon, dropOp_canon, each_canon, event_canon, groupLost_canon, modGroup_canon, pump_canon, setSg_canon]

theorem Dev.lateFailure_canon {d : Dev} (h : RegsCanonical d) (s) : RegsCanonical (d.lateFailure s) := by
  unfold lateFailure
  grind [memberFailed_canon]

theorem Dev.stopSubs_canon {d : Dev} (h : RegsCanonical d) (q id) : RegsCanonical (d.stopSubs q id) := h

theorem Dev.resendMerge_canon {d : Dev} (h : RegsCanonical d) (q op) : RegsCanonical (d.resendMerge q op) := by
  unfold resendMerge
  grind [failOp_canon, modHome_canon, setOp_canon, singleWrite_canon, stripeGo_canon]

theorem Dev.subLost_canon {d : Dev} (h : RegsCanonical d) (q op) : RegsCanonical (d.subLost q op) := by
  unfold subLost
  grind [dropOp_canon, failOp_canon, resendMerge_canon, stopSubs_canon]

theorem Dev.singleDone_canon {d : Dev} (h : RegsCanonical d) (q op s status data) : RegsCanonical (d.singleDone q op s status data) := by
  unfold singleDone
  grind [completeOp_canon, failOp_canon, setOp_canon, singleRead_canon]

theorem Dev.stripeDone_canon {d : Dev} (h : RegsCanonical d) (q g op s status data) : RegsCanonical (d.stripeDone q g op s status data) := by
  unfold stripeDone
  grind [bump_canon, dropOp_canon, failOp_canon, memberFailed_canon, setOp_canon, stripeGo_canon, stripeWritten_canon]

theorem Dev.subDone_canon {d : Dev} (h : RegsCanonical d) (q s status data) : RegsCanonical (d.subDone q s status data) := by
  unfold subDone
  grind [singleDone_canon, stripeDone_canon]

theorem Dev.dropSub_canon {d : Dev} (h : RegsCanonical d) (q s) : RegsCanonical (d.dropSub q s) := h

theorem Dev.dispute_canon {d : Dev} (h : RegsCanonical d) (q s) : RegsCanonical (d.dispute q s) := by
  unfold dispute
  grind [bump_canon, countLost_canon, event_canon, failOp_canon, lateFailure_canon, setOp_canon, subDone_canon]

theorem Dev.trayAnswer_canon {d : Dev} (h : RegsCanonical d) (port q s p) : RegsCanonical (d.trayAnswer port q s p) := by
  unfold trayAnswer
  grind [bump_canon, countRx_canon, dispute_canon, dropSub_canon, lateFailure_canon, leaveFifo_canon, pump_canon, subDone_canon, subLost_canon]

theorem Dev.answerOk_canon {d : Dev} (h : RegsCanonical d) (src p) : RegsCanonical (d.answerOk src p).2 := by
  unfold answerOk
  grind [bump_canon]

theorem Dev.respIn_canon {d : Dev} (h : RegsCanonical d) (src p) : RegsCanonical (d.respIn src p) := by
  unfold respIn
  grind [answerOk_canon, bump_canon, ingest_canon, leaveFifo_canon, trayAnswer_canon]

theorem Dev.ownRetry_canon {d : Dev} (h : RegsCanonical d) (q feid tag) : RegsCanonical (d.ownRetry q feid tag) := by
  unfold ownRetry
  grind [dropSub_canon, lateFailure_canon, modHome_canon, pump_canon, sendKeyed_canon, subDone_canon]

/-! ### `Machine/Coherence` -/

theorem Dev.modCoh_canon {d : Dev} (h : RegsCanonical d) (f) : RegsCanonical (d.modCoh f) := h

theorem Dev.dropCopy_canon {d : Dev} (h : RegsCanonical d) (a line) : RegsCanonical (d.dropCopy a line) := h

theorem Dev.applyInv_canon {d : Dev} (h : RegsCanonical d) (a all) : RegsCanonical (d.applyInv a all) := by
  unfold applyInv
  grind [dropCopy_canon, each_canon, modCoh_canon]

theorem Dev.watch_canon {d : Dev} (h : RegsCanonical d) (a slice) : RegsCanonical (d.watch a slice) := by
  unfold watch
  grind [modCoh_canon]

theorem Dev.postInv_canon {d : Dev} (h : RegsCanonical d) (line agents) : RegsCanonical (d.postInv line agents) := by
  unfold postInv
  grind [each_canon, emit_canon, modCoh_canon]

theorem Dev.setDir_canon {d : Dev} (h : RegsCanonical d) (line st agents) : RegsCanonical (d.setDir line st agents) := h

theorem Dev.putCopy_canon {d : Dev} (h : RegsCanonical d) (a line ctx st data) : RegsCanonical (d.putCopy a line ctx st data) := watch_canon h ..

theorem Dev.grantLine_canon {d : Dev} (h : RegsCanonical d) (a line ctx st data) : RegsCanonical (d.grantLine a line ctx st data) :=
  emit_canon (putCopy_canon h ..) ..

theorem Dev.noteLost_canon {d : Dev} (h : RegsCanonical d) (line) : RegsCanonical (d.noteLost line) := event_canon (bump_canon h ..) ..

theorem Dev.noteUe_canon {d : Dev} (h : RegsCanonical d) (off) : RegsCanonical (d.noteUe off) := event_canon (setReg_canon (bump_canon h ..) ..) ..

theorem Dev.noteUes_canon {d : Dev} (h : RegsCanonical d) (ss) : RegsCanonical (d.noteUes ss) := by
  unfold noteUes
  grind [noteUe_canon]

theorem Dev.clearBad_canon {d : Dev} (h : RegsCanonical d) (off len) : RegsCanonical (d.clearBad off len) := h

theorem Dev.strike_canon {d : Dev} (h : RegsCanonical d) (e) : RegsCanonical (d.strike e) := h

theorem Dev.l2Report_canon {d : Dev} (h : RegsCanonical d) (line) : RegsCanonical (d.l2Report line).2 := by
  unfold l2Report
  grind [event_canon, modTiers_canon, noteUes_canon]

theorem Dev.l2Victim_canon {d : Dev} (h : RegsCanonical d) (line) : RegsCanonical (d.l2Victim line).2 := by
  unfold l2Victim
  grind [fresh_canon]

theorem Dev.l2Hold_canon {d : Dev} (h : RegsCanonical d) (line dirty) : RegsCanonical (d.l2Hold line dirty) := by
  unfold l2Hold
  grind [l2Victim_canon, modTiers_canon]

theorem Dev.l2Fill_canon {d : Dev} (h : RegsCanonical d) (line) : RegsCanonical (d.l2Fill line) := by
  unfold l2Fill
  grind [bump_canon]

theorem Dev.readLine_canon {d : Dev} (h : RegsCanonical d) (off len) : RegsCanonical (d.readLine off len).2 := by
  unfold readLine
  grind [l2Fill_canon, l2Hold_canon, l2Report_canon, noteUes_canon]

theorem Dev.writeLine_canon {d : Dev} (h : RegsCanonical d) (off len) : RegsCanonical (d.writeLine off len).2 := by
  unfold writeLine
  grind [clearBad_canon, l2Fill_canon, l2Hold_canon, l2Report_canon, modTiers_canon, noteUes_canon]

theorem Dev.wakeStack_canon {d : Dev} (h : RegsCanonical d) (line) : RegsCanonical (d.wakeStack line) := h

theorem Dev.block_canon {d : Dev} (h : RegsCanonical d) (r) : RegsCanonical (d.block r) := h

theorem Dev.snoop_canon {d : Dev} (h : RegsCanonical d) (a line keep r) : RegsCanonical (d.snoop a line keep r) := h

theorem Dev.revive_canon {d : Dev} (h : RegsCanonical d) (line) : RegsCanonical (d.revive line) := bump_canon (modCoh_canon h ..) ..

theorem Dev.setVictim_canon {d : Dev} (h : RegsCanonical d) (line) : RegsCanonical (d.setVictim line).2 := by
  unfold setVictim
  grind [fresh_canon]

theorem L2State.onDev_canon {s : L2State} (h : RegsCanonical s.dev) {f : Dev → Dev} (hf : ∀ d, RegsCanonical d → RegsCanonical (f d)) :
    RegsCanonical (s.onDev f).dev := by
  unfold onDev
  grind []

theorem L2State.answer_canon {s : L2State} (h : RegsCanonical s.dev) (r) : RegsCanonical (s.answer r).dev := h

theorem L2State.refuse_canon {s : L2State} (h : RegsCanonical s.dev) (a line st) : RegsCanonical (s.refuse a line st).dev := by
  unfold refuse
  grind [Dev.emit_canon, Dev.failQuantum_canon, onDev_canon]

theorem L2State.writeBack_canon {s : L2State} (h : RegsCanonical s.dev) (a l) : RegsCanonical (s.writeBack a l).dev := by
  unfold writeBack
  grind [Dev.writeLine_canon]

theorem L2State.serveHome_canon {s : L2State} (h : RegsCanonical s.dev) (r) : RegsCanonical (s.serveHome r).dev := by
  unfold serveHome
  grind [Dev.applyMerge_canon, Dev.l2Hold_canon, Dev.readLine_canon, Dev.setOp_canon, Dev.writeLine_canon, answer_canon]

theorem L2State.failHome_canon {s : L2State} (h : RegsCanonical s.dev) (r st) : RegsCanonical (s.failHome r st).dev := by
  unfold failHome
  grind [answer_canon, refuse_canon]

theorem L2State.serveAgent_canon {s : L2State} (h : RegsCanonical s.dev) (r) : RegsCanonical (s.serveAgent r).dev := by
  unfold serveAgent
  grind [Dev.grantLine_canon, Dev.readLine_canon, Dev.setDir_canon, onDev_canon, refuse_canon]

theorem L2State.withEntry_canon {s : L2State} (h : RegsCanonical s.dev) (r go) (hgo : ∀ s : L2State, RegsCanonical s.dev → RegsCanonical (go s).dev) :
    RegsCanonical (s.withEntry r go).dev := by
  unfold withEntry
  grind [Dev.block_canon, Dev.bump_canon, Dev.postInv_canon, Dev.setDir_canon, Dev.setVictim_canon, Dev.snoop_canon, onDev_canon]

theorem L2State.take_canon {s : L2State} (h : RegsCanonical s.dev) (r) : RegsCanonical (s.take r).dev := by
  unfold take
  grind [Dev.block_canon, Dev.grantLine_canon, Dev.noteLost_canon, Dev.postInv_canon, Dev.revive_canon, Dev.setDir_canon, Dev.snoop_canon,
      Dev.wakeStack_canon, failHome_canon, onDev_canon, serveAgent_canon, serveHome_canon, withEntry_canon]

theorem L2State.retryAll_canon {s : L2State} (h : RegsCanonical s.dev) : RegsCanonical s.retryAll.dev := by
  unfold retryAll
  exact foldl_keeps (fun s : L2State => RegsCanonical s.dev) _ (fun s r h => take_canon h r) h

theorem L2State.applyAll_canon {s : L2State} (h : RegsCanonical s.dev) (a) : RegsCanonical (s.applyAll a).dev := by
  unfold applyAll
  grind [Dev.applyInv_canon, onDev_canon, retryAll_canon]

theorem L2State.snooped_canon {s : L2State} (h : RegsCanonical s.dev) (x) : RegsCanonical (s.snooped x).dev := by
  unfold snooped
  extract_lets keep stays discard s₁ s₂ has s₃ waiting s₄
  have h₁ : RegsCanonical s₁.dev := by grind [writeBack_canon]
  have h₃ : RegsCanonical s₃.dev := onDev_canon (s := s₂) h₁ fun d h => by grind [Dev.modCoh_canon, Dev.setDir_canon, Dev.dropCopy_canon]
  have h₄ : RegsCanonical s₄.dev := h₃
  refine foldl_keeps (fun s : L2State => RegsCanonical s.dev) _ (fun s r h => take_canon h r) ?_
  split
  · exact h₄
  · exact take_canon h₄ _

theorem L2State.snoopResponse_canon {s : L2State} (h : RegsCanonical s.dev) (a l) : RegsCanonical (s.snoopResponse a l).dev := by
  unfold snoopResponse
  grind [Dev.modCoh_canon, applyAll_canon, onDev_canon, snooped_canon]

theorem L2State.put_canon {s : L2State} (h : RegsCanonical s.dev) (a l dirty) : RegsCanonical (s.put a l dirty).dev := by
  unfold put
  grind [Dev.bump_canon, Dev.dropCopy_canon, Dev.emit_canon, Dev.modCoh_canon, Dev.setDir_canon, onDev_canon, retryAll_canon, snooped_canon,
      writeBack_canon]

theorem L2State.retag_canon {s : L2State} (h : RegsCanonical s.dev) (a l ctx) : RegsCanonical (s.retag a l ctx).dev := by
  unfold retag
  grind [Dev.dropCopy_canon, onDev_canon, put_canon]

theorem L2State.makeRoom_canon {s : L2State} (h : RegsCanonical s.dev) (a l) : RegsCanonical (s.makeRoom a l).dev := by
  unfold makeRoom
  grind [Dev.dropCopy_canon, Dev.fresh_canon, put_canon]

theorem L2State.request_canon {s : L2State} (h : RegsCanonical s.dev) (r) : RegsCanonical (s.request r).dev := by
  unfold request
  grind [applyAll_canon, makeRoom_canon, retag_canon, take_canon]

theorem L2State.dirty_canon {s : L2State} (h : RegsCanonical s.dev) (a l data) : RegsCanonical (s.dirty a l data).dev := by
  unfold dirty
  grind [Dev.modCoh_canon, Dev.setDir_canon, onDev_canon]

theorem L2State.invReceive_canon {s : L2State} (h : RegsCanonical s.dev) (a l) : RegsCanonical (s.invReceive a l).dev := by
  unfold invReceive
  grind [Dev.modCoh_canon, onDev_canon, retryAll_canon]

theorem L2State.invApply_canon {s : L2State} (h : RegsCanonical s.dev) (a) : RegsCanonical (s.invApply a).dev :=
  retryAll_canon (Dev.applyInv_canon h ..)

theorem L2State.boundary_canon {s : L2State} (h : RegsCanonical s.dev) (a ctx) : RegsCanonical (s.boundary a ctx).dev :=
  retryAll_canon (Dev.applyInv_canon h ..)

theorem L2State.kill_canon {s : L2State} (h : RegsCanonical s.dev) (a) : RegsCanonical (s.kill a).1.dev := by
  unfold kill
  extract_lets mine r d waiting orphan d₂ again
  have hr : RegsCanonical r.1 := by
    refine foldl_keeps (fun x : Dev × List Nat => RegsCanonical x.1) _ (fun x e h => ?_) h
    grind [Dev.setDir_canon, Dev.modCoh_canon, Dev.bump_canon, Dev.event_canon]
  exact foldl_keeps (fun s : L2State => RegsCanonical s.dev) _ (fun s r h => take_canon h r) hr

/-! ### `Machine/L2Serve` -/

theorem Dev.modL2_canon {d : Dev} (h : RegsCanonical d) (q f) : RegsCanonical (d.modL2 q f) := h

theorem Dev.bar2Fail_canon {d : Dev} (h : RegsCanonical d) (h0 off status) : RegsCanonical (d.bar2Fail h0 off status) := by
  unfold bar2Fail
  grind [bump_canon, event_canon]

theorem Dev.bar2Check_canon {d : Dev} (h : RegsCanonical d) (h0 off kind) : RegsCanonical (d.bar2Check h0 off kind).2 := by
  unfold bar2Check
  grind [regionCheck_canon]

theorem Dev.bar2Access_canon {d : Dev} (h : RegsCanonical d) (h0 addr len data) : RegsCanonical (d.bar2Access h0 addr len data) := by
  unfold bar2Access
  grind [bar2Check_canon, bar2Fail_canon, emit_canon, modL2_canon, modTiers_canon]

theorem Dev.l2Done_canon {d : Dev} (h : RegsCanonical d) (q x status) : RegsCanonical (d.l2Done q x status) := by
  unfold l2Done
  grind [bar2Fail_canon, completeOp_canon, emit_canon, failOp_canon, pump_canon, setOp_canon]

theorem Dev.scrubBack_canon {d : Dev} (h : RegsCanonical d) (s) : RegsCanonical (d.scrubBack s) := by
  unfold scrubBack
  grind [l2Hold_canon, modTiers_canon]

theorem Dev.fillDone_canon {d : Dev} (h : RegsCanonical d) (slot) : RegsCanonical (d.fillDone slot) := by
  unfold fillDone
  split
  · exact stageComplete_canon (modTiers_canon h _)
  · exact h

theorem Dev.fillWritten_canon {d : Dev} (h : RegsCanonical d) (off status) : RegsCanonical (d.fillWritten off status) := by
  unfold fillWritten
  grind [fillDone_canon, modTiers_canon]

theorem Dev.settle_canon {d : Dev} (h : RegsCanonical d) (r) : RegsCanonical (d.settle r) := by
  unfold settle
  grind [emit_canon, fillWritten_canon, l2Done_canon, modL2_canon, scrubBack_canon]

theorem runL2_canon {d : Dev} (h : RegsCanonical d) (f m) (hf : ∀ s : L2State, RegsCanonical s.dev → RegsCanonical (f s).dev) :
    RegsCanonical (runL2 f m d).2 := by
  unfold runL2
  exact foldl_keeps RegsCanonical _ (fun d r h => Dev.settle_canon h r) (hf _ h)

theorem Dev.askL2_canon {d : Dev} (h : RegsCanonical d) (q x) : RegsCanonical (d.askL2 q x) := h

theorem hreadAt_canon {d : Dev} (h : RegsCanonical d) (src off len m) : RegsCanonical (hreadAt src off len m d).2 := by
  unfold hreadAt
  grind [Dev.askL2_canon, L2State.take_canon, runL2_canon]

theorem hwriteAt_canon {d : Dev} (h : RegsCanonical d) (src off data m) : RegsCanonical (hwriteAt src off data m d).2 := by
  unfold hwriteAt
  grind [Dev.askL2_canon, L2State.take_canon, runL2_canon]

theorem hatomAt_canon {d : Dev} (h : RegsCanonical d) (src off aop aw sg operand m) : RegsCanonical (hatomAt src off aop aw sg operand m d).2 := by
  unfold hatomAt
  grind [Dev.askL2_canon, L2State.take_canon, runL2_canon]

/-! ### `Machine/SwitchCore` -/

theorem Dev.grantUnit_canon {d : Dev} (h : RegsCanonical d) (x) : RegsCanonical (d.grantUnit x) := by
  unfold grantUnit
  grind [modCore_canon, regsCanonical_iff]

theorem Dev.setEntry_canon {d : Dev} (h : RegsCanonical d) (q p cls e) : RegsCanonical (d.setEntry q p cls e) := h

theorem Dev.spoil_canon {d : Dev} (h : RegsCanonical d) (q p cls e) : RegsCanonical (d.spoil q p cls e) := by
  unfold spoil
  grind [modPort_canon, setEntry_canon]

theorem Dev.dropAtEgress_canon {d : Dev} (h : RegsCanonical d) (q p cls e status) : RegsCanonical (d.dropAtEgress q p cls e status) := by
  unfold dropAtEgress
  grind [failPacket_canon, modCore_canon]

theorem Dev.grantCell_canon {d : Dev} (h : RegsCanonical d) (x) : RegsCanonical (d.grantCell x) := by
  unfold grantCell
  grind [bump_canon, dropAtEgress_canon, modPort_canon, sealPkt_canon, setEntry_canon, turnPast_canon]

theorem Dev.accept_canon {d : Dev} (h : RegsCanonical d) (q ps) : RegsCanonical (d.accept q ps) := by
  unfold accept
  grind [each_canon, grantCell_canon, grantUnit_canon, modCore_canon]

theorem Dev.retryHeld_canon {d : Dev} (h : RegsCanonical d) : RegsCanonical d.retryHeld := by
  unfold retryHeld
  refine foldl_keeps RegsCanonical _ (fun d x h => ?_) h
  grind [→ placeResult_canon, regsCanonical_iff]

theorem Dev.crossbar_canon {d : Dev} (h : RegsCanonical d) : RegsCanonical d.crossbar := by
  unfold crossbar
  grind [accept_canon, each_canon, retryHeld_canon]

theorem Dev.egressDone_canon {d : Dev} (h : RegsCanonical d) (p cls) : RegsCanonical (d.egressDone p cls) := by
  unfold egressDone
  grind [countOut_canon, modCore_canon]

/-! ### `Machine/PortDown` -/

theorem Dev.traysGone_canon {d : Dev} (h : RegsCanonical d) (p) : RegsCanonical (d.traysGone p) := by
  unfold traysGone
  grind [countLost_canon, each_canon, failOp_canon, modHome_canon, pump_canon, setOp_canon]

theorem Dev.endpointGone_canon {d : Dev} (h : RegsCanonical d) (p feid) : RegsCanonical (d.endpointGone p feid) := by
  unfold endpointGone
  grind [contribGone_canon, each_canon, fenceOwn_canon, memberFailed_canon, traysGone_canon]

theorem Dev.leaveActive_canon {d : Dev} (h : RegsCanonical d) (p nx) : RegsCanonical (d.leaveActive p nx) := by
  unfold leaveActive
  grind [bump_canon, endpointGone_canon, event_canon, flushPort_canon, modDom_canon, modPort_canon, setReg_canon, showLanes_canon, showTrained_canon,
      untrained_canon, regsCanonical_iff]

theorem Dev.lossOfSignal_canon {d : Dev} (h : RegsCanonical d) (p) : RegsCanonical (d.lossOfSignal p) := by
  unfold lossOfSignal
  grind [leaveActive_canon, modPort_canon]

theorem Dev.dyingRcvd_canon {d : Dev} (h : RegsCanonical d) (p m) : RegsCanonical (d.dyingRcvd p m) := by
  unfold dyingRcvd
  grind [bump_canon, endpointGone_canon, event_canon, leaveActive_canon, modPort_canon, setReg_canon]

theorem Dev.sendDying_canon {d : Dev} (h : RegsCanonical d) (ports reason) : RegsCanonical (d.sendDying ports reason) := by
  unfold sendDying
  grind [each_canon, modPort_canon]

theorem Dev.dyingNow_canon {d : Dev} (h : RegsCanonical d) (ports reason) : RegsCanonical (d.dyingNow ports reason) := by
  unfold dyingNow
  grind [each_canon, flitSlot_canon, sendDying_canon]

theorem Dev.requestReset_canon {d : Dev} (h : RegsCanonical d) (cause) : RegsCanonical (d.requestReset cause) := by
  unfold requestReset
  grind [sendDying_canon, setPower_canon]

theorem Dev.portHeld_canon {d : Dev} (h : RegsCanonical d) (p peer) : RegsCanonical (d.portHeld p peer) := event_canon (setReg_canon h ..) ..

theorem Dev.placeLost_canon {d : Dev} (h : RegsCanonical d) : RegsCanonical d.placeLost := by
  unfold placeLost
  grind [each_canon, leaveActive_canon]

theorem Dev.recheckPeers_canon {d : Dev} (h : RegsCanonical d) : RegsCanonical d.recheckPeers := by
  unfold recheckPeers
  grind [each_canon, leaveActive_canon, portHeld_canon]

theorem Dev.paramDone_canon {d : Dev} (h : RegsCanonical d) (p rttPs) : RegsCanonical (d.paramDone p rttPs) := by
  unfold paramDone
  grind [enterActive_canon, modDom_canon, portHeld_canon, setReg_canon, untrained_canon]

theorem Dev.portActive_canon {d : Dev} (h : RegsCanonical d) (p) : RegsCanonical (d.portActive p) := by
  unfold portActive
  grind [enterActive_canon, resendTo_canon]

theorem Dev.egressUe_canon {d : Dev} (h : RegsCanonical d) (p cls) : RegsCanonical (d.egressUe p cls) := by
  unfold egressUe
  grind [bump_canon, dropAtEgress_canon, event_canon, leaveActive_canon, putFlit_canon, spoil_canon]

theorem Dev.retrained_canon {d : Dev} (h : RegsCanonical d) (p) : RegsCanonical (d.retrained p) := by
  unfold retrained
  grind [resendTo_canon, retrainDone_canon]

/-! ### `Machine/Service` -/

theorem Dev.modPower_canon {d : Dev} (h : RegsCanonical d) (f) : RegsCanonical (d.modPower f) := h

theorem Dev.stopTiles_canon {d : Dev} (h : RegsCanonical d) (q) : RegsCanonical (d.stopTiles q) := by
  unfold stopTiles
  grind [dropQuantum_canon, each_canon, fenceOwn_canon, flushUnit_canon, quantumGone_canon]

theorem Dev.answerQueued_canon {d : Dev} (h : RegsCanonical d) (q) : RegsCanonical (d.answerQueued q) := by
  unfold answerQueued
  grind [each_canon, failPacket_canon, failQuantum_canon]

theorem Dev.stopHome_canon {d : Dev} (h : RegsCanonical d) (q) : RegsCanonical (d.stopHome q) := by
  unfold stopHome
  grind [answerQueued_canon, answerRead_canon, each_canon, failInst_canon, fenceOwn_canon, flushUnit_canon, regsCanonical_iff]

theorem Dev.portsDown_canon {d : Dev} (h : RegsCanonical d) (q) : RegsCanonical (d.portsDown q) := by
  unfold portsDown
  grind [each_canon, leaveActive_canon, modPort_canon]

theorem Dev.dropCore_canon {d : Dev} (h : RegsCanonical d) (q) : RegsCanonical (d.dropCore q) := h

theorem Dev.homeBack_canon {d : Dev} (h : RegsCanonical d) (q) : RegsCanonical (d.homeBack q) := by
  unfold homeBack
  grind [each_canon, holdRebuild_canon]

theorem Dev.setLevel_canon {d : Dev} (h : RegsCanonical d) (q new) : RegsCanonical (d.setLevel q new) := by
  unfold setLevel
  grind [dropCore_canon, event_canon, homeBack_canon, modHealth_canon, portsDown_canon, setReg_canon, stopHome_canon, stopTiles_canon]

theorem Dev.evalLevels_canon {d : Dev} (h : RegsCanonical d) : RegsCanonical d.evalLevels := by
  unfold evalLevels
  grind [each_canon, setLevel_canon, setReg_canon]

theorem Dev.showSysarea_canon {d : Dev} (h : RegsCanonical d) (q) : RegsCanonical (d.showSysarea q) :=
  setReg_canon (setReg_canon (setReg_canon h ..) ..) ..

theorem Dev.moveSysarea_canon {d : Dev} (h : RegsCanonical d) (q) : RegsCanonical (d.moveSysarea q) := by
  unfold moveSysarea
  grind [each_canon, event_canon, modHome_canon, modLog_canon, setInst_canon, setJournal_canon, showSysarea_canon]

theorem Dev.slotsFailed_canon {d : Dev} (h : RegsCanonical d) (s) : RegsCanonical (d.slotsFailed s) := h

theorem Dev.stackFailed_canon {d : Dev} (h : RegsCanonical d) (s) : RegsCanonical (d.stackFailed s) := by
  unfold stackFailed
  grind [evalLevels_canon, event_canon, fenceOwn_canon, modPower_canon, moveSysarea_canon, setReg_canon, slotsFailed_canon]

theorem Dev.dieFailed_canon {d : Dev} (h : RegsCanonical d) (die) : RegsCanonical (d.dieFailed die) := by
  unfold dieFailed
  grind [evalLevels_canon, event_canon, fenceOwn_canon, modHealth_canon, setReg_canon]

theorem Dev.reassign_canon {d : Dev} (h : RegsCanonical d) (u) : RegsCanonical (d.reassign u) := by
  unfold reassign
  grind [bump_canon, dropQuantum_canon, failQuantum_canon, modNode_canon, quantumGone_canon]

theorem Dev.markAgent_canon {d : Dev} (h : RegsCanonical d) (a) : RegsCanonical (d.markAgent a) := h

theorem Dev.agentDead_canon {d : Dev} (h : RegsCanonical d) (a m) : RegsCanonical (agentDead a m d).2 := by
  unfold agentDead
  grind [bump_canon, each_canon, event_canon, fenceOwn_canon, markAgent_canon, modCoh_canon, reassign_canon, setReg_canon, L2State.kill_canon,
      runL2_canon]

theorem Dev.agentReset_canon {d : Dev} (h : RegsCanonical d) (a) : RegsCanonical (d.agentReset a) := by
  unfold agentReset
  grind [bump_canon, clearScratch_canon, evalLevels_canon, markAgent_canon, modCoh_canon, modHealth_canon, modJobs_canon, modTrans_canon]

theorem Dev.agentRejoined_canon {d : Dev} (h : RegsCanonical d) (a passed) : RegsCanonical (d.agentRejoined a passed) := by
  unfold agentRejoined
  grind [evalLevels_canon, event_canon, markAgent_canon, modHealth_canon, setReg_canon]

theorem failStacks_canon {d : Dev} (h : RegsCanonical d) (f m) (hf : ∀ d, RegsCanonical d → RegsCanonical (f d)) :
    RegsCanonical (failStacks f m d).2 := by
  unfold failStacks
  grind [L2State.retryAll_canon, runL2_canon]

/-! ### `Machine/Translation` -/

theorem Dev.snoopNow_canon {d : Dev} (h : RegsCanonical d) (m l keep discard) : RegsCanonical (snoopNow m d l keep discard).2 := by
  unfold snoopNow
  grind [applyInv_canon, dropCopy_canon, modCoh_canon, setDir_canon, writeLine_canon]

theorem Dev.lineStops_canon {d : Dev} (h : RegsCanonical d) (l) : RegsCanonical (d.lineStops l).2 := by
  unfold lineStops
  grind [wakeStack_canon]

theorem Dev.acksGiven_canon (before : Dev) {s : Memory × Dev} (h : RegsCanonical s.2) : RegsCanonical (before.acksGiven s).2 := by
  unfold acksGiven
  grind [L2State.retryAll_canon, runL2_canon]

theorem Dev.lineRead_canon {d : Dev} (h : RegsCanonical d) (off n m) : RegsCanonical (lineRead off n m d).2.2 := by
  unfold lineRead
  grind [acksGiven_canon, lineStops_canon, noteLost_canon, readLine_canon, snoopNow_canon]

theorem Dev.queueInv_canon {d : Dev} (h : RegsCanonical d) (o line) : RegsCanonical (d.queueInv o line) := h

theorem Dev.partsRead_canon {d : Dev} (h : RegsCanonical d) {f : Nat → Nat → Memory → Dev → Except QErr Bytes × Memory × Dev}
    (hf : ∀ off n m d, RegsCanonical d → RegsCanonical (f off n m d).2.2) (l m) : RegsCanonical (partsRead f l m d).2.2 := by
  induction l generalizing m d with
  | nil => exact h
  | cons x xs ih =>
    have hx := hf x.1 x.2 m d h
    unfold partsRead
    split
    · next e => rwa [e] at hx
    · next s e =>
      rw [e] at hx
      have ht := ih hx s.1
      split
      · next e => rwa [e] at ht
      · exact ht

theorem Dev.l2ReadAt_canon {d : Dev} (h : RegsCanonical d) (off n m) : RegsCanonical (l2ReadAt off n m d).2.2 := by
  unfold l2ReadAt
  grind [lineRead_canon, partsRead_canon]

theorem Dev.l2ReadBy_canon {d : Dev} (h : RegsCanonical d) (a off n m) : RegsCanonical (l2ReadBy a off n m d).2.2 := by
  unfold l2ReadBy
  grind [dropCopy_canon, each_canon, l2ReadAt_canon]

theorem Dev.readPte_canon {d : Dev} (h : RegsCanonical d) (off m) : RegsCanonical (readPte off m d).2.2 := by
  unfold readPte
  grind [lineRead_canon]

theorem QM.approach_keeps (l) : Keeps (approach l) := by
  unfold approach
  grind [keeps_pure, keeps_bind, keeps_atL2, Dev.lineStops_canon]

theorem QM.giveUp_keeps (a l) : Keeps (giveUp a l) := by
  unfold giveUp
  grind [keeps_pure, keeps_bind, keeps_dev_bind, keeps_modDev, keeps_modBoth, Dev.dropCopy_canon, Dev.snoopNow_canon]

theorem QM.roomNow_keeps (a l) : Keeps (roomNow a l) := by
  unfold roomNow
  grind [keeps_pure, keeps_bind, keeps_dev_bind, keeps_modDev, keeps_throw, Dev.fresh_canon, giveUp_keeps]

theorem QM.entryNow_keeps (l) : Keeps (entryNow l) := by
  unfold entryNow
  grind [keeps_pure, keeps_bind, keeps_dev_bind, keeps_modDev, keeps_modBoth, keeps_throw, Dev.bump_canon, Dev.each_canon, Dev.queueInv_canon,
      Dev.setDir_canon, Dev.setVictim_canon, Dev.snoopNow_canon]

theorem QM.prepare_keeps (a l foreign) : Keeps (prepare a l foreign) := by
  unfold prepare
  grind [keeps_pure, keeps_bind, entryNow_keeps, giveUp_keeps, roomNow_keeps]

theorem QM.lineData_keeps (l) : Keeps (lineData l) := by
  unfold lineData
  grind [keeps_pure, keeps_bind, keeps_fail, keeps_dev_bind, keeps_modDev, keeps_get_bind, Dev.readLine_canon]

theorem QM.settled_keeps {α : Type} {f : QM α} (hf : Keeps f) : Keeps (settled f) :=
  ⟨fun s h => Dev.acksGiven_canon s.2 (hf.run s h)⟩

theorem QM.agentRead_keeps (a ctx off n) : Keeps (agentRead a ctx off n) := by
  unfold agentRead
  extract_lets l
  refine keeps_dev_bind fun d hd => ?_
  extract_lets fill approached
  have hfill : ∀ r, Keeps (fill r) := fun r => settled_keeps <| keeps_bind (prepare_keeps ..) fun _ => keeps_bind
    (keeps_modBoth fun m d h => Dev.snoopNow_canon h m l true false) fun _ => keeps_bind (lineData_keeps l) fun bs => keeps_bind
    (keeps_modDev fun d h => by grind [Dev.putCopy_canon, Dev.setDir_canon]) fun _ => keeps_pure _
  have happroached : ∀ r, Keeps (approached r) := fun r => keeps_bind (approach_keeps l) fun _ =>
    keeps_ite (keeps_bind (keeps_modDev fun d h => Dev.noteLost_canon h l) fun _ => keeps_bind (keeps_fail _) hfill) (hfill ())
  split
  · exact keeps_ite (keeps_pure _) (happroached ())
  · exact happroached ()

theorem QM.agentWrite_keeps (a ctx off bs) : Keeps (agentWrite a ctx off bs) := by
  unfold agentWrite
  extract_lets l whole put
  have hput : ∀ b, Keeps (put b) := fun b => keeps_modDev fun d h => Dev.setDir_canon (Dev.putCopy_canon h _ _ _ _ _) _ _ _
  refine keeps_dev_bind fun d hd => ?_
  split
  · exact keeps_modDev fun d h => Dev.setDir_canon (Dev.putCopy_canon h _ _ _ _ _) _ _ _
  refine settled_keeps <| keeps_bind (keeps_modDev fun d h => Dev.applyInv_canon h a true) fun _ => keeps_bind (approach_keeps l) fun _ =>
    keeps_dev_bind fun d hd => ?_
  extract_lets lost e write prepared room
  have hwrite : ∀ r, Keeps (write r) := fun _ => keeps_dev_bind fun d hd => by
    extract_lets own base
    have hbase : ∀ r, Keeps (base r) := fun _ => by
      simp only [base]
      clear_value own
      refine keeps_ite (keeps_bind (keeps_pure _) hput) ?_
      cases own
      · exact keeps_bind (lineData_keeps l) hput
      · exact keeps_bind (keeps_pure _) hput
    refine keeps_ite (keeps_bind (keeps_modDev fun d h => ?_) hbase) (keeps_bind (keeps_modBoth fun m d h => ?_) hbase)
    · exact Dev.setDir_canon (Dev.each_canon h _ fun d o h => Dev.queueInv_canon h _ _) _ _ _
    · exact Dev.snoopNow_canon h _ _ _ _
  have hprepared : ∀ r, Keeps (prepared r) := fun _ => keeps_bind (prepare_keeps ..) fun _ =>
    keeps_ite (keeps_bind (keeps_modDev fun d h => Dev.revive_canon h l) hwrite) (hwrite ())
  have hroom : ∀ r, Keeps (room r) := fun _ => keeps_ite (keeps_bind (keeps_throw _) hprepared) (hprepared ())
  exact keeps_ite (keeps_bind (keeps_modDev fun d h => Dev.noteLost_canon h l) fun _ => keeps_bind (keeps_fail _) hroom) (hroom ())

theorem QM.laneWrite_keeps (off bs) : Keeps (laneWrite off bs) := by
  unfold laneWrite
  extract_lets l put line
  have hput : ∀ r, Keeps (put r) := fun _ => keeps_modBoth fun m d h => h
  have hline : ∀ r, Keeps (line r) := fun _ => keeps_dev_bind fun d hd =>
    keeps_bind (keeps_modDev fun _ _ => Dev.writeLine_canon hd _ _) fun _ => keeps_ite (keeps_bind (keeps_fail _) hput) (hput ())
  refine keeps_bind (approach_keeps l) fun _ => keeps_dev_bind fun d hd => ?_
  extract_lets lost e taken served room
  have htaken : ∀ r, Keeps (taken r) := fun _ => by
    refine keeps_ite (keeps_bind (keeps_modDev fun d h => ?_) hline) (keeps_bind (keeps_modBoth fun m d h => ?_) hline)
    · exact Dev.setDir_canon (Dev.each_canon h _ fun d o h => Dev.queueInv_canon h _ _) _ _ _
    · exact Dev.snoopNow_canon h _ _ _ _
  have hserved : ∀ r, Keeps (served r) := fun _ => settled_keeps <|
    keeps_ite (keeps_bind (keeps_modDev fun d h => Dev.revive_canon h l) htaken) (htaken ())
  have hroom : ∀ r, Keeps (room r) := fun _ => keeps_ite (keeps_bind (keeps_throw _) hserved) (hserved ())
  exact keeps_ite (keeps_bind (keeps_modDev fun d h => Dev.noteLost_canon h l) fun _ => keeps_bind (keeps_fail _) hroom) (hroom ())

theorem Dev.xlatCheck_canon {d : Dev} (h : RegsCanonical d) (ctx e a) : RegsCanonical (d.xlatCheck ctx e a).2 := by
  unfold xlatCheck
  extract_lets da comp home
  split
  · exact h
  split
  · dsimp only
    split
    · exact bump_canon h _ _
    · exact h
  · exact regionCheck_canon h _ _ _ _

theorem Dev.unpark_canon {d : Dev} (h : RegsCanonical d) (u) : RegsCanonical (d.unpark u) := by
  unfold unpark
  grind [modJobs_canon, parkDone_canon]

theorem Dev.failAccess_canon {d : Dev} (h : RegsCanonical d) (a st) : RegsCanonical (d.failAccess a st) := by
  unfold failAccess
  grind [failQuantum_canon, modJobs_canon, unpark_canon]

theorem Dev.accessDone_canon {d : Dev} (h : RegsCanonical d) (ctx e a) : RegsCanonical (d.accessDone ctx e a) := by
  generalize hF : accessDone = F
  delta accessDone at hF
  subst hF
  beta_reduce
  extract_lets d₁
  have h₁ : RegsCanonical d₁ := by
    simp only [d₁]
    split
    · exact modTrans_canon h _
    · exact h
  clear_value d₁
  have hx := xlatCheck_canon h₁ ctx e a
  split <;> next e => 
    rw [e] at hx
    first | exact failAccess_canon hx _ _ | exact unpark_canon (modJobs_canon hx _) _

theorem Dev.failAccs_canon {d : Dev} (h : RegsCanonical d) (accs status) : RegsCanonical (d.failAccs accs status) := by
  unfold failAccs
  grind [each_canon, failAccess_canon]

theorem Dev.park_canon {d : Dev} (h : RegsCanonical d) (u) : RegsCanonical (d.park u) := h

theorem Dev.attach_canon {d : Dev} (h : RegsCanonical d) (ctx page accs) : RegsCanonical (d.attach ctx page accs) := by
  unfold attach
  grind [each_canon, modTrans_canon, park_canon]

theorem Dev.joinWalk_canon {d : Dev} (h : RegsCanonical d) (q ctx page accs) : RegsCanonical (d.joinWalk q ctx page accs) := by
  unfold joinWalk
  grind [setWalks_canon]

theorem Dev.walkFor_canon {d : Dev} (h : RegsCanonical d) (ctx a) : RegsCanonical (d.walkFor ctx a) := by
  unfold walkFor
  grind [attach_canon, joinWalk_canon]

theorem Dev.tlbLook_canon {d : Dev} (h : RegsCanonical d) (ctx a) : RegsCanonical (d.tlbLook ctx a).2 := by
  unfold tlbLook
  grind [bump_canon, modTrans_canon]

theorem Dev.translate_canon {d : Dev} (h : RegsCanonical d) (ctx a) : RegsCanonical (d.translate ctx a) := by
  unfold translate
  grind [accessDone_canon, failAccess_canon, tlbLook_canon, walkFor_canon]

theorem Dev.countFull_canon {d : Dev} (h : RegsCanonical d) (f) : RegsCanonical (d.countFull f) := by
  unfold countFull
  grind [bump_canon, modTrans_canon]

theorem Dev.raiseFault_canon {d : Dev} (h : RegsCanonical d) (q ctx page pte reason accs) :
    RegsCanonical (d.raiseFault q ctx page pte reason accs) := by
  unfold raiseFault
  grind [attach_canon, countFull_canon, each_canon, failAccs_canon, modJobs_canon, modTrans_canon]

theorem Dev.faultRecord_canon {d : Dev} (h : RegsCanonical d) (h0) : RegsCanonical (d.faultRecord h0) := by
  unfold faultRecord
  grind [bump_canon, countFull_canon, emit_canon, modHost_canon, modTrans_canon, msix_canon, setReg_canon]

theorem Dev.dropFault_canon {d : Dev} (h : RegsCanonical d) (f) : RegsCanonical (d.dropFault f) := h

theorem Dev.faultResp_canon {d : Dev} (h : RegsCanonical d) (h0 r) : RegsCanonical (d.faultResp h0 r) := by
  unfold faultResp
  grind [bump_canon, dropFault_canon, failAccs_canon, setWalks_canon]

theorem Dev.respond_canon {d : Dev} (h : RegsCanonical d) (h0 r) : RegsCanonical (d.respond h0 r) := by
  unfold respond
  grind [faultResp_canon, writeKey_canon]

theorem Dev.faultTimeout_canon {d : Dev} (h : RegsCanonical d) (h0 id) : RegsCanonical (d.faultTimeout h0 id) := by
  unfold faultTimeout
  grind [bump_canon, dropFault_canon, failAccs_canon]

theorem Dev.walkDone_canon {d : Dev} (h : RegsCanonical d) (q ctx page m) : RegsCanonical (walkDone q ctx page m d).2 := by
  unfold walkDone
  grind [accessDone_canon, each_canon, failAccs_canon, joinWalk_canon, modTrans_canon, raiseFault_canon, readPte_canon, setWalks_canon]

theorem Dev.askInval_canon {d : Dev} (h : RegsCanonical d) (tag) : RegsCanonical (d.askInval tag) := h

theorem Dev.invalOne_canon {d : Dev} (h : RegsCanonical d) (tag) : RegsCanonical (d.invalOne tag) := bump_canon (modTrans_canon h ..) ..

theorem Dev.invalEdge_canon {d : Dev} (h : RegsCanonical d) : RegsCanonical d.invalEdge := by
  unfold invalEdge
  grind [each_canon, invalOne_canon, modTrans_canon]

theorem Dev.invalDrained_canon {d : Dev} (h : RegsCanonical d) : RegsCanonical d.invalDrained := by
  unfold invalDrained
  grind [bump_canon, modTrans_canon]

theorem Dev.ctxWrite_canon {d : Dev} (h : RegsCanonical d) (ctx v) {d' : Dev} (e' : d.ctxWrite ctx v = some d') : RegsCanonical d' := by
  unfold ctxWrite at e'
  extract_lets old base d₁ at e'
  have h₁ : RegsCanonical d₁ := setReg_canon h _ _
  clear_value d₁ base old
  iterate 3
    split at e'
    · cases e'
  obtain rfl := Option.some.inj e'
  split
  · exact askInval_canon (modTrans_canon h₁ _) _
  · exact h₁

/-! ### `Machine/UnitMem` -/

theorem Dev.homeAccess_canon {d : Dev} (h : RegsCanonical d) (comp rkey a bs note) (hnote : ∀ a0 d, RegsCanonical d → RegsCanonical (note a0 d)) :
    RegsCanonical (d.homeAccess comp rkey a bs note) := by
  unfold homeAccess
  grind [addOp_canon, closeMerge_canon, each_canon, failOp_canon, pump_canon]

theorem Dev.trayAccess_canon {d : Dev} (h : RegsCanonical d) (e da rkey len bs) : RegsCanonical (d.trayAccess e da rkey len bs) := by
  unfold trayAccess
  grind [homeAccess_canon, modJobs_canon]

theorem Dev.trayReads_canon {d : Dev} (h : RegsCanonical d) (e l) : RegsCanonical (d.trayReads e l) := by
  unfold trayReads
  grind [each_canon, trayAccess_canon]

theorem QM.l2Read_keeps (e off n) : Keeps (l2Read e off n) := by
  unfold l2Read
  grind [keeps_pure, keeps_bind, keeps_atL2, Dev.l2ReadBy_canon]

theorem QM.unitRead_keeps (e off n) : Keeps (unitRead e off n) := by
  unfold unitRead
  grind [keeps_pure, keeps_bind, keeps_dev_bind, keeps_mapM, agentRead_keeps, l2Read_keeps]

theorem QM.unitWrite_keeps (e off bs) : Keeps (unitWrite e off bs) := by
  unfold unitWrite
  grind [keeps_pure, keeps_bind, keeps_dev_bind, keeps_modDev, keeps_forM, Dev.modJobs_canon, agentWrite_keeps, laneWrite_keeps]

theorem QM.writeSectors_keeps (e n) : Keeps (writeSectors e n) := by
  unfold writeSectors
  grind [keeps_pure, keeps_bind, keeps_dev_bind, keeps_modDev, keeps_forM, Dev.modJobs_canon, agentWrite_keeps]

theorem QM.translated_keeps (e va kind) : Keeps (translated e va kind) := by
  unfold translated
  extract_lets a go walk
  have hgo : ∀ t, Keeps (go t) := fun t => keeps_bind (keeps_check (fun d c t a h => Dev.xlatCheck_canon h c t a) ..) fun _ => keeps_pure _
  have hlook : ∀ d, RegsCanonical d → Keeps (match d.tlbLook e.ctx a with
      | (none, _) => throw (QErr.miss va kind)
      | (some t, d) => do modDev (fun _ => d); go t : QM (Nat × Nat)) := fun d hd => by
    have ht := Dev.tlbLook_canon hd e.ctx a
    split
    · exact keeps_throw _
    · next e' =>
      rw [e'] at ht
      exact keeps_bind (keeps_modDev fun _ _ => ht) fun _ => hgo _
  have hwalk : ∀ r, Keeps (walk r) := fun r => by
    simp only [walk]
    split
    · exact hgo _
    · exact keeps_dev_bind fun d hd => keeps_ite (keeps_bind (keeps_fail _) fun _ => hlook d hd) (hlook d hd)
  exact keeps_ite (keeps_bind (keeps_fail _) hwalk) (hwalk ())

theorem QM.readVa_keeps (e va n) : Keeps (readVa e va n) := by
  unfold readVa
  grind [keeps_pure, keeps_bind, keeps_fail, keeps_dev_bind, keeps_throw, keeps_mapM, translated_keeps, unitRead_keeps]

theorem QM.writeVa_keeps (e va bs) : Keeps (writeVa e va bs) := by
  unfold writeVa
  grind [keeps_pure, keeps_bind, keeps_dev_bind, keeps_modDev, keeps_forM, Dev.modJobs_canon, Dev.trayAccess_canon, translated_keeps, unitWrite_keeps]

theorem QM.readStaged_keeps (e da n) : Keeps (readStaged e da n) := by
  unfold readStaged
  grind [keeps_pure, keeps_bind, keeps_fail, keeps_dev_bind, keeps_mapM, l2Read_keeps]

theorem QM.readRaw_keeps (e k off n) : Keeps (readRaw e k off n) := by
  unfold readRaw
  grind [keeps_pure, keeps_bind, keeps_fail, keeps_dev_bind, l2Read_keeps, readStaged_keeps, readVa_keeps]

theorem QM.streamBlock_keeps (e k b) : Keeps (streamBlock e k b) := by
  unfold streamBlock
  grind [keeps_pure, keeps_bind, readRaw_keeps]

theorem QM.expandBlock_keeps (e k b) : Keeps (expandBlock e k b) := by
  unfold expandBlock
  grind [keeps_pure, keeps_bind, keeps_fail, keeps_dev_bind, keeps_modDev, Dev.bump_canon, Dev.modJobs_canon, streamBlock_keeps]

theorem QM.readBytes_keeps (e k off n) : Keeps (readBytes e k off n) := by
  unfold readBytes
  grind [keeps_pure, keeps_bind, keeps_mapM, expandBlock_keeps, readRaw_keeps]

theorem QM.readElems_keeps (e k total c n) : Keeps (readElems e k total c n) := by
  unfold readElems
  grind [keeps_pure, keeps_bind, keeps_mapM, readBytes_keeps]

theorem QM.modQuantum_keeps (e f) : Keeps (modQuantum e f) := by
  unfold modQuantum
  grind [keeps_pure, keeps_bind, keeps_modDev, Dev.modJobs_canon]

theorem QM.putBytes_keeps (e k off bs) : Keeps (putBytes e k off bs) := by
  unfold putBytes
  grind [keeps_pure, keeps_bind, modQuantum_keeps, writeVa_keeps]

theorem QM.deliver_keeps (e stores) : Keeps (deliver e stores) := by
  unfold deliver
  grind [keeps_pure, keeps_bind, keeps_forM, writeVa_keeps]

theorem QM.putElems_keeps (e k total c n bs) : Keeps (putElems e k total c n bs) := by
  unfold putElems
  grind [keeps_pure, keeps_bind, putBytes_keeps]

/-! ### `Machine/Results` -/

theorem QM.gemm_keeps (e w) : Keeps (gemm e w) := by
  unfold gemm
  grind [keeps_pure, keeps_bind, keeps_mapM, readElems_keeps]

theorem QM.gemmOut_keeps (e w) : Keeps (gemmOut e w) := by
  unfold gemmOut
  grind [keeps_pure, keeps_bind, keeps_forM, gemm_keeps, putElems_keeps]

theorem QM.elemwise_keeps (e version first n) : Keeps (elemwise e version first n) := by
  unfold elemwise
  grind [keeps_pure, keeps_bind, keeps_mapM, putElems_keeps, readElems_keeps]

theorem QM.reduceLocal_keeps (e version) : Keeps (reduceLocal e version) := by
  unfold reduceLocal
  grind [keeps_pure, keeps_bind, putElems_keeps, readElems_keeps]

theorem QM.softmax_keeps (e version first n) : Keeps (softmax e version first n) := by
  unfold softmax
  grind [keeps_pure, keeps_bind, keeps_forM, keeps_mapM, putElems_keeps, readElems_keeps]

theorem QM.norm_keeps (e version out first n) : Keeps (norm e version out first n) := by
  unfold norm
  grind [keeps_pure, keeps_bind, keeps_forM, keeps_mapM, putElems_keeps, readElems_keeps]

theorem QM.topk_keeps (e version first n) : Keeps (topk e version first n) := by
  unfold topk
  grind [keeps_pure, keeps_bind, keeps_forM, keeps_mapM, putElems_keeps, readElems_keeps]

theorem QM.copy_keeps (e first n) : Keeps (copy e first n) := by
  unfold copy
  grind [keeps_pure, keeps_bind, putBytes_keeps, readBytes_keeps]

theorem QM.parity_keeps (e first n) : Keeps (parity e first n) := by
  unfold parity
  grind [keeps_pure, keeps_bind, keeps_modDev, keeps_mapM, Dev.gfWork_canon, putBytes_keeps, readBytes_keeps]

theorem QM.expand_keeps (e first n) : Keeps (expand e first n) := by
  unfold expand
  grind [keeps_pure, keeps_bind, putBytes_keeps, readBytes_keeps]

theorem QM.compress_keeps (e first n) : Keeps (compress e first n) := by
  unfold compress
  grind [keeps_pure, keeps_bind, keeps_dev_bind, keeps_modDev, keeps_forM, keeps_mapM, Dev.bump_canon, Dev.modNode_canon, putBytes_keeps,
      readBytes_keeps]

theorem QM.attendToken_keeps (e version t) : Keeps (attendToken e version t) := by
  unfold attendToken
  extract_lets p i h g dd tn f
  refine keeps_bind (readBytes_keeps ..) fun b => ?_
  extract_lets ent first np fill rows
  have hrows : ∀ r, Keeps (rows r) := fun _ => by
    refine keeps_bind (readElems_keeps ..) fun q => keeps_bind (keeps_mapM _ fun j => keeps_bind (readBytes_keeps ..) fun b => ?_) fun pages =>
      keeps_ite (keeps_pure _) (keeps_pure _)
    extract_lets va page
    have hpage : ∀ r, Keeps (page r) := fun _ => keeps_bind (keeps_modDev fun d h => Dev.bump_canon h _ _) fun _ => readVa_keeps ..
    exact keeps_ite (keeps_bind (keeps_fail _) hpage) (hpage ())
  exact keeps_ite (keeps_bind (keeps_fail _) hrows) (hrows ())

theorem QM.attend_keeps (e version first n) : Keeps (attend e version first n) := by
  unfold attend
  grind [keeps_pure, keeps_bind, keeps_forM, keeps_mapM, attendToken_keeps, putBytes_keeps]

theorem QM.run_keeps (e version w) : Keeps (run e version w) := by
  unfold run
  grind [keeps_pure, keeps_bind, keeps_modDev, Dev.modJobs_canon, attend_keeps, compress_keeps, copy_keeps, elemwise_keeps, expand_keeps,
      gemmOut_keeps, gemm_keeps, norm_keeps, parity_keeps, reduceLocal_keeps, softmax_keeps, topk_keeps]

/-! ### `Machine/Quanta` -/

theorem Dev.leaveRung_canon {d : Dev} (h : RegsCanonical d) (k) : RegsCanonical (d.leaveRung k) := h

theorem Dev.wakeTile_canon {d : Dev} (h : RegsCanonical d) (u) : RegsCanonical (d.wakeTile u) := by
  unfold wakeTile
  grind [bump_canon, fresh_canon, leaveRung_canon]

theorem Dev.giveSlotTo_canon {d : Dev} (h : RegsCanonical d) (m q u) : RegsCanonical (giveSlotTo m d q u) := by
  unfold giveSlotTo
  grind [modJobs_canon, wakeTile_canon]

theorem Dev.giveSlots_canon {d : Dev} (h : RegsCanonical d) (m) : RegsCanonical (giveSlots m d) := by
  unfold giveSlots
  grind [each_canon, giveSlotTo_canon]

theorem Dev.sendParts_canon {d : Dev} (h : RegsCanonical d) (k i ended) : RegsCanonical (d.sendParts k i ended) := by
  unfold sendParts
  grind [each_canon, jobOutput_canon, modNode_canon]

theorem Dev.addPieces_canon {d : Dev} (h : RegsCanonical d) (k i ps) : RegsCanonical (d.addPieces k i ps) := h

theorem Dev.freeTable_canon {d : Dev} (h : RegsCanonical d) (k i) : RegsCanonical (d.freeTable k i) := h

theorem Dev.nodeDone_canon {d : Dev} (h : RegsCanonical d) (k i) : RegsCanonical (d.nodeDone k i) := by
  unfold nodeDone
  grind [addPieces_canon, endJob_canon, freeTable_canon, modNode_canon, noteNode_canon, sendParts_canon]

theorem Dev.gathered_canon {d : Dev} (h : RegsCanonical d) (j x live) : RegsCanonical (gathered j x live d) := by
  unfold gathered
  grind [bump_canon]

theorem Dev.endQuantum_canon {d : Dev} (h : RegsCanonical d) (u) : RegsCanonical (d.endQuantum u) := by
  unfold endQuantum
  grind [addPieces_canon, bump_canon, dropQuantum_canon, gathered_canon, modJob_canon, modJobs_canon, modNode_canon, nodeDone_canon,
      quantumGone_canon, sendParts_canon]

theorem Dev.firstOutput_canon {d : Dev} (h : RegsCanonical d) (k) : RegsCanonical (d.firstOutput k).2 := by
  unfold firstOutput
  grind [arbitrate_canon, endJob_canon, modJob_canon, sendCancel_canon]

theorem Dev.overrun_canon {d : Dev} (h : RegsCanonical d) (u) : RegsCanonical (d.overrun u) := by
  unfold overrun
  grind [bump_canon, modJob_canon, modJobs_canon]

theorem Dev.halveRestore_canon {d : Dev} (h : RegsCanonical d) (k) : RegsCanonical (d.halveRestore k) := by
  unfold halveRestore
  grind [modJob_canon]

theorem Dev.jobTimeout_canon {d : Dev} (h : RegsCanonical d) (k) : RegsCanonical (d.jobTimeout k) := by
  unfold jobTimeout
  grind [endJob_canon]

theorem Dev.settleStart_canon {d : Dev} (h : RegsCanonical d) (u x j) : RegsCanonical (d.settleStart u x j) := by
  unfold settleStart
  grind [each_canon, modCoh_canon, modJobs_canon, modPower_canon, modTiers_canon, takeScratch_canon, regsCanonical_iff]

theorem Dev.spendSlot_canon {d : Dev} (h : RegsCanonical d) (u) : RegsCanonical (d.spendSlot u) := h

theorem Dev.startOn_canon {d : Dev} (h : RegsCanonical d) (u m) : RegsCanonical (startOn u m d).2 := by
  unfold startOn
  split
  · exact h
  split
  · exact h
  extract_lets p k q
  split
  · exact h
  split
  · exact h
  split
  · grind [bump_canon, modNode_canon, spendSlot_canon]
  extract_lets n far w t land x d₁ d₂ d₃ d₄ d₅ r
  split
  · exact h
  split
  · exact spendSlot_canon h _
  have h₂ : RegsCanonical d₂ := by grind [modNode_canon, modJobs_canon]
  have h₅ : RegsCanonical d₅ := by grind [settleStart_canon, watch_canon, modJobs_canon]
  have hr : RegsCanonical r.2 := by
    simp only [r]
    split
    · exact h₅
    · exact runL2_canon h₅ _ _ fun s h => L2State.boundary_canon h _ _
  exact each_canon hr _ fun d a h => by grind [translate_canon]

theorem Dev.attempt_canon {d : Dev} (h : RegsCanonical d) (u) {f : QEnv → Nat → QM Unit} (hf : ∀ e v, (f e v).Keeps) (fuel m) :
    RegsCanonical (attempt u f fuel m d).2.2 := by
  induction fuel generalizing d with
  | zero => exact h
  | succ fuel ih =>
    unfold attempt
    split
    · exact h
    split
    · exact h
    next e v _ =>
    have hr := (hf e v).run (m, d) h
    split <;> next e => 
      rw [e] at hr
      grind [modJobs_canon, modTrans_canon, failQuantum_canon, modTiers_canon, trayReads_canon, translate_canon]

theorem Dev.localAnswer_canon {d : Dev} (h : RegsCanonical d) (u c r) : RegsCanonical (d.localAnswer u c r) := by
  unfold localAnswer
  grind [endQuantum_canon, failQuantum_canon, modJobs_canon]

theorem Dev.enterContrib_canon {d : Dev} (h : RegsCanonical d) (u c) : RegsCanonical (d.enterContrib u c) := by
  unfold enterContrib
  grind [coreUsed_canon, localAnswer_canon, modJobs_canon]

theorem Dev.enterContribs_canon {d : Dev} (h : RegsCanonical d) (u) : RegsCanonical (d.enterContribs u) := by
  unfold enterContribs
  grind [each_canon, enterContrib_canon]

theorem Dev.enterAll_canon {d : Dev} (h : RegsCanonical d) : RegsCanonical d.enterAll := by
  unfold enterAll
  grind [each_canon, enterContribs_canon]

theorem Dev.workDone_canon {d : Dev} (h : RegsCanonical d) (u) : RegsCanonical (d.workDone u) := by
  unfold workDone
  grind [endQuantum_canon, enterContribs_canon, firstOutput_canon, modJobs_canon]

theorem Dev.tryEnd_canon {d : Dev} (h : RegsCanonical d) (u) : RegsCanonical (d.tryEnd u) := by
  unfold tryEnd
  grind [failQuantum_canon, modJobs_canon, workDone_canon]

theorem Dev.drain_canon {d : Dev} (h : RegsCanonical d) (u m) : RegsCanonical (drain u m d).2.2 := by
  unfold drain
  grind [attempt_canon, fresh_canon, modJobs_canon, QM.writeSectors_keeps]

theorem Dev.complete_canon {d : Dev} (h : RegsCanonical d) (u e m) : RegsCanonical (complete u e m d).2 := by
  unfold complete
  grind [attempt_canon, drain_canon, failQuantum_canon, tryEnd_canon, QM.deliver_keeps, QM.run_keeps]

/-! ### `Machine/Jobs` -/

theorem Dev.makeResident_canon {d : Dev} (h : RegsCanonical d) (k pk) : RegsCanonical (d.makeResident k pk) := by
  unfold makeResident
  grind [bump_canon, each_canon, endJob_canon, modJobs_canon, sendCancel_canon, stageRequest_canon]

theorem Dev.jobAdmit_canon {d : Dev} (h : RegsCanonical d) (q) : RegsCanonical (d.jobAdmit q) := by
  unfold jobAdmit
  grind [bump_canon, consume_canon, libSwitch_canon, makeResident_canon, sendFeid_canon]

theorem Dev.endpointCancel_canon {d : Dev} (h : RegsCanonical d) (feid comp m) : RegsCanonical (d.endpointCancel feid comp m) := by
  unfold endpointCancel
  grind [endJob_canon]

theorem Dev.cancelIn_canon {d : Dev} (h : RegsCanonical d) (src p) : RegsCanonical (d.cancelIn src p) := by
  unfold cancelIn
  grind [ctrlIn_canon, endpointCancel_canon]

theorem Dev.enterWait_canon {d : Dev} (h : RegsCanonical d) (t off cond width value) {d' : Dev} (e' : d.enterWait t off cond width value = some d') :
    RegsCanonical d' := by
  unfold enterWait at e'
  grind [fresh_canon, modCoh_canon]

theorem Dev.acquireMet_canon {d : Dev} (h : RegsCanonical d) (t off cond width value m) :
    RegsCanonical (acquireMet t off cond width value m d).2 := by
  unfold acquireMet
  split
  · exact h
  split
  · exact h
  split
  · exact h
  · next d' e =>
    have hr := l2ReadBy_canon (enterWait_canon h _ _ _ _ _ e) t off width m
    split <;> next e => 
      rw [e] at hr
      grind [modCoh_canon, runL2_canon, L2State.boundary_canon, bump_canon, failQuantum_canon]

theorem Dev.acquireTimeout_canon {d : Dev} (h : RegsCanonical d) (t) : RegsCanonical (d.acquireTimeout t) := by
  unfold acquireTimeout
  grind [bump_canon, failQuantum_canon]

theorem Dev.releaseH_canon {d : Dev} (h : RegsCanonical d) (a line data) : RegsCanonical (d.releaseH a line data) := by
  unfold releaseH
  grind [modCoh_canon, setDir_canon]

theorem Dev.releaseP_canon {d : Dev} (h : RegsCanonical d) (a da data) : RegsCanonical (d.releaseP a da data) := by
  unfold releaseP
  grind [modJobs_canon, trayAccess_canon]

theorem Dev.release_canon {d : Dev} (h : RegsCanonical d) (a line data) : RegsCanonical (d.release a line data) := by
  unfold release
  grind [releaseH_canon, releaseP_canon]

/-! ### `Machine/Security` -/

theorem Dev.modSec_canon {d : Dev} (h : RegsCanonical d) (f) : RegsCanonical (d.modSec f) := h

theorem Dev.setMeas_canon {d : Dev} (h : RegsCanonical d) (layer svn digest) : RegsCanonical (d.setMeas layer svn digest) := h

theorem Dev.measureConfig_canon {d : Dev} (h : RegsCanonical d) (f) : RegsCanonical (measureConfig f d) := by
  unfold measureConfig
  grind [setMeas_canon]

theorem Dev.bootSecurity_canon {d : Dev} (h : RegsCanonical d) (f) : RegsCanonical (bootSecurity f d) := by
  unfold bootSecurity
  grind [modJobs_canon, modSec_canon, setBank_canon, setMeas_canon, setReg_canon]

theorem Dev.rejectImage_canon {d : Dev} (h : RegsCanonical d) (i) : RegsCanonical (d.rejectImage i) := event_canon (modSec_canon h ..) ..

theorem Dev.libVerify_canon {d : Dev} (h : RegsCanonical d) (f b i) : RegsCanonical (libVerify f d b i) := by
  unfold libVerify
  grind [bump_canon, event_canon, modSec_canon, rejectImage_canon, setBank_canon, setMeas_canon]

theorem Dev.libActivate_canon {d : Dev} (h : RegsCanonical d) (b) {d' : Dev} (e' : d.libActivate b = some d') : RegsCanonical d' := by
  unfold libActivate at e'
  grind [modJobs_canon]

theorem Dev.imageVerify_canon {d : Dev} (h : RegsCanonical d) (i atBoot f) : RegsCanonical (imageVerify i atBoot f d).2 := by
  unfold imageVerify
  grind [bootSecurity_canon, rejectImage_canon]

theorem Dev.imageDone_canon {d : Dev} (h : RegsCanonical d) (bank img imgType f) : RegsCanonical (imageDone bank img imgType f d).2 := by
  unfold imageDone
  grind [event_canon, libVerify_canon, modSec_canon, rejectImage_canon, requestReset_canon]

theorem Dev.imagePart_canon {d : Dev} (h : RegsCanonical d) (port imgType bank off total data f) :
    RegsCanonical (imagePart port imgType bank off total data f d).2 := by
  unfold imagePart
  grind [bump_canon, ctrlDrop_canon, imageDone_canon, modSec_canon]

theorem Dev.svnCommit_canon {d : Dev} (h : RegsCanonical d) (c f) : RegsCanonical (svnCommit c f d).2 := by
  unfold svnCommit
  grind [event_canon, measureConfig_canon]

theorem Dev.setKeySlot_canon {d : Dev} (h : RegsCanonical d) (s k) : RegsCanonical (d.setKeySlot s k) := h

theorem Dev.modGens_canon {d : Dev} (h : RegsCanonical d) (s f) : RegsCanonical (d.modGens s f) := h

theorem Dev.keyEvent_canon {d : Dev} (h : RegsCanonical d) (code s gen) : RegsCanonical (d.keyEvent code s gen) := event_canon h ..

theorem Dev.keyLive_canon {d : Dev} (h : RegsCanonical d) (s) : RegsCanonical (d.keyLive s) := h

theorem Dev.keyRetired_canon {d : Dev} (h : RegsCanonical d) (s) : RegsCanonical (d.keyRetired s) := by
  unfold keyRetired
  grind [each_canon, keyEvent_canon, modGens_canon]

theorem Dev.spoilEgress_canon {d : Dev} (h : RegsCanonical d) (s gen) : RegsCanonical (d.spoilEgress s gen) := by
  unfold spoilEgress
  grind [each_canon, spoil_canon]

theorem Dev.zeroize_canon {d : Dev} (h : RegsCanonical d) (s gen m) : RegsCanonical (zeroize s gen m d).2 := by
  unfold zeroize
  grind [bump_canon, dropOp_canon, dropSlot_canon, each_canon, failMerges_canon, failOp_canon, keyEvent_canon, pump_canon, retestWaits_canon,
      setKeySlot_canon, spoilEgress_canon, regsCanonical_iff]

theorem Dev.keyZeroized_canon {d : Dev} (h : RegsCanonical d) (s gen m) : RegsCanonical (keyZeroized s gen m d).2 := by
  unfold keyZeroized
  grind [zeroize_canon]

theorem Dev.zeroizeAll_canon {d : Dev} (h : RegsCanonical d) (m) : RegsCanonical (zeroizeAll m d).2 := by
  unfold zeroizeAll
  exact foldl_keeps (fun r : Memory × Dev => RegsCanonical r.2) _ (fun r x h => zeroize_canon h _ _ _) h

theorem Dev.retire_canon {d : Dev} (h : RegsCanonical d) (s gen) : RegsCanonical (d.retire s gen) := h

theorem Dev.slotCmd_canon {d : Dev} (h : RegsCanonical d) (acc v) {d' : Dev} (e' : d.slotCmd acc v = some d') : RegsCanonical d' := by
  unfold slotCmd at e'
  grind [retire_canon]

theorem Dev.kdsSend_canon {d : Dev} (h : RegsCanonical d) (feid comp op status session body) :
    RegsCanonical (d.kdsSend feid comp op status session body) := sendFeid_canon h ..

theorem Dev.setSession_canon {d : Dev} (h : RegsCanonical d) (n x) : RegsCanonical (d.setSession n x) := setReg_canon h ..

theorem Dev.kdsIn_canon {d : Dev} (h : RegsCanonical d) (src feid comp op m act) (hact : ∀ a0 d, RegsCanonical d → RegsCanonical (act a0 d)) :
    RegsCanonical (d.kdsIn src feid comp op m act) := by
  unfold kdsIn
  grind [ctrlIn_canon]

theorem Dev.kdsHello_canon {d : Dev} (h : RegsCanonical d) (f feid comp m) : RegsCanonical (kdsHello f d feid comp m) := by
  unfold kdsHello
  grind [freshBytes_canon, fresh_canon, kdsSend_canon, modSec_canon, setSession_canon]

theorem Dev.kdsWith_canon {d : Dev} (h : RegsCanonical d) (feid comp op m f) (hf : ∀ a0 d, RegsCanonical d → RegsCanonical (f a0 d)) :
    RegsCanonical (d.kdsWith feid comp op m f) := by
  unfold kdsWith
  grind [kdsSend_canon, setSession_canon]

theorem Dev.kdsAccept_canon {d : Dev} (h : RegsCanonical d) (feid comp m) : RegsCanonical (d.kdsAccept feid comp m) := by
  unfold kdsAccept
  grind [bump_canon, event_canon, kdsSend_canon, kdsWith_canon, setSession_canon]

theorem Dev.kdsLoad_canon {d : Dev} (h : RegsCanonical d) (feid comp m) : RegsCanonical (d.kdsLoad feid comp m) := by
  unfold kdsLoad
  grind [bump_canon, kdsSend_canon, kdsWith_canon, keyEvent_canon, modSec_canon, setKeySlot_canon, setSession_canon]

theorem Dev.kdsRetire_canon {d : Dev} (h : RegsCanonical d) (feid comp m) : RegsCanonical (d.kdsRetire feid comp m) := by
  unfold kdsRetire
  grind [kdsSend_canon, kdsWith_canon, retire_canon, setSession_canon]

theorem Dev.kdsCerts_canon {d : Dev} (h : RegsCanonical d) (feid comp m) : RegsCanonical (d.kdsCerts feid comp m) := by
  unfold kdsCerts
  grind [kdsSend_canon, kdsWith_canon]

theorem Dev.kdsClose_canon {d : Dev} (h : RegsCanonical d) (feid comp m) : RegsCanonical (d.kdsClose feid comp m) := by
  unfold kdsClose
  grind [kdsWith_canon, setSession_canon]

theorem Dev.kdsTimeout_canon {d : Dev} (h : RegsCanonical d) (n) : RegsCanonical (d.kdsTimeout n) := by
  unfold kdsTimeout
  grind [setSession_canon]

theorem Dev.takeToken_canon {d : Dev} (h : RegsCanonical d) (t f m) : RegsCanonical (takeToken t f m d).2 := by
  unfold takeToken
  grind [event_canon, freshBytes_canon, measureConfig_canon, modSec_canon, requestReset_canon, setReg_canon, zeroizeAll_canon]

theorem Dev.debugExpiry_canon {d : Dev} (h : RegsCanonical d) (f) : RegsCanonical (debugExpiry f d) := by
  unfold debugExpiry
  grind [endAccessor_canon, measureConfig_canon, modSec_canon, setReg_canon]

/-! ### `Machine/Domain` -/

theorem Dev.setMaster_canon {d : Dev} (h : RegsCanonical d) (m) : RegsCanonical (d.setMaster m) := by
  unfold setMaster
  grind [bump_canon, event_canon, modDom_canon, setReg_canon]

theorem Dev.elect_canon {d : Dev} (h : RegsCanonical d) : RegsCanonical d.elect := by
  unfold elect
  grind [modDom_canon, setMaster_canon]

theorem Dev.manage_canon {d : Dev} (h : RegsCanonical d) : RegsCanonical d.manage := setReg_canon h ..

theorem Dev.noteBeacon_canon {d : Dev} (h : RegsCanonical d) (b) : RegsCanonical (d.noteBeacon b) := h

theorem Dev.idLost_canon {d : Dev} (h : RegsCanonical d) (serial) : RegsCanonical (d.idLost serial) := event_canon (placeLost_canon h) ..

theorem Dev.sendBeacon_canon {d : Dev} (h : RegsCanonical d) : RegsCanonical d.sendBeacon := by
  unfold sendBeacon
  grind [flood_canon, idLost_canon, modDom_canon, noteBeacon_canon]

theorem Dev.rivalBeacon_canon {d : Dev} (h : RegsCanonical d) (b) : RegsCanonical (d.rivalBeacon b) := by
  unfold rivalBeacon
  grind [idLost_canon, modDom_canon]

theorem Dev.sendImage_canon {d : Dev} (h : RegsCanonical d) (t) : RegsCanonical (d.sendImage t) := by
  unfold sendImage
  grind [each_canon, flood_canon]

theorem Dev.approve_canon {d : Dev} (h : RegsCanonical d) (b) : RegsCanonical (d.approve b) := by
  unfold approve
  grind [each_canon, modDom_canon, sendImage_canon]

theorem Dev.beaconIn_canon {d : Dev} (h : RegsCanonical d) (port b) : RegsCanonical (d.beaconIn port b) := by
  unfold beaconIn
  grind [approve_canon, ctrlDrop_canon, event_canon, flood_canon, manage_canon, modDom_canon, noteBeacon_canon, rivalBeacon_canon]

theorem Dev.loseSwitch_canon {d : Dev} (h : RegsCanonical d) (sw) : RegsCanonical (d.loseSwitch sw) :=
  fenceOwn_canon (modDom_canon (fresh_canon h) ..) ..

theorem Dev.masterLost_canon {d : Dev} (h : RegsCanonical d) : RegsCanonical d.masterLost := by
  unfold masterLost
  grind [loseSwitch_canon, setMaster_canon]

theorem Dev.switchLost_canon {d : Dev} (h : RegsCanonical d) (sw) : RegsCanonical (d.switchLost sw) := by
  unfold switchLost
  grind [loseSwitch_canon]

theorem Dev.stepCount_canon {d : Dev} (h : RegsCanonical d) (new) : RegsCanonical (d.stepCount new) := setReg_canon h ..

theorem Dev.sendMarker_canon {d : Dev} (h : RegsCanonical d) (except m) : RegsCanonical (d.sendMarker except m) := by
  unfold sendMarker
  grind [each_canon, flood_canon, sendPort_canon]

theorem Dev.alignFault_canon {d : Dev} (h : RegsCanonical d) : RegsCanonical d.alignFault := by
  unfold alignFault
  grind [bump_canon, modDom_canon]

theorem Dev.follow_canon {d : Dev} (h : RegsCanonical d) (port r) : RegsCanonical (d.follow port r) := by
  unfold follow
  grind [alignFault_canon, modDom_canon, setReg_canon]

theorem Dev.markerIn_canon {d : Dev} (h : RegsCanonical d) (port m arrivalPs residencePs) :
    RegsCanonical (d.markerIn port m arrivalPs residencePs) := by
  unfold markerIn
  grind [ctrlDrop_canon, follow_canon, modDom_canon, sendMarker_canon]

theorem Dev.holdover_canon {d : Dev} (h : RegsCanonical d) : RegsCanonical d.holdover := by
  unfold holdover
  grind [setReg_canon]

theorem Dev.acquire_canon {d : Dev} (h : RegsCanonical d) : RegsCanonical d.acquire := by
  unfold acquire
  grind [modDom_canon, setReg_canon, stepCount_canon]

theorem Dev.announceHandover_canon {d : Dev} (h : RegsCanonical d) : RegsCanonical d.announceHandover := by
  unfold announceHandover
  grind [modDom_canon]

theorem Dev.tickIn_canon {d : Dev} (h : RegsCanonical d) (offsetPs) : RegsCanonical (d.tickIn offsetPs) := by
  unfold tickIn
  grind [modDom_canon, stepCount_canon]

theorem Dev.startBist_canon {d : Dev} (h : RegsCanonical d) (from') : RegsCanonical (d.startBist from') := setPower_canon (setReg_canon h ..) ..

theorem Dev.phases_canon {d : Dev} (h : RegsCanonical d) : RegsCanonical d.phases := by
  unfold phases
  grind [modDom_canon, startBist_canon]

theorem Dev.sendBist_canon {d : Dev} (h : RegsCanonical d) (op toSw pass detail) : RegsCanonical (d.sendBist op toSw pass detail) := flood_canon h ..

theorem Dev.nextPhase_canon {d : Dev} (h : RegsCanonical d) : RegsCanonical d.nextPhase := by
  unfold nextPhase
  grind [each_canon, modDom_canon, sendBist_canon, startBist_canon]

theorem Dev.repeatPhase_canon {d : Dev} (h : RegsCanonical d) (leader phase targets) : RegsCanonical (d.repeatPhase leader phase targets) := by
  unfold repeatPhase
  grind [modDom_canon, startBist_canon]

theorem Dev.recovery_canon {d : Dev} (h : RegsCanonical d) (commanded phase targets) : RegsCanonical (d.recovery commanded phase targets) := by
  unfold recovery
  grind [modDom_canon, repeatPhase_canon, sendRecovery_canon]

theorem Dev.recoveryRecover_canon {d : Dev} (h : RegsCanonical d) (port m) : RegsCanonical (d.recoveryRecover port m) := by
  unfold recoveryRecover
  grind [ctrlDrop_canon, repeatPhase_canon, takeNotice_canon]

/-! ### `Machine/Yarrow` -/

theorem Dev.takeContrib_canon {d : Dev} (h : RegsCanonical d) (q pk lcl) : RegsCanonical (d.takeContrib q pk lcl).2 := by
  unfold takeContrib
  split
  · exact h
  extract_lets g i c e sub add
  have hadd (c) : RegsCanonical (add c).2 := bump_canon (bump_canon (setInst_canon h _ _) _ _) _ _
  have hdrop : RegsCanonical (d.bump (Reg.drops q)) := bump_canon h _ _
  have hstall : RegsCanonical (d.bump (Reg.stalls q)) := bump_canon h _ _
  iterate 5 refine snd_ite_canon h ?_
  refine snd_ite_canon ?_ (snd_ite_canon ?_ ?_)
  · exact hdrop
  · exact hstall
  clear_value add c
  cases c with
  | some c => exact snd_ite_canon (x := (Taken.dropped, _)) hdrop (hadd c)
  | none =>
    dsimp only
    split
    · exact hadd _
    · exact hstall

theorem Dev.takeLocal_canon {d : Dev} (h : RegsCanonical d) (q u pk) : RegsCanonical (d.takeLocal q u pk) := by
  unfold takeLocal
  grind [localAnswer_canon, takeContrib_canon]

theorem Dev.contribTake_canon {d : Dev} (h : RegsCanonical d) (q) : RegsCanonical (d.contribTake q) := by
  unfold contribTake
  grind [consume_canon, enterAll_canon, failPacket_canon, takeContrib_canon, takeLocal_canon]

theorem Dev.chunkTimeout_canon {d : Dev} (h : RegsCanonical d) (g n) : RegsCanonical (d.chunkTimeout g n) := by
  unfold chunkTimeout
  split
  · exact h
  split
  · exact h
  split
  · exact h
  extract_lets gone fail
  have hset {d : Dev} (h : RegsCanonical d) (f : Inst → Inst) : RegsCanonical (((d.inst g).map fun x => d.setInst g (f x)).getD d) := by
    cases d.inst g with
    | none => exact h
    | some x => exact setInst_canon h _ _
  have hfail {d} (h : RegsCanonical d) : RegsCanonical (fail d) := hset h _
  have hgone : RegsCanonical (d.giveUp g gone) := giveUp_canon h _ _
  split
  · exact hgone
  · split
    · exact hfail h
    · split
      · exact hset hgone _
      · exact hfail hgone
  · exact hfail h

theorem Dev.editEntry_canon {d : Dev} (h : RegsCanonical d) (q e f) : RegsCanonical (d.editEntry q e f) := h

theorem Dev.ackTimeout_canon {d : Dev} (h : RegsCanonical d) (g n dest) : RegsCanonical (d.ackTimeout g n dest) := by
  unfold ackTimeout
  grind [bump_canon, editEntry_canon, sendResult_canon]

theorem Dev.reduceAck_canon {d : Dev} (h : RegsCanonical d) (feid g n) : RegsCanonical (d.reduceAck feid g n) := by
  unfold reduceAck
  grind [editEntry_canon]

theorem Dev.reduceNack_canon {d : Dev} (h : RegsCanonical d) (feid g n) : RegsCanonical (d.reduceNack feid g n) := by
  unfold reduceNack
  grind [bump_canon, sendResult_canon]

theorem Dev.ackIn_canon {d : Dev} (h : RegsCanonical d) (src p) : RegsCanonical (d.ackIn src p) := by
  unfold ackIn
  grind [ctrlIn_canon, reduceAck_canon]

theorem Dev.nackIn_canon {d : Dev} (h : RegsCanonical d) (src p) : RegsCanonical (d.nackIn src p) := by
  unfold nackIn
  grind [ctrlIn_canon, reduceNack_canon]

theorem Dev.sendRegister_canon {d : Dev} (h : RegsCanonical d) (g desc contribs) : RegsCanonical (d.sendRegister g desc contribs) := by
  unfold sendRegister
  grind [each_canon, sendRegistry_canon]

theorem Dev.refused_canon {d : Dev} (h : RegsCanonical d) (g reason) : RegsCanonical (d.refused g reason) := outcome_canon h ..

theorem Dev.activateAt_canon {d : Dev} (h : RegsCanonical d) (g tick) : RegsCanonical (d.activateAt g tick) := h

theorem Dev.readmitAt_canon {d : Dev} (h : RegsCanonical d) (g tick idx) : RegsCanonical (d.readmitAt g tick idx) :=
  outcome_canon (modYar_canon h ..) ..

theorem Dev.joinGroup_canon {d : Dev} (h : RegsCanonical d) (g desc contribs) : RegsCanonical (d.joinGroup g desc contribs).2 := by
  unfold joinGroup
  grind [leaveRung_canon, setEnt_canon, setInst_canon]

theorem Dev.registrationFails_canon {d : Dev} (h : RegsCanonical d) (g reason) : RegsCanonical (d.registrationFails g reason) := by
  unfold registrationFails
  grind [removeAt_canon, sendRegistry_canon]

theorem Dev.answered_canon {d : Dev} (h : RegsCanonical d) (g sw reason) : RegsCanonical (d.answered g sw reason) := by
  unfold answered
  grind [activateAt_canon, registrationFails_canon, sendRegistry_canon, setEnt_canon]

theorem Dev.masterRegister_canon {d : Dev} (h : RegsCanonical d) (g desc contribs) : RegsCanonical (d.masterRegister g desc contribs) := by
  unfold masterRegister
  split
  · exact refused_canon (sendRegistry_canon h _) _ _
  · have hj := joinGroup_canon (sendRegister_canon h g desc contribs) g desc contribs
    extract_lets d₁
    split <;> next e =>
      rw [e] at hj
      first | exact answered_canon hj _ _ _ | exact hj

theorem Dev.masterChange_canon {d : Dev} (h : RegsCanonical d) (op g reason idx) : RegsCanonical (d.masterChange op g reason idx) := by
  unfold masterChange
  grind [readmitAt_canon, refused_canon, removeAt_canon, sendRegistry_canon]

theorem Dev.groupCmd_canon {d : Dev} (h : RegsCanonical d) (acc v) {d' : Dev} (e' : d.groupCmd acc v = some d') : RegsCanonical d' := by
  unfold groupCmd at e'
  grind [masterChange_canon, masterRegister_canon, refused_canon, sendRegister_canon, sendRegistry_canon, setShown_canon]

theorem Dev.takeRegistry_canon {d : Dev} (h : RegsCanonical d) (port src m) : RegsCanonical (d.takeRegistry port src m).2 := by
  unfold takeRegistry
  grind [ctrlDrop_canon, flood_canon, noteRegistry_canon]

theorem Dev.onRegister_canon {d : Dev} (h : RegsCanonical d) (src m) : RegsCanonical (d.onRegister src m) := by
  unfold onRegister
  grind [answered_canon, joinGroup_canon, masterRegister_canon, modYar_canon, sendRegistry_canon]

theorem Dev.onRegistry_canon {d : Dev} (h : RegsCanonical d) (src m) : RegsCanonical (d.onRegistry src m) := by
  unfold onRegistry
  grind [activateAt_canon, answered_canon, masterChange_canon, onRegister_canon, readmitAt_canon, refused_canon, removeAt_canon]

theorem Dev.registry_canon {d : Dev} (h : RegsCanonical d) (port src m) : RegsCanonical (d.registry port src m) := by
  unfold registry
  grind [onRegistry_canon, takeRegistry_canon]

theorem Dev.answerTimeout_canon {d : Dev} (h : RegsCanonical d) (g) : RegsCanonical (d.answerTimeout g) := by
  unfold answerTimeout
  grind [outcome_canon, registrationFails_canon]

theorem Dev.groupTick_canon {d : Dev} (h : RegsCanonical d) (g) : RegsCanonical (d.groupTick g) := by
  unfold groupTick
  grind [freeJournal_canon, modYar_canon, outcome_canon, setShown_canon]

/-! ### `Machine/Commit` -/

theorem Dev.modCommit_canon {d : Dev} (h : RegsCanonical d) (f) : RegsCanonical (d.modCommit f) := h

theorem Dev.noteCommit_canon {d : Dev} (h : RegsCanonical d) (src m) : RegsCanonical (d.noteCommit src m) := h

theorem Dev.sendCommit_canon {d : Dev} (h : RegsCanonical d) (m) : RegsCanonical (d.sendCommit m) := flood_canon (noteCommit_canon h ..) ..

theorem Dev.takeCommit_canon {d : Dev} (h : RegsCanonical d) (port src m) : RegsCanonical (d.takeCommit port src m).2 := by
  unfold takeCommit
  grind [ctrlDrop_canon, flood_canon, noteCommit_canon]

theorem Dev.aborted_canon {d : Dev} (h : RegsCanonical d) (reason) : RegsCanonical (d.aborted reason) :=
  setReg_canon (setReg_canon (setReg_canon h ..) ..) ..

theorem Dev.masterAbort_canon {d : Dev} (h : RegsCanonical d) (reason) : RegsCanonical (d.masterAbort reason) :=
  aborted_canon (modCommit_canon (sendCommit_canon h ..) ..) ..

theorem Dev.tryAnnounce_canon {d : Dev} (h : RegsCanonical d) : RegsCanonical d.tryAnnounce := by
  unfold tryAnnounce
  grind [modCommit_canon, sendCommit_canon, setReg_canon]

theorem Dev.onReady_canon {d : Dev} (h : RegsCanonical d) (sw m) : RegsCanonical (d.onReady sw m) := by
  unfold onReady
  grind [modCommit_canon, tryAnnounce_canon]

theorem Dev.onNotReady_canon {d : Dev} (h : RegsCanonical d) (m) : RegsCanonical (d.onNotReady m) := by
  unfold onNotReady
  grind [masterAbort_canon, sendCommit_canon]

theorem Dev.prepare_canon {d : Dev} (h : RegsCanonical d) (seq) : RegsCanonical (d.prepare seq).2 := by
  unfold prepare
  grind [modCommit_canon, setReg_canon]

theorem Dev.masterCommit_canon {d : Dev} (h : RegsCanonical d) (own) : RegsCanonical (d.masterCommit own) := by
  unfold masterCommit
  grind [bump_canon, modCommit_canon, onNotReady_canon, onReady_canon, prepare_canon, sendCommit_canon, setReg_canon]

theorem Dev.commitCmd_canon {d : Dev} (h : RegsCanonical d) : RegsCanonical d.commitCmd := by
  unfold commitCmd
  grind [aborted_canon, masterCommit_canon, modCommit_canon, sendCommit_canon, setReg_canon]

theorem Dev.onPrepare_canon {d : Dev} (h : RegsCanonical d) (src m) : RegsCanonical (d.onPrepare src m) := by
  unfold onPrepare
  grind [masterCommit_canon, modCommit_canon, prepare_canon, sendCommit_canon]

theorem Dev.onAnnounce_canon {d : Dev} (h : RegsCanonical d) (src m) : RegsCanonical (d.onAnnounce src m) := by
  unfold onAnnounce
  grind [modCommit_canon, setReg_canon]

theorem Dev.onAbort_canon {d : Dev} (h : RegsCanonical d) (src m) : RegsCanonical (d.onAbort src m) := by
  unfold onAbort
  grind [aborted_canon, bump_canon, modCommit_canon, setReg_canon]

theorem Dev.onDirty_canon {d : Dev} (h : RegsCanonical d) (src m) : RegsCanonical (d.onDirty src m) := by
  unfold onDirty
  grind [fenceOwn_canon, fresh_canon, modCommit_canon]

theorem Dev.commitIn_canon {d : Dev} (h : RegsCanonical d) (port src m f) (hf : ∀ d, RegsCanonical d → RegsCanonical (f d)) :
    RegsCanonical (d.commitIn port src m f) := by
  unfold commitIn
  grind [takeCommit_canon]

theorem Dev.answerLate_canon {d : Dev} (h : RegsCanonical d) : RegsCanonical d.answerLate := by
  unfold answerLate
  grind [masterAbort_canon]

theorem Dev.freezeLate_canon {d : Dev} (h : RegsCanonical d) : RegsCanonical d.freezeLate := by
  unfold freezeLate
  grind [aborted_canon]

theorem Dev.applyTables_canon {d : Dev} (h : RegsCanonical d) (t) : RegsCanonical (d.applyTables t) := by
  unfold applyTables
  grind [each_canon, holdRebuild_canon, modGroup_canon, setReg_canon, setSg_canon]

theorem Dev.unfence_canon {d : Dev} (h : RegsCanonical d) (c) : RegsCanonical (d.unfence c) := by
  unfold unfence
  grind [event_canon, fence_canon, fresh_canon, setReg_canon]

theorem Dev.reweigh_canon {d : Dev} (h : RegsCanonical d) (c old) : RegsCanonical (d.reweigh c old) := h

theorem Dev.applyComps_canon {d : Dev} (h : RegsCanonical d) (isCommit) : RegsCanonical (d.applyComps isCommit) := by
  unfold applyComps
  grind [each_canon, endJob_canon, modTiers_canon, retestWaits_canon, reweigh_canon, setReg_canon, unfence_canon]

theorem Dev.applyCommit_canon {d : Dev} (h : RegsCanonical d) : RegsCanonical d.applyCommit := by
  unfold applyCommit
  grind [applyComps_canon, applyTables_canon, bump_canon, modCommit_canon, setReg_canon, regsCanonical_iff]

theorem Dev.resyncCmd_canon {d : Dev} (h : RegsCanonical d) : RegsCanonical d.resyncCmd := h

theorem Dev.applyResync_canon {d : Dev} (h : RegsCanonical d) : RegsCanonical d.applyResync := by
  unfold applyResync
  grind [applyComps_canon, applyTables_canon, modCommit_canon, setReg_canon]

theorem Dev.signUsage_canon {d : Dev} (h : RegsCanonical d) (c demand nonce) : RegsCanonical (d.signUsage c demand nonce) := by
  unfold signUsage
  extract_lets body rep t d₁ M d₂ r
  have h₁ : RegsCanonical d₁ := bump_canon (bump_canon (setReg_canon h _ _) _ _) _ _
  have h₂ : RegsCanonical d₂ := h₁.of_regs_eq rfl
  clear_value d₂
  split
  · exact h₂
  · exact sendKeyed_canon h₂ _

theorem Dev.usagePeriodic_canon {d : Dev} (h : RegsCanonical d) : RegsCanonical d.usagePeriodic := by
  unfold usagePeriodic
  grind [each_canon, signUsage_canon]

theorem Dev.usageDemand_canon {d : Dev} (h : RegsCanonical d) (acc) : RegsCanonical (d.usageDemand acc) := signUsage_canon h ..

/-! ### `Machine/Engines` -/

theorem QM.gatherIndex_keeps (e j) : Keeps (gatherIndex e j) := by
  unfold gatherIndex
  grind [keeps_pure, keeps_bind, readRaw_keeps]

theorem QM.elementFails_keeps (q e j s stores) : Keeps (elementFails q e j s stores) := by
  unfold elementFails
  grind [keeps_pure, keeps_bind, keeps_dev_bind, keeps_modDev, Dev.bump_canon, deliver_keeps, writeSectors_keeps, writeVa_keeps]

theorem QM.gatherStep_keeps (q e j spec) : Keeps (gatherStep q e j spec) := by
  unfold gatherStep
  extract_lets es zero count
  have hcount : ∀ r, Keeps (count r) := fun _ => keeps_modDev fun d h => Dev.bump_canon h _ _
  refine keeps_bind (gatherIndex_keeps e j) fun idx => ?_
  extract_lets read get
  have hread : ∀ r, Keeps (read r) := fun _ => by
    grind [keeps_fail, keeps_pure, readRaw_keeps]
  have hget : Keeps get := keeps_ite (keeps_bind (keeps_fail _) hread) (hread ())
  refine keeps_bind (keeps_tryCatch (keeps_bind hget fun _ => keeps_pure _) fun x => ?_) fun r => ?_
  · split
    · exact keeps_pure _
    · exact keeps_throw _
  extract_lets put
  have hput : ∀ b, Keeps (put b) := fun b => keeps_bind (putBytes_keeps ..) fun _ =>
    keeps_ite (keeps_bind (putBytes_keeps ..) hcount) (hcount ())
  split
  · exact keeps_bind (keeps_pure _) hput
  refine keeps_bind (keeps_modDev fun d h => Dev.bump_canon h _ _) fun _ => keeps_ite (keeps_bind (keeps_pure _) hput) ?_
  extract_lets stop
  have hstop : ∀ r, Keeps (stop r) := fun _ => keeps_bind (keeps_fail _) hput
  exact keeps_ite (keeps_dev_bind fun d hd => keeps_bind (elementFails_keeps ..) hstop) (hstop ())

theorem QM.filterStep_keeps (q e pos n) : Keeps (filterStep q e pos n) := by
  unfold filterStep
  extract_lets p i rb
  refine keeps_bind (readRaw_keeps ..) fun pd => ?_
  extract_lets rows
  have hrows : ∀ r, Keeps (rows r) := fun _ => by
    refine keeps_bind (readRaw_keeps ..) fun bs => keeps_dev_bind fun d hd => ?_
    extract_lets kept pass room total count
    have hcount : ∀ r, Keeps (count r) := fun _ => keeps_bind (modQuantum_keeps ..) fun _ => keeps_modDev fun d h =>
      Dev.bump_canon (Dev.bump_canon h _ _) _ _
    refine keeps_bind (keeps_forM _ fun x => ?_) fun _ => keeps_ite (keeps_bind (putBytes_keeps ..) hcount) (hcount ())
    extract_lets k number
    have hnumber : ∀ r, Keeps (number r) := fun _ => keeps_ite (putBytes_keeps ..) (keeps_pure _)
    exact keeps_ite (keeps_bind (putBytes_keeps ..) hnumber) (hnumber ())
  exact keeps_ite (keeps_bind (keeps_fail _) hrows) (hrows ())

theorem QM.decodeFirst_keeps (e blk waited held x) : Keeps (decodeFirst e blk waited held x) := by
  induction x with
  | nil => exact keeps_pure _
  | cons k ks ih =>
    unfold decodeFirst
    refine keeps_bind (streamBlock_keeps e k blk) fun b => ?_
    split
    · exact keeps_bind (keeps_modDev fun d h => Dev.bump_canon h _ _) fun _ => keeps_bind (expandBlock_keeps e k blk) fun _ => keeps_pure _
    · exact ih

theorem QM.decodeAhead_keeps (e w len blk waited held) : Keeps (decodeAhead e w len blk waited held) := by
  unfold decodeAhead
  grind [keeps_pure, keeps_bind, decodeFirst_keeps]

theorem Dev.modQuantum_canon {d : Dev} (h : RegsCanonical d) (u f) : RegsCanonical (d.modQuantum u f) := h

theorem Dev.gatherElement_canon {d : Dev} (h : RegsCanonical d) (q e index m) : RegsCanonical (gatherElement q e index m d).2 := by
  unfold gatherElement
  grind [attempt_canon, modQuantum_canon, QM.gatherStep_keeps]

theorem Dev.speculative_canon {d : Dev} (h : RegsCanonical d) (q e ahead ok m) : RegsCanonical (speculative q e ahead ok m d) := by
  unfold speculative
  grind [modQuantum_canon, trayReads_canon]

theorem Dev.filterRows_canon {d : Dev} (h : RegsCanonical d) (q rows first m) : RegsCanonical (filterRows q rows first m d).2 := by
  unfold filterRows
  grind [attempt_canon, modQuantum_canon, QM.filterStep_keeps]

theorem Dev.blockDecode_canon {d : Dev} (h : RegsCanonical d) (t nblk blk opLen waited held m) :
    RegsCanonical (blockDecode t nblk blk opLen waited held m d).2 := by
  unfold blockDecode
  grind [attempt_canon, QM.decodeAhead_keeps]

/-! ### `Machine/Erasure` -/

theorem Dev.rebuildStart_canon {d : Dev} (h : RegsCanonical d) (g m) : RegsCanonical (d.rebuildStart g m) := by
  unfold rebuildStart
  grind [assignSpare_canon, dropOp_canon, each_canon, pump_canon, setSg_canon]

theorem Dev.rebuildRestart_canon {d : Dev} (h : RegsCanonical d) (g) : RegsCanonical (d.rebuildRestart g) := by
  unfold rebuildRestart
  grind [assignSpare_canon, bump_canon, each_canon, modGroup_canon, setSg_canon]

theorem Dev.backStep_canon {d : Dev} (h : RegsCanonical d) (kind g no hm s) : RegsCanonical (d.backStep kind g no hm s) :=
  pump_canon (addOp_canon h ..) ..

theorem Dev.rebuildStripe_canon {d : Dev} (h : RegsCanonical d) (g i s) : RegsCanonical (d.rebuildStripe g i s) := by
  unfold rebuildStripe
  grind [backStep_canon, rebuildDone_canon]

theorem Dev.transRevert_canon {d : Dev} (h : RegsCanonical d) (i) : RegsCanonical (d.transRevert i) := by
  unfold transRevert
  grind [bump_canon, event_canon, setReg_canon]

theorem Dev.resync_canon {d : Dev} (h : RegsCanonical d) (g s i q ep) : RegsCanonical (d.resync g s i q ep) := by
  unfold resync
  grind [backStep_canon]

theorem Dev.askStepFence_canon {d : Dev} (h : RegsCanonical d) (c) {d' : Dev} (e' : d.askStepFence c = some d') : RegsCanonical d' := by
  unfold askStepFence at e'
  grind [regsCanonical_iff]

theorem Dev.stepFenceDone_canon {d : Dev} (h : RegsCanonical d) (c) : RegsCanonical (d.stepFenceDone c) := by
  unfold stepFenceDone
  grind [event_canon, setReg_canon, regsCanonical_iff]

theorem Dev.failMember_canon {d : Dev} (h : RegsCanonical d) (acc) {d' : Dev} (e' : d.failMember acc = some d') : RegsCanonical d' := by
  unfold failMember at e'
  grind [memberFailed_canon]

/-! ### `Machine/Health` -/

theorem Dev.setItem_canon {d : Dev} (h : RegsCanonical d) (i h0) : RegsCanonical (d.setItem i h0) := h

theorem Dev.scoreAll_canon {d : Dev} (h : RegsCanonical d) : RegsCanonical d.scoreAll := by
  unfold scoreAll
  grind [each_canon, setItem_canon]

theorem Dev.itemEvent_canon {d : Dev} (h : RegsCanonical d) (code i) : RegsCanonical (d.itemEvent code i) := event_canon h ..

theorem Dev.crossAll_canon {d : Dev} (h : RegsCanonical d) : RegsCanonical d.crossAll := by
  unfold crossAll
  grind [each_canon, itemEvent_canon, modHealth_canon, setItem_canon]

theorem Dev.systemicTest_canon {d : Dev} (h : RegsCanonical d) : RegsCanonical d.systemicTest := by
  unfold systemicTest
  grind [bump_canon, event_canon, modHealth_canon, setReg_canon]

theorem Dev.holdPort_canon {d : Dev} (h : RegsCanonical d) (p) : RegsCanonical (d.holdPort p) := by
  unfold holdPort
  grind [leaveActive_canon, modPort_canon, setItem_canon]

theorem Dev.expel_canon {d : Dev} (h : RegsCanonical d) (i) : RegsCanonical (d.expel i) := by
  unfold expel
  grind [bump_canon, each_canon, holdPort_canon, itemEvent_canon, modHealth_canon, sendRecovery_canon, setItem_canon]

theorem Dev.expelAll_canon {d : Dev} (h : RegsCanonical d) : RegsCanonical d.expelAll := by
  unfold expelAll
  grind [bump_canon, each_canon, expel_canon, itemEvent_canon, modHealth_canon, setItem_canon]

theorem Dev.healthEdge_canon {d : Dev} (h : RegsCanonical d) : RegsCanonical d.healthEdge := by
  unfold healthEdge
  grind [crossAll_canon, expelAll_canon, scoreAll_canon, systemicTest_canon, regsCanonical_iff]

theorem Dev.provisionalOver_canon {d : Dev} (h : RegsCanonical d) : RegsCanonical d.provisionalOver := by
  unfold provisionalOver
  grind [modHealth_canon]

theorem Dev.readmit_canon {d : Dev} (h : RegsCanonical d) (i) {d' : Dev} (e' : d.readmit i = some d') : RegsCanonical d' := by
  unfold readmit at e'
  grind [each_canon, modPort_canon, setItem_canon, untrained_canon]

/-! ### `Machine/Logs` -/

theorem Dev.deliver_canon {d : Dev} (h : RegsCanonical d) (h0 l) : RegsCanonical (d.deliver h0 l) := by
  unfold deliver
  grind [emit_canon, modHost_canon, modLog_canon, msix_canon, setReg_canon]

theorem Dev.evlogCons_canon {d : Dev} (h : RegsCanonical d) (h0 cons) : RegsCanonical (d.evlogCons h0 cons) := modHost_canon (setReg_canon h ..) ..

theorem Dev.flogConsSet_canon {d : Dev} (h : RegsCanonical d) (h0 cons) : RegsCanonical (d.flogConsSet h0 cons) :=
  modHost_canon (setReg_canon h ..) ..

/-! ### `Machine/HostPort` -/

theorem Dev.hostLinkUp_canon {d : Dev} (h : RegsCanonical d) (h0 width gen) : RegsCanonical (d.hostLinkUp h0 width gen) := by
  unfold hostLinkUp
  grind [modHost_canon, setPower_canon]

theorem Dev.hostReset_canon {d : Dev} (h : RegsCanonical d) (h0) : RegsCanonical (d.hostReset h0) := by
  unfold hostReset
  grind [endAccessor_canon, flushUnit_canon, modHost_canon, setReg_canon, regsCanonical_iff]

theorem Dev.sendDrop_canon {d : Dev} (h : RegsCanonical d) (h0) : RegsCanonical (d.sendDrop h0) := bump_canon h ..

theorem Dev.dropSlotOf_canon {d : Dev} (h : RegsCanonical d) (h0 slot) : RegsCanonical (d.dropSlotOf h0 slot) := modHost_canon h ..

theorem Dev.slotPacket_canon {d : Dev} (h : RegsCanonical d) (h0 slot p) : RegsCanonical (d.slotPacket h0 slot p) := by
  unfold slotPacket
  grind [ackIn_canon, cancelIn_canon, ingest_canon, modHost_canon, nackIn_canon, setReg_canon]

theorem Dev.takeSlot_canon {d : Dev} (h : RegsCanonical d) (h0 slot bs) : RegsCanonical (d.takeSlot h0 slot bs) := by
  unfold takeSlot
  grind [bump_canon, dropSlotOf_canon, modHost_canon, sendDrop_canon, slotPacket_canon]

theorem Dev.slotWrite_canon {d : Dev} (h : RegsCanonical d) (h0 slot off data) : RegsCanonical (d.slotWrite h0 slot off data) := by
  unfold slotWrite
  grind [sendDrop_canon, takeSlot_canon]

theorem Dev.ringWrite_canon {d : Dev} (h : RegsCanonical d) (h0) : RegsCanonical (d.ringWrite h0) := by
  unfold ringWrite
  grind [consume_canon, countOut_canon, emit_canon, modHost_canon, msix_canon, setReg_canon]

theorem Dev.ringCons_canon {d : Dev} (h : RegsCanonical d) (n cons) : RegsCanonical (d.ringCons n cons) := modHost_canon (setReg_canon h ..) ..

theorem Dev.unmask_canon {d : Dev} (h : RegsCanonical d) (h0 v) : RegsCanonical (d.unmask h0 v) := by
  unfold unmask
  grind [emit_canon, modHost_canon]

/-! ### `Machine/Power` -/

theorem Dev.reportBist_canon {d : Dev} (h : RegsCanonical d) (failed) : RegsCanonical (d.reportBist failed) := by
  unfold reportBist
  grind [bump_canon, each_canon, event_canon, modHealth_canon, setReg_canon]

theorem Dev.bistDone_canon {d : Dev} (h : RegsCanonical d) (failed) : RegsCanonical (d.bistDone failed) := by
  unfold bistDone
  grind [each_canon, evalLevels_canon, leaveActive_canon, reassign_canon, reportBist_canon, sendBist_canon, setPower_canon, stackFailed_canon]

theorem Dev.bistCmd_canon {d : Dev} (h : RegsCanonical d) (v) {d' : Dev} (e' : d.bistCmd v = some d') : RegsCanonical d' := by
  unfold bistCmd at e'
  grind [startBist_canon]

theorem Dev.bistPacket_canon {d : Dev} (h : RegsCanonical d) (port m run) : RegsCanonical (d.bistPacket port m run) := by
  unfold bistPacket
  grind [ctrlDrop_canon, modDom_canon, setPower_canon, startBist_canon, takeNotice_canon]

theorem Dev.bootStacks_canon {d : Dev} (h : RegsCanonical d) (b) : RegsCanonical (d.bootStacks b) := by
  unfold bootStacks
  grind [each_canon, setPower_canon, setReg_canon, showSysarea_canon]

theorem Dev.bootPools_canon {d : Dev} (h : RegsCanonical d) : RegsCanonical d.bootPools := h

theorem Dev.bootShares_canon {d : Dev} (h : RegsCanonical d) : RegsCanonical d.bootShares := setReg_canon (setReg_canon h ..) ..

theorem Dev.bootPorts_canon {d : Dev} (h : RegsCanonical d) : RegsCanonical d.bootPorts := by
  unfold bootPorts
  grind [each_canon, setReg_canon]

theorem Dev.bootDies_canon {d : Dev} (h : RegsCanonical d) (b) : RegsCanonical (d.bootDies b) := by
  unfold bootDies
  grind [each_canon, event_canon, modHealth_canon, setPower_canon]

theorem Dev.bootDomain_canon {d : Dev} (h : RegsCanonical d) : RegsCanonical d.bootDomain := h

theorem Dev.bootUp_canon {d : Dev} (h : RegsCanonical d) (f b) : RegsCanonical (bootUp f d b) := by
  unfold bootUp
  grind [bootDies_canon, bootDomain_canon, bootPools_canon, bootPorts_canon, bootSecurity_canon, bootShares_canon, bootStacks_canon, evalLevels_canon,
      event_canon, freshBytes_canon, modHealth_canon, reportBist_canon, setPower_canon, setReg_canon]

theorem Dev.tryBoot_canon {d : Dev} (h : RegsCanonical d) (f b) : RegsCanonical (tryBoot f d b) := by
  unfold tryBoot
  grind [bootUp_canon, setPower_canon]

theorem Dev.powerOn_canon {d : Dev} (h : RegsCanonical d) (mV b f m) : RegsCanonical (powerOn mV b f m d).2.2 := by
  unfold powerOn
  grind [cold_canon, setPower_canon, tryBoot_canon]

theorem Dev.modReset_canon {d : Dev} (h : RegsCanonical d) (low b f m) : RegsCanonical (modReset low b f m d).2.2 := by
  unfold modReset
  grind [cold_canon, setPower_canon, tryBoot_canon]

theorem Dev.resetBegin_canon {d : Dev} (h : RegsCanonical d) (b f m) : RegsCanonical (resetBegin b f m d).2.2 := by
  unfold resetBegin
  grind [cold_canon, tryBoot_canon, warm_canon]

theorem Dev.resetCmd_canon {d : Dev} (h : RegsCanonical d) (v) {d' : Dev} (e' : d.resetCmd v = some d') : RegsCanonical d' := by
  unfold resetCmd at e'
  grind [requestReset_canon]

theorem Dev.trainTimeout_canon {d : Dev} (h : RegsCanonical d) (s) : RegsCanonical (d.trainTimeout s) := by
  unfold trainTimeout
  grind [stackFailed_canon]

theorem Dev.setSupply_canon {d : Dev} (h : RegsCanonical d) (f) : RegsCanonical (d.setSupply f) := setReg_canon h ..

theorem Dev.orderlyStop_canon {d : Dev} (h : RegsCanonical d) (code reason m) : RegsCanonical (orderlyStop code reason m d).2 := by
  unfold orderlyStop
  grind [dyingNow_canon, evalLevels_canon, event_canon, setSupply_canon]

theorem Dev.dipStart_canon {d : Dev} (h : RegsCanonical d) (mV) : RegsCanonical (d.dipStart mV) := by
  unfold dipStart
  grind [setSupply_canon]

theorem Dev.napTiles_canon {d : Dev} (h : RegsCanonical d) : RegsCanonical d.napTiles := h

theorem Dev.dipClassB_canon {d : Dev} (h : RegsCanonical d) : RegsCanonical d.dipClassB := by
  unfold dipClassB
  grind [event_canon, napTiles_canon, setSupply_canon]

theorem Dev.dipEnd_canon {d : Dev} (h : RegsCanonical d) (mV) : RegsCanonical (d.dipEnd mV) := by
  unfold dipEnd
  grind [bump_canon, event_canon, setSupply_canon]

theorem Dev.supplyStop_canon {d : Dev} (h : RegsCanonical d) (m) : RegsCanonical (supplyStop m d).2 := by
  unfold supplyStop
  grind [orderlyStop_canon, setSupply_canon]

theorem Dev.overvoltage_canon {d : Dev} (h : RegsCanonical d) (mV m) : RegsCanonical (overvoltage mV m d).2 := by
  unfold overvoltage
  grind [bump_canon, orderlyStop_canon, setSupply_canon]

theorem Dev.thermalTrip_canon {d : Dev} (h : RegsCanonical d) (die celsius m) : RegsCanonical (thermalTrip die celsius m d).2 := by
  unfold thermalTrip
  grind [orderlyStop_canon]

theorem Dev.moveRef_canon {d : Dev} (h : RegsCanonical d) (b) : RegsCanonical (d.moveRef b) := event_canon (bump_canon (setPower_canon h ..) ..) ..

theorem Dev.refSwitch_canon {d : Dev} (h : RegsCanonical d) : RegsCanonical d.refSwitch := by
  unfold refSwitch
  grind [moveRef_canon, setPower_canon]

theorem Dev.refLost_canon {d : Dev} (h : RegsCanonical d) : RegsCanonical d.refLost := by
  unfold refLost
  grind [each_canon, event_canon, portsDown_canon, setPower_canon]

theorem Dev.refReturn_canon {d : Dev} (h : RegsCanonical d) (b f) : RegsCanonical (refReturn b f d) := by
  unfold refReturn
  grind [moveRef_canon, setPower_canon, tryBoot_canon]

theorem Dev.refPref_canon {d : Dev} (h : RegsCanonical d) (v) {d' : Dev} (e' : d.refPref v = some d') : RegsCanonical d' := by
  unfold refPref at e'
  grind [moveRef_canon, setReg_canon]

theorem Dev.pcieLoss_canon {d : Dev} (h : RegsCanonical d) (h0) : RegsCanonical (d.pcieLoss h0) := hostReset_canon (setPower_canon h ..) ..

theorem Dev.quadDown_canon {d : Dev} (h : RegsCanonical d) (q) : RegsCanonical (d.quadDown q) := by
  unfold quadDown
  grind [dyingNow_canon, each_canon, evalLevels_canon, event_canon, moveSysarea_canon, setPower_canon, setReg_canon, regsCanonical_iff]

theorem Dev.quadUp_canon {d : Dev} (h : RegsCanonical d) (q) : RegsCanonical (d.quadUp q) := by
  unfold quadUp
  grind [each_canon, evalLevels_canon, modPort_canon, setPower_canon, setReg_canon, showSysarea_canon]

theorem Dev.quadOffWrite_canon {d : Dev} (h : RegsCanonical d) (v) {d' : Dev} (e' : d.quadOffWrite v = some d') : RegsCanonical d' := by
  unfold quadOffWrite at e'
  grind [each_canon, quadDown_canon, quadUp_canon, setReg_canon]

theorem Dev.rungEntry_canon {d : Dev} (h : RegsCanonical d) (domain unit) : RegsCanonical (d.rungEntry domain unit) := by
  unfold rungEntry
  grind [clearScratch_canon, setPower_canon, setReg_canon, regsCanonical_iff]

theorem Dev.rungWake_canon {d : Dev} (h : RegsCanonical d) (domain unit) : RegsCanonical (d.rungWake domain unit) := by
  unfold rungWake
  grind [leaveRung_canon, wakeTile_canon, regsCanonical_iff]

/-! ### `Machine/Speedwell` -/

theorem Dev.modPlan_canon {d : Dev} (h : RegsCanonical d) (s f) : RegsCanonical (d.modPlan s f) := h

theorem Dev.planRead_canon {d : Dev} (h : RegsCanonical d) (base m) : RegsCanonical (planRead base m d).2.2 := by
  unfold planRead
  extract_lets part f
  have hpart (off n) : (part off n).Keeps := by
    refine QM.keeps_atL2 fun m d h => ?_
    split
    · exact h
    · have hr := l2ReadAt_canon h off n m
      split <;> next e => rwa [e] at hr
  have hf : QM.Keeps f := by
    refine QM.keeps_bind (hpart _ _) fun a => ?_
    split
    · exact QM.keeps_pure _
    · exact QM.keeps_bind (hpart _ _) fun _ => QM.keeps_pure _
  exact hf.run (m, d) h

theorem Dev.planTaken_canon {d : Dev} (h : RegsCanonical d) (s head recs) : RegsCanonical (d.planTaken s head recs) := by
  unfold planTaken
  grind [modPlan_canon]

theorem Dev.planStep_canon {d : Dev} (h : RegsCanonical d) (s m) : RegsCanonical (planStep s m d).2 := by
  unfold planStep
  grind [modPlan_canon, modTiers_canon, planRead_canon, planTaken_canon]

theorem Dev.planLoad_canon {d : Dev} (h : RegsCanonical d) (m s) : RegsCanonical (planLoad m d s) := by
  unfold planLoad
  grind [modPlan_canon, planStep_canon]

theorem Dev.planCmd_canon {d : Dev} (h : RegsCanonical d) (m s v) {d' : Dev} (e' : planCmd m d s v = some d') : RegsCanonical d' := by
  unfold planCmd at e'
  grind [modPlan_canon, planLoad_canon]

theorem Dev.planEdge_canon {d : Dev} (h : RegsCanonical d) (s) : RegsCanonical (d.planEdge s) := by
  unfold planEdge
  grind [modPlan_canon]

theorem Dev.planActivate_canon {d : Dev} (h : RegsCanonical d) (s m) : RegsCanonical (planActivate s m d).2 := by
  unfold planActivate
  grind [planEdge_canon, planStep_canon]

theorem Dev.backRead_canon {d : Dev} (h : RegsCanonical d) (k i comp da len) : RegsCanonical (d.backRead k i comp da len) := by
  unfold backRead
  grind [homeAccess_canon, modNode_canon]

theorem QM.backVa_keeps (k i ctx va n) : Keeps (backVa k i ctx va n) := by
  unfold backVa
  refine keeps_bind (keeps_mapM _ fun x => ?_) fun ps => keeps_dev_bind fun d hd => ?_
  · refine keeps_bind (keeps_atL2 fun m d h => Dev.readPte_canon h _ m) fun pte => ?_
    extract_lets t jp
    have hjp : ∀ r, Keeps (jp r) := fun _ => keeps_bind (keeps_check (fun d c t a h => Dev.xlatCheck_canon h c t a) ..) fun _ => keeps_pure _
    exact keeps_ite (keeps_bind (keeps_fail _) hjp) (hjp ())
  · extract_lets due jp
    have hjp : ∀ r, Keeps (jp r) := fun _ => by
      refine keeps_bind (keeps_mapM _ fun x => ?_) fun bs => keeps_pure _
      split
      · split
        · exact keeps_pure _
        · exact keeps_fail _
      · exact keeps_dev_bind fun d hd => keeps_atL2 fun m d h => Dev.l2ReadAt_canon h _ _ m
    exact keeps_ite (keeps_bind (keeps_throw _) hjp) (hjp ())

theorem QM.backBytes_keeps (k i p) : Keeps (backBytes k i p) := by
  unfold backBytes
  grind [keeps_pure, keeps_bind, backVa_keeps]

theorem Dev.handbackSend_canon {d : Dev} (h : RegsCanonical d) (k i bs) : RegsCanonical (d.handbackSend k i bs) := by
  unfold handbackSend
  grind [each_canon, failNode_canon, jobOutput_canon]

theorem Dev.handbackStep_canon {d : Dev} (h : RegsCanonical d) (k i m) : RegsCanonical (handbackStep k i m d).2 := by
  unfold handbackStep
  split
  · exact h
  · next j _ =>
    have hr := (QM.backBytes_keeps k i j.pkt.payload).run (m, d) h
    split <;> next e => 
      rw [e] at hr
      grind [handbackSend_canon, each_canon, backRead_canon, modTiers_canon]

theorem Dev.handback_canon {d : Dev} (h : RegsCanonical d) (k i m) : RegsCanonical (handback k i m d).2 :=
  handbackStep_canon (modNode_canon (bump_canon h ..) ..) ..

theorem Dev.waitLate_canon {d : Dev} (h : RegsCanonical d) (k i n) : RegsCanonical (d.waitLate k i n) := by
  unfold waitLate
  grind [bump_canon, modNode_canon]

theorem Dev.takeShadows_canon {d : Dev} (h : RegsCanonical d) (k i j swap) {d' : Dev} (e' : d.takeShadows k i j swap = some d') :
    RegsCanonical d' := by
  unfold takeShadows at e'
  grind [bump_canon, modJob_canon, modNode_canon]

theorem Dev.nodeLate_canon {d : Dev} (h : RegsCanonical d) (k i m) : RegsCanonical (nodeLate k i m d).2 := by
  unfold nodeLate
  split
  · exact h
  extract_lets p n ops slotsOf all notReady failed due
  clear_value failed
  split
  · exact h
  split
  · exact handbackStep_canon h _ _ _
  split
  · exact h
  split
  · exact failNode_canon h _ _ _
  split
  · exact h
  split
  · cases failed with
    | nil => exact waitLate_canon h _ _ _
    | cons s _ => exact failNode_canon h _ _ _
  · split
    · next e => exact takeShadows_canon h _ _ _ _ e
    · exact handback_canon h _ _ _
  · exact handback_canon h _ _ _

theorem Dev.contribRetry_canon {d : Dev} (h : RegsCanonical d) (k group chunk) : RegsCanonical (d.contribRetry k group chunk) := by
  unfold contribRetry
  grind [bump_canon, enterContribs_canon, modQuantum_canon]

theorem Dev.takeCancel_canon {d : Dev} (h : RegsCanonical d) (port m) : RegsCanonical (d.takeCancel port m).2 := by
  unfold takeCancel
  grind [ctrlDrop_canon, flood_canon, modJobs_canon]

theorem Dev.putClaim_canon {d : Dev} (h : RegsCanonical d) (comp m st) : RegsCanonical (d.putClaim comp m st) := by
  unfold putClaim
  grind [modJobs_canon]

theorem Dev.answerGrant_canon {d : Dev} (h : RegsCanonical d) (m) : RegsCanonical (d.answerGrant m) := bump_canon (sendCancel_canon h ..) ..

theorem Dev.answerDeny_canon {d : Dev} (h : RegsCanonical d) (m) : RegsCanonical (d.answerDeny m) := bump_canon (sendCancel_canon h ..) ..

theorem Dev.arbNotify_canon {d : Dev} (h : RegsCanonical d) (comp m) : RegsCanonical (d.arbNotify comp m) := by
  unfold arbNotify
  grind [answerDeny_canon, answerGrant_canon, putClaim_canon]

theorem Dev.arbClaim_canon {d : Dev} (h : RegsCanonical d) (comp m) : RegsCanonical (d.arbClaim comp m) := by
  unfold arbClaim
  grind [answerDeny_canon, answerGrant_canon, endJob_canon, putClaim_canon]

theorem Dev.backupGo_canon {d : Dev} (h : RegsCanonical d) (k) : RegsCanonical (d.backupGo k) := by
  unfold backupGo
  grind [each_canon, enterContribs_canon, freeJob_canon, modJob_canon, sendKeyed_canon]

theorem Dev.backupAnswer_canon {d : Dev} (h : RegsCanonical d) (comp m go) : RegsCanonical (d.backupAnswer comp m go) := by
  unfold backupAnswer
  grind [backupGo_canon, endJob_canon]

theorem Dev.claimTimeout_canon {d : Dev} (h : RegsCanonical d) (k) : RegsCanonical (d.claimTimeout k) := by
  unfold claimTimeout
  grind [backupGo_canon, bump_canon]

theorem Dev.claimExpire_canon {d : Dev} (h : RegsCanonical d) (comp reply work) : RegsCanonical (d.claimExpire comp reply work) := h

/-! ### `Machine/Dict` -/

theorem World.onDev_canon {w : World} (h : RegsCanonical w.dev) (f) (hf : ∀ d, RegsCanonical d → RegsCanonical (f d)) :
    RegsCanonical (w.onDev f).dev := by
  unfold onDev
  grind []

theorem Dev.pbMode_canon {d : Dev} (h : RegsCanonical d) (b v) : RegsCanonical (d.pbMode b v) := by
  unfold pbMode
  grind [each_canon, leaveActive_canon, setReg_canon, showTrained_canon]

theorem Dev.portEnable_canon {d : Dev} (h : RegsCanonical d) (p v) : RegsCanonical (d.portEnable p v) := by
  unfold portEnable
  grind [leaveActive_canon, setReg_canon, untrained_canon]

theorem Dev.portConfig_canon {d : Dev} (h : RegsCanonical d) (k v) : RegsCanonical (d.portConfig k v) := by
  unfold portConfig
  grind [leaveActive_canon, setReg_canon]

theorem Dev.domainEntry_canon {d : Dev} (h : RegsCanonical d) (k v) : RegsCanonical (d.domainEntry k v) := by
  unfold domainEntry
  grind [modDom_canon, placeLost_canon, recheckPeers_canon, setReg_canon]

theorem Dev.lockWrite_canon {d : Dev} (h : RegsCanonical d) (acc v) {d' : Dev} (e' : d.lockWrite acc v = some d') : RegsCanonical d' := by
  unfold lockWrite at e'
  grind [setReg_canon]

theorem Dev.bar2Entry_canon {d : Dev} (h : RegsCanonical d) (acc k v) : RegsCanonical (d.bar2Entry acc k v) := by
  unfold bar2Entry
  grind [setReg_canon]

theorem Dev.acts_keep : ∀ a ∈ actsA ++ actsC ++ actsB, ∀ m acc k v {d d' : Dev}, RegsCanonical d → a.2 m acc k v d = some d' → RegsCanonical d' := by
  simp only [actsA, actsC, actsB, List.cons_append, List.nil_append, List.forall_mem_cons]
  and_intros
  all_goals intros
  all_goals grind [→ lockWrite_canon, pbMode_canon, portEnable_canon, portConfig_canon, domainEntry_canon, ringCons_canon, bar2Entry_canon, →
      ctxWrite_canon, askInval_canon, flogConsSet_canon, faultResp_canon, setReg_canon, hotOff_canon, teaselOn_canon, → libActivate_canon, →
      groupCmd_canon, → planCmd_canon, → failMember_canon, → askStepFence_canon, → slotCmd_canon, evlogCons_canon, → readmit_canon, commitCmd_canon,
      resyncCmd_canon, usageDemand_canon, → refPref_canon, → resetCmd_canon, → bistCmd_canon]

theorem Dev.writeVal_canon {d : Dev} (h : RegsCanonical d) (m acc k v) {d' : Dev} (e' : writeVal m acc k v d = some d') : RegsCanonical d' := by
  unfold writeVal at e'
  split at e'
  · cases e'
  split at e'
  · next f e => exact acts_keep _ (List.mem_of_find?_eq_some e) m acc k v h e'
  · exact Option.some.inj e' ▸ setAs_canon h _ _ _

theorem World.writeVal_canon {w : World} (h : RegsCanonical w.dev) (acc k v) {w' : World} (e' : w.writeVal acc k v = some w') :
    RegsCanonical w'.dev := by
  unfold writeVal at e'
  split at e'
  · split at e'
    · cases e'
    · exact Option.some.inj e' ▸ Dev.svnCommit_canon h _ _
  split at e'
  · exact Option.some.inj e' ▸ Dev.takeToken_canon h _ _ _
  split at e'
  · exact Option.some.inj e' ▸ h
  split at e' <;> obtain ⟨d, e, rfl⟩ := Option.map_eq_some_iff.1 e'
  · exact Dev.quadOffWrite_canon h _ e
  · exact Dev.writeVal_canon h _ _ _ _ e

theorem World.tryWrite_canon {w : World} (h : RegsCanonical w.dev) (acc k v) : RegsCanonical (w.tryWrite acc k v).2.dev := by
  unfold tryWrite
  grind [→ writeVal_canon]

theorem World.setPart_canon {w : World} (h : RegsCanonical w.dev) (k p) : RegsCanonical (w.setPart k p).dev := h

theorem World.writePart_canon {w : World} (h : RegsCanonical w.dev) (acc k off size data) :
    RegsCanonical (w.writePart acc k off size data).2.dev := by
  unfold writePart
  grind [setPart_canon, tryWrite_canon]

theorem World.writeAcc_canon {w : World} (h : RegsCanonical w.dev) (acc e data) : RegsCanonical (w.writeAcc acc e data).2.dev := by
  unfold writeAcc
  grind [Dev.wrote_canon, onDev_canon, setPart_canon, tryWrite_canon, writePart_canon]

theorem World.write_canon {w : World} (h : RegsCanonical w.dev) (acc e data) : RegsCanonical (w.write acc e data).dev := by
  unfold write
  grind [writeAcc_canon]

theorem World.writeWhole_canon {w : World} (h : RegsCanonical w.dev) (acc k v) : RegsCanonical (w.writeWhole acc k v).dev := by
  unfold writeWhole
  grind [Dev.wrote_canon, onDev_canon, tryWrite_canon]

theorem World.snapshot_canon {w : World} (h : RegsCanonical w.dev) (acc k off e) : RegsCanonical (w.snapshot acc k off e).2.dev := by
  unfold snapshot
  grind [Dev.modMgmt_canon, onDev_canon]

theorem World.clearedRc_canon {d : Dev} (h : RegsCanonical d) (k) : RegsCanonical (clearedRc d k) := Dev.setReg_canon h ..

theorem World.readAcc_canon {w : World} (h : RegsCanonical w.dev) (acc r len) : RegsCanonical (w.readAcc acc r len).2.2.dev := by
  unfold readAcc
  grind [clearedRc_canon, onDev_canon, snapshot_canon]

/-! ### `Machine/Mgmt` -/

theorem Dev.cmpEnd_canon {d : Dev} (h : RegsCanonical d) (s) : RegsCanonical (d.cmpEnd s) := h

theorem Dev.watchdog_canon {d : Dev} (h : RegsCanonical d) : RegsCanonical d.watchdog := by
  unfold watchdog
  grind [bump_canon, cmpEnd_canon, each_canon, endAccessor_canon, modMgmt_canon, setReg_canon]

theorem Dev.restartDone_canon {d : Dev} (h : RegsCanonical d) : RegsCanonical d.restartDone := by
  unfold restartDone
  grind [evalLevels_canon, setReg_canon]

theorem Dev.cmpSlot_canon {d : Dev} (h : RegsCanonical d) (s f) : RegsCanonical (d.cmpSlot s f) := h

theorem Dev.cmpHello_canon {d : Dev} (h : RegsCanonical d) (m) : RegsCanonical (d.cmpHello m) := by
  unfold cmpHello
  grind [emit_canon, freshBytes_canon, fresh_canon, modMgmt_canon]

theorem Dev.cmpAccept_canon {d : Dev} (h : RegsCanonical d) (m) : RegsCanonical (d.cmpAccept m) := by
  unfold cmpAccept
  grind [bump_canon, cmpEnd_canon, cmpSlot_canon, emit_canon]

theorem Dev.takeCounter_canon {d : Dev} (h : RegsCanonical d) (s c) : RegsCanonical (d.takeCounter s c) := h

theorem Dev.cmpResp_canon {d : Dev} (h : RegsCanonical d) (s reqId status data new) : RegsCanonical (d.cmpResp s reqId status data new) := by
  unfold cmpResp
  grind [cmpSend_canon, cmpSlot_canon]

theorem Dev.cmpSubscribe_canon {d : Dev} (h : RegsCanonical d) (s c mask) : RegsCanonical (d.cmpSubscribe s c mask) := by
  unfold cmpSubscribe
  grind [cmpSlot_canon, takeCounter_canon]

theorem Dev.cmpClose_canon {d : Dev} (h : RegsCanonical d) (s c) : RegsCanonical (d.cmpClose s c) := by
  unfold cmpClose
  grind [cmpEnd_canon]

theorem Dev.cmpIdle_canon {d : Dev} (h : RegsCanonical d) (s) : RegsCanonical (d.cmpIdle s) := by
  unfold cmpIdle
  grind [cmpEnd_canon]

theorem World.cmpRequest_canon {w : World} (h : RegsCanonical w.dev) (s0 c reqId f) (hf : ∀ w : World, RegsCanonical w.dev → RegsCanonical (f
    w).2.2.dev) : RegsCanonical (w.cmpRequest s0 c reqId f).dev := by
  unfold cmpRequest
  grind [Dev.cmpResp_canon, Dev.takeCounter_canon, onDev_canon]

theorem World.mbDone_canon {w : World} (h : RegsCanonical w.dev) (h0 addr off len status buf) :
    RegsCanonical (w.mbDone h0 addr off len status buf).dev := Dev.msix_canon (Dev.modHost_canon h ..) ..

theorem World.mbRead_canon {w : World} (h : RegsCanonical w.dev) (h0 addr off len) : RegsCanonical (w.mbRead h0 addr off len).dev := by
  unfold mbRead
  grind [mbDone_canon, readAcc_canon]

theorem World.mbWrite_canon {w : World} (h : RegsCanonical w.dev) (h0 addr off data) : RegsCanonical (w.mbWrite h0 addr off data).dev := by
  unfold mbWrite
  grind [mbDone_canon, writeAcc_canon]

theorem World.smbusSelect_canon {w : World} (h : RegsCanonical w.dev) (e) : RegsCanonical (w.smbusSelect e).dev := by
  unfold smbusSelect
  grind [Dev.modMgmt_canon, onDev_canon]

theorem World.smbusRead_canon {w : World} (h : RegsCanonical w.dev) (len) : RegsCanonical (w.smbusRead len).dev := by
  unfold smbusRead
  grind [Dev.emit_canon, onDev_canon, readAcc_canon]

theorem World.consoleRead_canon {w : World} (h : RegsCanonical w.dev) (e len) : RegsCanonical (w.consoleRead e len).dev := by
  unfold consoleRead
  grind [Dev.emit_canon, onDev_canon, readAcc_canon]

theorem World.consoleWrite_canon {w : World} (h : RegsCanonical w.dev) (e data) : RegsCanonical (w.consoleWrite e data).dev := by
  unfold consoleWrite
  grind [Dev.emit_canon, onDev_canon, writeAcc_canon]

theorem World.readOut_canon {w : World} (h : RegsCanonical w.dev) (acc e len) : RegsCanonical (w.readOut acc e len).dev := by
  unfold readOut
  grind [Dev.emit_canon, onDev_canon, readAcc_canon]

theorem World.rcRead_canon {w : World} (h : RegsCanonical w.dev) (acc e) : RegsCanonical (w.rcRead acc e).dev := by
  unfold rcRead
  grind [readOut_canon]

/-! ### `Machine/Tick` -/

theorem Dev.meterEdge_canon {d : Dev} (h : RegsCanonical d) : RegsCanonical d.meterEdge := by
  unfold meterEdge
  grind [bump_canon, each_canon, regsCanonical_iff]

theorem Dev.refill_canon {d : Dev} (h : RegsCanonical d) : RegsCanonical d.refill := h

theorem Dev.laneRate_canon {d : Dev} (h : RegsCanonical d) (lane ser) : RegsCanonical (d.laneRate lane ser) := by
  unfold laneRate
  grind [laneFailed_canon, modPort_canon]

theorem Dev.linkEdge_canon {d : Dev} (h : RegsCanonical d) (m) : RegsCanonical (d.linkEdge m) := by
  unfold linkEdge
  grind [bump_canon, each_canon, laneRate_canon, sample_canon, regsCanonical_iff]

theorem Dev.countEdge_canon {d : Dev} (h : RegsCanonical d) (m) : RegsCanonical (d.countEdge m) := by
  unfold countEdge
  grind [bump_canon, each_canon]

theorem Dev.sensorEdge_canon {d : Dev} (h : RegsCanonical d) (m) : RegsCanonical (d.sensorEdge m) := by
  unfold sensorEdge
  grind [each_canon, setReg_canon, setSupply_canon]

theorem Dev.throttle_canon {d : Dev} (h : RegsCanonical d) (m) : RegsCanonical (d.throttle m) := by
  unfold throttle
  grind [bump_canon, event_canon, setPower_canon, setReg_canon]

theorem Dev.resumeTiles_canon {d : Dev} (h : RegsCanonical d) : RegsCanonical d.resumeTiles := by
  unfold resumeTiles
  grind [modCoh_canon, modJobs_canon, setPower_canon]

theorem Dev.noteUse_canon {d : Dev} (h : RegsCanonical d) (m) : RegsCanonical (d.noteUse m) := h

theorem Dev.dozeTiles_canon {d : Dev} (h : RegsCanonical d) : RegsCanonical d.dozeTiles := by
  unfold dozeTiles
  grind [setPower_canon]

theorem Dev.countTick_canon {d : Dev} (h : RegsCanonical d) : RegsCanonical d.countTick := by
  unfold countTick
  grind [acquire_canon, bump_canon, modDom_canon, setReg_canon]

theorem Dev.tickPulse_canon {d : Dev} (h : RegsCanonical d) : RegsCanonical d.tickPulse := by
  unfold tickPulse
  grind [emit_canon]

theorem Dev.domainEdge_canon {d : Dev} (h : RegsCanonical d) : RegsCanonical d.domainEdge := by
  unfold domainEdge
  grind [elect_canon, manage_canon, modDom_canon, phases_canon, sendBeacon_canon, sendMarker_canon]

theorem Dev.fenceEdge_canon {d : Dev} (h : RegsCanonical d) : RegsCanonical d.fenceEdge := h

theorem Dev.backEdge_canon {d : Dev} (h : RegsCanonical d) : RegsCanonical d.backEdge := h

theorem Dev.reportFailed_canon {d : Dev} (h : RegsCanonical d) : RegsCanonical d.reportFailed := by
  unfold reportFailed
  grind [each_canon, reportInst_canon]

theorem Dev.tickEdge_canon {d : Dev} (h : RegsCanonical d) (mem m) : RegsCanonical (d.tickEdge mem m) := by
  unfold tickEdge
  grind [backEdge_canon, countEdge_canon, countTick_canon, domainEdge_canon, dozeTiles_canon, fenceEdge_canon, fillReads_canon, giveSlots_canon,
      healthEdge_canon, linkEdge_canon, meterEdge_canon, noteUse_canon, refill_canon, reportFailed_canon, resumeTiles_canon, sensorEdge_canon,
      throttle_canon, tickPulse_canon, tryAnnounce_canon]

/-! ### `Machine/Tiers` -/

theorem Dev.scrub_canon {d : Dev} (h : RegsCanonical d) (st cancelled m) : RegsCanonical (scrub st cancelled m d).2 := by
  unfold scrub
  grind [bump_canon, modTiers_canon, L2State.take_canon, runL2_canon]

theorem Dev.fillResp_canon {d : Dev} (h : RegsCanonical d) (slot block status data m) : RegsCanonical (fillResp slot block status data m d).2 := by
  unfold fillResp
  split
  · exact h
  extract_lets put x bs base d₁ r
  have hput {d} (h : RegsCanonical d) (y) : RegsCanonical (put d y) := modTiers_canon h _
  split
  · exact hput h _
  split
  · have h₁ : RegsCanonical d₁ := hput (bump_canon h _ _) _
    have hr : RegsCanonical r.2 := runL2_canon h₁ _ _ fun s h =>
      foldl_keeps (fun s : L2State => RegsCanonical s.dev) _ (fun s i h => L2State.take_canon h _) h
    clear_value r
    exact fillReads_canon hr
  split
  · exact fillReads_canon (hput h _)
  · exact hput h _

theorem Dev.stageLate_canon {d : Dev} (h : RegsCanonical d) (comp reqId) : RegsCanonical (d.stageLate comp reqId) := by
  unfold stageLate
  grind [bump_canon, emit_canon, modTiers_canon]

end Sys2Proof.Machine
end

section
/-! SUPPORT. Every command's meaning keeps the dictionary canonical. -/

namespace Sys2Proof.Machine

/-- A meaning keeps the dictionary canonical: it leads from a canonical dictionary to nothing else. -/
def KeepsDict (x : State → Ans) : Prop := ∀ s t, RegsCanonical s.dev → x s = .next t → RegsCanonical t.dev

theorem onDev_keeps {f : Dev → Dev} (hf : ∀ d, RegsCanonical d → RegsCanonical (f d)) : KeepsDict (onDev f) := fun s t h e => by
  rw [onDev_next e]
  exact hf _ h

theorem onMem_keeps {f : Memory → Dev → Memory × Dev} (hf : ∀ m d, RegsCanonical d → RegsCanonical (f m d).2) : KeepsDict (onMem f) :=
  fun s t h e => by
    rw [onMem_next e]
    exact hf _ _ h

theorem onDevWith_keeps {f : Fuses → Memory → Dev → Dev} (hf : ∀ u m d, RegsCanonical d → RegsCanonical (f u m d)) : KeepsDict (onDevWith f) :=
  fun s t h e => by
    rw [onDevWith_next e]
    exact hf _ _ _ h

theorem onFuses_keeps {f : Fuses → Dev → Fuses × Dev} (hf : ∀ u d, RegsCanonical d → RegsCanonical (f u d).2) : KeepsDict (onFuses f) :=
  fun s t h e => by
    rw [onFuses_next e]
    exact hf _ _ h

theorem onAll_keeps {f : Fuses → Memory → Dev → Fuses × Memory × Dev} (hf : ∀ u m d, RegsCanonical d → RegsCanonical (f u m d).2.2) :
    KeepsDict (onAll f) := fun s t h e => by
  rw [onAll_next e]
  exact hf _ _ _ h

theorem onWorld_keeps {f : World → World} (hf : ∀ w : World, RegsCanonical w.dev → RegsCanonical (f w).dev) : KeepsDict (onWorld f) :=
  fun s t h e => by
    rw [onWorld_next e]
    exact hf _ h

/-! ### `Machine/Link` -/

theorem execDataFlit_keeps (port f) : KeepsDict (execDataFlit port f) := onDev_keeps fun _ h => Dev.dataFlit_canon h ..

theorem execIdleFlit_keeps (port f) : KeepsDict (execIdleFlit port f) := onDev_keeps fun _ h => Dev.plainFlit_canon h ..

theorem execAlignFlit_keeps (port lane skewNs f) : KeepsDict (execAlignFlit port lane skewNs f) :=
  onDev_keeps fun d h => by grind [Dev.alignFlitIn_canon]

theorem execTrainFlit_keeps (port t) : KeepsDict (execTrainFlit port t) := onDev_keeps fun _ h => Dev.trainFlit_canon h ..

theorem execLinkRetryTimeout_keeps (port) : KeepsDict (execLinkRetryTimeout port) := onDev_keeps fun _ h => Dev.retryTimeout_canon h ..

theorem execLaneFailed_keeps (port lane) : KeepsDict (execLaneFailed port lane) := onDev_keeps fun _ h => Dev.laneFailed_canon h ..

theorem execDegradeReq_keeps (port f) : KeepsDict (execDegradeReq port f) := onDev_keeps fun _ h => Dev.degradeReq_canon h ..

theorem execLaneSwitch_keeps (port mask) : KeepsDict (execLaneSwitch port mask) := onDev_keeps fun _ h => Dev.laneSwitch_canon h ..

theorem execLaneRepaired_keeps (port lane) : KeepsDict (execLaneRepaired port lane) := onDev_keeps fun _ h => Dev.laneRepaired_canon h ..

theorem execRestoreReq_keeps (port f) : KeepsDict (execRestoreReq port f) := onDev_keeps fun _ h => Dev.restoreReq_canon h ..

theorem execSignalDetected_keeps (port) : KeepsDict (execSignalDetected port) := onDev_keeps fun _ h => Dev.signalDetected_canon h ..

theorem execEqualizeDone_keeps (port passMask) : KeepsDict (execEqualizeDone port passMask) := onDev_keeps fun _ h => Dev.equalizeDone_canon h ..

theorem execLockDone_keeps (port polarity) : KeepsDict (execLockDone port polarity) := onDev_keeps fun _ h => Dev.lockDone_canon h ..

theorem execTrainingTimeout_keeps (port) : KeepsDict (execTrainingTimeout port) := onDev_keeps fun _ h => Dev.trainingTimeout_canon h ..

theorem execFlitSlot_keeps (port) : KeepsDict (execFlitSlot port) := onDev_keeps fun _ h => Dev.flitSlot_canon h ..

/-! ### `Machine/Teasel` -/

theorem execTeaselAuditStart_keeps (q) : KeepsDict (execTeaselAuditStart q) := onDev_keeps fun _ h => Dev.auditStart_canon h ..

theorem execTeaselAuditDone_keeps (q) : KeepsDict (execTeaselAuditDone q) := onDev_keeps fun _ h => Dev.auditDone_canon h ..

theorem execHotWindowEnd_keeps (q) : KeepsDict (execHotWindowEnd q) := onDev_keeps fun _ h => Dev.hotWindowEnd_canon h ..

/-! ### `Machine/Router` -/

theorem execWrite_keeps (src p) : KeepsDict (execWrite src p) := onDev_keeps fun d h => by grind [Dev.ingest_canon]

theorem execWritePosted_keeps (src p) : KeepsDict (execWritePosted src p) := onDev_keeps fun d h => by grind [Dev.ingest_canon]

theorem execRead_keeps (src p) : KeepsDict (execRead src p) := onDev_keeps fun d h => by grind [Dev.ingest_canon]

theorem execAtomic_keeps (src p) : KeepsDict (execAtomic src p) := onDev_keeps fun d h => by grind [Dev.ingest_canon]

theorem execMsg_keeps (src p) : KeepsDict (execMsg src p) := onDev_keeps fun d h => by grind [Dev.ingest_canon]

theorem execJobPost_keeps (src p) : KeepsDict (execJobPost src p) := onDev_keeps fun d h => by grind [Dev.ingest_canon]

theorem execJobResult_keeps (src p) : KeepsDict (execJobResult src p) := onDev_keeps fun d h => by grind [Dev.ingest_canon]

theorem execReduceContrib_keeps (src p) : KeepsDict (execReduceContrib src p) := onDev_keeps fun d h => by grind [Dev.ingest_canon]

theorem execReduceResult_keeps (src p) : KeepsDict (execReduceResult src p) := onDev_keeps fun d h => by grind [Dev.ingest_canon]

theorem execPacketAdmit_keeps (src turn) : KeepsDict (execPacketAdmit src turn) := onDev_keeps fun d h => by grind [Dev.retest_canon]

/-! ### `Machine/Fence` -/

theorem execRecoveryFence_keeps (port m0) : KeepsDict (execRecoveryFence port m0) :=
  onDev_keeps fun d h => by grind [Dev.ctrlTaken_canon, Dev.recoveryFence_canon]

theorem execRecoveryExpel_keeps (port m0) : KeepsDict (execRecoveryExpel port m0) :=
  onDev_keeps fun d h => by grind [Dev.ctrlTaken_canon, Dev.recoveryExpel_canon]

/-! ### `Machine/Home` -/

theorem execHomeRead_keeps (q) : KeepsDict (execHomeRead q) := onDev_keeps fun d h => by grind [Dev.homePlain_canon]

theorem execHomeWrite_keeps (q) : KeepsDict (execHomeWrite q) := onDev_keeps fun d h => by grind [Dev.homePlain_canon]

theorem execHomeAtomic_keeps (q) : KeepsDict (execHomeAtomic q) := onDev_keeps fun _ h => Dev.homeAtomic_canon h ..

theorem execResp_keeps (src p) : KeepsDict (execResp src p) := onDev_keeps fun d h => by grind [Dev.respIn_canon]

theorem execTrayResp_keeps (port p) : KeepsDict (execTrayResp port p) := onDev_keeps fun d h => by grind [Dev.respIn_canon]

theorem execMergeWindowClose_keeps (q line) : KeepsDict (execMergeWindowClose q line) := onDev_keeps fun _ h => Dev.windowClose_canon h ..

theorem execMergeWriteDone_keeps (q line) : KeepsDict (execMergeWriteDone q line) := onDev_keeps fun _ h => Dev.mergeDone_canon h ..

theorem execRequestRetryTimeout_keeps (q tray tag) : KeepsDict (execRequestRetryTimeout q tray tag) := onDev_keeps fun _ h => Dev.ownRetry_canon h ..

theorem execDedupStale_keeps (q src reqEpoch tag) : KeepsDict (execDedupStale q src reqEpoch tag) :=
  onDev_keeps fun d h => by grind [Dev.modHome_canon]

theorem execDedupFree_keeps (q src reqEpoch tag) : KeepsDict (execDedupFree q src reqEpoch tag) := onDev_keeps fun d h => by grind [Dev.modHome_canon]

theorem execStaleWindowEnd_keeps (q) : KeepsDict (execStaleWindowEnd q) := onDev_keeps fun d h => by grind [Dev.modHome_canon]

/-! ### `Machine/L2Serve` -/

theorem execHread_keeps (src off len found) : KeepsDict (execHread src off len found) :=
  onMem_keeps fun m d h => by grind [Dev.strike_canon, hreadAt_canon]

theorem execHwrite_keeps (src off data) : KeepsDict (execHwrite src off data) := onMem_keeps fun _ _ h => hwriteAt_canon h ..

theorem execHatom_keeps (src off aop awidth asigned operand) : KeepsDict (execHatom src off aop awidth asigned operand) :=
  onMem_keeps fun _ _ h => hatomAt_canon h ..

theorem execGets_keeps (agent line w0) : KeepsDict (execGets agent line w0) :=
  onMem_keeps fun m d h => by grind [Dev.strike_canon, L2State.request_canon, runL2_canon]

theorem execGetm_keeps (agent line w0 data) : KeepsDict (execGetm agent line w0 data) :=
  onMem_keeps fun m d h => by grind [Dev.strike_canon, L2State.request_canon, runL2_canon]

theorem execWfull_keeps (agent line ctx data) : KeepsDict (execWfull agent line ctx data) :=
  onMem_keeps fun m d h => by grind [L2State.request_canon, runL2_canon]

theorem execPute_keeps (agent line) : KeepsDict (execPute agent line) := onMem_keeps fun m d h => by grind [L2State.put_canon, runL2_canon]

theorem execPutm_keeps (agent line) : KeepsDict (execPutm agent line) := onMem_keeps fun m d h => by grind [L2State.put_canon, runL2_canon]

theorem execDirtyNotice_keeps (agent line data) : KeepsDict (execDirtyNotice agent line data) :=
  onMem_keeps fun m d h => by grind [L2State.dirty_canon, runL2_canon]

theorem execSnoopResponse_keeps (agent line) : KeepsDict (execSnoopResponse agent line) :=
  onMem_keeps fun m d h => by grind [L2State.snoopResponse_canon, runL2_canon]

theorem execInvalidationReceive_keeps (agent line) : KeepsDict (execInvalidationReceive agent line) :=
  onMem_keeps fun m d h => by grind [L2State.invReceive_canon, runL2_canon]

theorem execInvalidationApply_keeps (agent) : KeepsDict (execInvalidationApply agent) :=
  onMem_keeps fun m d h => by grind [L2State.invApply_canon, runL2_canon]

theorem execHeartbeat_keeps (agent slice) : KeepsDict (execHeartbeat agent slice) := onDev_keeps fun d h => by grind [Dev.modCoh_canon]

theorem execBar2Read_keeps (h0 addr len) : KeepsDict (execBar2Read h0 addr len) := onDev_keeps fun _ h => Dev.bar2Access_canon h ..

theorem execBar2Write_keeps (h0 addr data) : KeepsDict (execBar2Write h0 addr data) := onDev_keeps fun d h => by grind [Dev.bar2Access_canon]

theorem execBar2Unsupported_keeps (h0 addr len atomicOp) : KeepsDict (execBar2Unsupported h0 addr len atomicOp) :=
  onDev_keeps fun d h => by grind [Dev.emit_canon]

/-! ### `Machine/SwitchCore` -/

theorem execCrossbarGrant_keeps : KeepsDict execCrossbarGrant := onDev_keeps fun _ h => Dev.crossbar_canon h

/-! ### `Machine/PortDown` -/

theorem execPacketEgressDone_keeps (port cls uncorrectable) : KeepsDict (execPacketEgressDone port cls uncorrectable) :=
  onDev_keeps fun d h => by grind [Dev.egressDone_canon, Dev.egressUe_canon]

theorem execLossOfSignal_keeps (port) : KeepsDict (execLossOfSignal port) := onDev_keeps fun _ h => Dev.lossOfSignal_canon h ..

theorem execRetrainTimeout_keeps (port) : KeepsDict (execRetrainTimeout port) := onDev_keeps fun d h => by grind [Dev.leaveActive_canon]

theorem execDyingRcvd_keeps (port m0) : KeepsDict (execDyingRcvd port m0) := onDev_keeps fun _ h => Dev.dyingRcvd_canon h ..

theorem execDyingHoldEnd_keeps (port) : KeepsDict (execDyingHoldEnd port) := onDev_keeps fun d h => by grind [Dev.modPort_canon]

theorem execParamDone_keeps (port rttPs) : KeepsDict (execParamDone port rttPs) := onDev_keeps fun _ h => Dev.paramDone_canon h ..

theorem execPortActive_keeps (port) : KeepsDict (execPortActive port) := onDev_keeps fun _ h => Dev.portActive_canon h ..

theorem execRetrainDone_keeps (port) : KeepsDict (execRetrainDone port) := onDev_keeps fun _ h => Dev.retrained_canon h ..

/-! ### `Machine/Service` -/

theorem execStackFailed_keeps (st thermal) : KeepsDict (execStackFailed st thermal) :=
  onMem_keeps fun m d h => by grind [Dev.stackFailed_canon, failStacks_canon]

theorem execStackWake_keeps (st) : KeepsDict (execStackWake st) :=
  onMem_keeps fun m d h => by grind [Dev.modPower_canon, Dev.modTiers_canon, Dev.setReg_canon, L2State.retryAll_canon, runL2_canon]

theorem execDieHeartbeatTimeout_keeps (die) : KeepsDict (execDieHeartbeatTimeout die) := onDev_keeps fun _ h => Dev.dieFailed_canon h ..

theorem execAgentDead_keeps (agent) : KeepsDict (execAgentDead agent) := onMem_keeps fun _ _ h => Dev.agentDead_canon h ..

theorem execAgentReset_keeps (agent) : KeepsDict (execAgentReset agent) := onDev_keeps fun _ h => Dev.agentReset_canon h ..

theorem execAgentRejoined_keeps (agent passed) : KeepsDict (execAgentRejoined agent passed) := onDev_keeps fun _ h => Dev.agentRejoined_canon h ..

/-! ### `Machine/Translation` -/

theorem execPageWalkDone_keeps (q ctx page) : KeepsDict (execPageWalkDone q ctx page) := onMem_keeps fun _ _ h => Dev.walkDone_canon h ..

theorem execFaultRecordWrite_keeps (h0) : KeepsDict (execFaultRecordWrite h0) := onDev_keeps fun _ h => Dev.faultRecord_canon h ..

theorem execFaultRespRetry_keeps (h0 faultId) : KeepsDict (execFaultRespRetry h0 faultId) := onDev_keeps fun d h => by grind [Dev.respond_canon]

theorem execFaultRespAbort_keeps (h0 faultId status) : KeepsDict (execFaultRespAbort h0 faultId status) :=
  onDev_keeps fun d h => by grind [Dev.respond_canon]

theorem execFaultTimeout_keeps (h0 faultId) : KeepsDict (execFaultTimeout h0 faultId) := onDev_keeps fun _ h => Dev.faultTimeout_canon h ..

theorem execInvalReq_keeps (acc tag) : KeepsDict (execInvalReq acc tag) := onDev_keeps fun d h => by grind [Dev.askInval_canon, Dev.writeKey_canon]

theorem execTlbInvalidate_keeps : KeepsDict execTlbInvalidate := onDev_keeps fun _ h => Dev.invalEdge_canon h

theorem execInvalDrained_keeps : KeepsDict execInvalDrained := onDev_keeps fun _ h => Dev.invalDrained_canon h

theorem execCtxEntryWrite_keeps (acc entry) : KeepsDict (execCtxEntryWrite acc entry) :=
  onDev_keeps fun d h => by grind [Dev.orReject_canon, Dev.writeKey_canon, → Dev.ctxWrite_canon]

/-! ### `Machine/Jobs` -/

theorem execAcquireWaitMet_keeps (agent off cond width value) : KeepsDict (execAcquireWaitMet agent off cond width value) :=
  onMem_keeps fun _ _ h => Dev.acquireMet_canon h ..

theorem execAcquireWaitTimeout_keeps (agent) : KeepsDict (execAcquireWaitTimeout agent) := onDev_keeps fun _ h => Dev.acquireTimeout_canon h ..

theorem execReleaseComplete_keeps (agent line data) : KeepsDict (execReleaseComplete agent line data) := onDev_keeps fun _ h => Dev.release_canon h ..

theorem execJobAdmit_keeps (q) : KeepsDict (execJobAdmit q) := onDev_keeps fun d h => by grind [Dev.fillReads_canon, Dev.jobAdmit_canon]

theorem execQuantumStart_keeps (u0) : KeepsDict (execQuantumStart u0) := onMem_keeps fun m d h => by grind [Dev.startOn_canon]

theorem execQuantumComplete_keeps (u0 e) : KeepsDict (execQuantumComplete u0 e) :=
  onMem_keeps fun m d h => by grind [Dev.complete_canon, Dev.fillReads_canon, Dev.strike_canon]

theorem execQuantumOverrun_keeps (u0) : KeepsDict (execQuantumOverrun u0) := onDev_keeps fun d h => by grind [Dev.overrun_canon]

theorem execHalveRestore_keeps (q job) : KeepsDict (execHalveRestore q job) := onDev_keeps fun d h => by grind [Dev.halveRestore_canon]

theorem execJobTimeout_keeps (q job) : KeepsDict (execJobTimeout q job) := onDev_keeps fun d h => by grind [Dev.jobTimeout_canon]

theorem execJobCancel_keeps (src srcSw fromSw p) : KeepsDict (execJobCancel src srcSw fromSw p) :=
  onDev_keeps fun d h => by grind [Dev.cancelIn_canon]

theorem execGfParityWork_keeps (q) : KeepsDict (execGfParityWork q) := onMem_keeps fun m d h => by grind [Dev.complete_canon]

/-! ### `Machine/Security` -/

theorem execLibVerify_keeps (bank img) : KeepsDict (execLibVerify bank img) := onDevWith_keeps fun u m d h => by grind [Dev.libVerify_canon]

theorem execLibActivateA_keeps (acc) : KeepsDict (execLibActivateA acc) :=
  onDev_keeps fun d h => by grind [Dev.orReject_canon, Dev.writeKey_canon, → Dev.libActivate_canon]

theorem execLibActivateB_keeps (acc) : KeepsDict (execLibActivateB acc) :=
  onDev_keeps fun d h => by grind [Dev.orReject_canon, Dev.writeKey_canon, → Dev.libActivate_canon]

theorem execLibSwitch_keeps : KeepsDict execLibSwitch := onDev_keeps fun _ h => Dev.libSwitch_canon h

theorem execImageVerify_keeps (img atBoot) : KeepsDict (execImageVerify img atBoot) := onFuses_keeps fun _ _ h => Dev.imageVerify_canon h ..

theorem execImage_keeps (port imgType bank offset totalLen data assembled) : KeepsDict (execImage port imgType bank offset totalLen data assembled) :=
  onFuses_keeps fun u d h => by grind [Dev.ctrlTaken_canon, Dev.imagePart_canon]

theorem execSvnCommit_keeps (acc counter) : KeepsDict (execSvnCommit acc counter) :=
  onFuses_keeps fun u d h => by grind [Dev.svnCommit_canon, Dev.writeKey_canon]

theorem execKdsHello_keeps (src feid comp m0) : KeepsDict (execKdsHello src feid comp m0) :=
  onDevWith_keeps fun u m d h => by grind [Dev.kdsHello_canon, Dev.kdsIn_canon]

theorem execKdsAccept_keeps (src feid comp m0) : KeepsDict (execKdsAccept src feid comp m0) :=
  onDev_keeps fun d h => by grind [Dev.kdsAccept_canon, Dev.kdsIn_canon]

theorem execKdsLoad_keeps (src feid comp m0) : KeepsDict (execKdsLoad src feid comp m0) :=
  onDev_keeps fun d h => by grind [Dev.kdsIn_canon, Dev.kdsLoad_canon]

theorem execKdsRetire_keeps (src feid comp m0) : KeepsDict (execKdsRetire src feid comp m0) :=
  onDev_keeps fun d h => by grind [Dev.kdsIn_canon, Dev.kdsRetire_canon]

theorem execKdsCerts_keeps (src feid comp m0) : KeepsDict (execKdsCerts src feid comp m0) :=
  onDev_keeps fun d h => by grind [Dev.kdsCerts_canon, Dev.kdsIn_canon]

theorem execKdsClose_keeps (src feid comp m0) : KeepsDict (execKdsClose src feid comp m0) :=
  onDev_keeps fun d h => by grind [Dev.kdsClose_canon, Dev.kdsIn_canon]

theorem execKdsSessionTimeout_keeps (session) : KeepsDict (execKdsSessionTimeout session) := onDev_keeps fun _ h => Dev.kdsTimeout_canon h ..

theorem execKeyLive_keeps (slot) : KeepsDict (execKeyLive slot) := onDev_keeps fun _ h => Dev.keyLive_canon h ..

theorem execKeyRetired_keeps (slot) : KeepsDict (execKeyRetired slot) := onDev_keeps fun _ h => Dev.keyRetired_canon h ..

theorem execKeyZeroized_keeps (slot gen) : KeepsDict (execKeyZeroized slot gen) := onMem_keeps fun _ _ h => Dev.keyZeroized_canon h ..

theorem execSlotRetire_keeps (acc) : KeepsDict (execSlotRetire acc) :=
  onDev_keeps fun d h => by grind [Dev.orReject_canon, Dev.writeKey_canon, → Dev.slotCmd_canon]

theorem execDebugToken_keeps (acc t) : KeepsDict (execDebugToken acc t) :=
  onAll_keeps fun u m d h => by grind [Dev.takeToken_canon, Dev.writeKey_canon]

theorem execDebugUnlockExpiry_keeps : KeepsDict execDebugUnlockExpiry := onDevWith_keeps fun u m d h => by grind [Dev.debugExpiry_canon]

/-! ### `Machine/Domain` -/

theorem execBeacon_keeps (port b) : KeepsDict (execBeacon port b) := onDev_keeps fun d h => by grind [Dev.beaconIn_canon, Dev.ctrlTaken_canon]

theorem execTickMarker_keeps (port m0 arrivalPs residencePs) : KeepsDict (execTickMarker port m0 arrivalPs residencePs) :=
  onDev_keeps fun d h => by grind [Dev.ctrlTaken_canon, Dev.markerIn_canon]

theorem execHoldoverEntry_keeps : KeepsDict execHoldoverEntry := onDev_keeps fun _ h => Dev.holdover_canon h

theorem execMasterLost_keeps : KeepsDict execMasterLost := onDev_keeps fun _ h => Dev.masterLost_canon h

theorem execHandoverAnnounce_keeps : KeepsDict execHandoverAnnounce := onDev_keeps fun _ h => Dev.announceHandover_canon h

theorem execTickInEdge_keeps (offsetPs) : KeepsDict (execTickInEdge offsetPs) := onDev_keeps fun _ h => Dev.tickIn_canon h ..

theorem execLinkDelayMeasure_keeps (port rttPs) : KeepsDict (execLinkDelayMeasure port rttPs) := onDev_keeps fun d h => by grind [Dev.modDom_canon]

theorem execDomainRecovery_keeps (commanded phase targets) : KeepsDict (execDomainRecovery commanded phase targets) :=
  onDev_keeps fun _ h => Dev.recovery_canon h ..

theorem execStartupPhase_keeps : KeepsDict execStartupPhase := onDev_keeps fun _ h => Dev.nextPhase_canon h

theorem execRecoveryRecover_keeps (port m0) : KeepsDict (execRecoveryRecover port m0) :=
  onDev_keeps fun d h => by grind [Dev.ctrlTaken_canon, Dev.recoveryRecover_canon]

theorem execSwitchLost_keeps (sw) : KeepsDict (execSwitchLost sw) := onDev_keeps fun _ h => Dev.switchLost_canon h ..

/-! ### `Machine/Yarrow` -/

theorem execContribTake_keeps (q) : KeepsDict (execContribTake q) := onDev_keeps fun _ h => Dev.contribTake_canon h ..

theorem execChunkTimeout_keeps (group chunk) : KeepsDict (execChunkTimeout group chunk) := onDev_keeps fun _ h => Dev.chunkTimeout_canon h ..

theorem execChunkRound_keeps (group chunk) : KeepsDict (execChunkRound group chunk) := onDev_keeps fun _ h => Dev.chunkRound_canon h ..

theorem execResultAckTimeout_keeps (group chunk dest) : KeepsDict (execResultAckTimeout group chunk dest) :=
  onDev_keeps fun _ h => Dev.ackTimeout_canon h ..

theorem execReduceAck_keeps (src srcSw fromSw p) : KeepsDict (execReduceAck src srcSw fromSw p) := onDev_keeps fun d h => by grind [Dev.ackIn_canon]

theorem execReduceNack_keeps (src srcSw fromSw p) : KeepsDict (execReduceNack src srcSw fromSw p) :=
  onDev_keeps fun d h => by grind [Dev.nackIn_canon]

theorem execGroupRegister_keeps (acc) : KeepsDict (execGroupRegister acc) :=
  onDev_keeps fun d h => by grind [Dev.orReject_canon, Dev.writeKey_canon, → Dev.groupCmd_canon]

theorem execGroupRemove_keeps (acc) : KeepsDict (execGroupRemove acc) :=
  onDev_keeps fun d h => by grind [Dev.orReject_canon, Dev.writeKey_canon, → Dev.groupCmd_canon]

theorem execGroupReadmit_keeps (acc) : KeepsDict (execGroupReadmit acc) :=
  onDev_keeps fun d h => by grind [Dev.orReject_canon, Dev.writeKey_canon, → Dev.groupCmd_canon]

theorem execRegistryRegister_keeps (port src m0) : KeepsDict (execRegistryRegister port src m0) :=
  onDev_keeps fun d h => by grind [Dev.ctrlTaken_canon, Dev.registry_canon]

theorem execRegistryRemove_keeps (port src m0) : KeepsDict (execRegistryRemove port src m0) :=
  onDev_keeps fun d h => by grind [Dev.ctrlTaken_canon, Dev.registry_canon]

theorem execRegistryReadmit_keeps (port src m0) : KeepsDict (execRegistryReadmit port src m0) :=
  onDev_keeps fun d h => by grind [Dev.ctrlTaken_canon, Dev.registry_canon]

theorem execRegistryAccept_keeps (port src m0) : KeepsDict (execRegistryAccept port src m0) :=
  onDev_keeps fun d h => by grind [Dev.ctrlTaken_canon, Dev.registry_canon]

theorem execRegistryRefuse_keeps (port src m0) : KeepsDict (execRegistryRefuse port src m0) :=
  onDev_keeps fun d h => by grind [Dev.ctrlTaken_canon, Dev.registry_canon]

theorem execRegistryActivate_keeps (port src m0) : KeepsDict (execRegistryActivate port src m0) :=
  onDev_keeps fun d h => by grind [Dev.ctrlTaken_canon, Dev.registry_canon]

theorem execGroupActivationTick_keeps (group) : KeepsDict (execGroupActivationTick group) := onDev_keeps fun _ h => Dev.groupTick_canon h ..

theorem execRegistryAnswerTimeout_keeps (group) : KeepsDict (execRegistryAnswerTimeout group) := onDev_keeps fun _ h => Dev.answerTimeout_canon h ..

/-! ### `Machine/Commit` -/

theorem execCommit_keeps (acc) : KeepsDict (execCommit acc) := onDev_keeps fun d h => by grind [Dev.commitCmd_canon, Dev.writeKey_canon]

theorem execResync_keeps (acc) : KeepsDict (execResync acc) := onDev_keeps fun d h => by grind [Dev.resyncCmd_canon, Dev.writeKey_canon]

theorem execCommitPrepare_keeps (port src m0) : KeepsDict (execCommitPrepare port src m0) :=
  onDev_keeps fun d h => by grind [Dev.commitIn_canon, Dev.ctrlTaken_canon, Dev.onPrepare_canon]

theorem execCommitReady_keeps (port src m0) : KeepsDict (execCommitReady port src m0) :=
  onDev_keeps fun d h => by grind [Dev.commitIn_canon, Dev.ctrlTaken_canon, Dev.onReady_canon]

theorem execCommitNotReady_keeps (port src m0) : KeepsDict (execCommitNotReady port src m0) :=
  onDev_keeps fun d h => by grind [Dev.commitIn_canon, Dev.ctrlTaken_canon, Dev.onNotReady_canon]

theorem execCommitAnnounce_keeps (port src m0) : KeepsDict (execCommitAnnounce port src m0) :=
  onDev_keeps fun d h => by grind [Dev.commitIn_canon, Dev.ctrlTaken_canon, Dev.onAnnounce_canon]

theorem execCommitAbort_keeps (port src m0) : KeepsDict (execCommitAbort port src m0) :=
  onDev_keeps fun d h => by grind [Dev.commitIn_canon, Dev.ctrlTaken_canon, Dev.onAbort_canon]

theorem execCommitDirty_keeps (port src m0) : KeepsDict (execCommitDirty port src m0) :=
  onDev_keeps fun d h => by grind [Dev.commitIn_canon, Dev.ctrlTaken_canon, Dev.onDirty_canon]

theorem execCommitAnswerTimeout_keeps : KeepsDict execCommitAnswerTimeout := onDev_keeps fun _ h => Dev.answerLate_canon h

theorem execCommitFreezeTimeout_keeps : KeepsDict execCommitFreezeTimeout := onDev_keeps fun _ h => Dev.freezeLate_canon h

theorem execCommitApply_keeps : KeepsDict execCommitApply := onDev_keeps fun d h => by grind [Dev.applyCommit_canon, Dev.applyResync_canon]

theorem execUsageReportPeriodic_keeps : KeepsDict execUsageReportPeriodic := onDev_keeps fun _ h => Dev.usagePeriodic_canon h

theorem execReportCmd_keeps (acc) : KeepsDict (execReportCmd acc) := onDev_keeps fun d h => by grind [Dev.usageDemand_canon, Dev.writeKey_canon]

/-! ### `Machine/Engines` -/

theorem execEngineQuantumStart_keeps (q e) : KeepsDict (execEngineQuantumStart q e) := onMem_keeps fun m d h => by grind [Dev.startOn_canon]

theorem execGatherElement_keeps (q e index found) : KeepsDict (execGatherElement q e index found) :=
  onMem_keeps fun m d h => by grind [Dev.gatherElement_canon, Dev.strike_canon]

theorem execSpeculativeRead_keeps (q e ahead ok found) : KeepsDict (execSpeculativeRead q e ahead ok found) :=
  onDevWith_keeps fun u m d h => by grind [Dev.speculative_canon, Dev.strike_canon]

theorem execFilterRows_keeps (q rows first found) : KeepsDict (execFilterRows q rows first found) :=
  onMem_keeps fun m d h => by grind [Dev.filterRows_canon, Dev.strike_canon]

theorem execBlockDecode_keeps (t nblk blk idx idxNext opLen block waited) : KeepsDict (execBlockDecode t nblk blk idx idxNext opLen block waited) :=
  onMem_keeps fun m d h => by grind [Dev.blockDecode_canon]

theorem execTableBufferWait_keeps (q t) : KeepsDict (execTableBufferWait q t) := onMem_keeps fun m d h => by grind [Dev.startOn_canon]

/-! ### `Machine/Erasure` -/

theorem execMemberFailed_keeps (group member) : KeepsDict (execMemberFailed group member) := onDev_keeps fun _ h => Dev.memberFailed_canon h ..

theorem execFailMember_keeps (acc) : KeepsDict (execFailMember acc) :=
  onDev_keeps fun d h => by grind [Dev.orReject_canon, Dev.writeKey_canon, → Dev.failMember_canon]

theorem execRebuildStart_keeps (group member) : KeepsDict (execRebuildStart group member) := onDev_keeps fun _ h => Dev.rebuildStart_canon h ..

theorem execRebuildStripe_keeps (group entry stripe) : KeepsDict (execRebuildStripe group entry stripe) :=
  onDev_keeps fun _ h => Dev.rebuildStripe_canon h ..

theorem execRebuildRestart_keeps (group) : KeepsDict (execRebuildRestart group) := onDev_keeps fun _ h => Dev.rebuildRestart_canon h ..

theorem execTransitionRevert_keeps (entry) : KeepsDict (execTransitionRevert entry) := onDev_keeps fun _ h => Dev.transRevert_canon h ..

theorem execResyncStripe_keeps (group stripe entry quad epoch) : KeepsDict (execResyncStripe group stripe entry quad epoch) :=
  onDev_keeps fun _ h => Dev.resync_canon h ..

theorem execStepFenceReq_keeps (acc comp) : KeepsDict (execStepFenceReq acc comp) :=
  onDev_keeps fun d h => by grind [Dev.orReject_canon, Dev.writeKey_canon, → Dev.askStepFence_canon]

theorem execStepFenceDone_keeps (comp) : KeepsDict (execStepFenceDone comp) := onDev_keeps fun _ h => Dev.stepFenceDone_canon h ..

/-! ### `Machine/Health` -/

theorem execProvisionalEnd_keeps : KeepsDict execProvisionalEnd := onDev_keeps fun _ h => Dev.provisionalOver_canon h

theorem execHealthReadmit_keeps (acc item) : KeepsDict (execHealthReadmit acc item) :=
  onDev_keeps fun d h => by grind [Dev.orReject_canon, Dev.writeKey_canon, → Dev.readmit_canon]

/-! ### `Machine/Logs` -/

theorem execEventDelivery_keeps (h0 log) : KeepsDict (execEventDelivery h0 log) := onDev_keeps fun _ h => Dev.deliver_canon h ..

theorem execEvlogConsWrite_keeps (h0 cons) : KeepsDict (execEvlogConsWrite h0 cons) :=
  onDev_keeps fun d h => by grind [Dev.evlogCons_canon, Dev.writeKey_canon]

theorem execFlogConsWrite_keeps (h0 cons) : KeepsDict (execFlogConsWrite h0 cons) :=
  onDev_keeps fun d h => by grind [Dev.flogConsSet_canon, Dev.writeKey_canon]

/-! ### `Machine/HostPort` -/

theorem execSendSlotWrite_keeps (h0 slot offset data) : KeepsDict (execSendSlotWrite h0 slot offset data) :=
  onDev_keeps fun _ h => Dev.slotWrite_canon h ..

theorem execRxringWrite_keeps (h0) : KeepsDict (execRxringWrite h0) := onDev_keeps fun _ h => Dev.ringWrite_canon h ..

theorem execRxringConsWrite_keeps (h0 cons) : KeepsDict (execRxringConsWrite h0 cons) :=
  onDev_keeps fun d h => by grind [Dev.ringCons_canon, Dev.writeKey_canon]

theorem execMsixUnmask_keeps (h0 vec) : KeepsDict (execMsixUnmask h0 vec) := onDev_keeps fun _ h => Dev.unmask_canon h ..

theorem execHostPortReset_keeps (h0) : KeepsDict (execHostPortReset h0) := by
  unfold execHostPortReset
  exact onDev_keeps fun _ h => Dev.hostReset_canon h _

theorem execHostLinkUp_keeps (h0 width gen) : KeepsDict (execHostLinkUp h0 width gen) := onDev_keeps fun _ h => Dev.hostLinkUp_canon h ..

/-! ### `Machine/Power` -/

theorem execQuadOffSet_keeps (acc q) : KeepsDict (execQuadOffSet acc q) :=
  onMem_keeps fun m d h => by grind [Dev.orReject_canon, Dev.writeKey_canon, → Dev.quadOffWrite_canon]

theorem execQuadOffClear_keeps (acc q) : KeepsDict (execQuadOffClear acc q) :=
  onDev_keeps fun d h => by grind [Dev.orReject_canon, Dev.writeKey_canon, → Dev.quadOffWrite_canon]

theorem execRefclkPrefWrite_keeps (acc value) : KeepsDict (execRefclkPrefWrite acc value) :=
  onDev_keeps fun d h => by grind [Dev.orReject_canon, Dev.writeKey_canon, → Dev.refPref_canon]

theorem execBistRun_keeps (acc) : KeepsDict (execBistRun acc) :=
  onDev_keeps fun d h => by grind [Dev.orReject_canon, Dev.writeKey_canon, → Dev.bistCmd_canon]

theorem execBistDone_keeps (failed) : KeepsDict (execBistDone failed) := onMem_keeps fun m d h => by grind [Dev.bistDone_canon, failStacks_canon]

theorem execBistPacketRun_keeps (port m0) : KeepsDict (execBistPacketRun port m0) :=
  onDev_keeps fun d h => by grind [Dev.bistPacket_canon, Dev.ctrlTaken_canon]

theorem execBistPacketResult_keeps (port m0) : KeepsDict (execBistPacketResult port m0) :=
  onDev_keeps fun d h => by grind [Dev.bistPacket_canon, Dev.ctrlTaken_canon]

theorem execDipStart_keeps (mV) : KeepsDict (execDipStart mV) := onDev_keeps fun _ h => Dev.dipStart_canon h ..

theorem execDipClassB_keeps : KeepsDict execDipClassB := onDev_keeps fun _ h => Dev.dipClassB_canon h

theorem execDipEnd_keeps (mV) : KeepsDict (execDipEnd mV) := onDev_keeps fun _ h => Dev.dipEnd_canon h ..

theorem execSupplyStop_keeps : KeepsDict execSupplyStop := onMem_keeps fun _ _ h => Dev.supplyStop_canon h ..

theorem execOvervoltage_keeps (mV) : KeepsDict (execOvervoltage mV) := fun s t h e => by
  unfold execOvervoltage at e
  split at e
  · cases e
  · exact onMem_keeps (fun _ _ h => Dev.overvoltage_canon h ..) s t h e

theorem execOvervoltageTimeout_keeps : KeepsDict execOvervoltageTimeout := onMem_keeps fun m d h => by grind [Dev.orderlyStop_canon]

theorem execPowerOn_keeps (mV failedUnits untrained dieAttest) : KeepsDict (execPowerOn mV failedUnits untrained dieAttest) :=
  onAll_keeps fun u m d h => by grind [Dev.powerOn_canon]

theorem execHbmTrainTimeout_keeps (st) : KeepsDict (execHbmTrainTimeout st) :=
  onMem_keeps fun m d h => by grind [Dev.trainTimeout_canon, failStacks_canon]

theorem execModResetN_keeps (low failedUnits untrained dieAttest) : KeepsDict (execModResetN low failedUnits untrained dieAttest) :=
  onAll_keeps fun u m d h => by grind [Dev.modReset_canon]

theorem execWarmResetCmd_keeps (acc) : KeepsDict (execWarmResetCmd acc) :=
  onDev_keeps fun d h => by grind [Dev.orReject_canon, Dev.writeKey_canon, → Dev.resetCmd_canon]

theorem execFundamentalResetCmd_keeps (acc) : KeepsDict (execFundamentalResetCmd acc) :=
  onDev_keeps fun d h => by grind [Dev.orReject_canon, Dev.writeKey_canon, → Dev.resetCmd_canon]

theorem execResetBegin_keeps (failedUnits untrained dieAttest) : KeepsDict (execResetBegin failedUnits untrained dieAttest) :=
  onAll_keeps fun u m d h => by grind [Dev.resetBegin_canon]

theorem execThermalTrip_keeps (die celsius) : KeepsDict (execThermalTrip die celsius) := onMem_keeps fun _ _ h => Dev.thermalTrip_canon h ..

theorem execRefclkSwitch_keeps : KeepsDict execRefclkSwitch := onDev_keeps fun _ h => Dev.refSwitch_canon h

theorem execRefclkLost_keeps : KeepsDict execRefclkLost := onDev_keeps fun _ h => Dev.refLost_canon h

theorem execPcieRefclkLoss_keeps (h0) : KeepsDict (execPcieRefclkLoss h0) := by
  unfold execPcieRefclkLoss
  exact onDev_keeps fun _ h => Dev.pcieLoss_canon h _

theorem execMgmtClkLoss_keeps : KeepsDict execMgmtClkLoss := onDev_keeps fun d h => by grind [Dev.modMgmt_canon]

theorem execRungEntry_keeps (domain unit) : KeepsDict (execRungEntry domain unit) := onDev_keeps fun _ h => Dev.rungEntry_canon h ..

theorem execRungWake_keeps (domain unit) : KeepsDict (execRungWake domain unit) := onDev_keeps fun _ h => Dev.rungWake_canon h ..

theorem execFabricRefclkReturn_keeps (b) : KeepsDict (execFabricRefclkReturn b) := onDevWith_keeps fun u m d h => by grind [Dev.refReturn_canon]

theorem execMgmtClkReturn_keeps : KeepsDict execMgmtClkReturn := onDev_keeps fun d h => by grind [Dev.modMgmt_canon]

/-! ### `Machine/Speedwell` -/

theorem execPlanLoad_keeps (acc) : KeepsDict (execPlanLoad acc) :=
  onDevWith_keeps fun u m d h => by grind [Dev.orReject_canon, Dev.writeKey_canon, → Dev.planCmd_canon]

theorem execPlanUnload_keeps (acc) : KeepsDict (execPlanUnload acc) :=
  onDevWith_keeps fun u m d h => by grind [Dev.orReject_canon, Dev.writeKey_canon, → Dev.planCmd_canon]

theorem execPlanActivate_keeps (slot) : KeepsDict (execPlanActivate slot) := onMem_keeps fun _ _ h => Dev.planActivate_canon h ..

theorem execNodeLate_keeps (q job node) : KeepsDict (execNodeLate q job node) := onMem_keeps fun m d h => by grind [Dev.nodeLate_canon]

theorem execContribRetry_keeps (q job group chunk) : KeepsDict (execContribRetry q job group chunk) :=
  onDev_keeps fun d h => by grind [Dev.contribRetry_canon]

theorem execBackupNotify_keeps (port comp m0) : KeepsDict (execBackupNotify port comp m0) :=
  onDev_keeps fun d h => by grind [Dev.arbNotify_canon, Dev.ctrlTaken_canon, Dev.takeCancel_canon]

theorem execBackupClaim_keeps (port comp m0) : KeepsDict (execBackupClaim port comp m0) :=
  onDev_keeps fun d h => by grind [Dev.arbClaim_canon, Dev.ctrlTaken_canon, Dev.takeCancel_canon]

theorem execBackupGrant_keeps (port comp m0) : KeepsDict (execBackupGrant port comp m0) :=
  onDev_keeps fun d h => by grind [Dev.backupAnswer_canon, Dev.ctrlTaken_canon, Dev.takeCancel_canon]

theorem execBackupDeny_keeps (port comp m0) : KeepsDict (execBackupDeny port comp m0) :=
  onDev_keeps fun d h => by grind [Dev.backupAnswer_canon, Dev.ctrlTaken_canon, Dev.takeCancel_canon]

theorem execBackupCancel_keeps (port comp m0) : KeepsDict (execBackupCancel port comp m0) :=
  onDev_keeps fun d h => by grind [Dev.backupAnswer_canon, Dev.ctrlTaken_canon, Dev.takeCancel_canon]

theorem execClaimWaitTimeout_keeps (q job) : KeepsDict (execClaimWaitTimeout q job) := onDev_keeps fun d h => by grind [Dev.claimTimeout_canon]

theorem execClaimEntryExpire_keeps (comp replyFeid workId) : KeepsDict (execClaimEntryExpire comp replyFeid workId) :=
  onDev_keeps fun _ h => Dev.claimExpire_canon h ..

/-! ### `Machine/Mgmt` -/

theorem execReportRead_keeps (acc offset len) : KeepsDict (execReportRead acc offset len) := onWorld_keeps fun w h => by grind [World.readOut_canon]

theorem execCampionWatchdog_keeps : KeepsDict execCampionWatchdog := onDev_keeps fun _ h => Dev.watchdog_canon h

theorem execCampionRestartDone_keeps : KeepsDict execCampionRestartDone := onDev_keeps fun _ h => Dev.restartDone_canon h

theorem execCmpHello_keeps (m0) : KeepsDict (execCmpHello m0) := onDev_keeps fun _ h => Dev.cmpHello_canon h ..

theorem execCmpAccept_keeps (m0) : KeepsDict (execCmpAccept m0) := onDev_keeps fun _ h => Dev.cmpAccept_canon h ..

theorem execCmpRead_keeps (session counter reqId e len) : KeepsDict (execCmpRead session counter reqId e len) :=
  onWorld_keeps fun w h => by grind [World.cmpRequest_canon, World.readAcc_canon]

theorem execCmpWrite_keeps (session counter reqId e data) : KeepsDict (execCmpWrite session counter reqId e data) :=
  onWorld_keeps fun w h => by grind [World.cmpRequest_canon, World.writeAcc_canon]

theorem execCmpSubscribe_keeps (session counter mask) : KeepsDict (execCmpSubscribe session counter mask) :=
  onDev_keeps fun _ h => Dev.cmpSubscribe_canon h ..

theorem execCmpClose_keeps (session counter) : KeepsDict (execCmpClose session counter) := onDev_keeps fun _ h => Dev.cmpClose_canon h ..

theorem execCmpIdleTimeout_keeps (session) : KeepsDict (execCmpIdleTimeout session) := onDev_keeps fun _ h => Dev.cmpIdle_canon h ..

theorem execMbRead_keeps (h0 addr offset len) : KeepsDict (execMbRead h0 addr offset len) := onWorld_keeps fun _ h => World.mbRead_canon h ..

theorem execMbWrite_keeps (h0 addr offset data) : KeepsDict (execMbWrite h0 addr offset data) := onWorld_keeps fun _ h => World.mbWrite_canon h ..

theorem execSmbusSelect_keeps (e) : KeepsDict (execSmbusSelect e) := onWorld_keeps fun _ h => World.smbusSelect_canon h ..

theorem execSmbusRead_keeps (len) : KeepsDict (execSmbusRead len) := onWorld_keeps fun _ h => World.smbusRead_canon h ..

theorem execSmbusStatus_keeps : KeepsDict execSmbusStatus := onDev_keeps fun d h => by grind [Dev.emit_canon]

theorem execSmbusAlertResponse_keeps : KeepsDict execSmbusAlertResponse := onDev_keeps fun d h => by grind [Dev.emit_canon, Dev.modMgmt_canon]

theorem execConsoleRead_keeps (e len) : KeepsDict (execConsoleRead e len) := onWorld_keeps fun _ h => World.consoleRead_canon h ..

theorem execConsoleWrite_keeps (e data) : KeepsDict (execConsoleWrite e data) := onWorld_keeps fun _ h => World.consoleWrite_canon h ..

theorem execRcRead_keeps (acc e) : KeepsDict (execRcRead acc e) := onWorld_keeps fun _ h => World.rcRead_canon h ..

theorem execCfgLockSet_keeps (acc) : KeepsDict (execCfgLockSet acc) := onWorld_keeps fun w h => by grind [World.writeWhole_canon]

theorem execCfgLockClear_keeps (acc) : KeepsDict (execCfgLockClear acc) := onWorld_keeps fun w h => by grind [World.writeWhole_canon]

theorem execOwnerDebugHashWrite_keeps (acc hash) : KeepsDict (execOwnerDebugHashWrite acc hash) :=
  onWorld_keeps fun w h => by grind [World.write_canon]

theorem execPbModeWrite_keeps (acc block mode) : KeepsDict (execPbModeWrite acc block mode) :=
  onWorld_keeps fun w h => by grind [World.writeWhole_canon]

theorem execPortEnableWrite_keeps (acc port enable) : KeepsDict (execPortEnableWrite acc port enable) :=
  onWorld_keeps fun w h => by grind [World.writeWhole_canon]

theorem execPortRoleWrite_keeps (acc port sub value) : KeepsDict (execPortRoleWrite acc port sub value) :=
  onWorld_keeps fun w h => by grind [World.writeWhole_canon]

theorem execDomainIdWrite_keeps (acc sub value) : KeepsDict (execDomainIdWrite acc sub value) :=
  onWorld_keeps fun w h => by grind [World.writeWhole_canon]

theorem execHmapStage_keeps (acc entry) : KeepsDict (execHmapStage acc entry) := onWorld_keeps fun w h => by grind [World.write_canon]

theorem execRegionStage_keeps (acc entry) : KeepsDict (execRegionStage acc entry) := onWorld_keeps fun w h => by grind [World.write_canon]

theorem execSgStage_keeps (acc entry) : KeepsDict (execSgStage acc entry) := onWorld_keeps fun w h => by grind [World.write_canon]

theorem execDictWrite_keeps (acc e data) : KeepsDict (execDictWrite acc e data) := onWorld_keeps fun _ h => World.write_canon h ..

/-! ### `Machine/Tick` -/

theorem execTickEdge_keeps (m0) : KeepsDict (execTickEdge m0) := onDevWith_keeps fun _ _ _ h => Dev.tickEdge_canon h ..

/-! ### `Machine/Tiers` -/

theorem execScrubSector_keeps (st soft bad cancelled) : KeepsDict (execScrubSector st soft bad cancelled) :=
  onMem_keeps fun m d h => by grind [Dev.scrub_canon, Dev.strike_canon]

theorem execStagingFillResp_keeps (slot block status data) : KeepsDict (execStagingFillResp slot block status data) :=
  onMem_keeps fun _ _ h => Dev.fillResp_canon h ..

theorem execStagingSlotRelease_keeps (slot) : KeepsDict (execStagingSlotRelease slot) :=
  onDev_keeps fun d h => by grind [Dev.fillReads_canon, Dev.retestWaits_canon]

theorem execStagingDeadline_keeps (comp reqId) : KeepsDict (execStagingDeadline comp reqId) := onDev_keeps fun _ h => Dev.stageLate_canon h ..

/-! ### Every command -/

theorem exec_keeps (c : Instr) : KeepsDict (exec c) := fun s t h e => by
  cases c with
  | tickEdge _ => exact execTickEdge_keeps _ s t h e
  | beacon _ _ => exact execBeacon_keeps _ _ s t h e
  | tickMarker _ _ _ _ => exact execTickMarker_keeps _ _ _ _ s t h e
  | tickInEdge _ => exact execTickInEdge_keeps _ s t h e
  | linkDelayMeasure _ _ => exact execLinkDelayMeasure_keeps _ _ s t h e
  | domainRecovery _ _ _ => exact execDomainRecovery_keeps _ _ _ s t h e
  | dataFlit _ _ => exact execDataFlit_keeps _ _ s t h e
  | idleFlit _ _ => exact execIdleFlit_keeps _ _ s t h e
  | alignFlit port lane skewNs f => exact execAlignFlit_keeps port lane skewNs f s t h e
  | trainFlit _ _ => exact execTrainFlit_keeps _ _ s t h e
  | dyingRcvd _ _ => exact execDyingRcvd_keeps _ _ s t h e
  | dyingHoldEnd _ => exact execDyingHoldEnd_keeps _ s t h e
  | linkRetryTimeout _ => exact execLinkRetryTimeout_keeps _ s t h e
  | laneFailed _ _ => exact execLaneFailed_keeps _ _ s t h e
  | degradeReq _ _ => exact execDegradeReq_keeps _ _ s t h e
  | laneSwitch _ _ => exact execLaneSwitch_keeps _ _ s t h e
  | laneRepaired _ _ => exact execLaneRepaired_keeps _ _ s t h e
  | restoreReq _ _ => exact execRestoreReq_keeps _ _ s t h e
  | signalDetected _ => exact execSignalDetected_keeps _ s t h e
  | equalizeDone _ _ => exact execEqualizeDone_keeps _ _ s t h e
  | lockDone _ _ => exact execLockDone_keeps _ _ s t h e
  | paramDone _ _ => exact execParamDone_keeps _ _ s t h e
  | portActive _ => exact execPortActive_keeps _ s t h e
  | trainingTimeout _ => exact execTrainingTimeout_keeps _ s t h e
  | retrainDone _ => exact execRetrainDone_keeps _ s t h e
  | retrainTimeout _ => exact execRetrainTimeout_keeps _ s t h e
  | lossOfSignal _ => exact execLossOfSignal_keeps _ s t h e
  | read _ _ => exact execRead_keeps _ _ s t h e
  | write _ _ => exact execWrite_keeps _ _ s t h e
  | writePosted _ _ => exact execWritePosted_keeps _ _ s t h e
  | atomic _ _ => exact execAtomic_keeps _ _ s t h e
  | resp _ _ => exact execResp_keeps _ _ s t h e
  | msg _ _ => exact execMsg_keeps _ _ s t h e
  | jobPost _ _ => exact execJobPost_keeps _ _ s t h e
  | jobResult _ _ => exact execJobResult_keeps _ _ s t h e
  | reduceContrib _ _ => exact execReduceContrib_keeps _ _ s t h e
  | reduceResult _ _ => exact execReduceResult_keeps _ _ s t h e
  | packetAdmit _ _ => exact execPacketAdmit_keeps _ _ s t h e
  | packetEgressDone _ _ _ => exact execPacketEgressDone_keeps _ _ _ s t h e
  | hotWindowEnd _ => exact execHotWindowEnd_keeps _ s t h e
  | teaselAuditStart _ => exact execTeaselAuditStart_keeps _ s t h e
  | teaselAuditDone _ => exact execTeaselAuditDone_keeps _ s t h e
  | homeRead _ => exact execHomeRead_keeps _ s t h e
  | homeWrite _ => exact execHomeWrite_keeps _ s t h e
  | homeAtomic _ => exact execHomeAtomic_keeps _ s t h e
  | trayResp _ _ => exact execTrayResp_keeps _ _ s t h e
  | mergeWindowClose _ _ => exact execMergeWindowClose_keeps _ _ s t h e
  | mergeWriteDone _ _ => exact execMergeWriteDone_keeps _ _ s t h e
  | dedupStale _ _ _ _ => exact execDedupStale_keeps _ _ _ _ s t h e
  | dedupFree _ _ _ _ => exact execDedupFree_keeps _ _ _ _ s t h e
  | staleWindowEnd _ => exact execStaleWindowEnd_keeps _ s t h e
  | requestRetryTimeout _ _ _ => exact execRequestRetryTimeout_keeps _ _ _ s t h e
  | bar2Read _ _ _ => exact execBar2Read_keeps _ _ _ s t h e
  | bar2Write _ _ _ => exact execBar2Write_keeps _ _ _ s t h e
  | bar2Unsupported _ _ _ _ => exact execBar2Unsupported_keeps _ _ _ _ s t h e
  | stackFailed _ _ => exact execStackFailed_keeps _ _ s t h e
  | stackWake _ => exact execStackWake_keeps _ s t h e
  | scrubSector _ _ _ _ => exact execScrubSector_keeps _ _ _ _ s t h e
  | stagingFillResp _ _ _ _ => exact execStagingFillResp_keeps _ _ _ _ s t h e
  | stagingSlotRelease _ => exact execStagingSlotRelease_keeps _ s t h e
  | stagingDeadline _ _ => exact execStagingDeadline_keeps _ _ s t h e
  | pageWalkDone _ _ _ => exact execPageWalkDone_keeps _ _ _ s t h e
  | faultRecordWrite _ => exact execFaultRecordWrite_keeps _ s t h e
  | faultRespRetry _ _ => exact execFaultRespRetry_keeps _ _ s t h e
  | faultRespAbort _ _ _ => exact execFaultRespAbort_keeps _ _ _ s t h e
  | faultTimeout _ _ => exact execFaultTimeout_keeps _ _ s t h e
  | invalReq _ _ => exact execInvalReq_keeps _ _ s t h e
  | ctxEntryWrite _ _ => exact execCtxEntryWrite_keeps _ _ s t h e
  | gets _ _ _ => exact execGets_keeps _ _ _ s t h e
  | getm _ _ _ _ => exact execGetm_keeps _ _ _ _ s t h e
  | wfull _ _ _ _ => exact execWfull_keeps _ _ _ _ s t h e
  | pute _ _ => exact execPute_keeps _ _ s t h e
  | putm _ _ => exact execPutm_keeps _ _ s t h e
  | dirtyNotice _ _ _ => exact execDirtyNotice_keeps _ _ _ s t h e
  | hread _ _ _ _ => exact execHread_keeps _ _ _ _ s t h e
  | hwrite _ _ _ => exact execHwrite_keeps _ _ _ s t h e
  | hatom _ _ _ _ _ _ => exact execHatom_keeps _ _ _ _ _ _ s t h e
  | snoopResponse _ _ => exact execSnoopResponse_keeps _ _ s t h e
  | invalidationReceive _ _ => exact execInvalidationReceive_keeps _ _ s t h e
  | invalidationApply _ => exact execInvalidationApply_keeps _ s t h e
  | heartbeat _ _ => exact execHeartbeat_keeps _ _ s t h e
  | agentDead _ => exact execAgentDead_keeps _ s t h e
  | acquireWaitMet _ _ _ _ _ => exact execAcquireWaitMet_keeps _ _ _ _ _ s t h e
  | acquireWaitTimeout _ => exact execAcquireWaitTimeout_keeps _ s t h e
  | releaseComplete _ _ _ => exact execReleaseComplete_keeps _ _ _ s t h e
  | jobAdmit _ => exact execJobAdmit_keeps _ s t h e
  | quantumStart _ => exact execQuantumStart_keeps _ s t h e
  | quantumComplete _ _ => exact execQuantumComplete_keeps _ _ s t h e
  | quantumOverrun _ => exact execQuantumOverrun_keeps _ s t h e
  | halveRestore _ _ => exact execHalveRestore_keeps _ _ s t h e
  | jobTimeout _ _ => exact execJobTimeout_keeps _ _ s t h e
  | jobCancel _ _ _ _ => exact execJobCancel_keeps _ _ _ _ s t h e
  | libVerify _ _ => exact execLibVerify_keeps _ _ s t h e
  | libActivateA _ => exact execLibActivateA_keeps _ s t h e
  | libActivateB _ => exact execLibActivateB_keeps _ s t h e
  | contribTake _ => exact execContribTake_keeps _ s t h e
  | chunkTimeout _ _ => exact execChunkTimeout_keeps _ _ s t h e
  | chunkRound _ _ => exact execChunkRound_keeps _ _ s t h e
  | resultAckTimeout _ _ _ => exact execResultAckTimeout_keeps _ _ _ s t h e
  | reduceAck _ _ _ _ => exact execReduceAck_keeps _ _ _ _ s t h e
  | reduceNack _ _ _ _ => exact execReduceNack_keeps _ _ _ _ s t h e
  | groupRegister _ => exact execGroupRegister_keeps _ s t h e
  | groupRemove _ => exact execGroupRemove_keeps _ s t h e
  | groupReadmit _ => exact execGroupReadmit_keeps _ s t h e
  | registryRegister _ _ _ => exact execRegistryRegister_keeps _ _ _ s t h e
  | registryRemove _ _ _ => exact execRegistryRemove_keeps _ _ _ s t h e
  | registryReadmit _ _ _ => exact execRegistryReadmit_keeps _ _ _ s t h e
  | registryAccept _ _ _ => exact execRegistryAccept_keeps _ _ _ s t h e
  | registryRefuse _ _ _ => exact execRegistryRefuse_keeps _ _ _ s t h e
  | registryActivate _ _ _ => exact execRegistryActivate_keeps _ _ _ s t h e
  | groupActivationTick _ => exact execGroupActivationTick_keeps _ s t h e
  | registryAnswerTimeout _ => exact execRegistryAnswerTimeout_keeps _ s t h e
  | gfParityWork _ => exact execGfParityWork_keeps _ s t h e
  | planLoad _ => exact execPlanLoad_keeps _ s t h e
  | planUnload _ => exact execPlanUnload_keeps _ s t h e
  | planActivate _ => exact execPlanActivate_keeps _ s t h e
  | nodeLate _ _ _ => exact execNodeLate_keeps _ _ _ s t h e
  | contribRetry _ _ _ _ => exact execContribRetry_keeps _ _ _ _ s t h e
  | backupNotify _ _ _ => exact execBackupNotify_keeps _ _ _ s t h e
  | backupClaim _ _ _ => exact execBackupClaim_keeps _ _ _ s t h e
  | backupGrant _ _ _ => exact execBackupGrant_keeps _ _ _ s t h e
  | backupDeny _ _ _ => exact execBackupDeny_keeps _ _ _ s t h e
  | backupCancel _ _ _ => exact execBackupCancel_keeps _ _ _ s t h e
  | claimWaitTimeout _ _ => exact execClaimWaitTimeout_keeps _ _ s t h e
  | claimEntryExpire _ _ _ => exact execClaimEntryExpire_keeps _ _ _ s t h e
  | engineQuantumStart _ _ => exact execEngineQuantumStart_keeps _ _ s t h e
  | gatherElement _ _ _ _ => exact execGatherElement_keeps _ _ _ _ s t h e
  | speculativeRead _ _ _ _ _ => exact execSpeculativeRead_keeps _ _ _ _ _ s t h e
  | filterRows _ _ _ _ => exact execFilterRows_keeps _ _ _ _ s t h e
  | blockDecode _ _ _ _ _ _ _ _ => exact execBlockDecode_keeps _ _ _ _ _ _ _ _ s t h e
  | tableBufferWait _ _ => exact execTableBufferWait_keeps _ _ s t h e
  | memberFailed _ _ => exact execMemberFailed_keeps _ _ s t h e
  | failMember _ => exact execFailMember_keeps _ s t h e
  | rebuildStart _ _ => exact execRebuildStart_keeps _ _ s t h e
  | rebuildStripe _ _ _ => exact execRebuildStripe_keeps _ _ _ s t h e
  | rebuildRestart _ => exact execRebuildRestart_keeps _ s t h e
  | transitionRevert _ => exact execTransitionRevert_keeps _ s t h e
  | resyncStripe _ _ _ _ _ => exact execResyncStripe_keeps _ _ _ _ _ s t h e
  | stepFenceReq _ _ => exact execStepFenceReq_keeps _ _ s t h e
  | stepFenceDone _ => exact execStepFenceDone_keeps _ s t h e
  | dieHeartbeatTimeout _ => exact execDieHeartbeatTimeout_keeps _ s t h e
  | agentReset _ => exact execAgentReset_keeps _ s t h e
  | agentRejoined _ _ => exact execAgentRejoined_keeps _ _ s t h e
  | recoveryFence _ _ => exact execRecoveryFence_keeps _ _ s t h e
  | recoveryExpel _ _ => exact execRecoveryExpel_keeps _ _ s t h e
  | recoveryRecover _ _ => exact execRecoveryRecover_keeps _ _ s t h e
  | healthReadmit _ _ => exact execHealthReadmit_keeps _ _ s t h e
  | eventDelivery _ _ => exact execEventDelivery_keeps _ _ s t h e
  | evlogConsWrite _ _ => exact execEvlogConsWrite_keeps _ _ s t h e
  | flogConsWrite _ _ => exact execFlogConsWrite_keeps _ _ s t h e
  | imageVerify _ _ => exact execImageVerify_keeps _ _ s t h e
  | image port imgType bank offset totalLen data assembled => exact execImage_keeps port imgType bank offset totalLen data assembled s t h e
  | svnCommit _ _ => exact execSvnCommit_keeps _ _ s t h e
  | reportRead _ _ _ => exact execReportRead_keeps _ _ _ s t h e
  | kdsHello _ _ _ _ => exact execKdsHello_keeps _ _ _ _ s t h e
  | kdsAccept _ _ _ _ => exact execKdsAccept_keeps _ _ _ _ s t h e
  | kdsLoad _ _ _ _ => exact execKdsLoad_keeps _ _ _ _ s t h e
  | kdsRetire _ _ _ _ => exact execKdsRetire_keeps _ _ _ _ s t h e
  | kdsCerts _ _ _ _ => exact execKdsCerts_keeps _ _ _ _ s t h e
  | kdsClose _ _ _ _ => exact execKdsClose_keeps _ _ _ _ s t h e
  | kdsSessionTimeout _ => exact execKdsSessionTimeout_keeps _ s t h e
  | keyLive _ => exact execKeyLive_keeps _ s t h e
  | keyRetired _ => exact execKeyRetired_keeps _ s t h e
  | keyZeroized _ _ => exact execKeyZeroized_keeps _ _ s t h e
  | slotRetire _ => exact execSlotRetire_keeps _ s t h e
  | debugToken _ _ => exact execDebugToken_keeps _ _ s t h e
  | commit _ => exact execCommit_keeps _ s t h e
  | resync _ => exact execResync_keeps _ s t h e
  | commitPrepare _ _ _ => exact execCommitPrepare_keeps _ _ _ s t h e
  | commitReady _ _ _ => exact execCommitReady_keeps _ _ _ s t h e
  | commitNotReady _ _ _ => exact execCommitNotReady_keeps _ _ _ s t h e
  | commitAnnounce _ _ _ => exact execCommitAnnounce_keeps _ _ _ s t h e
  | commitAbort _ _ _ => exact execCommitAbort_keeps _ _ _ s t h e
  | commitDirty _ _ _ => exact execCommitDirty_keeps _ _ _ s t h e
  | reportCmd _ => exact execReportCmd_keeps _ s t h e
  | cmpHello _ => exact execCmpHello_keeps _ s t h e
  | cmpAccept _ => exact execCmpAccept_keeps _ s t h e
  | cmpRead _ _ _ _ _ => exact execCmpRead_keeps _ _ _ _ _ s t h e
  | cmpWrite _ _ _ _ _ => exact execCmpWrite_keeps _ _ _ _ _ s t h e
  | cmpSubscribe _ _ _ => exact execCmpSubscribe_keeps _ _ _ s t h e
  | cmpClose _ _ => exact execCmpClose_keeps _ _ s t h e
  | cmpIdleTimeout _ => exact execCmpIdleTimeout_keeps _ s t h e
  | mbRead _ _ _ _ => exact execMbRead_keeps _ _ _ _ s t h e
  | mbWrite _ _ _ _ => exact execMbWrite_keeps _ _ _ _ s t h e
  | smbusSelect _ => exact execSmbusSelect_keeps _ s t h e
  | smbusRead _ => exact execSmbusRead_keeps _ s t h e
  | consoleRead _ _ => exact execConsoleRead_keeps _ _ s t h e
  | consoleWrite _ _ => exact execConsoleWrite_keeps _ _ s t h e
  | sendSlotWrite _ _ _ _ => exact execSendSlotWrite_keeps _ _ _ _ s t h e
  | rxringWrite _ => exact execRxringWrite_keeps _ s t h e
  | rxringConsWrite _ _ => exact execRxringConsWrite_keeps _ _ s t h e
  | msixUnmask _ _ => exact execMsixUnmask_keeps _ _ s t h e
  | hostPortReset _ => exact execHostPortReset_keeps _ s t h e
  | rcRead _ _ => exact execRcRead_keeps _ _ s t h e
  | cfgLockSet _ => exact execCfgLockSet_keeps _ s t h e
  | cfgLockClear _ => exact execCfgLockClear_keeps _ s t h e
  | ownerDebugHashWrite _ _ => exact execOwnerDebugHashWrite_keeps _ _ s t h e
  | pbModeWrite _ _ _ => exact execPbModeWrite_keeps _ _ _ s t h e
  | portEnableWrite _ _ _ => exact execPortEnableWrite_keeps _ _ _ s t h e
  | portRoleWrite _ _ _ _ => exact execPortRoleWrite_keeps _ _ _ _ s t h e
  | domainIdWrite _ _ _ => exact execDomainIdWrite_keeps _ _ _ s t h e
  | hmapStage _ _ => exact execHmapStage_keeps _ _ s t h e
  | regionStage _ _ => exact execRegionStage_keeps _ _ s t h e
  | sgStage _ _ => exact execSgStage_keeps _ _ s t h e
  | dictWrite _ _ _ => exact execDictWrite_keeps _ _ _ s t h e
  | quadOffSet _ _ => exact execQuadOffSet_keeps _ _ s t h e
  | quadOffClear _ _ => exact execQuadOffClear_keeps _ _ s t h e
  | refclkPrefWrite _ _ => exact execRefclkPrefWrite_keeps _ _ s t h e
  | bistRun _ => exact execBistRun_keeps _ s t h e
  | bistDone _ => exact execBistDone_keeps _ s t h e
  | bistPacketRun _ _ => exact execBistPacketRun_keeps _ _ s t h e
  | bistPacketResult _ _ => exact execBistPacketResult_keeps _ _ s t h e
  | dipStart _ => exact execDipStart_keeps _ s t h e
  | dipEnd _ => exact execDipEnd_keeps _ s t h e
  | overvoltage _ => exact execOvervoltage_keeps _ s t h e
  | powerOn _ _ _ _ => exact execPowerOn_keeps _ _ _ _ s t h e
  | hbmTrainTimeout _ => exact execHbmTrainTimeout_keeps _ s t h e
  | modResetN _ _ _ _ => exact execModResetN_keeps _ _ _ _ s t h e
  | warmResetCmd _ => exact execWarmResetCmd_keeps _ s t h e
  | fundamentalResetCmd _ => exact execFundamentalResetCmd_keeps _ s t h e
  | resetBegin _ _ _ => exact execResetBegin_keeps _ _ _ s t h e
  | thermalTrip _ _ => exact execThermalTrip_keeps _ _ s t h e
  | pcieRefclkLoss _ => exact execPcieRefclkLoss_keeps _ s t h e
  | rungEntry _ _ => exact execRungEntry_keeps _ _ s t h e
  | rungWake _ _ => exact execRungWake_keeps _ _ s t h e
  | flitSlot _ => exact execFlitSlot_keeps _ s t h e
  | hostLinkUp _ _ _ => exact execHostLinkUp_keeps _ _ _ s t h e
  | switchLost _ => exact execSwitchLost_keeps _ s t h e
  | fabricRefclkReturn _ => exact execFabricRefclkReturn_keeps _ s t h e
  | holdoverEntry => exact execHoldoverEntry_keeps s t h e
  | masterLost => exact execMasterLost_keeps s t h e
  | handoverAnnounce => exact execHandoverAnnounce_keeps s t h e
  | startupPhase => exact execStartupPhase_keeps s t h e
  | tlbInvalidate => exact execTlbInvalidate_keeps s t h e
  | invalDrained => exact execInvalDrained_keeps s t h e
  | libSwitch => exact execLibSwitch_keeps s t h e
  | provisionalEnd => exact execProvisionalEnd_keeps s t h e
  | debugUnlockExpiry => exact execDebugUnlockExpiry_keeps s t h e
  | commitAnswerTimeout => exact execCommitAnswerTimeout_keeps s t h e
  | commitFreezeTimeout => exact execCommitFreezeTimeout_keeps s t h e
  | commitApply => exact execCommitApply_keeps s t h e
  | usageReportPeriodic => exact execUsageReportPeriodic_keeps s t h e
  | campionWatchdog => exact execCampionWatchdog_keeps s t h e
  | campionRestartDone => exact execCampionRestartDone_keeps s t h e
  | smbusStatus => exact execSmbusStatus_keeps s t h e
  | smbusAlertResponse => exact execSmbusAlertResponse_keeps s t h e
  | dipClassB => exact execDipClassB_keeps s t h e
  | supplyStop => exact execSupplyStop_keeps s t h e
  | overvoltageTimeout => exact execOvervoltageTimeout_keeps s t h e
  | refclkSwitch => exact execRefclkSwitch_keeps s t h e
  | refclkLost => exact execRefclkLost_keeps s t h e
  | mgmtClkLoss => exact execMgmtClkLoss_keeps s t h e
  | crossbarGrant => exact execCrossbarGrant_keeps s t h e
  | mgmtClkReturn => exact execMgmtClkReturn_keeps s t h e

end Sys2Proof.Machine
end

section
/-! The dictionary stays canonical (O49). -/

namespace Sys2Proof.Machine

/-- Settles O49: every command keeps the dictionary canonical (`exec_keeps`), and with nothing waiting the block idles. -/
theorem dictionaryStaysCanonical : Obligations.DictionaryStaysCanonical := by
  unfold Obligations.DictionaryStaysCanonical
  intro s t h e
  unfold step at e
  split at e
  · injection e with e
    exact e ▸ h
  · next c rest _ => exact exec_keeps c { s with pending := rest } t h e

end Sys2Proof.Machine
end

section
/-! The read of USED_HIGH does not leave 0 (O36): it leaves the cells now in use, the highest use since that read (R189). -/

namespace Sys2Proof.Machine

/-- A powered block whose quadrant 0 has one cell in use, and USED_HIGH_Q0 there at 1. -/
def oneCellUsed : State :=
  let d := { State.reset.dev with power := { State.reset.dev.power with on := true } }
  { State.reset with dev := d.coreUsed 0 ((d.core 0).alloc 1 0).2 }

/-- USED_HIGH_Q0, 0x3000:14. -/
def usedHighRef : EntryRef := { index := 0x3000, sub := 0x14 }

/-- USED_HIGH_Q0 is an RC entry of four bytes for a host's mailbox. -/
theorem usedHighRef_row : ∃ x, entryOf usedHighRef.index usedHighRef.sub = some x ∧ column 0x10 x = .rc ∧ x.octets = false ∧ x.size = 4 :=
  ⟨_, rfl, rfl, rfl, rfl⟩

theorem oneCellUsed_mayRead :
    oneCellUsed.dev.mayRead oneCellUsed.fuses.ownerHash.isSome 0x10 usedHighRef.index usedHighRef.sub usedHighRef.offset 4 = true := by decide

theorem oneCellUsed_key : oneCellUsed.dev.keyAs 0x10 usedHighRef.index usedHighRef.sub = Reg.usedHigh 0 := by decide

/-- The read's command leaves USED_HIGH_Q0 at 1, the cell that is still in use. -/
theorem rcRead_oneCellUsed {t : State} (e : exec (.rcRead 0x10 usedHighRef) oneCellUsed = .next t) : t.dev.reg (Reg.usedHigh 0) = 1 := by
  cases e
  rfl

/-- Refutes O36: its first clause says that the read of any RC entry leaves 0, but with one cell of quadrant 0 in use the read of USED_HIGH_Q0
leaves 1. -/
theorem not_dictionaryWritesTakeEffect : ¬ Obligations.DictionaryWritesTakeEffect := by
  unfold Obligations.DictionaryWritesTakeEffect
  rintro ⟨hrcRead, -⟩
  obtain ⟨x, hrow, hcol, hoctets, hsize⟩ := usedHighRef_row
  obtain ⟨t, hrun, -, hzero, -⟩ := hrcRead oneCellUsed 0x10 usedHighRef x hrow hcol hoctets (hsize ▸ oneCellUsed_mayRead)
  rw [oneCellUsed_key, rcRead_oneCellUsed hrun] at hzero
  exact absurd hzero (by decide)

end Sys2Proof.Machine
end

section
/-! SUPPORT. What the coherence operations at the L2 do: one rule for each, and what it leaves (R233 to R237, R291 to R300). -/

namespace Sys2Proof.Machine

/-! ### Strings and masks -/

theorem padTo_of_length {n : Nat} {bs : Bytes} (h : bs.length = n) : padTo n bs = bs := by
  simp [padTo, slice, ← h]

theorem length_padTo (n : Nat) (bs : Bytes) : (padTo n bs).length = n := by
  simp [padTo, slice]

@[simp] theorem padTo_padTo (n : Nat) (bs : Bytes) : padTo n (padTo n bs) = padTo n bs := padTo_of_length (length_padTo n bs)

theorem setBitsFrom_zero (w base : Nat) : setBitsFrom w base 0 = [] := by
  induction w generalizing base with
  | zero => rfl
  | succ w ih => simp [setBitsFrom, ih]

/-- A mask of one bit has that one member. -/
theorem setBitsFrom_two_pow {w i : Nat} (h : i < w) (base : Nat) : setBitsFrom w base (2 ^ i) = [base + i] := by
  induction w generalizing i base with
  | zero => omega
  | succ w ih =>
    cases i with
    | zero => simp [setBitsFrom, setBitsFrom_zero]
    | succ i =>
      have hodd : 2 ^ (i + 1) % 2 = 0 := by omega
      have hhalf : 2 ^ (i + 1) / 2 = 2 ^ i := by omega
      simp only [setBitsFrom, hodd, hhalf, ih (Nat.lt_of_succ_lt_succ h)]
      simp
      omega

theorem Dev.agentsOf_shiftLeft {a : Nat} (h : a < 128) : Dev.agentsOf (1 <<< a) = [a] := by
  rw [Nat.shiftLeft_eq, Nat.one_mul, agentsOf, members, setBitsFrom_two_pow h, Nat.zero_add]

theorem one_shiftLeft_ne_zero (a : Nat) : 1 <<< a ≠ 0 := by simp [Nat.shiftLeft_eq]

namespace Dev
variable {d : Dev}

/-! ### Counts leave all but the dictionary -/

@[simp] theorem bump_coh (d : Dev) (k n : Nat) : (d.bump k n).coh = d.coh := by unfold bump; split <;> rfl
@[simp] theorem bump_out (d : Dev) (k n : Nat) : (d.bump k n).out = d.out := by unfold bump; split <;> rfl
@[simp] theorem bump_tiers (d : Dev) (k n : Nat) : (d.bump k n).tiers = d.tiers := by unfold bump; split <;> rfl

/-! ### Copies and entries -/

@[simp] theorem dropCopy_blocked (d : Dev) (a l : Nat) : (d.dropCopy a l).coh.blocked = d.coh.blocked := rfl

@[simp] theorem copyOf_dropCopy (d : Dev) (a l : Nat) : (d.dropCopy a l).copyOf a l = none := Tab.look_del_same _ _

@[simp] theorem setDir_out (d : Dev) (l st v : Nat) : (d.setDir l st v).out = d.out := rfl
@[simp] theorem setDir_blocked (d : Dev) (l st v : Nat) : (d.setDir l st v).coh.blocked = d.coh.blocked := rfl
@[simp] theorem copyOf_setDir (d : Dev) (a l l' st v : Nat) : (d.setDir l' st v).copyOf a l = d.copyOf a l := rfl

/-- An entry that is entered stands in the directory. -/
theorem look_dir_setDir (d : Dev) (l : Nat) {st v : Nat} (hst : st ≠ 0) (hv : v ≠ 0) :
    Tab.look (d.setDir l st v).coh.dir l = some { st := st, agents := v } := by
  simp [setDir, hst, hv]

/-- An entry that is taken out is gone. -/
@[simp] theorem look_dir_setDir_zero (d : Dev) (l v : Nat) : Tab.look (d.setDir l 0 v).coh.dir l = none := by
  simp [setDir]

@[simp] theorem watch_out (d : Dev) (a q : Nat) : (d.watch a q).out = d.out := by unfold watch; split <;> rfl

/-- A grant goes out to the agent. -/
@[simp] theorem grantLine_out (d : Dev) (a l ctx st : Nat) (data : Bytes) :
    (d.grantLine a l ctx st data).out = d.out ++ [.grant a l st data] := by
  simp [grantLine, putCopy]

/-- An agent holds the line it is granted. -/
@[simp] theorem copyOf_grantLine (d : Dev) (a l ctx st : Nat) (data : Bytes) :
    (d.grantLine a l ctx st data).copyOf a l = some { st := st, ctx := ctx, data := padTo 128 data } := by
  simp [copyOf, grantLine, putCopy]

/-! ### Lines in the L2 (R233 to R237) -/

/-- A line whose place is taken is chosen freely: at most a free value is drawn. -/
theorem l2Victim_snd (d : Dev) (l : Nat) : ∃ n, (d.l2Victim l).2 = { d with freeCtr := n } := by
  unfold l2Victim
  split
  · exact ⟨d.freeCtr, rfl⟩
  · dsimp only
    split
    · exact ⟨d.freeCtr, rfl⟩
    · exact ⟨d.freeCtr + 1, rfl⟩

/-- The L2 takes a line: the tiers change, and a free value may be drawn. -/
theorem l2Hold_eq (d : Dev) (l : Nat) (dirty : Bool) : ∃ T n, d.l2Hold l dirty = { d with tiers := T, freeCtr := n } := by
  obtain ⟨n, hn⟩ := l2Victim_snd d l
  simp only [l2Hold, hn]
  split
  · exact ⟨_, n, rfl⟩
  · exact ⟨_, n, rfl⟩

@[simp] theorem l2Hold_coh (d : Dev) (l : Nat) (dirty : Bool) : (d.l2Hold l dirty).coh = d.coh := by
  obtain ⟨T, n, h⟩ := l2Hold_eq d l dirty
  rw [h]

@[simp] theorem l2Hold_out (d : Dev) (l : Nat) (dirty : Bool) : (d.l2Hold l dirty).out = d.out := by
  obtain ⟨T, n, h⟩ := l2Hold_eq d l dirty
  rw [h]

@[simp] theorem l2Fill_coh (d : Dev) (l : Nat) : (d.l2Fill l).coh = d.coh := by
  simp only [l2Fill, apply_ite Dev.coh, bump_coh, ite_self]
@[simp] theorem l2Fill_out (d : Dev) (l : Nat) : (d.l2Fill l).out = d.out := by
  simp only [l2Fill, apply_ite Dev.out, bump_out, ite_self]
@[simp] theorem l2Fill_tiers (d : Dev) (l : Nat) : (d.l2Fill l).tiers = d.tiers := by
  simp only [l2Fill, apply_ite Dev.tiers, bump_tiers, ite_self]

/-- Which sectors of a line are in error is a matter of the list of those and of the lines that the L2 holds (R236). -/
theorem badSectors_congr {d d' : Dev} (hb : d'.tiers.bad = d.tiers.bad) (hc : d'.tiers.l2c = d.tiers.l2c) (off len : Nat) :
    d'.badSectors off len = d.badSectors off len := by
  unfold badSectors inL2
  rw [hb, hc]

/-- What a read of a line without error leaves: the device has at most counted corrections and taken the line into the L2. -/
theorem readLine_clean {l : Nat} (hl2 : l ∉ d.tiers.l2err) (hbad : d.badSectors (l * 128) 128 = []) :
    d.readLine (l * 128) 128 = (false, (d.l2Fill l).l2Hold l false) := by
  have hbad' : (d.l2Fill l).badSectors (l * 128) 128 = [] := (badSectors_congr (by simp) (by simp) _ _).trans hbad
  simp [readLine, l2Report, hl2, hbad']

/-- A write of a whole line covers every sector that it touches (R237). -/
theorem badPartials_line (d : Dev) (l : Nat) : d.badPartials (l * 128) 128 = [] := by
  unfold badPartials badSectors
  split
  · rfl
  · simp only [List.filter_filter, List.filter_eq_nil_iff, sectorIn, sectorWhole, Bool.and_eq_true, Bool.not_eq_true',
      Bool.and_eq_false_iff, decide_eq_true_eq, decide_eq_false_iff_not]
    omega

@[simp] theorem writeLine_line_coh (d : Dev) (l : Nat) : (d.writeLine (l * 128) 128).2.coh = d.coh := by
  unfold writeLine
  simp only [if_true, badPartials_line]
  split <;> simp [clearBad]

/-! ### Errors and queues -/

@[simp] theorem modCoh_badSectors (d : Dev) (f : Coh → Coh) (off len : Nat) : (d.modCoh f).badSectors off len = d.badSectors off len := rfl
@[simp] theorem strike_out (d : Dev) (e : Ecc) : (d.strike e).out = d.out := rfl

/-- Where no error arises, those found before stand (R234 to R236). -/
@[simp] theorem strike_clean_l2err (d : Dev) : (d.strike {}).tiers.l2err = d.tiers.l2err := by
  simp [strike, List.eraseDups]

@[simp] theorem strike_clean_badSectors (d : Dev) (off len : Nat) : (d.strike {}).badSectors off len = d.badSectors off len :=
  badSectors_congr (by simp [strike, List.eraseDups]) (by simp [strike, Tab.keep]) off len

/-- With nothing queued and no acknowledgment held, applying the queue leaves no change but the empty queues (R299, R300). -/
theorem applyInv_nothing {a : Nat} (hq : Tab.getD d.coh.invq a [] = []) (hh : Tab.getD d.coh.held a [] = []) :
    d.applyInv a true = d.modCoh (fun c => { c with invq := Tab.del c.invq a, held := Tab.del c.held a }) := by
  simp [applyInv, hq, hh, each, Tab.set]

/-- With no entry in the directory none is evicted (R296). -/
theorem evicting_of_dir_nil (h : d.coh.dir = []) (l : Nat) : d.evicting l = false := by
  simp [evicting, h]

theorem setVictim_of_dir_nil (h : d.coh.dir = []) (l : Nat) : d.setVictim l = (none, d) := by
  simp [setVictim, h]

/-- An agent may be granted a line at once: it lives and has a place for the line, of which it holds no copy, the line waits for nothing and
is not LOST, its stack serves and is awake, and no entry stands in the directory. -/
structure Grantable (d : Dev) (a l : Nat) : Prop where
  agent : a < 124
  line : l < windowSize / 128
  live : d.isDead a = false
  noCopy : d.copyOf a l = none
  idle : d.lineBusy l = false
  served : d.l2Refuses l = none
  awake : d.stackSleeps l = false
  room : d.roomFor a l = true
  kept : l ∉ d.coh.lost
  noEntry : d.coh.dir = []

theorem Grantable.strike {a l : Nat} (h : d.Grantable a l) (e : Ecc) : (d.strike e).Grantable a l :=
  ⟨h.agent, h.line, h.live, h.noCopy, h.idle, h.served, h.awake, h.room, h.kept, h.noEntry⟩

end Dev

namespace L2State
variable {s : L2State} {a l ctx : Nat}

/-! ### Requests of agents (R293, R296, R300) -/

theorem applyAll_nothing (hq : Tab.getD s.dev.coh.invq a [] = []) (hh : Tab.getD s.dev.coh.held a [] = []) :
    s.applyAll a = s.onDev (fun d => d.modCoh (fun c => { c with invq := Tab.del c.invq a, held := Tab.del c.held a })) := by
  simp [applyAll, onDev, Dev.applyInv_nothing hq hh]

/-- An agent without a copy has none of another context to drop (R293). -/
theorem retag_of_noCopy (h : s.dev.copyOf a l = none) : s.retag a l ctx = s := by
  simp [retag, h]

theorem retag_of_sameContext {c : Copy} (h : s.dev.copyOf a l = some c) (hc : c.ctx = ctx) : s.retag a l ctx = s := by
  simp [retag, h, hc]

/-- An agent with a place for the line gives up no other (R291). -/
theorem makeRoom_of_room (h : s.dev.roomFor a l = true) : s.makeRoom a l = s := by
  simp [makeRoom, h]

/-- A line that may be granted waits for no other entry to leave, and its slice serves the request at once. -/
theorem take_of_grantable {r : DirReq} (h : s.dev.Grantable a r.line) (hr : r.agent = some a) : s.take r = s.serveAgent r := by
  have hwith : s.withEntry r (fun s => s.serveAgent r) = s.serveAgent r := by
    simp [withEntry, Dev.evicting_of_dir_nil h.noEntry, Dev.setVictim_of_dir_nil h.noEntry]
  cases r with
  | gets | getm | wfull => simp [take, h.idle, h.served, h.awake, h.kept, h.noEntry, Tab.look, hwith]
  | hread | hwrite | hatom | evict => simp [DirReq.agent] at hr

/-- A live agent with a place for the line asks its slice: no copy is dropped first, and none given up. -/
theorem request_gets_of_grantable (h : s.dev.Grantable a l) : s.request (.gets a l ctx) = s.serveAgent (.gets a l ctx) := by
  have ha : ¬ 124 < a := by have := h.agent; omega
  have hl : ¬ windowSize / 128 ≤ l := Nat.not_le.2 h.line
  simp only [request, h.live, ha, hl, decide_false, Bool.or_self, Bool.false_eq_true, if_false, retag_of_noCopy h.noCopy,
    makeRoom_of_room h.room, h.room, if_true]
  exact take_of_grantable h rfl

theorem grantable_applyAll (h : s.dev.Grantable a l) (hq : Tab.getD s.dev.coh.invq a [] = []) (hh : Tab.getD s.dev.coh.held a [] = []) :
    (s.applyAll a).dev.Grantable a l := by
  rw [applyAll_nothing hq hh]
  exact ⟨h.agent, h.line, h.live, h.noCopy, h.idle, h.served, h.awake, h.room, h.kept, h.noEntry⟩

/-- A request to write applies what is queued first, which frees no acknowledgment where none is held (R300). -/
theorem request_write_of_grantable {r : DirReq} (hr : (∃ op, r = .getm a l ctx op) ∨ ∃ data, r = .wfull a l ctx data)
    (h : s.dev.Grantable a l) (hq : Tab.getD s.dev.coh.invq a [] = []) (hh : Tab.getD s.dev.coh.held a [] = []) :
    s.request r = (s.applyAll a).serveAgent r := by
  have ha : ¬ 124 < a := by have := h.agent; omega
  have hl : ¬ windowSize / 128 ≤ l := Nat.not_le.2 h.line
  have h' := grantable_applyAll h hq hh
  rcases hr with ⟨op, rfl⟩ | ⟨data, rfl⟩ <;>
  · simp only [request, h.live, ha, hl, decide_false, Bool.or_self, Bool.false_eq_true, if_false, retag_of_noCopy h'.noCopy,
      makeRoom_of_room h'.room, h'.room, if_true]
    exact take_of_grantable h' rfl

/-- GETS of a line in I, without error, is granted in E with the bytes of memory (R296). -/
theorem serveAgent_gets (hd : s.dev.coh.dir = []) (he : l ∉ s.dev.tiers.l2err) (hb : s.dev.badSectors (l * 128) 128 = []) :
    s.serveAgent (.gets a l ctx) = s.onDev (fun d =>
      (((d.l2Fill l).l2Hold l false).grantLine a l ctx 2 (s.line l)).setDir l 2 (1 <<< a)) := by
  simp [serveAgent, DirReq.line, Dev.readLine_clean he hb, hd, Tab.look, onDev, line]

/-- GETM of a line in I, without error, is granted in M with the access made to the bytes of memory (R296, R298). -/
theorem serveAgent_getm {op : L1Op} (hd : s.dev.coh.dir = []) (he : l ∉ s.dev.tiers.l2err) (hb : s.dev.badSectors (l * 128) 128 = []) :
    s.serveAgent (.getm a l ctx op) = s.onDev (fun d =>
      (((d.l2Fill l).l2Hold l false).grantLine a l ctx 3 (op.on (s.line l))).setDir l 3 (1 <<< a)) := by
  simp [serveAgent, DirReq.line, Dev.readLine_clean he hb, hd, Tab.look, onDev, line]

/-- WFULL of a line in I is granted in M with the bytes written (R296). -/
theorem serveAgent_wfull {data : Bytes} : s.serveAgent (.wfull a l ctx data) = s.onDev (fun d =>
    (d.grantLine a l ctx 3 data).setDir l 3 (1 <<< a)) := rfl

/-- GETM of the owner of an M line: the access is made to its own copy (R296, R298). -/
theorem take_getm_of_owner {op : L1Op} {c : Copy} (ha : a < 124) (hc : s.dev.copyOf a l = some c)
    (hd : Tab.look s.dev.coh.dir l = some { st := 3, agents := 1 <<< a }) (hb : s.dev.lineBusy l = false)
    (hr : s.dev.l2Refuses l = none) (hs : s.dev.stackSleeps l = false) (hl : l ∉ s.dev.coh.lost) :
    s.take (.getm a l ctx op) = s.onDev (fun d => (d.grantLine a l ctx 3 (op.on c.data)).setDir l 3 (1 <<< a)) := by
  simp [take, DirReq.line, hb, hr, hs, hl, hd, hc, Dev.agentsOf_shiftLeft (show a < 128 by omega), onDev]

theorem request_getm_of_owner {op : L1Op} {c : Copy} (ha : a < 124) (hw : l < windowSize / 128) (hlive : s.dev.isDead a = false)
    (hc : s.dev.copyOf a l = some c) (hx : c.ctx = ctx)
    (hd : Tab.look s.dev.coh.dir l = some { st := 3, agents := 1 <<< a }) (hb : s.dev.lineBusy l = false)
    (hr : s.dev.l2Refuses l = none) (hs : s.dev.stackSleeps l = false) (hl : l ∉ s.dev.coh.lost)
    (hq : Tab.getD s.dev.coh.invq a [] = []) (hh : Tab.getD s.dev.coh.held a [] = []) :
    s.request (.getm a l ctx op) =
      (s.applyAll a).onDev (fun d => (d.grantLine a l ctx 3 (op.on c.data)).setDir l 3 (1 <<< a)) := by
  have ha' : ¬ 124 < a := by omega
  have hw' : ¬ windowSize / 128 ≤ l := Nat.not_le.2 hw
  have hc' : (s.applyAll a).dev.copyOf a l = some c := by rw [applyAll_nothing hq hh]; exact hc
  have hroom : (s.applyAll a).dev.roomFor a l = true := by simp [Dev.roomFor, hc']
  simp only [request, hlive, ha', hw', decide_false, Bool.or_self, Bool.false_eq_true, if_false, retag_of_sameContext hc' hx,
    makeRoom_of_room hroom, hroom, if_true]
  refine take_getm_of_owner ha hc' ?_ ?_ ?_ ?_ ?_ <;> rw [applyAll_nothing hq hh] <;> assumption

/-! ### Write-backs (R32, R239, R296) -/

/-- With nothing waiting nothing is taken again. -/
theorem retryAll_of_blocked_nil (h : s.dev.coh.blocked = []) : s.retryAll = s := by
  have hcoh : { s.dev.coh with blocked := [] } = s.dev.coh := by rw [← h]
  simp [retryAll, h, onDev, Dev.modCoh, hcoh]

/-- A clean copy has nothing to write back. -/
theorem writeBack_of_clean {c : Copy} (hc : s.dev.copyOf a l = some c) (hst : c.st ≠ 3) : s.writeBack a l = s := by
  unfold writeBack
  split <;> simp_all

/-- A slice that refuses the line takes no data. -/
theorem writeBack_of_refused {st : Nat} (h : s.dev.l2Refuses l = some st) : s.writeBack a l = s := by
  simp [writeBack, h]

theorem writeBack_of_dirty {c : Copy} (hc : s.dev.copyOf a l = some c) (hst : c.st = 3) (h : s.dev.l2Refuses l = none) :
    s.writeBack a l = { s with mem := s.mem.write (l * 128) c.data, dev := (s.dev.writeLine (l * 128) 128).2 } := by
  simp [writeBack, h, hc, hst]

/-- A write-back that no snoop waits for: the data goes to the L2, and copy and entry go (R296). -/
theorem put_of_no_snoop {c : Copy} {dirty : Bool} (hc : s.dev.copyOf a l = some c) (hst : c.st = if dirty then 3 else 2)
    (hlive : s.dev.isDead a = false) (hr : s.dev.l2Refuses l ≠ some St.unmapped) (hs : s.dev.coh.snoops = []) :
    s.put a l dirty = ((s.writeBack a l).onDev (fun d => (d.dropCopy a l).setDir l 0 0)).retryAll := by
  simp [put, hc, hst, hlive, hr, hs]

/-- A quadrant below SL-M takes no write-back, and the agent hears so (R32, log 153). -/
theorem put_refused {c : Copy} {dirty : Bool} (hc : s.dev.copyOf a l = some c) (hst : c.st = if dirty then 3 else 2)
    (hlive : s.dev.isDead a = false) (hr : s.dev.l2Refuses l = some St.unmapped) :
    s.put a l dirty = s.onDev (fun d => d.emit (.refuse a l St.unmapped)) := by
  simp [put, hc, hst, hlive, hr]

/-- DIRTY_NOTICE of a live owner of an E line makes its copy and the entry M (R295). -/
theorem dirty_of_owner {c : Copy} {data : Bytes} (hc : s.dev.copyOf a l = some c) (hst : c.st = 2) (hlive : s.dev.isDead a = false) :
    s.dirty a l data = s.onDev (fun d =>
      (d.modCoh (fun x => { x with copies := Tab.put x.copies (copyKey a l) { c with st := 3, data := padTo 128 data } })).setDir l 3 (1 <<< a)) := by
  simp [dirty, hc, hst, hlive]

end L2State

/-- What runs at the L2 and answers nothing leaves its memory and its device. -/
theorem runL2_of_done_nil {f : L2State → L2State} {m : Memory} {d : Dev} (h : (f { mem := m, dev := d }).done = []) :
    runL2 f m d = ((f { mem := m, dev := d }).mem, (f { mem := m, dev := d }).dev) := by
  simp [runL2, h]

/-- A command that runs at the L2 and answers nothing there completes. -/
theorem runs_of_runL2 {c : Instr} {s : State} {P : State → Prop} {f : L2State → L2State} {d : Dev} {r : L2State}
    (he : exec c s = .next { s with mem := (runL2 f s.mem d).1, dev := (runL2 f s.mem d).2 })
    (hr : f { mem := s.mem, dev := d } = r) (hdone : r.done = []) (hP : P { s with mem := r.mem, dev := r.dev }) : Runs c s P := by
  subst hr
  rw [runL2_of_done_nil hdone] at he
  exact ⟨_, he, hP⟩

end Sys2Proof.Machine
end

section
/-! Agents take lines and give them up: the clauses of O15 one by one. Each holds as it stands but that of WFULL, which is proved here under
the premise of GETM's that it lacks: the agent holds no acknowledgment back. -/

namespace Sys2Proof.Machine

variable {s : State} {a l : Nat}

theorem gets_grants_exclusive {ctx : Nat} (h : s.dev.Grantable a l) (he : l ∉ s.dev.tiers.l2err)
    (hb : s.dev.badSectors (l * 128) 128 = []) :
    Runs (.gets a l { ctx := ctx }) s (fun t => t.mem = s.mem ∧ Tab.look t.dev.coh.dir l = some { st := 2, agents := 1 <<< a } ∧
      t.dev.out = s.dev.out ++ [.grant a l 2 (s.mem.read (l * 128) 128)]) := by
  refine runs_of_runL2 (d := s.dev.strike {}) rfl ((L2State.request_gets_of_grantable (h.strike {})).trans
    (L2State.serveAgent_gets h.noEntry (by simpa using he) (by simpa using hb))) rfl ⟨rfl, ?_, ?_⟩
  · exact Dev.look_dir_setDir _ l (by decide) (one_shiftLeft_ne_zero a)
  · simp [L2State.onDev, L2State.line]

theorem getm_grants_modified {w : AgentAccess} {data : Bytes} (hw : w.found = {}) (h : s.dev.Grantable a l) (he : l ∉ s.dev.tiers.l2err)
    (hb : s.dev.badSectors (l * 128) 128 = []) (hq : Tab.getD s.dev.coh.invq a [] = []) (hh : Tab.getD s.dev.coh.held a [] = []) :
    Runs (.getm a l w data) s (fun t => t.mem = s.mem ∧ Tab.look t.dev.coh.dir l = some { st := 3, agents := 1 <<< a } ∧
      t.dev.out = s.dev.out ++ [.grant a l 3 (L1Op.on { off := w.off, data := data, atomic := w.atomic } (s.mem.read (l * 128) 128))]) := by
  have hr := L2State.request_write_of_grantable (s := { mem := s.mem, dev := s.dev.strike w.found }) (ctx := w.ctx)
    (.inl ⟨{ off := w.off, data := data, atomic := w.atomic }, rfl⟩) (h.strike _) hq hh
  rw [L2State.applyAll_nothing hq hh, L2State.serveAgent_getm h.noEntry (by simpa [L2State.onDev, hw] using he)
    (by simpa [L2State.onDev, hw] using hb)] at hr
  refine runs_of_runL2 (d := s.dev.strike w.found) rfl hr rfl ⟨rfl, ?_, ?_⟩
  · exact Dev.look_dir_setDir _ l (by decide) (one_shiftLeft_ne_zero a)
  · simp [L2State.onDev, L2State.line]

theorem getm_by_owner_acts_on_its_copy {w : AgentAccess} {data : Bytes} {c : Copy} (ha : a < 124) (hw : l < windowSize / 128)
    (hlive : s.dev.isDead a = false) (hc : s.dev.copyOf a l = some c) (hx : c.ctx = w.ctx)
    (hd : Tab.look s.dev.coh.dir l = some { st := 3, agents := 1 <<< a }) (hb : s.dev.lineBusy l = false)
    (hr : s.dev.l2Refuses l = none) (hs : s.dev.stackSleeps l = false) (hl : l ∉ s.dev.coh.lost)
    (hq : Tab.getD s.dev.coh.invq a [] = []) (hh : Tab.getD s.dev.coh.held a [] = []) :
    Runs (.getm a l w data) s (fun t => t.mem = s.mem ∧
      t.dev.copyOf a l = some { c with st := 3, data := padTo 128 (L1Op.on { off := w.off, data := data, atomic := w.atomic } c.data) }) := by
  have hrun := L2State.request_getm_of_owner (s := { mem := s.mem, dev := s.dev.strike w.found })
    (op := { off := w.off, data := data, atomic := w.atomic }) ha hw hlive hc hx hd hb hr hs hl hq hh
  rw [L2State.applyAll_nothing hq hh] at hrun
  refine runs_of_runL2 (d := s.dev.strike w.found) rfl hrun rfl ⟨rfl, ?_⟩
  simp [L2State.onDev, hx]

theorem wfull_grants_modified {ctx : Nat} {data : Bytes} (h : s.dev.Grantable a l) (hq : Tab.getD s.dev.coh.invq a [] = [])
    (hh : Tab.getD s.dev.coh.held a [] = []) :
    Runs (.wfull a l ctx data) s (fun t => t.mem = s.mem ∧ Tab.look t.dev.coh.dir l = some { st := 3, agents := 1 <<< a } ∧
      (Tab.look t.dev.coh.copies (copyKey a l)).map (·.data) = some (padTo 128 data)) := by
  have hr := L2State.request_write_of_grantable (s := { mem := s.mem, dev := s.dev }) (ctx := ctx) (.inr ⟨padTo 128 data, rfl⟩) h hq hh
  rw [L2State.applyAll_nothing hq hh, L2State.serveAgent_wfull] at hr
  refine runs_of_runL2 rfl hr rfl ⟨rfl, Dev.look_dir_setDir _ l (by decide) (one_shiftLeft_ne_zero a), ?_⟩
  have hcopy := Dev.copyOf_grantLine (s.dev.modCoh (fun c => { c with invq := Tab.del c.invq a, held := Tab.del c.held a })) a l ctx 3
    (padTo 128 data)
  rw [padTo_padTo] at hcopy
  exact congrArg (Option.map Copy.data) hcopy

theorem pute_gives_up {c : Copy} (hc : s.dev.copyOf a l = some c) (hst : c.st = 2) (hlive : s.dev.isDead a = false)
    (hr : s.dev.l2Refuses l ≠ some St.unmapped) (hs : s.dev.coh.snoops = []) (hb : s.dev.coh.blocked = []) :
    Runs (.pute a l) s (fun t => t.mem = s.mem ∧ Tab.look t.dev.coh.dir l = none ∧ t.dev.copyOf a l = none) := by
  have hput := L2State.put_of_no_snoop (s := { mem := s.mem, dev := s.dev }) (dirty := false) hc hst hlive hr hs
  rw [L2State.writeBack_of_clean hc (by omega), L2State.retryAll_of_blocked_nil hb] at hput
  exact runs_of_runL2 rfl hput rfl ⟨rfl, by simp [L2State.onDev], by simp [L2State.onDev]⟩

/-- PUTM where the slice takes the data. -/
theorem putm_writes_back {c : Copy} (hc : s.dev.copyOf a l = some c) (hst : c.st = 3) (hlive : s.dev.isDead a = false)
    (hr : s.dev.l2Refuses l = none) (hs : s.dev.coh.snoops = []) (hb : s.dev.coh.blocked = []) :
    Runs (.putm a l) s (fun t => t.mem = s.mem.write (l * 128) c.data ∧ Tab.look t.dev.coh.dir l = none ∧ t.dev.copyOf a l = none) := by
  have hput := L2State.put_of_no_snoop (s := { mem := s.mem, dev := s.dev }) (dirty := true) hc hst hlive (by simp [hr]) hs
  rw [L2State.writeBack_of_dirty hc hst hr, L2State.retryAll_of_blocked_nil (by simpa [L2State.onDev] using hb)] at hput
  exact runs_of_runL2 rfl hput rfl ⟨rfl, by simp [L2State.onDev], by simp [L2State.onDev]⟩

/-- PUTM where the stack has FAILED. -/
theorem putm_of_failed_stack {c : Copy} (hc : s.dev.copyOf a l = some c) (hst : c.st = 3) (hlive : s.dev.isDead a = false)
    (hr : s.dev.l2Refuses l = some St.ecc) (hs : s.dev.coh.snoops = []) (hb : s.dev.coh.blocked = []) :
    Runs (.putm a l) s (fun t => t.mem = s.mem ∧ Tab.look t.dev.coh.dir l = none ∧ t.dev.copyOf a l = none) := by
  have hput := L2State.put_of_no_snoop (s := { mem := s.mem, dev := s.dev }) (dirty := true) hc hst hlive (by rw [hr]; decide) hs
  rw [L2State.writeBack_of_refused hr, L2State.retryAll_of_blocked_nil hb] at hput
  exact runs_of_runL2 rfl hput rfl ⟨rfl, by simp [L2State.onDev], by simp [L2State.onDev]⟩

/-- PUTM where the quadrant stands below SL-M. -/
theorem putm_of_refused {c : Copy} (hc : s.dev.copyOf a l = some c) (hst : c.st = 3) (hlive : s.dev.isDead a = false)
    (hr : s.dev.l2Refuses l = some St.unmapped) :
    Runs (.putm a l) s (fun t => t.mem = s.mem ∧ t.dev.coh = s.dev.coh ∧ t.dev.out = s.dev.out ++ [.refuse a l St.unmapped]) :=
  runs_of_runL2 rfl (L2State.put_refused (s := { mem := s.mem, dev := s.dev }) (dirty := true) hc hst hlive hr) rfl ⟨rfl, rfl, rfl⟩

theorem dirtyNotice_makes_modified {c : Copy} {data : Bytes} (hc : s.dev.copyOf a l = some c) (hst : c.st = 2)
    (hlive : s.dev.isDead a = false) :
    Runs (.dirtyNotice a l data) s (fun t => t.mem = s.mem ∧ Tab.look t.dev.coh.dir l = some { st := 3, agents := 1 <<< a } ∧
      t.dev.copyOf a l = some { c with st := 3, data := padTo 128 data }) :=
  runs_of_runL2 rfl (L2State.dirty_of_owner (s := { mem := s.mem, dev := s.dev }) hc hst hlive) rfl
    ⟨rfl, Dev.look_dir_setDir _ l (by decide) (one_shiftLeft_ne_zero a), Tab.look_put_same _ _ _⟩

end Sys2Proof.Machine
end

section
/-! A write of a home waits for an acknowledgment that the agent of a WFULL holds back (O15). -/

namespace Sys2Proof.Machine

/-- Agent 0 holds back its acknowledgment for line 1, though no invalidation is queued there, and a home's write of that line waits for it. By
R299 an acknowledgment is held back only behind a full queue and moves up as that drains; the premises of O15's WFULL clause do not say so. -/
def heldWithoutQueue : State :=
  { State.reset with
    dev := { State.reset.dev with
      regs := [(Reg.hbmState 0, 2), (Reg.svcQuadLevel, 2)],
      coh := { held := [(0, [1])], posted := [(0, 1)], blocked := [.hwrite .home 128 [1]] } } }

theorem heldWithoutQueue_served : heldWithoutQueue.dev.l2Refuses 0 = none := by decide

theorem heldWithoutQueue_room : heldWithoutQueue.dev.roomFor 0 0 = true := by decide

/-- The WFULL of line 0 gives the acknowledgment first (R300), and the home's write of line 1 is made. -/
theorem wfull_heldWithoutQueue {t : State} (e : exec (.wfull 0 0 0 []) heldWithoutQueue = .next t) : t.mem.byte 128 = 1 := by
  cases e
  decide +kernel

/-- Refutes O15: its WFULL clause says that no byte of tier H changes, without the premise of its GETM clauses that the agent holds no
acknowledgment back; where it does, a write that waits for that acknowledgment is made with the WFULL. -/
theorem not_agentsTakeAndGiveLines : ¬ Obligations.AgentsTakeAndGiveLines := by
  unfold Obligations.AgentsTakeAndGiveLines
  rintro ⟨-, -, -, hwfull, -⟩
  obtain ⟨t, hrun, hmem, -⟩ := hwfull heldWithoutQueue 0 0 0 [] (by decide) (by decide) (by decide) rfl (by decide)
    heldWithoutQueue_served (by decide) heldWithoutQueue_room (by decide) rfl rfl
  have hbyte := wfull_heldWithoutQueue hrun
  rw [hmem] at hbyte
  exact absurd hbyte (by decide)

end Sys2Proof.Machine
end

section
/-! A line number beyond the window names another agent's copy (O19): nothing bounds the line of AGENT_DEAD's clause. -/

namespace Sys2Proof.Machine

/-- Agent 0 is overdue at slice 0, of which it holds line 0 in S, and the directory names it the owner of line 2^33, which is no line
of the window (R228). Agent 1 holds line 0 in S as well; its copy's key, 1 × 2^33 + 0, is that of line 2^33 for agent 0. The
premises of O19's AGENT_DEAD clause do not bound the line. -/
def ownerOfFarLine : State :=
  { State.reset with
    dev := { State.reset.dev with
      regs := [(Reg.tickCount, 5)],
      coh := { dir := [(2 ^ 33, { st := 3, agents := 1 <<< 0 })],
               copies := [(copyKey 0 0, { st := 1, ctx := 0, data := [] }), (copyKey 1 0, { st := 1, ctx := 0, data := [] })],
               beats := [(0 * 4 + 0, 0)] } } }

theorem ownerOfFarLine_overdue : ownerOfFarLine.dev.overdue 0 = true := by decide

/-- The copy of a far line of one agent is that of a line of the next agent. -/
theorem Dev.copyOf_far (d : Dev) (a l : Nat) : d.copyOf a (2 ^ 33 + l) = d.copyOf (a + 1) l := by
  rw [copyOf, copyOf, copyKey, copyKey, show a * 2 ^ 33 + (2 ^ 33 + l) = (a + 1) * 2 ^ 33 + l by omega]

/-- The death of agent 0 leaves the copies of agent 1. -/
theorem agentDead_ownerOfFarLine {t : State} (e : exec (.agentDead 0) ownerOfFarLine = .next t) :
    t.dev.copyOf 1 0 = some { st := 1, ctx := 0, data := [] } := by
  rw [onMem_next (f := Dev.agentDead 0) e]
  decide +kernel

/-- Refutes O19: its AGENT_DEAD clause takes any line number, and says that the dead agent has no copy of it; where the number is 2^33, past
every line of the window, that copy is agent 1's copy of line 0, which stays. -/
theorem not_stacksDiesAndAgentsFail : ¬ Obligations.StacksDiesAndAgentsFail := by
  unfold Obligations.StacksDiesAndAgentsFail
  rintro ⟨-, -, -, -, hdead, -⟩
  obtain ⟨t, hrun, -, -, -, -, hnone⟩ :=
    hdead ownerOfFarLine 0 (2 ^ 33) (by decide) ownerOfFarLine_overdue rfl rfl rfl rfl rfl
  rw [show (2 ^ 33 : Nat) = 2 ^ 33 + 0 from rfl, Dev.copyOf_far, agentDead_ownerOfFarLine hrun] at hnone
  exact absurd hnone (by simp)

end Sys2Proof.Machine
end

section
/-! An entry listed twice (O43): nothing says that the dictionary is canonical in QUAD_OFF_SET's clause. -/

namespace Sys2Proof.Machine

/-- A powered block with one management session, whose dictionary lists the state of port 0 twice: DISABLED, which is what the entry reads, and
DETECT behind it, by which the port counts among those that are not DISABLED. No command makes it from a canonical one (O49), which the
premises of O43's QUAD_OFF_SET clause do not ask for. -/
def portListedTwice : State :=
  { State.reset with
    dev := { State.reset.dev with
      power := { State.reset.dev.power with on := true },
      mgmt := { State.reset.dev.mgmt with cmp := [(0, { state := 2 })] },
      regs := [(Reg.portState 0, 0), (Reg.portState 0, 1)] } }

theorem portListedTwice_disabled : portListedTwice.dev.portState 0 = 0 := by decide

theorem portListedTwice_live : 0 ∈ portListedTwice.dev.liveList := by decide

theorem portListedTwice_mayWrite : portListedTwice.dev.mayWriteKey 0 Reg.quadOff = true := by decide

theorem portListedTwice_idle : portListedTwice.dev.quadBusy 0 = false := by decide

/-- QUAD_OFF_SET's device is what the write of 0x9000:18 leaves. -/
theorem execQuadOffSet_dev {acc q : Nat} {s t : State} (e : exec (.quadOffSet acc q) s = .next t) :
    t.dev = s.dev.writeKey acc Reg.quadOff (fun d =>
      d.orReject (if q < 4 then d.quadOffWrite (setBit (d.reg Reg.quadOff) q true) else none)) := by
  cases e
  rfl

/-- A DISABLED port is in electrical idle (R102): quadrant 0 goes OFF and port 0 sends no DYING. -/
theorem quadOffSet_portListedTwice {t : State} (e : exec (.quadOffSet 0 0) portListedTwice = .next t) : t.dev.out = [] := by
  rw [execQuadOffSet_dev e]
  decide +kernel

/-- Refutes O43: its QUAD_OFF_SET clause asks for a DYING flit of every port that the dictionary lists as not DISABLED, whatever its state entry
reads; with the entry listed twice, 0 first, port 0 reads DISABLED and sends none. -/
theorem not_selfTestQuadrantsAndRungs : ¬ Obligations.SelfTestQuadrantsAndRungs := by
  unfold Obligations.SelfTestQuadrantsAndRungs
  rintro ⟨-, -, -, -, -, hoff, -⟩
  obtain ⟨t, hrun, -, -, -, -, -, hdying⟩ :=
    hoff portListedTwice 0 0 portListedTwice_mayWrite (by decide) (by decide) (by decide) portListedTwice_idle
  obtain ⟨l, f, hmem, -⟩ := hdying 0 portListedTwice_live rfl (.inl (by rw [portListedTwice_disabled]; decide))
  rw [quadOffSet_portListedTwice hrun] at hmem
  exact absurd hmem (by simp)

end Sys2Proof.Machine
end

section
/-! A step runs the front command (O44). -/

namespace Sys2Proof.Machine

/-- No row of the table has bits, so no word spells a command (log 28). -/
theorem decodeTableWord_eq_none (nbits w : Nat) : decodeTableWord nbits w = none := rfl

/-- Settles O44: the step's two branches, by the queue. -/
theorem stepRunsTheFrontCommand : Obligations.StepRunsTheFrontCommand := by
  unfold Obligations.StepRunsTheFrontCommand
  refine ⟨fun s c rest hq => ?_, fun s hq => ?_, decodeTableWord_eq_none⟩
  · rw [step, hq]
  · rw [step, hq]

end Sys2Proof.Machine
end

section
/-! A port number beyond the last names another entry (O46): nothing bounds the port in the clause of the DISABLED ports. -/

namespace Sys2Proof.Machine

/-- The number under which HEALTH_ENABLE (0x7020:01) reads as the state of a port. -/
def healthPort : Nat := 0x7020 - 0x2200

theorem portState_healthPort : Reg.portState healthPort = Reg.healthEnable := by decide

/-- Refutes O46: the clause asks for state DISABLED of every number, and under 0x7020 - 0x2200 the state entry is HEALTH_ENABLE, 1 at reset. -/
theorem not_resetMeetsTheInvariants : ¬ Obligations.ResetMeetsTheInvariants := by
  unfold Obligations.ResetMeetsTheInvariants
  rintro ⟨-, -, -, -, -, -, hports, -⟩
  have hp : State.reset.dev.portState healthPort = 0 := hports healthPort
  rw [Dev.portState, portState_healthPort] at hp
  exact absurd hp (by decide +kernel)

end Sys2Proof.Machine
end

section
/-! A group beyond the last quadrant counts its exclusions in another entry (O1): nothing bounds the quadrant of a group in the state. -/

namespace Sys2Proof.Machine

theorem execTickEdge_dev {m : EdgeMeas} {s t : State} (e : exec (.tickEdge m) s = .next t) : t.dev = s.dev.tickEdge s.mem m := by
  cases e
  rfl

/-- An ACTIVE group of one contributor, FEID 3, whose policy excludes, on a quadrant whose EXCLUSIONS counter would stand at TICK_COUNT. -/
def farInstance : Inst := { desc := 2 ^ 24 + 2 ^ 64, contribs := [3], quad := Reg.tickCount - Reg.exclusions 0, state := 2 }

theorem exclusions_farInstance : Reg.exclusions farInstance.quad = Reg.tickCount := by decide

/-- A powered block whose ENDPOINT port 0, to FEID 3, is below the threshold of R518. -/
def expellingPort : State :=
  { dev := { regs := [(Reg.portState 0, 6), (Reg.portRole 0, 0), (Reg.portExpectFeid 0, 3), (Reg.mgmtRole, 0)], power := { on := true },
             health := { items := [(0, { score := 0, state := 2 })] }, yar := { insts := [(0, farInstance)] } } }

/-- The edge expels port 0 (R519), so the group excludes FEID 3 (R386), and the count goes to TICK_COUNT. -/
theorem tickEdge_expellingPort : (expellingPort.dev.tickEdge expellingPort.mem {}).tick = 2 := by decide +kernel

/-- Refutes O1: where a group's quadrant is such that its EXCLUSIONS counter is TICK_COUNT, the edge that expels its contributor's port
advances the tick by two. -/
theorem not_tickEdgeAdvancesByOne : ¬ Obligations.TickEdgeAdvancesByOne := by
  unfold Obligations.TickEdgeAdvancesByOne
  rintro ⟨hedge, -⟩
  have hstate : expellingPort.dev.reg Reg.tickState ≠ 1 := by decide +kernel
  have htick : expellingPort.dev.tick = 0 := by decide +kernel
  obtain ⟨t, e, ht⟩ := hedge expellingPort {} rfl hstate (by omega)
  rw [execTickEdge_dev e, tickEdge_expellingPort, htick] at ht
  exact absurd ht (by decide)

end Sys2Proof.Machine
end

section
/-! A job beyond the last quadrant counts its failure in another entry (O37): nothing bounds the key of a job record in the state. -/

namespace Sys2Proof.Machine

theorem execCommitApply_dev {s t : State} (e : exec .commitApply s = .next t) : t.dev = s.dev.applyCommit.applyResync := by
  cases e
  rfl

/-- A job of composition 0. -/
def plainJob : Job := { pkt := { ptype := .jobPost }, reply := 0, admitTick := 0, bank := 1, halvings := 0 }

/-- The key of a job record whose quadrant's JOBS_FAILED counter would stand at an entry. -/
def failureKey (entry : Nat) : Nat := (entry - Reg.jobsFailed 0) * 256

theorem jobsFailed_failureKey_commitSeq : Reg.jobsFailed (failureKey Reg.commitSeq / 256) = Reg.commitSeq := by decide

/-- A commit of sequence 1 is announced for tick 0, and composition 0 is FREE and has a job. -/
def committing : State :=
  { dev := { commit := { announced := some (0, 1, 0) }, jobs := { recs := [(failureKey Reg.commitSeq, plainJob)] } } }

/-- At the commit's edge the FREE composition loses its job (R559), whose failure is counted in COMMIT_SEQ. -/
theorem applyCommit_committing : committing.dev.applyCommit.applyResync.reg Reg.commitSeq = 2 := by decide +kernel

/-- Refutes O37: where a job's key is such that its quadrant's JOBS_FAILED counter is COMMIT_SEQ, the edge of a commit that frees the job's
composition leaves COMMIT_SEQ one above the commit's sequence. -/
theorem not_commitSequence : ¬ Obligations.CommitSequence := by
  unfold Obligations.CommitSequence
  rintro ⟨-, -, -, -, -, -, -, -, -, -, -, -, -, -, -, happly, -⟩
  obtain ⟨t, e, -, -, -, hseq, -⟩ := happly committing 0 1 0 rfl (Nat.zero_le _)
  rw [execCommitApply_dev e, applyCommit_committing] at hseq
  exact absurd hseq (by decide)

end Sys2Proof.Machine
end

section
/-! SUPPORT. What a device may change: a scope names parts of it and entries of its dictionary, and `Within` says that two devices
differ nowhere else. -/

namespace Sys2Proof.Machine

/-- The parts of the device besides its dictionary. -/
inductive Part where
  | copies | out | freeCtr | dom | ports | cores | waiting | arbCls | crossing | paced | mcHeld | arbQuad | allowance | homes | l2 | groups
  | stepFences | backDebt | logs | health | power | mgmt | hostA | hostB | keys | sec | commit | meter | tiers | trans | coh | jobs | yar

/-- What may change: parts of the device, and keys of its dictionary. -/
structure Scope where
  part : Part → Bool
  key : Nat → Prop

/-- The second device differs from the first only within the scope. -/
structure Within (S : Scope) (d d' : Dev) : Prop where
  copies : ¬ S.part .copies → d'.copies = d.copies
  out : ¬ S.part .out → d'.out = d.out
  freeCtr : ¬ S.part .freeCtr → d'.freeCtr = d.freeCtr
  dom : ¬ S.part .dom → d'.dom = d.dom
  ports : ¬ S.part .ports → d'.ports = d.ports
  cores : ¬ S.part .cores → d'.cores = d.cores
  waiting : ¬ S.part .waiting → d'.waiting = d.waiting
  arbCls : ¬ S.part .arbCls → d'.arbCls = d.arbCls
  crossing : ¬ S.part .crossing → d'.crossing = d.crossing
  paced : ¬ S.part .paced → d'.paced = d.paced
  mcHeld : ¬ S.part .mcHeld → d'.mcHeld = d.mcHeld
  arbQuad : ¬ S.part .arbQuad → d'.arbQuad = d.arbQuad
  allowance : ¬ S.part .allowance → d'.allowance = d.allowance
  homes : ¬ S.part .homes → d'.homes = d.homes
  l2 : ¬ S.part .l2 → d'.l2 = d.l2
  groups : ¬ S.part .groups → d'.groups = d.groups
  stepFences : ¬ S.part .stepFences → d'.stepFences = d.stepFences
  backDebt : ¬ S.part .backDebt → d'.backDebt = d.backDebt
  logs : ¬ S.part .logs → d'.logs = d.logs
  health : ¬ S.part .health → d'.health = d.health
  power : ¬ S.part .power → d'.power = d.power
  mgmt : ¬ S.part .mgmt → d'.mgmt = d.mgmt
  hostA : ¬ S.part .hostA → d'.hostA = d.hostA
  hostB : ¬ S.part .hostB → d'.hostB = d.hostB
  keys : ¬ S.part .keys → d'.keys = d.keys
  sec : ¬ S.part .sec → d'.sec = d.sec
  commit : ¬ S.part .commit → d'.commit = d.commit
  meter : ¬ S.part .meter → d'.meter = d.meter
  tiers : ¬ S.part .tiers → d'.tiers = d.tiers
  trans : ¬ S.part .trans → d'.trans = d.trans
  coh : ¬ S.part .coh → d'.coh = d.coh
  jobs : ¬ S.part .jobs → d'.jobs = d.jobs
  yar : ¬ S.part .yar → d'.yar = d.yar
  reg : ∀ k, ¬ S.key k → d'.reg k = d.reg k
  regs : (∀ k, ¬ S.key k) → d'.regs = d.regs

/-- The device `d` with the parts chosen by `P`, and the dictionary, taken from `d'`. -/
def Dev.merge (P : Part → Bool) (d d' : Dev) : Dev where
  regs := d'.regs
  copies := bif P .copies then d'.copies else d.copies
  out := bif P .out then d'.out else d.out
  freeCtr := bif P .freeCtr then d'.freeCtr else d.freeCtr
  dom := bif P .dom then d'.dom else d.dom
  ports := bif P .ports then d'.ports else d.ports
  cores := bif P .cores then d'.cores else d.cores
  waiting := bif P .waiting then d'.waiting else d.waiting
  arbCls := bif P .arbCls then d'.arbCls else d.arbCls
  crossing := bif P .crossing then d'.crossing else d.crossing
  paced := bif P .paced then d'.paced else d.paced
  mcHeld := bif P .mcHeld then d'.mcHeld else d.mcHeld
  arbQuad := bif P .arbQuad then d'.arbQuad else d.arbQuad
  allowance := bif P .allowance then d'.allowance else d.allowance
  homes := bif P .homes then d'.homes else d.homes
  l2 := bif P .l2 then d'.l2 else d.l2
  groups := bif P .groups then d'.groups else d.groups
  stepFences := bif P .stepFences then d'.stepFences else d.stepFences
  backDebt := bif P .backDebt then d'.backDebt else d.backDebt
  logs := bif P .logs then d'.logs else d.logs
  health := bif P .health then d'.health else d.health
  power := bif P .power then d'.power else d.power
  mgmt := bif P .mgmt then d'.mgmt else d.mgmt
  hostA := bif P .hostA then d'.hostA else d.hostA
  hostB := bif P .hostB then d'.hostB else d.hostB
  keys := bif P .keys then d'.keys else d.keys
  sec := bif P .sec then d'.sec else d.sec
  commit := bif P .commit then d'.commit else d.commit
  meter := bif P .meter then d'.meter else d.meter
  tiers := bif P .tiers then d'.tiers else d.tiers
  trans := bif P .trans then d'.trans else d.trans
  coh := bif P .coh then d'.coh else d.coh
  jobs := bif P .jobs then d'.jobs else d.jobs
  yar := bif P .yar then d'.yar else d.yar

namespace Within
variable {S : Scope} {d₀ d : Dev}

theorem refl (S : Scope) (d : Dev) : Within S d d := by constructor <;> intros <;> rfl

theorem ite {c : Prop} [Decidable c] {d' : Dev} (h : Within S d₀ d) (h' : Within S d₀ d') : Within S d₀ (if c then d else d') := by
  split
  · exact h
  · exact h'

theorem eq_merge (h : Within S d₀ d) : d = d₀.merge S.part d := by
  have hbif {α : Type} {b : Bool} {x y : α} (e : ¬ b → x = y) : x = bif b then x else y := by cases b <;> simp_all
  obtain ⟨copies, out, freeCtr, dom, ports, cores, waiting, arbCls, crossing, paced, mcHeld, arbQuad, allowance, homes, l2, groups, stepFences,
      backDebt, logs, health, power, mgmt, hostA, hostB, keys, sec, commit, meter, tiers, trans, coh, jobs, yar, -, -⟩ := h
  cases d
  rw [Dev.merge, Dev.mk.injEq]
  exact ⟨rfl, hbif copies, hbif out, hbif freeCtr, hbif dom, hbif ports, hbif cores, hbif waiting, hbif arbCls, hbif crossing, hbif paced, hbif
      mcHeld, hbif arbQuad, hbif allowance, hbif homes, hbif l2, hbif groups, hbif stepFences, hbif backDebt, hbif logs, hbif health, hbif power, hbif
      mgmt, hbif hostA, hbif hostB, hbif keys, hbif sec, hbif commit, hbif meter, hbif tiers, hbif trans, hbif coh, hbif jobs, hbif yar⟩

theorem setOut (h : Within S d₀ d) (x) (hp : S.part .out := by assumption) : Within S d₀ { d with out := x } :=
  { h with out := fun n => absurd hp n }
theorem setFreeCtr (h : Within S d₀ d) (x) (hp : S.part .freeCtr := by assumption) : Within S d₀ { d with freeCtr := x } :=
  { h with freeCtr := fun n => absurd hp n }
theorem setDom (h : Within S d₀ d) (x) (hp : S.part .dom := by assumption) : Within S d₀ { d with dom := x } :=
  { h with dom := fun n => absurd hp n }
theorem setPorts (h : Within S d₀ d) (x) (hp : S.part .ports := by assumption) : Within S d₀ { d with ports := x } :=
  { h with ports := fun n => absurd hp n }
theorem setCores (h : Within S d₀ d) (x) (hp : S.part .cores := by assumption) : Within S d₀ { d with cores := x } :=
  { h with cores := fun n => absurd hp n }
theorem setGroups (h : Within S d₀ d) (x) (hp : S.part .groups := by assumption) : Within S d₀ { d with groups := x } :=
  { h with groups := fun n => absurd hp n }
theorem setLogs (h : Within S d₀ d) (x) (hp : S.part .logs := by assumption) : Within S d₀ { d with logs := x } :=
  { h with logs := fun n => absurd hp n }
theorem setHealth (h : Within S d₀ d) (x) (hp : S.part .health := by assumption) : Within S d₀ { d with health := x } :=
  { h with health := fun n => absurd hp n }
theorem setPower (h : Within S d₀ d) (x) (hp : S.part .power := by assumption) : Within S d₀ { d with power := x } :=
  { h with power := fun n => absurd hp n }
theorem setMgmt (h : Within S d₀ d) (x) (hp : S.part .mgmt := by assumption) : Within S d₀ { d with mgmt := x } :=
  { h with mgmt := fun n => absurd hp n }
theorem setSec (h : Within S d₀ d) (x) (hp : S.part .sec := by assumption) : Within S d₀ { d with sec := x } :=
  { h with sec := fun n => absurd hp n }
theorem setTiers (h : Within S d₀ d) (x) (hp : S.part .tiers := by assumption) : Within S d₀ { d with tiers := x } :=
  { h with tiers := fun n => absurd hp n }
theorem setTrans (h : Within S d₀ d) (x) (hp : S.part .trans := by assumption) : Within S d₀ { d with trans := x } :=
  { h with trans := fun n => absurd hp n }
theorem setJobs (h : Within S d₀ d) (x) (hp : S.part .jobs := by assumption) : Within S d₀ { d with jobs := x } :=
  { h with jobs := fun n => absurd hp n }

end Within

variable {S : Scope} {d₀ d : Dev}

theorem Dev.setReg_within (h : Within S d₀ d) (k v : Nat) (hk : S.key k := by apply_assumption) : Within S d₀ (d.setReg k v) :=
  { h with
    reg := fun j n => (Dev.reg_setReg_ne d v fun e => n (by rwa [e])).trans (h.reg j n)
    regs := fun n => absurd hk (n k) }

theorem Dev.bump_within (h : Within S d₀ d) (k n) (hk : S.key k := by apply_assumption) : Within S d₀ (d.bump k n) := by
  unfold bump
  split
  · exact h
  · exact setReg_within h _ _ hk

theorem Dev.each_within {α : Type} (h : Within S d₀ d) (l : List α) {f : Dev → α → Dev}
    (hf : ∀ d a, Within S d₀ d → Within S d₀ (f d a)) : Within S d₀ (d.each l f) := foldl_keeps (Within S d₀) l hf h

end Sys2Proof.Machine
end

section
/-! SUPPORT. What the functions of the model that link and domain commands call may change, and those that a fence and a beacon call: one lemma
for each, in the order of the model, from the lemmas of those it calls. `S.f` says that the scope `S` admits what the function `f` writes, itself and through what it calls; a function
that writes one or two things names them. One lemma at a time: elaborated side by side, the lemmas wait for each other in more threads than the
check's memory holds. -/

namespace Sys2Proof.Machine
set_option Elab.async false
variable {S : Scope} {d₀ : Dev}

/-! ### `Machine/Ops` -/

theorem Dev.emit_within {d : Dev} (h : Within S d₀ d) (o) (hp : S.part .out := by assumption) : Within S d₀ (d.emit o) :=
  h.setOut _

theorem Dev.fresh_within {d : Dev} (h : Within S d₀ d) (hp : S.part .freeCtr := by assumption) : Within S d₀ d.fresh.2 :=
  h.setFreeCtr _

theorem Dev.freshBytes_within {d : Dev} (h : Within S d₀ d) (n) (hp : S.part .freeCtr := by assumption) : Within S d₀ (d.freshBytes n).2 :=
  h.setFreeCtr _

theorem Dev.modPort_within {d : Dev} (h : Within S d₀ d) (p f) (hp : S.part .ports := by assumption) : Within S d₀ (d.modPort p f) :=
  h.setPorts _

theorem Dev.modCore_within {d : Dev} (h : Within S d₀ d) (q f) (hp : S.part .cores := by assumption) : Within S d₀ (d.modCore q f) :=
  h.setCores _

theorem Dev.modDom_within {d : Dev} (h : Within S d₀ d) (f) (hp : S.part .dom := by assumption) : Within S d₀ (d.modDom f) :=
  h.setDom _

theorem Dev.modHealth_within {d : Dev} (h : Within S d₀ d) (f) (hp : S.part .health := by assumption) : Within S d₀ (d.modHealth f) :=
  h.setHealth _

theorem Dev.setPower_within {d : Dev} (h : Within S d₀ d) (p) (hp : S.part .power := by assumption) : Within S d₀ (d.setPower p) :=
  h.setPower _

theorem Dev.ctrlDrop_within {d : Dev} (h : Within S d₀ d) (p) (hk : S.key Reg.framingDrops := by assumption) : Within S d₀ (d.ctrlDrop p) := by
  unfold ctrlDrop
  grind [bump_within]

theorem Dev.sendPort_within {d : Dev} (h : Within S d₀ d) (p pk) (hp : S.part .ports := by assumption) : Within S d₀ (d.sendPort p pk) := by
  unfold sendPort
  grind [modPort_within]

theorem Dev.flood_within {d : Dev} (h : Within S d₀ d) (except pk) (hp : S.part .ports := by assumption) : Within S d₀ (d.flood except pk) := by
  unfold flood
  grind [each_within, sendPort_within]

/-! ### `Machine/Flags` -/

theorem Dev.modLog_within {d : Dev} (h : Within S d₀ d) (l f) (hp : S.part .logs := by assumption) : Within S d₀ (d.modLog l f) :=
  h.setLogs _

theorem Dev.modMgmt_within {d : Dev} (h : Within S d₀ d) (f) (hp : S.part .mgmt := by assumption) : Within S d₀ (d.modMgmt f) :=
  h.setMgmt _

theorem Dev.cmpSend_within {d : Dev} (h : Within S d₀ d) (s op status body) (hp : S.part .mgmt := by assumption) (hp' : S.part .out := by assumption) :
    Within S d₀ (d.cmpSend s op status body) := by
  unfold cmpSend
  grind [emit_within, modMgmt_within]

@[simp] def Scope.event (S : Scope) : Prop := S.key Reg.faultsWritten ∧ S.key Reg.lastFault ∧ S.key Reg.logNextSeq ∧ S.key Reg.recordsDropped ∧
    S.part .logs ∧ S.part .mgmt ∧ S.part .out

theorem Dev.event_within {d : Dev} (h : Within S d₀ d) (q e) (hS : S.event := by assumption) : Within S d₀ (d.event q e) := by
  obtain ⟨_, _, _, _, _, _, _⟩ := id hS
  unfold event
  extract_lets l L sev
  split
  · exact bump_within (modLog_within h _ _) _ _
  · extract_lets r d₂ d₃ d₄
    have h₂ : Within S d₀ d₂ := setReg_within (modLog_within h _ _) _ _
    clear_value d₂
    have h₃ : Within S d₀ d₃ := by grind [bump_within, setReg_within]
    clear_value d₃
    have h₄ : Within S d₀ d₄ := by grind [modMgmt_within]
    clear_value d₄
    grind [each_within, cmpSend_within]

/-! ### `Machine/LinkCrypto` -/

theorem Dev.sealPkt_within {d : Dev} (h : Within S d₀ d) (p pk badTag) (hp : S.part .ports := by assumption) : Within S d₀ (d.sealPkt p pk badTag).2 := by
  unfold sealPkt
  grind [modPort_within]

/-! ### `Machine/Link` -/

theorem Dev.sample_within {d : Dev} (h : Within S d₀ d) (p f) (hp : S.part .ports := by assumption) : Within S d₀ (d.sample p f) := by
  unfold sample
  grind [modPort_within]

theorem Dev.showLanes_within {d : Dev} (h : Within S d₀ d) (p lanes) (hk : ∀ i, S.key (Reg.portLanes i) := by assumption)
    (hk' : ∀ i, S.key (Reg.portWidth i) := by assumption) : Within S d₀ (d.showLanes p lanes) := by
  unfold showLanes
  grind [setReg_within]

@[simp] def Scope.enterRetrain (S : Scope) : Prop := (∀ i, S.key (Reg.degrades i)) ∧ (∀ i, S.key (Reg.portLanes i)) ∧ (∀ i, S.key (Reg.portState i)) ∧
    (∀ i, S.key (Reg.portWidth i)) ∧ (∀ i, S.key (Reg.retrains i)) ∧ S.part .ports

theorem Dev.enterRetrain_within {d : Dev} (h : Within S d₀ d) (p) (hS : S.enterRetrain := by assumption) : Within S d₀ (d.enterRetrain p) := by
  unfold enterRetrain
  grind [Scope.enterRetrain, bump_within, modPort_within, setReg_within, showLanes_within]

@[simp] def Scope.enterActive (S : Scope) : Prop := (∀ i, S.key (Reg.portLanes i)) ∧ (∀ i, S.key (Reg.portState i)) ∧ (∀ i, S.key (Reg.portWidth i)) ∧
    S.part .ports

theorem Dev.enterActive_within {d : Dev} (h : Within S d₀ d) (p) (hS : S.enterActive := by assumption) : Within S d₀ (d.enterActive p) := by
  unfold enterActive
  grind [Scope.enterActive, modPort_within, setReg_within, showLanes_within]

theorem Dev.drainFifo_within {d : Dev} (h : Within S d₀ d) (p cls n) (hp : S.part .ports := by assumption) : Within S d₀ (d.drainFifo p cls n) := by
  unfold drainFifo
  grind [modPort_within]

theorem Dev.ctrlTaken_within {d : Dev} (h : Within S d₀ d) (p cls n) (hp : S.part .ports := by assumption) : Within S d₀ (d.ctrlTaken p cls n) := by
  unfold ctrlTaken
  grind [drainFifo_within]

theorem Dev.requestReplay_within {d : Dev} (h : Within S d₀ d) (p) (hk : ∀ i, S.key (Reg.nakSent i) := by assumption)
    (hp : S.part .ports := by assumption) : Within S d₀ (d.requestReplay p) := by
  unfold requestReplay
  grind [bump_within, modPort_within]

theorem Dev.applyHeader_within {d : Dev} (h : Within S d₀ d) (p f) (hk : ∀ i, S.key (Reg.nakRcvd i) := by assumption)
    (hp : S.part .ports := by assumption) : Within S d₀ (d.applyHeader p f) := by
  unfold applyHeader
  grind [bump_within, modPort_within]

@[simp] def Scope.acceptData (S : Scope) : Prop := (∀ i, S.key (Reg.bytesRx i)) ∧ (∀ i, S.key (Reg.flitsRx i)) ∧ S.key Reg.framingDrops ∧
    S.part .ports

theorem Dev.acceptData_within {d : Dev} (h : Within S d₀ d) (p f) (hS : S.acceptData := by assumption) : Within S d₀ (d.acceptData p f) := by
  unfold acceptData
  grind [Scope.acceptData, bump_within, modPort_within]

theorem Dev.badFlit_within {d : Dev} (h : Within S d₀ d) (p) (hk : ∀ i, S.key (Reg.crcErrors i) := by assumption) : Within S d₀ (d.badFlit p) := by
  unfold badFlit
  grind [bump_within]

@[simp] def Scope.dataFlit (S : Scope) : Prop := S.acceptData ∧ (∀ i, S.key (Reg.crcErrors i)) ∧ (∀ i, S.key (Reg.nakRcvd i)) ∧
    (∀ i, S.key (Reg.nakSent i)) ∧ S.part .ports

theorem Dev.dataFlit_within {d : Dev} (h : Within S d₀ d) (p f) (hS : S.dataFlit := by assumption) : Within S d₀ (d.dataFlit p f) := by
  unfold dataFlit
  grind [Scope.dataFlit, acceptData_within, applyHeader_within, badFlit_within, bump_within, requestReplay_within]

@[simp] def Scope.plainFlit (S : Scope) : Prop := (∀ i, S.key (Reg.crcErrors i)) ∧ (∀ i, S.key (Reg.nakRcvd i)) ∧ S.part .ports

theorem Dev.plainFlit_within {d : Dev} (h : Within S d₀ d) (p f) (hS : S.plainFlit := by assumption) : Within S d₀ (d.plainFlit p f) := by
  unfold plainFlit
  grind [Scope.plainFlit, applyHeader_within, badFlit_within]

theorem Dev.alignFlitIn_within {d : Dev} (h : Within S d₀ d) (p f) (hS : S.plainFlit := by assumption) : Within S d₀ (d.alignFlitIn p f) := by
  unfold alignFlitIn
  grind [Scope.plainFlit, modPort_within, plainFlit_within]

@[simp] def Scope.retryTimeout (S : Scope) : Prop := S.enterRetrain ∧ (∀ i, S.key (Reg.retryTimeouts i)) ∧ S.part .ports

theorem Dev.retryTimeout_within {d : Dev} (h : Within S d₀ d) (p) (hS : S.retryTimeout := by assumption) : Within S d₀ (d.retryTimeout p) := by
  unfold retryTimeout
  grind [Scope.retryTimeout, bump_within, enterRetrain_within, modPort_within, sample_within]

@[simp] def Scope.askDegrade (S : Scope) : Prop := S.enterRetrain ∧ (∀ i, S.key (Reg.nakSent i)) ∧ S.part .ports

theorem Dev.askDegrade_within {d : Dev} (h : Within S d₀ d) (p set) (hS : S.askDegrade := by assumption) : Within S d₀ (d.askDegrade p set) := by
  unfold askDegrade
  grind [Scope.askDegrade, enterRetrain_within, modPort_within, requestReplay_within]

theorem Dev.tryRestore_within {d : Dev} (h : Within S d₀ d) (p) (hp : S.part .ports := by assumption) : Within S d₀ (d.tryRestore p) := by
  unfold tryRestore
  grind [modPort_within]

@[simp] def Scope.laneFailed (S : Scope) : Prop := S.askDegrade ∧ S.event ∧ (∀ i, S.key (Reg.pbLaneOk i)) ∧ S.part .ports

theorem Dev.laneFailed_within {d : Dev} (h : Within S d₀ d) (p lane) (hS : S.laneFailed := by assumption) : Within S d₀ (d.laneFailed p lane) := by
  unfold laneFailed
  grind [Scope.laneFailed, askDegrade_within, event_within, modPort_within, setReg_within]

theorem Dev.switchTx_within {d : Dev} (h : Within S d₀ d) (p target replay) (hp : S.part .ports := by assumption) :
    Within S d₀ (d.switchTx p target replay) := by
  unfold switchTx
  grind [modPort_within]

@[simp] def Scope.degradeReq (S : Scope) : Prop := S.enterRetrain ∧ (∀ i, S.key (Reg.crcErrors i)) ∧ (∀ i, S.key (Reg.nakRcvd i)) ∧ S.part .ports

theorem Dev.degradeReq_within {d : Dev} (h : Within S d₀ d) (p f) (hS : S.degradeReq := by assumption) : Within S d₀ (d.degradeReq p f) := by
  unfold degradeReq
  grind [Scope.degradeReq, applyHeader_within, badFlit_within, enterRetrain_within, modPort_within, switchTx_within]

theorem Dev.restoreReq_within {d : Dev} (h : Within S d₀ d) (p f) (hS : S.plainFlit := by assumption) : Within S d₀ (d.restoreReq p f) := by
  unfold restoreReq
  grind [Scope.plainFlit, applyHeader_within, badFlit_within, switchTx_within]

@[simp] def Scope.laneSwitch (S : Scope) : Prop := S.askDegrade ∧ (∀ i, S.key (Reg.degrades i)) ∧ (∀ i, S.key (Reg.portLanes i)) ∧
    (∀ i, S.key (Reg.portWidth i)) ∧ S.part .ports

theorem Dev.laneSwitch_within {d : Dev} (h : Within S d₀ d) (p mask) (hS : S.laneSwitch := by assumption) : Within S d₀ (d.laneSwitch p mask) := by
  unfold laneSwitch
  grind [Scope.laneSwitch, askDegrade_within, bump_within, modPort_within, showLanes_within, switchTx_within, tryRestore_within]

theorem Dev.laneRepaired_within {d : Dev} (h : Within S d₀ d) (p lane) (hk : ∀ i, S.key (Reg.pbLaneOk i) := by assumption)
    (hp : S.part .ports := by assumption) : Within S d₀ (d.laneRepaired p lane) := by
  unfold laneRepaired
  grind [modPort_within, setReg_within, tryRestore_within]

theorem Dev.stageTxq_within {d : Dev} (h : Within S d₀ d) (p cls) (hk : S.key Reg.retiredDrops := by assumption) (hp : S.part .ports := by assumption) :
    Within S d₀ (d.stageTxq p cls) := by
  unfold stageTxq
  grind [bump_within, each_within, modPort_within, sealPkt_within]

theorem Dev.passSlot_within {d : Dev} (h : Within S d₀ d) (p lanes) (hp : S.part .ports := by assumption) :
    Within S d₀ (d.passSlot p lanes) := sample_within (modPort_within h _ _) _ _

theorem Dev.putOn_within {d : Dev} (h : Within S d₀ d) (p lanes f) (hp : S.part .out := by assumption) (hp' : S.part .ports := by assumption) :
    Within S d₀ (d.putOn p lanes f) := by
  unfold putOn
  grind [emit_within, modPort_within, passSlot_within, sample_within]

theorem Dev.putFlit_within {d : Dev} (h : Within S d₀ d) (p f) (hp : S.part .out := by assumption) (hp' : S.part .ports := by assumption) :
    Within S d₀ (d.putFlit p f) := by
  unfold putFlit
  grind [putOn_within]

theorem Dev.countStall_within {d : Dev} (h : Within S d₀ d) (p) (hk : ∀ i, S.key (Reg.creditStall i) := by assumption) : Within S d₀ (d.countStall p) := by
  unfold countStall
  grind [bump_within]

@[simp] def Scope.sendTrain (S : Scope) : Prop := S.part .freeCtr ∧ S.part .out ∧ S.part .ports

theorem Dev.sendTrain_within {d : Dev} (h : Within S d₀ d) (p) (hS : S.sendTrain := by assumption) : Within S d₀ (d.sendTrain p) := by
  unfold sendTrain
  grind [Scope.sendTrain, emit_within, fresh_within, modPort_within, passSlot_within, sample_within]

@[simp] def Scope.newData (S : Scope) : Prop := (∀ i, S.key (Reg.bytesTx i)) ∧ (∀ i, S.key (Reg.flitsTx i)) ∧ S.part .out ∧ S.part .ports

theorem Dev.newData_within {d : Dev} (h : Within S d₀ d) (p) (hS : S.newData := by assumption) : Within S d₀ (d.newData p) := by
  unfold newData
  grind [Scope.newData, bump_within, modPort_within, putFlit_within]

@[simp] def Scope.activeSlot (S : Scope) : Prop := S.newData ∧ (∀ i, S.key (Reg.creditStall i)) ∧ (∀ i, S.key (Reg.replayFlits i)) ∧
    S.key Reg.retiredDrops ∧ S.part .out ∧ S.part .ports

theorem Dev.activeSlot_within {d : Dev} (h : Within S d₀ d) (p) (hS : S.activeSlot := by assumption) : Within S d₀ (d.activeSlot p) := by
  obtain ⟨_, _, _, _, _, _⟩ := id hS
  unfold activeSlot
  extract_lets d₁ d₂ P
  have h₂ : Within S d₀ d₂ := modPort_within (countStall_within (each_within h _ fun d cls h => stageTxq_within h _ _) _) _ _
  clear_value d₂
  grind [bump_within, modPort_within, newData_within, putFlit_within, sample_within, tryRestore_within]

@[simp] def Scope.flitSlot (S : Scope) : Prop := S.activeSlot ∧ S.sendTrain ∧ S.part .out ∧ S.part .ports

theorem Dev.flitSlot_within {d : Dev} (h : Within S d₀ d) (p) (hS : S.flitSlot := by assumption) : Within S d₀ (d.flitSlot p) := by
  unfold flitSlot
  grind [Scope.flitSlot, activeSlot_within, modPort_within, putFlit_within, putOn_within, sendTrain_within]

theorem Dev.signalDetected_within {d : Dev} (h : Within S d₀ d) (p) (hk : ∀ i, S.key (Reg.portState i) := by assumption)
    (hp : S.part .ports := by assumption) : Within S d₀ (d.signalDetected p) := by
  unfold signalDetected
  grind [modPort_within, setReg_within]

theorem Dev.showTrained_within {d : Dev} (h : Within S d₀ d) (p ok) (hk : ∀ i, S.key (Reg.pbLaneOk i) := by assumption)
    (hk' : ∀ i, S.key (Reg.pbPolarity i) := by assumption) : Within S d₀ (d.showTrained p ok) := by
  unfold showTrained
  grind [setReg_within]

@[simp] def Scope.untrained (S : Scope) : Prop := (∀ i, S.key (Reg.pbLaneOk i)) ∧ (∀ i, S.key (Reg.pbPolarity i)) ∧ (∀ i, S.key (Reg.portState i))

theorem Dev.untrained_within {d : Dev} (h : Within S d₀ d) (p nx) (hS : S.untrained := by assumption) : Within S d₀ (d.untrained p nx) := by
  unfold untrained
  grind [Scope.untrained, setReg_within, showTrained_within]

@[simp] def Scope.equalizeDone (S : Scope) : Prop := S.untrained ∧ (∀ i, S.key (Reg.pbLaneOk i)) ∧ (∀ i, S.key (Reg.pbPolarity i)) ∧
    (∀ i, S.key (Reg.portState i)) ∧ S.part .ports

theorem Dev.equalizeDone_within {d : Dev} (h : Within S d₀ d) (p passed) (hS : S.equalizeDone := by assumption) :
    Within S d₀ (d.equalizeDone p passed) := by
  unfold equalizeDone
  grind [Scope.equalizeDone, modPort_within, setReg_within, showTrained_within, untrained_within]

@[simp] def Scope.lockDone (S : Scope) : Prop := (∀ i, S.key (Reg.pbPolarity i)) ∧ (∀ i, S.key (Reg.portState i)) ∧ S.part .freeCtr ∧ S.part .ports

theorem Dev.lockDone_within {d : Dev} (h : Within S d₀ d) (p polarity) (hS : S.lockDone := by assumption) : Within S d₀ (d.lockDone p polarity) := by
  unfold lockDone
  grind [Scope.lockDone, freshBytes_within, modPort_within, setReg_within]

theorem Dev.trainFlit_within {d : Dev} (h : Within S d₀ d) (p t) (hp : S.part .ports := by assumption) : Within S d₀ (d.trainFlit p t) := by
  unfold trainFlit
  grind [modPort_within]

theorem Dev.trainingTimeout_within {d : Dev} (h : Within S d₀ d) (p) (hS : S.untrained := by assumption) : Within S d₀ (d.trainingTimeout p) := by
  unfold trainingTimeout
  grind [Scope.untrained, untrained_within]

theorem Dev.retrainDone_within {d : Dev} (h : Within S d₀ d) (p) (hk : ∀ i, S.key (Reg.portState i) := by assumption)
    (hp : S.part .ports := by assumption) : Within S d₀ (d.retrainDone p) := by
  unfold retrainDone
  grind [modPort_within, setReg_within, tryRestore_within]

/-! ### `Machine/Router` -/

theorem Dev.countOut_within {d : Dev} (h : Within S d₀ d) (pk) (hk : ∀ i, S.key (Reg.fabricOut i) := by assumption) : Within S d₀ (d.countOut pk) := by
  unfold countOut
  grind [bump_within]

theorem Dev.toHost_within {d : Dev} (h : Within S d₀ d) (h0 pk) (hp : S.part .cores := by assumption) : Within S d₀ (d.toHost h0 pk) := by
  unfold toHost
  grind [modCore_within]

@[simp] def Scope.sendFeid (S : Scope) : Prop := (∀ i, S.key (Reg.fabricOut i)) ∧ S.key Reg.unroutable ∧ S.part .cores ∧ S.part .ports

theorem Dev.sendFeid_within {d : Dev} (h : Within S d₀ d) (pk) (hS : S.sendFeid := by assumption) : Within S d₀ (d.sendFeid pk) := by
  unfold sendFeid
  grind [Scope.sendFeid, bump_within, countOut_within, sendPort_within, toHost_within]

@[simp] def Scope.sendKeyed (S : Scope) : Prop := S.sendFeid ∧ S.key Reg.retiredDrops

theorem Dev.sendKeyed_within {d : Dev} (h : Within S d₀ d) (pk) (hS : S.sendKeyed := by assumption) : Within S d₀ (d.sendKeyed pk) := by
  unfold sendKeyed
  grind [Scope.sendKeyed, bump_within, sendFeid_within]

/-! ### `Machine/Units` -/

theorem Dev.modTiers_within {d : Dev} (h : Within S d₀ d) (f) (hp : S.part .tiers := by assumption) : Within S d₀ (d.modTiers f) :=
  h.setTiers _

theorem Dev.modTrans_within {d : Dev} (h : Within S d₀ d) (f) (hp : S.part .trans := by assumption) : Within S d₀ (d.modTrans f) :=
  h.setTrans _

theorem Dev.modJobs_within {d : Dev} (h : Within S d₀ d) (f) (hp : S.part .jobs := by assumption) : Within S d₀ (d.modJobs f) :=
  h.setJobs _

theorem Dev.startFill_within {d : Dev} (h : Within S d₀ d) (s) (hk : S.key Reg.wrongPlane := by assumption) (hp : S.part .tiers := by assumption) :
    Within S d₀ (d.startFill s) := by
  unfold startFill
  grind [bump_within, modTiers_within]

@[simp] def Scope.giveSlot (S : Scope) : Prop := (∀ i, S.key (Reg.stageEvicted i)) ∧ S.key Reg.wrongPlane ∧ S.part .tiers

theorem Dev.giveSlot_within {d : Dev} (h : Within S d₀ d) (comp unit deadline) {d' : Dev} (e' : d.giveSlot comp unit deadline = some d')
    (hS : S.giveSlot := by assumption) : Within S d₀ d' := by
  obtain ⟨_, _, _⟩ := id hS
  unfold giveSlot at e'
  grind [bump_within, modTiers_within, startFill_within]

theorem Dev.retestWaits_within {d : Dev} (h : Within S d₀ d) (hS : S.giveSlot := by assumption) : Within S d₀ d.retestWaits := by
  obtain ⟨_, _, _⟩ := id hS
  unfold retestWaits
  refine foldl_keeps (Within S d₀) _ (fun d w h => ?_) (modTiers_within h _)
  split
  · next e => exact giveSlot_within h _ _ _ e
  · exact modTiers_within h _

@[simp] def Scope.freeJob (S : Scope) : Prop := S.key Reg.libBanks ∧ S.part .jobs ∧ S.part .tiers

theorem Dev.freeJob_within {d : Dev} (h : Within S d₀ d) (k) (hS : S.freeJob := by assumption) : Within S d₀ (d.freeJob k) := by
  unfold freeJob
  grind [Scope.freeJob, modJobs_within, modTiers_within, setReg_within]

/-! ### `Machine/Fence` -/

theorem Dev.sendRecovery_within {d : Dev} (h : Within S d₀ d) (m) (hp : S.part .dom := by assumption) (hp' : S.part .ports := by assumption) :
    Within S d₀ (d.sendRecovery m) := by
  unfold sendRecovery
  grind [flood_within, modDom_within]

theorem Dev.takeNotice_within {d : Dev} (h : Within S d₀ d) (port id pk) (hp : S.part .dom := by assumption) (hp' : S.part .ports := by assumption) :
    Within S d₀ (d.takeNotice port id pk).2 := by
  unfold takeNotice
  grind [flood_within, modDom_within]

/-! ### `Machine/YarrowCore` -/

theorem Dev.sendResult_within {d : Dev} (h : Within S d₀ d) (pk feid) (hS : S.sendKeyed := by assumption) : Within S d₀ (d.sendResult pk feid) := by
  unfold sendResult
  grind [Scope.sendKeyed, sendKeyed_within]

@[simp] def Scope.resendTo (S : Scope) : Prop := S.sendKeyed ∧ (∀ i, S.key (Reg.resends i))

theorem Dev.resendTo_within {d : Dev} (h : Within S d₀ d) (feid) (hS : S.resendTo := by assumption) : Within S d₀ (d.resendTo feid) := by
  unfold resendTo
  grind [Scope.resendTo, bump_within, each_within, sendResult_within]

/-! ### `Machine/PortDown` -/

@[simp] def Scope.portHeld (S : Scope) : Prop := S.event ∧ (∀ i, S.key (Reg.portState i))

theorem Dev.portHeld_within {d : Dev} (h : Within S d₀ d) (p peer) (hS : S.portHeld := by assumption) : Within S d₀ (d.portHeld p peer) := by
  unfold portHeld
  grind [Scope.portHeld, event_within, setReg_within]

@[simp] def Scope.paramDone (S : Scope) : Prop := S.enterActive ∧ S.portHeld ∧ S.untrained ∧ (∀ i, S.key (Reg.portPeer i)) ∧
    (∀ i, S.key (Reg.portState i)) ∧ (∀ i, S.key (Reg.rttNs i)) ∧ S.part .dom

theorem Dev.paramDone_within {d : Dev} (h : Within S d₀ d) (p rttPs) (hS : S.paramDone := by assumption) : Within S d₀ (d.paramDone p rttPs) := by
  unfold paramDone
  grind [Scope.paramDone, enterActive_within, modDom_within, portHeld_within, setReg_within, untrained_within]

@[simp] def Scope.portActive (S : Scope) : Prop := S.enterActive ∧ S.resendTo

theorem Dev.portActive_within {d : Dev} (h : Within S d₀ d) (p) (hS : S.portActive := by assumption) : Within S d₀ (d.portActive p) := by
  unfold portActive
  grind [Scope.portActive, enterActive_within, resendTo_within]

@[simp] def Scope.retrained (S : Scope) : Prop := S.resendTo ∧ (∀ i, S.key (Reg.portState i)) ∧ S.part .ports

theorem Dev.retrained_within {d : Dev} (h : Within S d₀ d) (p) (hS : S.retrained := by assumption) : Within S d₀ (d.retrained p) := by
  unfold retrained
  grind [Scope.retrained, resendTo_within, retrainDone_within]

/-! ### `Machine/Security` -/

theorem Dev.modSec_within {d : Dev} (h : Within S d₀ d) (f) (hp : S.part .sec := by assumption) : Within S d₀ (d.modSec f) :=
  h.setSec _

/-! ### `Machine/Domain` -/

theorem Dev.manage_within {d : Dev} (h : Within S d₀ d) (hk : S.key Reg.managerCur := by assumption) : Within S d₀ d.manage := by
  unfold manage
  grind [setReg_within]

theorem Dev.noteBeacon_within {d : Dev} (h : Within S d₀ d) (b) (hp : S.part .dom := by assumption) : Within S d₀ (d.noteBeacon b) := by
  unfold noteBeacon
  grind [modDom_within]

theorem Dev.sendImage_within {d : Dev} (h : Within S d₀ d) (t) (hp : S.part .ports := by assumption) : Within S d₀ (d.sendImage t) := by
  unfold sendImage
  grind [each_within, flood_within]

@[simp] def Scope.stepCount (S : Scope) : Prop := S.key Reg.tickCount ∧ S.part .dom ∧ S.part .groups ∧ S.part .health ∧ S.part .power ∧ S.part .sec

theorem Dev.stepCount_within {d : Dev} (h : Within S d₀ d) (new) (hS : S.stepCount := by assumption) : Within S d₀ (d.stepCount new) := by
  obtain ⟨_, _, _, _, _, _⟩ := id hS
  unfold stepCount
  extract_lets old mv d₁ d₂ d₃ d₄ d₅
  have h₄ : Within S d₀ d₄ := modSec_within (modHealth_within (modDom_within (setReg_within h _ _) _) _) _
  clear_value d₄
  have h₅ : Within S d₀ d₅ := h₄.setGroups _
  exact h₅.setPower _

theorem Dev.sendMarker_within {d : Dev} (h : Within S d₀ d) (except m) (hp : S.part .ports := by assumption) : Within S d₀ (d.sendMarker except m) := by
  unfold sendMarker
  grind [each_within, flood_within, sendPort_within]

theorem Dev.alignFault_within {d : Dev} (h : Within S d₀ d) (hk : S.key Reg.tickAlignFaults := by assumption) (hp : S.part .dom := by assumption) :
    Within S d₀ d.alignFault := by
  unfold alignFault
  grind [bump_within, modDom_within]

@[simp] def Scope.follow (S : Scope) : Prop := S.key Reg.tickAlignFaults ∧ S.key Reg.tickDepth ∧ S.key Reg.tickOffset ∧ S.key Reg.tickParent ∧
    S.key Reg.tickState ∧ S.part .dom

theorem Dev.follow_within {d : Dev} (h : Within S d₀ d) (port r) (hS : S.follow := by assumption) : Within S d₀ (d.follow port r) := by
  unfold follow
  grind [Scope.follow, alignFault_within, modDom_within, setReg_within]

@[simp] def Scope.markerIn (S : Scope) : Prop := S.follow ∧ S.key Reg.framingDrops ∧ S.part .dom ∧ S.part .ports

theorem Dev.markerIn_within {d : Dev} (h : Within S d₀ d) (port m arrivalPs residencePs) (hS : S.markerIn := by assumption) :
    Within S d₀ (d.markerIn port m arrivalPs residencePs) := by
  unfold markerIn
  grind [Scope.markerIn, ctrlDrop_within, follow_within, modDom_within, sendMarker_within]

theorem Dev.holdover_within {d : Dev} (h : Within S d₀ d) (hk : S.key Reg.tickParent := by assumption) (hk' : S.key Reg.tickState := by assumption) :
    Within S d₀ d.holdover := by
  unfold holdover
  grind [setReg_within]

theorem Dev.announceHandover_within {d : Dev} (h : Within S d₀ d) (hp : S.part .dom := by assumption) : Within S d₀ d.announceHandover := by
  unfold announceHandover
  grind [modDom_within]

theorem Dev.tickIn_within {d : Dev} (h : Within S d₀ d) (offsetPs) (hS : S.stepCount := by assumption) : Within S d₀ (d.tickIn offsetPs) := by
  unfold tickIn
  grind [Scope.stepCount, modDom_within, stepCount_within]

theorem Dev.startBist_within {d : Dev} (h : Within S d₀ d) (from') (hk : S.key Reg.bistState := by assumption) (hp : S.part .power := by assumption) :
    Within S d₀ (d.startBist from') := by
  unfold startBist
  grind [setPower_within, setReg_within]

@[simp] def Scope.phases (S : Scope) : Prop := S.key Reg.bistState ∧ S.part .dom ∧ S.part .power

theorem Dev.sendBist_within {d : Dev} (h : Within S d₀ d) (op toSw pass detail) (hp : S.part .ports := by assumption) :
    Within S d₀ (d.sendBist op toSw pass detail) := by
  unfold sendBist
  grind [flood_within]

@[simp] def Scope.nextPhase (S : Scope) : Prop := S.key Reg.bistState ∧ S.part .dom ∧ S.part .ports ∧ S.part .power

theorem Dev.nextPhase_within {d : Dev} (h : Within S d₀ d) (hS : S.nextPhase := by assumption) : Within S d₀ d.nextPhase := by
  unfold nextPhase
  grind [Scope.nextPhase, each_within, modDom_within, sendBist_within, startBist_within]

theorem Dev.repeatPhase_within {d : Dev} (h : Within S d₀ d) (leader phase targets) (hS : S.phases := by assumption) :
    Within S d₀ (d.repeatPhase leader phase targets) := by
  unfold repeatPhase
  grind [Scope.phases, modDom_within, startBist_within]

@[simp] def Scope.recovery (S : Scope) : Prop := S.phases ∧ S.part .dom ∧ S.part .ports

theorem Dev.recovery_within {d : Dev} (h : Within S d₀ d) (commanded phase targets) (hS : S.recovery := by assumption) :
    Within S d₀ (d.recovery commanded phase targets) := by
  unfold recovery
  grind [Scope.recovery, modDom_within, repeatPhase_within, sendRecovery_within]

@[simp] def Scope.recoveryRecover (S : Scope) : Prop := S.phases ∧ S.key Reg.framingDrops ∧ S.part .dom ∧ S.part .ports

theorem Dev.recoveryRecover_within {d : Dev} (h : Within S d₀ d) (port m) (hS : S.recoveryRecover := by assumption) :
    Within S d₀ (d.recoveryRecover port m) := by
  unfold recoveryRecover
  grind [Scope.recoveryRecover, ctrlDrop_within, repeatPhase_within, takeNotice_within]

end Sys2Proof.Machine
end

section
/-! SUPPORT. The frame of a command that stays within a scope: what its clause names, and nothing else, may differ. -/

namespace Sys2Proof.Machine
variable {P : Part → Bool} {C : List Nat} {F : Nat → Nat → Prop} {d d' : Dev}

/-- The scope of a frame's clause: the parts it names, the entries it lists and the families of entries it lists. -/
def Scope.listed (P : Part → Bool) (C : List Nat) (F : Nat → Nat → Prop) : Scope where
  part := P
  key k := k ∈ C ∨ ∃ i, ¬ F i k

theorem Within.frame (P : Part → Bool)
    (h : ∀ S : Scope, S.part = P → (∀ k ∈ C, S.key k) → (∀ i k, ¬ F i k → S.key k) → Within S d d') :
    d' = d.merge P d' ∧ ∀ k, k ∉ C → (∀ i, F i k) → d'.reg k = d.reg k := by
  have hw := h (.listed P C F) rfl (fun k hk => .inl hk) fun i k hk => .inr ⟨i, hk⟩
  exact ⟨hw.eq_merge, fun k hC hF => hw.reg k fun hk => hk.elim hC fun ⟨i, hi⟩ => hi (hF i)⟩

theorem Within.frame_entries (P : Part → Bool) (h : ∀ S : Scope, S.part = P → (∀ k ∈ C, S.key k) → Within S d d') :
    d' = d.merge P d' ∧ ∀ k, k ∉ C → d'.reg k = d.reg k := by
  obtain ⟨he, hr⟩ := frame (F := fun _ _ => True) P fun S hP hC _ => h S hP hC
  exact ⟨he, fun k hk => hr k hk fun _ => trivial⟩

theorem Within.frame_families (P : Part → Bool) (h : ∀ S : Scope, S.part = P → (∀ i k, ¬ F i k → S.key k) → Within S d d') :
    d' = d.merge P d' ∧ ∀ k, (∀ i, F i k) → d'.reg k = d.reg k := by
  obtain ⟨he, hr⟩ := frame (C := []) P fun S hP _ hF => h S hP hF
  exact ⟨he, fun k => hr k List.not_mem_nil⟩

theorem Within.frame_parts (P : Part → Bool) (h : ∀ S : Scope, S.part = P → Within S d d') : d' = { d.merge P d' with regs := d.regs } := by
  have hw := h ⟨P, fun _ => False⟩ rfl
  have hr : d'.regs = d.regs := hw.regs fun _ => id
  rw [← hr]
  exact hw.eq_merge

end Sys2Proof.Machine
end

section
/-! Settling `LinkAndDomainFrames` (O54): what a link or domain command leaves alone. -/

namespace Sys2Proof.Machine
open Dev

/-- Settles O54, command by command: what each writes lies within the scope of its clause. -/
theorem linkAndDomainFrames : Obligations.LinkAndDomainFrames := by
  unfold Obligations.LinkAndDomainFrames
  intro c s t e
  cases c
  case tickMarker =>
    cases e
    refine ⟨⟨rfl, rfl, rfl⟩, Within.frame_entries (fun | .dom | .ports => true | _ => false) fun S hP hC => ?_⟩
    simp only [List.forall_mem_cons] at hC
    refine markerIn_within (ctrlTaken_within (.refl _ s.dev) _ _ _ ?_) _ _ _ _ ?_ <;> simp [*]
  case tickInEdge =>
    cases e
    refine ⟨⟨rfl, rfl, rfl⟩, Within.frame_entries (fun | .dom | .groups | .health | .power | .sec => true | _ => false) fun S hP hC => ?_⟩
    simp only [List.forall_mem_cons] at hC
    exact tickIn_within (.refl _ s.dev) _ (by simp [*])
  case linkDelayMeasure =>
    cases e
    refine ⟨⟨rfl, rfl, rfl⟩, Within.frame_parts (fun | .dom => true | _ => false) fun S hP => ?_⟩
    exact .ite (modDom_within (.refl _ s.dev) _ (by simp [*])) (.refl _ s.dev)
  case handoverAnnounce =>
    cases e
    refine ⟨⟨rfl, rfl, rfl⟩, Within.frame_parts (fun | .dom => true | _ => false) fun S hP => ?_⟩
    exact announceHandover_within (.refl _ s.dev) (by simp [*])
  case domainRecovery =>
    cases e
    refine ⟨⟨rfl, rfl, rfl⟩, Within.frame_entries (fun | .dom | .ports | .power => true | _ => false) fun S hP hC => ?_⟩
    simp only [List.forall_mem_cons] at hC
    exact recovery_within (.refl _ s.dev) _ _ _ (by simp [*])
  case startupPhase =>
    cases e
    refine ⟨⟨rfl, rfl, rfl⟩, Within.frame_entries (fun | .dom | .ports | .power => true | _ => false) fun S hP hC => ?_⟩
    simp only [List.forall_mem_cons] at hC
    exact nextPhase_within (.refl _ s.dev) (by simp [*])
  case dataFlit =>
    cases e
    refine ⟨⟨rfl, rfl, rfl⟩, Within.frame (fun | .ports => true | _ => false) fun S hP hC hF => ?_⟩
    simp only [List.forall_mem_cons, not_and_or, ne_eq, not_not, or_imp, forall_and, forall_eq] at hC hF
    exact dataFlit_within (.refl _ s.dev) _ _ (by simp [*])
  case idleFlit =>
    cases e
    refine ⟨⟨rfl, rfl, rfl⟩, Within.frame_families (fun | .ports => true | _ => false) fun S hP hF => ?_⟩
    simp only [not_and_or, ne_eq, not_not, or_imp, forall_and, forall_eq] at hF
    exact plainFlit_within (.refl _ s.dev) _ _ (by simp [*])
  case alignFlit =>
    cases e
    refine ⟨⟨rfl, rfl, rfl⟩, Within.frame_families (fun | .ports => true | _ => false) fun S hP hF => ?_⟩
    simp only [not_and_or, ne_eq, not_not, or_imp, forall_and, forall_eq] at hF
    exact .ite (alignFlitIn_within (.refl _ s.dev) _ _ (by simp [*])) (.refl _ s.dev)
  case restoreReq =>
    cases e
    refine ⟨⟨rfl, rfl, rfl⟩, Within.frame_families (fun | .ports => true | _ => false) fun S hP hF => ?_⟩
    simp only [not_and_or, ne_eq, not_not, or_imp, forall_and, forall_eq] at hF
    exact restoreReq_within (.refl _ s.dev) _ _ (by simp [*])
  case trainFlit =>
    cases e
    refine ⟨⟨rfl, rfl, rfl⟩, Within.frame_parts (fun | .ports => true | _ => false) fun S hP => ?_⟩
    exact trainFlit_within (.refl _ s.dev) _ _ (by simp [*])
  case dyingHoldEnd =>
    cases e
    refine ⟨⟨rfl, rfl, rfl⟩, Within.frame_parts (fun | .ports => true | _ => false) fun S hP => ?_⟩
    exact modPort_within (.refl _ s.dev) _ _ (by simp [*])
  case linkRetryTimeout =>
    cases e
    refine ⟨⟨rfl, rfl, rfl⟩, Within.frame_families (fun | .ports => true | _ => false) fun S hP hF => ?_⟩
    simp only [not_and_or, ne_eq, not_not, or_imp, forall_and, forall_eq] at hF
    exact retryTimeout_within (.refl _ s.dev) _ (by simp [*])
  case laneFailed =>
    cases e
    refine ⟨⟨rfl, rfl, rfl⟩, Within.frame (fun | .out | .ports | .logs | .mgmt => true | _ => false) fun S hP hC hF => ?_⟩
    simp only [List.forall_mem_cons, not_and_or, ne_eq, not_not, or_imp, forall_and, forall_eq] at hC hF
    exact laneFailed_within (.refl _ s.dev) _ _ (by simp [*])
  case degradeReq =>
    cases e
    refine ⟨⟨rfl, rfl, rfl⟩, Within.frame_families (fun | .ports => true | _ => false) fun S hP hF => ?_⟩
    simp only [not_and_or, ne_eq, not_not, or_imp, forall_and, forall_eq] at hF
    exact degradeReq_within (.refl _ s.dev) _ _ (by simp [*])
  case laneSwitch =>
    cases e
    refine ⟨⟨rfl, rfl, rfl⟩, Within.frame_families (fun | .ports => true | _ => false) fun S hP hF => ?_⟩
    simp only [not_and_or, ne_eq, not_not, or_imp, forall_and, forall_eq] at hF
    exact laneSwitch_within (.refl _ s.dev) _ _ (by simp [*])
  case laneRepaired =>
    cases e
    refine ⟨⟨rfl, rfl, rfl⟩, Within.frame_families (fun | .ports => true | _ => false) fun S hP hF => ?_⟩
    simp only [ne_eq, not_not, forall_eq] at hF
    refine laneRepaired_within (.refl _ s.dev) _ _ ?_ ?_ <;> simp [*]
  case signalDetected =>
    cases e
    refine ⟨⟨rfl, rfl, rfl⟩, Within.frame_families (fun | .ports => true | _ => false) fun S hP hF => ?_⟩
    simp only [ne_eq, not_not, forall_eq] at hF
    refine signalDetected_within (.refl _ s.dev) _ ?_ ?_ <;> simp [*]
  case equalizeDone =>
    cases e
    refine ⟨⟨rfl, rfl, rfl⟩, Within.frame_families (fun | .ports => true | _ => false) fun S hP hF => ?_⟩
    simp only [not_and_or, ne_eq, not_not, or_imp, forall_and, forall_eq] at hF
    exact equalizeDone_within (.refl _ s.dev) _ _ (by simp [*])
  case lockDone =>
    cases e
    refine ⟨⟨rfl, rfl, rfl⟩, Within.frame_families (fun | .freeCtr | .ports => true | _ => false) fun S hP hF => ?_⟩
    simp only [not_and_or, ne_eq, not_not, or_imp, forall_and, forall_eq] at hF
    exact lockDone_within (.refl _ s.dev) _ _ (by simp [*])
  case paramDone =>
    cases e
    refine ⟨⟨rfl, rfl, rfl⟩, Within.frame (fun | .out | .dom | .ports | .logs | .mgmt => true | _ => false) fun S hP hC hF => ?_⟩
    simp only [List.forall_mem_cons, not_and_or, ne_eq, not_not, or_imp, forall_and, forall_eq] at hC hF
    exact paramDone_within (.refl _ s.dev) _ _ (by simp [*])
  case portActive =>
    cases e
    refine ⟨⟨rfl, rfl, rfl⟩, Within.frame (fun | .ports | .cores => true | _ => false) fun S hP hC hF => ?_⟩
    simp only [List.forall_mem_cons, not_and_or, ne_eq, not_not, or_imp, forall_and, forall_eq] at hC hF
    exact portActive_within (.refl _ s.dev) _ (by simp [*])
  case trainingTimeout =>
    cases e
    refine ⟨⟨rfl, rfl, rfl⟩, Within.frame_families (fun _ => false) fun S hP hF => ?_⟩
    simp only [not_and_or, ne_eq, not_not, or_imp, forall_and, forall_eq] at hF
    exact trainingTimeout_within (.refl _ s.dev) _ (by simp [*])
  case retrainDone =>
    cases e
    refine ⟨⟨rfl, rfl, rfl⟩, Within.frame (fun | .ports | .cores => true | _ => false) fun S hP hC hF => ?_⟩
    simp only [List.forall_mem_cons, not_and_or, ne_eq, not_not, or_imp, forall_and, forall_eq] at hC hF
    exact retrained_within (.refl _ s.dev) _ (by simp [*])
  case recoveryRecover =>
    cases e
    refine ⟨⟨rfl, rfl, rfl⟩, Within.frame_entries (fun | .dom | .ports | .power => true | _ => false) fun S hP hC => ?_⟩
    simp only [List.forall_mem_cons] at hC
    refine recoveryRecover_within (ctrlTaken_within (.refl _ s.dev) _ _ _ ?_) _ _ ?_ <;> simp [*]
  case flitSlot =>
    cases e
    refine ⟨⟨rfl, rfl, rfl⟩, Within.frame (fun | .out | .freeCtr | .ports => true | _ => false) fun S hP hC hF => ?_⟩
    simp only [List.forall_mem_cons, not_and_or, ne_eq, not_not, or_imp, forall_and, forall_eq] at hC hF
    exact flitSlot_within (.refl _ s.dev) _ (by simp [*])
  case holdoverEntry =>
    cases e
    refine ⟨⟨rfl, rfl, rfl⟩, Within.frame_entries (fun _ => false) fun S hP hC => ?_⟩
    simp only [List.forall_mem_cons] at hC
    refine holdover_within (.refl _ s.dev) ?_ ?_ <;> simp [*]
  all_goals exact trivial

end Sys2Proof.Machine
end

section
/-! Settling `MasterChangesAndPhases` (O3): a job key whose quadrant counter stands at MASTER_CUR, and the fence that follows the loss of the
master. -/

namespace Sys2Proof.Machine
open Dev

theorem execMasterLost_dev {s t : State} (e : exec .masterLost s = .next t) : t.dev = s.dev.masterLost := by
  cases e
  rfl

/-- A job of composition 1 whose arbitration is over. -/
def lostJob : Job := { plainJob with pkt := { ptype := .jobPost, comp := 1 }, backup := 3 }

/-- The key of a job record whose quadrant's JOBS_FAILED counter would stand at MASTER_CUR. -/
def lostKey : Nat := failureKey Reg.masterCur

theorem jobsFailed_lostKey : Reg.jobsFailed (lostKey / 256) = Reg.masterCur := by decide

def lostJobs : Jobs := { recs := [(lostKey, lostJob)] }

def endedJobs : Jobs := { recs := [(lostKey, { lostJob with ending := some (St.fenced, 0xFF) })] }

/-- What the fence of composition 1 may change besides the job: every entry but MASTER_CUR, and every part but Yarrow's instances. -/
@[simp] def besideMaster (jobs : Bool) : Scope where
  part := fun | .jobs => jobs | .yar => false | _ => true
  key k := k ≠ Reg.masterCur

section
variable {d : Dev}

theorem endJob_lostJob (hj : d.jobs = lostJobs) :
    d.endJob lostKey St.fenced 0xFF = ({ d with jobs := endedJobs }.withdrawFaults []).finishJob lostKey := by
  unfold endJob
  generalize finishJob = F
  have hjob : d.job lostKey = some lostJob := by rw [job, hj]; rfl
  rw [hjob]
  dsimp only
  cases d
  cases hj
  rfl

theorem finishJob_endedJobs (hj : d.jobs = endedJobs) :
    ∃ pk, d.finishJob lostKey = ((d.bump (Reg.jobsFailed (lostKey / 256))).sendKeyed pk).freeJob lostKey := by
  cases d
  cases hj
  exact ⟨_, rfl⟩

theorem reg_bump_masterCur (hm : d.reg Reg.masterCur = 0xFF) : (d.bump Reg.masterCur).reg Reg.masterCur = 0 := by
  have hrow : (rowOf Reg.masterCur).map (fun e => (e.size, decide (e.m = .rc))) = some (1, false) := by decide
  obtain ⟨e, he, hs⟩ := Option.map_eq_some_iff.1 hrow
  obtain ⟨hsize, hrc⟩ := Prod.mk.inj hs
  simp [bump, he, hsize, of_decide_eq_false hrc, hm]

/-- The fenced job's failure is counted in MASTER_CUR. -/
theorem reg_endJob_lostJob (hj : d.jobs = lostJobs) (hm : d.reg Reg.masterCur = 0xFF) :
    (d.endJob lostKey St.fenced 0xFF).reg Reg.masterCur = 0 ∧ (d.endJob lostKey St.fenced 0xFF).yar = d.yar := by
  let d₁ := { d with jobs := endedJobs }.withdrawFaults []
  obtain ⟨pk, e⟩ := finishJob_endedJobs (d := d₁) rfl
  rw [endJob_lostJob hj, e, jobsFailed_lostKey]
  have hw : Within (besideMaster true) (d₁.bump Reg.masterCur) (((d₁.bump Reg.masterCur).sendKeyed pk).freeJob lostKey) :=
    freeJob_within (sendKeyed_within (.refl _ _) _ (by simp [Reg.fabricOut, Reg.unroutable, Reg.retiredDrops, Reg.masterCur]; omega))
      _ (by simp [Reg.libBanks, Reg.masterCur])
  exact ⟨(hw.reg _ (by simp)).trans (reg_bump_masterCur hm), hw.yar (by simp)⟩

theorem reg_fenceParts_lostJob (hj : d.jobs = lostJobs) (hm : d.reg Reg.masterCur = 0xFF) (hy : d.yar.insts = []) :
    (d.fenceParts 1).reg Reg.masterCur = 0 := by
  have hlist : (d.jobs.recs.filter fun kv => kv.2.pkt.comp = 1).map Prod.fst = [lostKey] := by rw [hj]; rfl
  obtain ⟨hr, hyar⟩ := reg_endJob_lostJob hj hm
  unfold fenceParts
  rw [hlist]
  extract_lets d₁ d₂ d₃ d₄
  have h₃ : Within (besideMaster true) d₁ d₃ := modTrans_within (modTiers_within (.refl _ d₁) _ rfl) _ rfl
  have hinsts : d₃.yar.insts = [] := by rw [h₃.yar (by simp), show d₁.yar = d.yar from hyar, hy]
  have h₄ : d₄ = d₃ := by simp only [d₄, hinsts]; rfl
  have hw : Within (besideMaster true) d₁ d₄.retestWaits :=
    retestWaits_within (h₄ ▸ h₃) (by simp [Reg.stageEvicted, Reg.wrongPlane, Reg.masterCur]; omega)
  exact (hw.reg _ (by simp)).trans hr

theorem reg_fence_lostJob (hf : d.fenced 1 = false) (hj : d.jobs = lostJobs) (hm : d.reg Reg.masterCur = 0xFF) (hy : d.yar.insts = [])
    (code origin : Nat) : (d.fence 1 code origin false).reg Reg.masterCur = 0 := by
  have hkey : (besideMaster false).event ∧ (besideMaster false).key Reg.fenced ∧ (besideMaster false).key (Reg.fenceReason 1) ∧
      (besideMaster false).key (Reg.fenceTick 1) ∧ (besideMaster false).key Reg.fences := by
    simp [Reg.fenced, Reg.fenceReason, Reg.fenceTick, Reg.fences, Reg.faultsWritten, Reg.lastFault, Reg.logNextSeq, Reg.recordsDropped,
      Reg.masterCur]
  obtain ⟨_, _, _, _, _⟩ := hkey
  unfold fence
  rw [hf]
  simp only [Bool.false_eq_true, if_false]
  generalize hd' : Dev.sendRecovery _ _ = d'
  have hw : Within (besideMaster false) d d' := by
    rw [← hd']
    exact sendRecovery_within (event_within (bump_within (setReg_within (setReg_within (setReg_within (.refl _ d) _ _) _ _) _ _) _ _) _ _) _ rfl rfl
  exact reg_fenceParts_lostJob ((hw.jobs (by simp)).trans hj) ((hw.reg _ (by simp)).trans hm) (by rw [hw.yar (by simp), hy])
end

/-- The master, switch 1, is silent; a group of composition 1 spans it, and composition 1 has a job. -/
def silentMaster : State :=
  { dev := { regs := [(Reg.masterCur, 1), (Reg.tickCount, 4)], jobs := lostJobs,
             dom := { swId := 0, planeSet := 3, beacons := [(1, { beacon := default, arrived := 0 })] },
             yar := { registry := [(0, { desc := 2 ^ 16 + 2 ^ 33, contribs := [] })] } } }

/-- The device when the fence of switch 1's compositions begins. -/
def masterGone : Dev := (silentMaster.dev.setMaster 0xFF).fresh.2.modDom fun D => { D with lostSwitches := setBit D.lostSwitches 1 true }

theorem compsOfSwitch_silentMaster : (silentMaster.dev.setMaster 0xFF).compsOfSwitch 1 = [1] := by decide +kernel

/-- The loss of a switch with one affected composition fences that composition. -/
theorem loseSwitch_of_comp {d d' : Dev} {sw c : Nat} (h : d.compsOfSwitch sw = [c]) (hc : (List.range 64).filter (fun x => [c].contains x) = [c])
    (hd : d.fresh.2.modDom (fun D => { D with lostSwitches := setBit D.lostSwitches sw true }) = d') :
    d.loseSwitch sw = d'.fence c (d.fresh.1 % 65536) d'.dom.swId false := by
  subst hd
  rw [loseSwitch, h, fenceOwn, hc]
  rfl

/-- The loss of switch 1 fences composition 1 alone. -/
theorem masterLost_silentMaster : ∃ code, silentMaster.dev.masterLost = masterGone.fence 1 code 0 false := by
  have hm : silentMaster.dev.reg Reg.masterCur = 1 := by decide +kernel
  have hcond : (silentMaster.dev.ownId.isNone || decide (1 = 0xFF) || silentMaster.dev.isMaster || !silentMaster.dev.silent 1) = false := by
    decide +kernel
  have horigin : masterGone.dom.swId = 0 := by decide +kernel
  refine ⟨(silentMaster.dev.setMaster 0xFF).fresh.1 % 65536, ?_⟩
  rw [masterLost, hm]
  simp only [hcond, Bool.false_eq_true, if_false]
  rw [loseSwitch_of_comp compsOfSwitch_silentMaster (by decide +kernel) (d' := masterGone) rfl, horigin]

/-- Refutes O3: where a job's key is such that its quadrant's JOBS_FAILED counter is MASTER_CUR, the fence that follows the loss of the master
takes MASTER_CUR from 0xFF to 0. -/
theorem not_masterChangesAndPhases : ¬ Obligations.MasterChangesAndPhases := by
  unfold Obligations.MasterChangesAndPhases
  rintro ⟨hlost, -⟩
  obtain ⟨t, e, ht, -⟩ := hlost silentMaster (by decide +kernel) (by decide +kernel) (by decide +kernel) (by decide +kernel)
  obtain ⟨code, hd⟩ := masterLost_silentMaster
  have hm : masterGone.reg Reg.masterCur = 0xFF := by decide +kernel
  rw [execMasterLost_dev e, hd, reg_fence_lostJob (by decide +kernel) rfl hm rfl] at ht
  exact absurd ht (by decide)

end Sys2Proof.Machine
end

section
/-! Settling `BeaconsMarkersAndHoldover` (O2): what a beacon and a marker do to the device, one lemma for each thing the clauses name. -/

namespace Sys2Proof

/-- What a table gives for a key stands in it. -/
theorem Tab.mem_of_look {α : Type} {t : Tab α} {k : Nat} {r : α} (h : Tab.look t k = some r) : (k, r) ∈ t := by
  induction t with
  | nil => cases h
  | cons x t ih =>
    obtain ⟨j, v⟩ := x
    rw [Tab.look] at h
    split at h
    · next e =>
      obtain rfl := Option.some.inj h
      exact e ▸ List.mem_cons_self
    · exact List.mem_cons_of_mem _ (ih h)

end Sys2Proof

namespace Sys2Proof.Machine
open Dev

namespace Dev

/-! ### What may change -/

/-- A scope of the ports alone. -/
def ofPorts : Scope := ⟨fun | .ports => true | _ => false, fun _ => False⟩

/-- The scope of an event record and of the manager's choice. -/
def ofNotes : Scope :=
  ⟨fun | .logs | .mgmt | .out => true | _ => false,
    fun k => k ∈ [Reg.faultsWritten, Reg.lastFault, Reg.logNextSeq, Reg.recordsDropped, Reg.managerCur]⟩

theorem planePorts_congr {d d' : Dev} (h : d'.regs = d.regs) : d'.planePorts = d.planePorts := by
  cases d
  cases d'
  cases h
  rfl

theorem planePorts_nodup {d : Dev} (h : Rising d.regs) : d.planePorts.Nodup := by
  have hlive : (d.liveStates.map Prod.fst).Pairwise (· < ·) := by
    rw [List.pairwise_map, liveStates, List.pairwise_filterMap]
    refine (List.pairwise_map.1 h).imp fun {a a'} hlt x hx x' hx' => ?_
    simp only [Option.ite_none_right_eq_some, Option.some.injEq] at hx hx'
    obtain ⟨⟨hlo, -, hmod⟩, rfl⟩ := hx
    obtain ⟨⟨hlo', -, hmod'⟩, rfl⟩ := hx'
    dsimp only
    omega
  refine List.Nodup.filter _ ?_
  exact (hlive.sublist (List.filter_sublist.map _)).imp Nat.ne_of_lt

/-! ### The class streams of the ports -/

/-- The packets of a class that wait at a port. -/
def stream (d : Dev) (p c : Nat) : List Packet := Tab.getD (d.port p).txq c []

theorem stream_congr {d d' : Dev} (h : d'.ports = d.ports) (p c : Nat) : d'.stream p c = d.stream p c := by
  simp only [stream, port, h]

@[simp] theorem stream_sendPort_same (d : Dev) (p : Nat) (pk : Packet) : (d.sendPort p pk).stream p pk.cls = d.stream p pk.cls ++ [pk] := by
  simp [stream, sendPort]

theorem stream_sendPort_ne_port (d : Dev) {p p' : Nat} (pk : Packet) (c : Nat) (h : p' ≠ p) : (d.sendPort p pk).stream p' c = d.stream p' c := by
  simp only [stream, sendPort, port_modPort_ne _ _ h]

theorem stream_sendPort_ne_cls (d : Dev) (p p' : Nat) (pk : Packet) {c : Nat} (h : c ≠ pk.cls) : (d.sendPort p pk).stream p' c = d.stream p' c := by
  by_cases hp : p' = p
  · subst hp
    simp [stream, sendPort, Tab.getD_upd_ne _ _ _ _ h]
  · exact stream_sendPort_ne_port d pk c hp

theorem stream_each_sendPort_notMem {l : List Nat} {p : Nat} (pk : Packet) (c : Nat) (h : p ∉ l) (d : Dev) :
    (d.each l fun d q => d.sendPort q pk).stream p c = d.stream p c := by
  induction l generalizing d with
  | nil => rfl
  | cons q l ih =>
    obtain ⟨hq, hl⟩ := not_or.1 (mt List.mem_cons.2 h)
    exact (ih hl _).trans (stream_sendPort_ne_port d pk c hq)

theorem stream_each_sendPort_mem {l : List Nat} {p : Nat} (pk : Packet) (hn : l.Nodup) (h : p ∈ l) (d : Dev) :
    (d.each l fun d q => d.sendPort q pk).stream p pk.cls = d.stream p pk.cls ++ [pk] := by
  induction l generalizing d with
  | nil => cases h
  | cons q l ih =>
    obtain ⟨hq, hn⟩ := List.nodup_cons.1 hn
    rcases List.mem_cons.1 h with rfl | hl
    · exact (stream_each_sendPort_notMem pk _ hq _).trans (stream_sendPort_same d p pk)
    · have hne : p ≠ q := fun e => hq (e ▸ hl)
      exact (ih hn hl _).trans (by rw [stream_sendPort_ne_port d pk _ hne])

theorem stream_each_ne_cls {α : Type} {f : Dev → α → Dev} {p c : Nat} (h : ∀ d a, (f d a).stream p c = d.stream p c) (l : List α) (d : Dev) :
    (d.each l f).stream p c = d.stream p c := by
  induction l generalizing d with
  | nil => rfl
  | cons a l ih => exact (ih _).trans (h d a)

theorem stream_flood_ne_cls (d : Dev) (except : Option Nat) (pk : Packet) (p : Nat) {c : Nat} (h : c ≠ pk.cls) :
    (d.flood except pk).stream p c = d.stream p c :=
  stream_each_ne_cls (fun d q => stream_sendPort_ne_cls d q p pk h) _ d

/-- A flooded packet waits, last in its class, at each plane port it goes to. -/
theorem stream_flood (d : Dev) {port p : Nat} (pk : Packet) (hr : Rising d.regs) (hp : p ∈ d.planePorts) (hne : p ≠ port) :
    (d.flood (some port) pk).stream p pk.cls = d.stream p pk.cls ++ [pk] :=
  stream_each_sendPort_mem pk ((planePorts_nodup hr).filter _) (List.mem_filter.2 ⟨hp, by simpa using hne⟩) d

theorem stream_sendImage (d : Dev) (t p : Nat) : (d.sendImage t).stream p 0 = d.stream p 0 :=
  stream_each_ne_cls (fun d _ => stream_flood_ne_cls d _ _ p (by simp [ctrl])) _ d

/-! ### What a taken control packet leaves -/

section
variable (d : Dev) (p cls n : Nat)

theorem within_ctrlTaken : Within ofPorts d (d.ctrlTaken p cls n) := ctrlTaken_within (.refl _ d) _ _ _ rfl

@[simp] theorem regs_ctrlTaken : (d.ctrlTaken p cls n).regs = d.regs := (within_ctrlTaken d p cls n).regs fun _ => id
@[simp] theorem reg_ctrlTaken (k : Nat) : (d.ctrlTaken p cls n).reg k = d.reg k := (within_ctrlTaken d p cls n).reg k id
@[simp] theorem dom_ctrlTaken : (d.ctrlTaken p cls n).dom = d.dom := (within_ctrlTaken d p cls n).dom (by simp [ofPorts])
@[simp] theorem out_ctrlTaken : (d.ctrlTaken p cls n).out = d.out := (within_ctrlTaken d p cls n).out (by simp [ofPorts])
@[simp] theorem role_ctrlTaken (q : Nat) : (d.ctrlTaken p cls n).role q = d.role q := reg_ctrlTaken d p cls n _
@[simp] theorem isActive_ctrlTaken (q : Nat) : (d.ctrlTaken p cls n).isActive q = d.isActive q :=
  congrArg (fun v => decide (v = 6)) (reg_ctrlTaken d p cls n _)
@[simp] theorem tick_ctrlTaken : (d.ctrlTaken p cls n).tick = d.tick := reg_ctrlTaken d p cls n _
@[simp] theorem isMaster_ctrlTaken : (d.ctrlTaken p cls n).isMaster = d.isMaster := by simp [isMaster, ownId]
@[simp] theorem beforeElection_ctrlTaken : (d.ctrlTaken p cls n).beforeElection = d.beforeElection := by simp [beforeElection]
@[simp] theorem ctrl_ctrlTaken (t c : Nat) (bs : Bytes) : (d.ctrlTaken p cls n).ctrl t c bs = d.ctrl t c bs := by simp [ctrl]

theorem port_ctrlTaken_ne {q : Nat} (h : q ≠ p) : (d.ctrlTaken p cls n).port q = d.port q := by
  unfold ctrlTaken
  split
  · exact port_modPort_ne d _ h
  · rfl

end

@[simp] theorem ctrlDrop_of_plane {d : Dev} {p : Nat} (h : d.role p = 1) : d.ctrlDrop p = d := by simp [ctrlDrop, h]

/-! ### Beacons -/

theorem approve_eq (d : Dev) (b : Beacon) : ∃ i l, d.approve b = (d.modDom fun D => { D with imaged := i }).each l fun d t => d.sendImage t := by
  unfold approve
  split
  · exact ⟨d.dom.imaged, [], rfl⟩
  · exact ⟨_, _, rfl⟩

theorem beacons_approve (d : Dev) (b : Beacon) : (d.approve b).dom.beacons = d.dom.beacons := by
  obtain ⟨i, l, e⟩ := approve_eq d b
  have hw : Within ofPorts (d.modDom fun D => { D with imaged := i }) (d.approve b) :=
    e ▸ each_within (.refl _ _) l fun _ t h => sendImage_within h t rfl
  rw [hw.dom (by simp [ofPorts])]
  rfl

theorem stream_approve (d : Dev) (b : Beacon) (p : Nat) : (d.approve b).stream p 0 = d.stream p 0 := by
  obtain ⟨i, l, e⟩ := approve_eq d b
  rw [e, stream_each_ne_cls (fun d t => stream_sendImage d t p)]
  rfl

/-- The record of a manager conflict, where there is one, and the manager's choice leave the domain state and the ports alone. -/
theorem within_manage_event (d : Dev) (c : Bool) (e : Event) : Within ofNotes d (if c then d.event 4 e else d).manage :=
  manage_within (.ite (event_within (.refl _ d) _ _ (by simp [ofNotes])) (.refl _ d)) (by simp [ofNotes])

/-- A beacon from another switch, of the own domain and not seen before, arrived on an ACTIVE plane port. -/
structure NewBeacon (d : Dev) (port : Nat) (b : Beacon) : Prop where
  active : d.isActive port = true
  plane : d.role port = 1
  own : b.domId = d.dom.domId
  unseen : (b.switchId, b.serial, b.tick) ∉ d.dom.seenBeacons
  other : b.switchId ≠ d.dom.swId

/-- The latest beacon of a switch is kept, stamped with the current tick, and its sender is no longer lost. -/
def keepBeacon (d : Dev) (b : Beacon) : Dev :=
  d.modDom fun D => { D with beacons := Tab.put D.beacons b.switchId { beacon := b, arrived := d.tick },
                             lostSwitches := setBit D.lostSwitches b.switchId false,
                             testFailed := if bit b.flags 1 then setBit D.testFailed b.switchId false else D.testFailed }

/-- A beacon as it goes on to the other plane ports. -/
def forwarded (d : Dev) (b : Beacon) : Packet := { d.ctrl 0x02 0 b.bytes with srcSw := b.switchId }

section
variable {d : Dev} {port : Nat} {b : Beacon}

theorem beaconIn_of_new (h : NewBeacon d port b) : ∃ (c : Bool) (e : Event) (d' : Dev),
    d' = ((d.noteBeacon b).flood (some port) (d.forwarded b)).keepBeacon b ∧
    d.beaconIn port b = (if c then d'.event 4 e else d').manage.approve b := by
  obtain ⟨hactive, hplane, hown, hunseen, hother⟩ := h
  have hdom : ((d.noteBeacon b).flood (some port) (d.forwarded b)).dom = (d.noteBeacon b).dom :=
    (flood_within (S := ofPorts) (.refl _ _) _ _ rfl).dom (by simp [ofPorts])
  have hswitch : b.switchId ≠ ((d.noteBeacon b).flood (some port) (d.forwarded b)).dom.swId := by rwa [hdom]
  unfold beaconIn
  rw [if_neg (by simp [hactive, hplane, hown, hunseen]), if_neg (by simp [hother])]
  unfold forwarded at *
  generalize (d.noteBeacon b).flood (some port) _ = F at *
  simp only [if_neg hswitch]
  exact ⟨_, _, _, rfl, rfl⟩

theorem regs_noteBeacon_flood (pk : Packet) : ((d.noteBeacon b).flood (some port) pk).regs = d.regs :=
  (flood_within (noteBeacon_within (S := ⟨fun _ => true, fun _ => False⟩) (.refl _ d) b rfl) (some port) pk rfl).regs fun _ => id

/-- The beacon is kept (R49). -/
theorem look_beacons_beaconIn (h : NewBeacon d port b) :
    Tab.look (d.beaconIn port b).dom.beacons b.switchId = some { beacon := b, arrived := d.tick } := by
  obtain ⟨c, e, d', rfl, he⟩ := beaconIn_of_new h
  have htick : ((d.noteBeacon b).flood (some port) (d.forwarded b)).tick = d.tick := by rw [tick, reg, regs_noteBeacon_flood]; rfl
  rw [he, beacons_approve, (within_manage_event _ c e).dom (by simp [ofNotes])]
  simp [keepBeacon, modDom, htick]

/-- The beacon goes out on every other plane port (R49). -/
theorem stream_beaconIn (h : NewBeacon d port b) (hr : Rising d.regs) {p : Nat} (hp : p ∈ d.planePorts) (hne : p ≠ port) :
    (d.beaconIn port b).stream p 0 = d.stream p 0 ++ [d.forwarded b] := by
  obtain ⟨c, e, d', rfl, he⟩ := beaconIn_of_new h
  calc (d.beaconIn port b).stream p 0
      = ((d.noteBeacon b).flood (some port) (d.forwarded b)).stream p 0 := by
        rw [he, stream_approve, stream_congr ((within_manage_event _ c e).ports (by simp [ofNotes]))]
        rfl
    _ = d.stream p 0 ++ [d.forwarded b] := stream_flood (d.noteBeacon b) (d.forwarded b) hr hp hne

end

theorem beaconIn_seen {d : Dev} {port : Nat} {b : Beacon} (hplane : d.role port = 1)
    (hseen : (b.switchId, b.serial, b.tick) ∈ d.dom.seenBeacons) : d.beaconIn port b = d := by
  unfold beaconIn
  rw [if_pos (by simp [hseen]), ctrlDrop_of_plane hplane]

/-! ### Markers -/

@[simp] theorem reg_modDom (d : Dev) (f : DomState → DomState) (k : Nat) : (d.modDom f).reg k = d.reg k := rfl

theorem within_sendMarker (d : Dev) (except : Option Nat) (m : Marker) : Within ofPorts d (d.sendMarker except m) :=
  sendMarker_within (.refl _ d) except m rfl

/-- A marker as it is held. -/
def heldAs (d : Dev) (m : Marker) (arrivalPs : Int) : MarkerRec := { marker := m, arrivalPs := arrivalPs, arrived := d.tick }

/-- The marker is held at its port. -/
def keepMarker (d : Dev) (port : Nat) (r : MarkerRec) : Dev := d.modDom fun D => { D with markers := Tab.put D.markers port r }

section
variable {d : Dev} {port : Nat} {m : Marker} {arrivalPs : Int} {residencePs : Nat}

theorem markerIn_beforeElection (hactive : d.isActive port = true) (hplane : d.role port = 1) (hmaster : d.isMaster = false)
    (hbefore : d.beforeElection = true) : d.markerIn port m arrivalPs residencePs = d.keepMarker port (d.heldAs m arrivalPs) := by
  unfold markerIn
  rw [if_neg (by simp [hactive, hplane, hmaster])]
  exact if_pos hbefore

theorem markerIn_parent (hactive : d.isActive port = true) (hplane : d.role port = 1) (hmaster : d.isMaster = false)
    (hbefore : d.beforeElection = false) (hparent : (d.keepMarker port (d.heldAs m arrivalPs)).parentPort = some port) :
    ∃ m', d.markerIn port m arrivalPs residencePs =
      ((d.keepMarker port (d.heldAs m arrivalPs)).follow port (d.heldAs m arrivalPs)).sendMarker (some port) m' := by
  unfold markerIn
  rw [if_neg (by simp [hactive, hplane, hmaster])]
  refine ⟨_, (if_neg ?_).trans (if_pos hparent)⟩
  exact Bool.not_eq_true _ ▸ hbefore

/-- The only marker held leads to its port (R63). -/
theorem parentPort_keepMarker (hactive : d.isActive port = true) (hplane : d.role port = 1) (hnone : d.dom.markers = []) :
    (d.keepMarker port (d.heldAs m arrivalPs)).parentPort = some port := by
  have hheld : (d.keepMarker port (d.heldAs m arrivalPs)).heldMarkers = [(port, d.heldAs m arrivalPs)] := by
    have hkept : (d.keepMarker port (d.heldAs m arrivalPs)).dom.markers = [(port, d.heldAs m arrivalPs)] := by
      rw [keepMarker, modDom, hnone]
      rfl
    rw [heldMarkers, hkept]
    have ht : (d.keepMarker port (d.heldAs m arrivalPs)).tick ≤ (d.heldAs m arrivalPs).arrived := le_rfl
    have ha : (d.keepMarker port (d.heldAs m arrivalPs)).isActive port = true := hactive
    have hr : (d.keepMarker port (d.heldAs m arrivalPs)).role port = 1 := hplane
    simp [ha, hr, ht.trans (Nat.le_add_right _ _)]
  rw [parentPort, hheld]
  rfl

/-- What following a marker sets first: the parent, the depth and the tick state. -/
def follows (d : Dev) (port depth : Nat) : Dev :=
  ((d.setReg Reg.tickParent port).setReg Reg.tickDepth ((depth + 1) % 32)).setReg Reg.tickState
    (if d.reg Reg.tickState = 0 then 1 else if d.reg Reg.tickState = 3 then 2 else d.reg Reg.tickState)

/-- A scope of the offset and what is counted about it. -/
def ofOffset : Scope := ⟨fun | .dom => true | _ => false, fun k => k = Reg.tickOffset ∨ k = Reg.tickAlignFaults⟩

theorem within_follow (r : MarkerRec) : Within ofOffset (d.follows port r.marker.depth) (d.follow port r) := by
  have hstate : (match d.reg Reg.tickState with | 0 => 1 | 3 => 2 | s => s) =
      if d.reg Reg.tickState = 0 then 1 else if d.reg Reg.tickState = 3 then 2 else d.reg Reg.tickState := by
    split <;> simp_all
  unfold follow follows
  rw [← hstate]
  have hk : ofOffset.key Reg.tickOffset := .inl rfl
  have hk' : ofOffset.key Reg.tickAlignFaults := .inr rfl
  have hp : ofOffset.part .dom := rfl
  refine .ite (.ite (alignFault_within (modDom_within (setReg_within (modDom_within (.refl _ _) _) _ _) _)) ?_) ?_
  · exact modDom_within (setReg_within (modDom_within (.refl _ _) _) _ _) _
  · exact modDom_within (.refl _ _) _

theorem tickState_follow (r : MarkerRec) : (d.follow port r).reg Reg.tickState =
    if d.reg Reg.tickState = 0 then 1 else if d.reg Reg.tickState = 3 then 2 else d.reg Reg.tickState :=
  ((within_follow r).reg _ (by simp [ofOffset, Reg.tickState, Reg.tickOffset, Reg.tickAlignFaults])).trans (reg_setReg_same _ _ _)

theorem tickDepth_follow (r : MarkerRec) : (d.follow port r).reg Reg.tickDepth = (r.marker.depth + 1) % 32 := by
  rw [(within_follow r).reg _ (by simp [ofOffset, Reg.tickDepth, Reg.tickOffset, Reg.tickAlignFaults]), follows,
    reg_setReg_ne _ _ (by decide), reg_setReg_same]

theorem tickParent_follow (r : MarkerRec) : (d.follow port r).reg Reg.tickParent = port := by
  rw [(within_follow r).reg _ (by simp [ofOffset, Reg.tickParent, Reg.tickOffset, Reg.tickAlignFaults]), follows,
    reg_setReg_ne _ _ (by decide), reg_setReg_ne _ _ (by decide), reg_setReg_same]

theorem markers_alignFault (d : Dev) : d.alignFault.dom.markers = d.dom.markers := by
  unfold alignFault
  dsimp only
  split
  · rfl
  · rw [(bump_within (S := ⟨fun _ => false, fun _ => True⟩) (.refl _ _) _ _ trivial).dom (by simp)]
    rfl

theorem markers_follow (r : MarkerRec) : (d.follow port r).dom.markers = d.dom.markers := by
  unfold follow
  dsimp only
  split
  · split
    · exact markers_alignFault _
    · rfl
  · rfl

end

/-! ### Holdover -/

theorem holdover_of_none {d : Dev} (hstate : d.reg Reg.tickState = 2) (hmaster : d.isMaster = false)
    (hnone : ∀ x ∈ d.dom.markers, x.2.arrived ≠ d.tick) : d.holdover = (d.setReg Reg.tickState 3).setReg Reg.tickParent 0xFFFF := by
  have hheld : (Tab.look d.dom.markers (d.reg Reg.tickParent)).any (fun m => m.arrived = d.tick) = false := by
    cases e : Tab.look d.dom.markers (d.reg Reg.tickParent) with
    | none => rfl
    | some m => simpa using hnone _ (Tab.mem_of_look e)
  unfold holdover
  exact if_neg (by simp [hstate, hmaster, hheld])

end Dev

theorem exec_beacon (port : Nat) (b : Beacon) (s : State) :
    exec (.beacon port b) s = onDev (fun d => (d.ctrlTaken port 0 64).beaconIn port b) s := rfl

theorem exec_tickMarker (port : Nat) (m : Marker) (arrivalPs : Int) (residencePs : Nat) (s : State) :
    exec (.tickMarker port m arrivalPs residencePs) s =
      onDev (fun d => (d.ctrlTaken port 0 16).markerIn port m arrivalPs residencePs) s := rfl

theorem exec_holdoverEntry (s : State) : exec .holdoverEntry s = onDev holdover s := rfl

theorem exec_linkDelayMeasure (port rttPs : Nat) (s : State) : exec (.linkDelayMeasure port rttPs) s =
    onDev (fun d => if d.isActive port && d.role port = 1 then d.modDom (fun D => { D with linkDelay := Tab.put D.linkDelay port (halfTrip rttPs) })
      else d) s := rfl

/-- A command whose meaning acts on the device runs to a state that differs in the device. -/
theorem runs_of_dev {c : Instr} {s : State} {P : State → Prop} {f : Dev → Dev} {d : Dev} (e : exec c s = onDev f s) (hd : f s.dev = d)
    (h : P { s with dev := d }) : Runs c s P := by
  subst hd
  exact ⟨_, e, h⟩

/-- Settles O2, clause by clause: a beacon is kept and flooded, the only marker is followed, and the rest leaves what it names. -/
theorem beaconsMarkersAndHoldover : Obligations.BeaconsMarkersAndHoldover := by
  refine ⟨?_, ?_, ?_, ?_, ?_, ?_⟩
  case refine_1 =>
    intro s port b hr hactive hplane hown hunseen hother
    have hnew : NewBeacon (s.dev.ctrlTaken port 0 64) port b := by constructor <;> simpa
    have hplanes := planePorts_congr (regs_ctrlTaken s.dev port 0 64)
    refine runs_of_dev (exec_beacon ..) rfl ⟨?_, fun p hp hne => ?_⟩
    · rw [look_beacons_beaconIn hnew, tick_ctrlTaken]
    · refine (stream_beaconIn hnew (by simpa) (hplanes ▸ hp) hne).trans ?_
      rw [stream, port_ctrlTaken_ne s.dev port 0 64 hne, forwarded, ctrl_ctrlTaken]
  case refine_2 =>
    intro s port b hplane hseen
    exact runs_of_dev (exec_beacon ..) (beaconIn_seen (by simpa) (by simpa))
      ⟨dom_ctrlTaken .., regs_ctrlTaken .., fun p hne => port_ctrlTaken_ne s.dev port 0 64 hne, out_ctrlTaken ..⟩
  case refine_3 =>
    intro s port m arrivalPs residencePs hactive hplane hmaster hbefore hnone hdepth
    have hparent := parentPort_keepMarker (d := s.dev.ctrlTaken port 0 16) (port := port) (m := m) (arrivalPs := arrivalPs)
      (by simpa) (by simpa) (by simpa)
    obtain ⟨m', hd⟩ := markerIn_parent (residencePs := residencePs) (by simpa) (by simpa) (by simpa) (by simpa) hparent
    have hw := within_sendMarker (((s.dev.ctrlTaken port 0 16).keepMarker port ((s.dev.ctrlTaken port 0 16).heldAs m arrivalPs)).follow port
      ((s.dev.ctrlTaken port 0 16).heldAs m arrivalPs)) (some port) m'
    refine runs_of_dev (exec_tickMarker ..) hd ⟨?_, ?_, ?_, ?_⟩
    · exact (hw.reg _ id).trans (tickParent_follow _)
    · rw [hw.reg _ id, tickDepth_follow]
      exact Nat.mod_eq_of_lt (Nat.succ_lt_succ hdepth)
    · rw [hw.reg _ id, tickState_follow, keepMarker, reg_modDom, reg_ctrlTaken]
    · rw [hw.dom (by simp [ofPorts]), markers_follow]
      simp [keepMarker, modDom, heldAs]
  case refine_4 =>
    intro s port m arrivalPs residencePs hactive hplane hmaster hbefore
    refine runs_of_dev (exec_tickMarker ..) (markerIn_beforeElection (by simpa) (by simpa) (by simpa) (by simpa)) ⟨?_, ?_, fun p hne => ?_⟩
    · simp [keepMarker, modDom, heldAs]
    · exact regs_ctrlTaken ..
    · exact port_ctrlTaken_ne s.dev port 0 16 hne
  case refine_5 =>
    intro s hstate hmaster hnone
    refine runs_of_dev (exec_holdoverEntry ..) (holdover_of_none hstate hmaster hnone) ⟨?_, ?_, ?_, ?_⟩
    · rw [reg_setReg_ne _ _ (by decide), reg_setReg_same]
    · exact reg_setReg_same ..
    · rw [tick, reg_setReg_ne _ _ (by decide), reg_setReg_ne _ _ (by decide)]
      rfl
    · rfl
  case refine_6 =>
    intro s port rttPs hactive hplane
    exact runs_of_dev (exec_linkDelayMeasure ..) (if_pos (by simp [hactive, hplane])) (Tab.look_put_same ..)

end Sys2Proof.Machine
end

section
/-! An entry listed twice (O40): nothing says that the dictionary is canonical in the clauses of the stops. -/

namespace Sys2Proof.Machine

/-- Above 80 V the module stops (R624): a DISABLED port is in electrical idle (R102), and port 0 sends no DYING. -/
theorem overvoltage_portListedTwice {t : State} (e : exec (.overvoltage 80001) portListedTwice = .next t) : t.dev.out = [] := by
  rw [onMem_next (f := Dev.overvoltage 80001) e]
  decide +kernel

/-- Refutes O40: its clause of an input above 80 V asks for a DYING flit of every port that the dictionary lists as not DISABLED, whatever its
state entry reads; with the entry listed twice, 0 first, port 0 reads DISABLED and sends none. -/
theorem not_supplyAndStops : ¬ Obligations.SupplyAndStops := by
  unfold Obligations.SupplyAndStops
  rintro ⟨-, -, -, -, -, -, -, hover, -⟩
  obtain ⟨t, hrun, -, -, -, -, -, -, hdying⟩ := hover portListedTwice 80001 rfl rfl (by decide) (by decide)
  obtain ⟨l, f, hmem, -⟩ := hdying 0 portListedTwice_live (.inl (by rw [portListedTwice_disabled]; decide))
  rw [overvoltage_portListedTwice hrun] at hmem
  exact absurd hmem (by simp)

end Sys2Proof.Machine
end

section
/-! An entry listed twice (O7): a port that goes down still counts as ACTIVE, and an answer is queued to it. -/

namespace Sys2Proof.Machine

/-- A tray READ of module 3 is open at home agent 0. Port 0 is an ACTIVE ENDPOINT port whose peer is module 3, and the dictionary lists its state
twice: a write of the entry leaves the second, by which the port still counts among the ACTIVE ones. No command makes it from a canonical one
(O49), which the premises of O7 do not ask for. -/
def readerListedTwice : State :=
  { State.reset with
    dev := { State.reset.dev with
      regs := [(Reg.portState 0, 6), (Reg.portState 0, 6), (Reg.portRole 0, 0), (Reg.portExpectFeid 0, 3)],
      homes := [(0, {
        ops := [{ id := 1, kind := .read, pkt := { ptype := .read, src := 3 }, off := 0, len := 8, started := true }],
        subs := [{
          port := 0, feid := 3, src := 3, reqEpoch := 0, tag := 0, write := false, addr := 0, len := 8, cls := 2, op := 1, fwd := true,
          span := 8 }] })] } }

theorem readerListedTwice_active : readerListedTwice.dev.isActive 0 = true := by decide

/-- Port 0 goes down with its peer's read open behind it: the read fails, and its answer waits in port 0's own queue. -/
theorem lossOfSignal_readerListedTwice {t : State} (e : exec (.lossOfSignal 0) readerListedTwice = .next t) : (t.dev.port 0).txq ≠ [] := by
  cases e
  decide +kernel

/-- Refutes O7: its first clause says that the queue to send is empty after a loss of signal; with the state entry listed twice, the failure of
a read of the lost endpoint queues its answer to the port that went down. -/
theorem not_portsGoDownAndFlitsLeave : ¬ Obligations.PortsGoDownAndFlitsLeave := by
  unfold Obligations.PortsGoDownAndFlitsLeave
  rintro ⟨hloss, -⟩
  obtain ⟨t, hrun, -, -, -, hempty⟩ := hloss readerListedTwice 0 (by decide) readerListedTwice_active
  exact lossOfSignal_readerListedTwice hrun hempty

end Sys2Proof.Machine
end

section
/-! SUPPORT. What the operations of a link leave of its port and of the dictionary: one rule for each (R86 to R113). -/

namespace Sys2Proof.Machine
namespace Dev

/-! ### Entries and parts -/

@[simp] theorem port_setReg (d : Dev) (k v p : Nat) : (d.setReg k v).port p = d.port p := rfl
@[simp] theorem port_bump (d : Dev) (k n p : Nat) : (d.bump k n).port p = d.port p := by unfold bump; split <;> rfl

/-- A count depends on its own entry alone. -/
theorem reg_bump_congr {d d' : Dev} {k : Nat} (n : Nat) (h : d.reg k = d'.reg k) : (d.bump k n).reg k = (d'.bump k n).reg k := by
  unfold bump
  split
  · exact h
  · simp [h]

/-- The state, the role and the lanes of a port are entries of the dictionary. -/
theorem isActive_congr {d d' : Dev} {p : Nat} (h : d'.reg (Reg.portState p) = d.reg (Reg.portState p)) : d'.isActive p = d.isActive p := by
  unfold isActive portState
  rw [h]

theorem portLaneMask_congr {d d' : Dev} {p : Nat} (h : d'.reg (Reg.pbMode (p / 4)) = d.reg (Reg.pbMode (p / 4))) :
    d'.portLaneMask p = d.portLaneMask p := by
  unfold portLaneMask
  rw [h]

/-- The element set is the one read at its place. -/
theorem getD_setAt {α : Type} (z y : α) : ∀ (xs : List α) (i : Nat), i < xs.length → (setAt xs i y).getD i z = y
  | _ :: _, 0, _ => rfl
  | _ :: xs, i + 1, h => getD_setAt z y xs i (by simpa using h)

variable (d : Dev) (p : Nat)

theorem portState_of_isActive {d : Dev} {p : Nat} (h : d.isActive p = true) : d.portState p = 6 := by simpa [isActive] using h

/-! ### Header, sequence and replay (R86 to R92, R99) -/

/-- A credit counter changes the credits held and what was last seen of the peer's counters. -/
theorem takeCredit_eq (P : Port) (sel cnt : Nat) : ∃ credits crSeen, takeCredit P sel cnt = { P with credits := credits, crSeen := crSeen } := by
  unfold takeCredit
  split
  · exact ⟨_, _, rfl⟩
  · exact ⟨_, _, rfl⟩

/-- A port with other replay state: what is unacknowledged, what is to be sent again, the expiries in a row and the NAK acted on (R88, R92). -/
def withReplay (P : Port) (replay resend : List Flit) (expiries : Nat) (lastNak : Option NakMark) : Port :=
  { P with replay := replay, resend := resend, expiries := expiries, lastNak := lastNak }

/-- Credits count apart from what is acknowledged. -/
theorem takeCredit_withReplay (P : Port) (replay resend : List Flit) (expiries : Nat) (lastNak : Option NakMark) (sel cnt : Nat) :
    takeCredit (withReplay P replay resend expiries lastNak) sel cnt = withReplay (takeCredit P sel cnt) replay resend expiries lastNak := by
  unfold takeCredit
  split <;> rfl

/-- The header of a flit changes the replay state and the credits that its two counters give. -/
theorem port_applyHeader_credits (f : Flit) : ∃ replay resend expiries lastNak, (d.applyHeader p f).port p =
    withReplay (takeCredit (takeCredit (d.port p) f.craSel f.craCnt) f.crbSel f.crbCnt) replay resend expiries lastNak := by
  unfold applyHeader
  extract_lets P a n left acked credited fresh after d'
  have hcredited : credited = withReplay (takeCredit (takeCredit (d.port p) f.craSel f.craCnt) f.crbSel f.crbCnt) acked.replay acked.resend
      acked.expiries acked.lastNak := by
    rw [← takeCredit_withReplay, ← takeCredit_withReplay]
    rfl
  have hafter : ∃ replay resend expiries lastNak, after =
      withReplay (takeCredit (takeCredit (d.port p) f.craSel f.craCnt) f.crbSel f.crbCnt) replay resend expiries lastNak := by
    unfold after
    rw [hcredited]
    split
    · exact ⟨_, _, _, _, rfl⟩
    · exact ⟨_, _, _, _, rfl⟩
  have hd' : d'.port p = after := port_modPort_same ..
  split
  · rwa [port_bump, hd']
  · rwa [hd']

theorem port_applyHeader (f : Flit) : ∃ replay resend expiries lastNak credits crSeen, (d.applyHeader p f).port p =
    { withReplay (d.port p) replay resend expiries lastNak with credits := credits, crSeen := crSeen } := by
  obtain ⟨replay, resend, expiries, lastNak, e⟩ := port_applyHeader_credits d p f
  obtain ⟨c, s, ha⟩ := takeCredit_eq (d.port p) f.craSel f.craCnt
  obtain ⟨c', s', hb⟩ := takeCredit_eq (takeCredit (d.port p) f.craSel f.craCnt) f.crbSel f.crbCnt
  exact ⟨replay, resend, expiries, lastNak, c', s', by rw [e, hb, ha]; rfl⟩

theorem reg_applyHeader (f : Flit) {k : Nat} (h : k ≠ Reg.nakRcvd p) : (d.applyHeader p f).reg k = d.reg k := by
  unfold applyHeader
  extract_lets P a n left acked credited fresh after d'
  split
  · exact reg_bump_ne _ _ h
  · rfl

theorem port_requestReplay : (d.requestReplay p).port p = { d.port p with nak := true } := by
  unfold requestReplay
  split
  · next h => rw [← h]
  · simp

theorem reg_requestReplay {k : Nat} (h : k ≠ Reg.nakSent p) : (d.requestReplay p).reg k = d.reg k := by
  unfold requestReplay
  split
  · rfl
  · exact reg_bump_ne _ _ h

/-- A DATA flit in sequence advances the number expected, becomes acknowledged and ends a replay request; its payload enters the stream. -/
theorem port_acceptData (f : Flit) : ∃ rx crRet, (d.acceptData p f).port p =
    { d.port p with rxSeq := ((d.port p).rxSeq + 1) % 4096, ackValid := true, nak := false, rx := rx, crRet := crRet } := by
  unfold acceptData
  extract_lets P r gone rest held back after d₁ d₂
  have hd₁ : d₁.port p = after := port_modPort_same ..
  refine ⟨after.rx, after.crRet, ?_⟩
  split
  · rw [port_bump, port_bump, hd₁]
  · rw [port_bump, port_bump, port_bump, hd₁]

theorem reg_flitsRx_acceptData (f : Flit) : (d.acceptData p f).reg (Reg.flitsRx p) = (d.bump (Reg.flitsRx p)).reg (Reg.flitsRx p) := by
  have hb : Reg.flitsRx p ≠ Reg.bytesRx p := by simp [Reg.flitsRx, Reg.bytesRx]
  have hf : Reg.flitsRx p ≠ Reg.framingDrops := by unfold Reg.flitsRx Reg.framingDrops; omega
  unfold acceptData
  extract_lets P r gone rest held back after d₁ d₂
  have hd₂ : d₂.reg (Reg.flitsRx p) = (d.bump (Reg.flitsRx p)).reg (Reg.flitsRx p) :=
    (reg_bump_ne _ _ hb).trans (reg_bump_congr 1 (reg_modPort ..))
  split
  · exact hd₂
  · exact (reg_bump_ne _ _ hf).trans hd₂

/-! ### Received flits (R84 to R92) -/

section
variable {d : Dev} {p : Nat} {f : Flit}

/-- A header leaves the lane requests, the number expected, the NAK asked for and the received stream. -/
theorem laneReq_applyHeader : ((d.applyHeader p f).port p).laneReq = (d.port p).laneReq := by
  obtain ⟨_, _, _, _, _, _, e⟩ := port_applyHeader d p f
  rw [e]; rfl

theorem restoring_applyHeader : ((d.applyHeader p f).port p).restoring = (d.port p).restoring := by
  obtain ⟨_, _, _, _, _, _, e⟩ := port_applyHeader d p f
  rw [e]; rfl

theorem rxSeq_applyHeader : ((d.applyHeader p f).port p).rxSeq = (d.port p).rxSeq := by
  obtain ⟨_, _, _, _, _, _, e⟩ := port_applyHeader d p f
  rw [e]; rfl

theorem rx_applyHeader : ((d.applyHeader p f).port p).rx = (d.port p).rx := by
  obtain ⟨_, _, _, _, _, _, e⟩ := port_applyHeader d p f
  rw [e]; rfl

theorem nak_applyHeader : ((d.applyHeader p f).port p).nak = (d.port p).nak := by
  obtain ⟨_, _, _, _, _, _, e⟩ := port_applyHeader d p f
  rw [e]; rfl

/-- A DATA flit whose CRC fails is counted and asks for replay (R89, R92). -/
theorem dataFlit_damaged (ha : d.isActive p = true) (hcrc : f.crcOk = false) :
    d.dataFlit p f = (d.bump (Reg.crcErrors p)).requestReplay p := by
  simp [dataFlit, ha, hcrc]

/-- A DATA flit that checks is read where no degrade is asked for (R108): in sequence it is accepted, and a repeat is dropped (R89). -/
theorem dataFlit_read (ha : d.isActive p = true) (hcrc : f.crcOk = true) (hdata : f.ftype = 1)
    (hread : (d.port p).laneReq = none ∨ (d.port p).restoring = true) :
    d.dataFlit p f = if f.seq = (d.port p).rxSeq then (d.applyHeader p f).acceptData p f
      else if 1 ≤ ((d.port p).rxSeq + 4096 - f.seq) % 4096 ∧ ((d.port p).rxSeq + 4096 - f.seq) % 4096 ≤ 2048 then d.applyHeader p f
      else (d.applyHeader p f).requestReplay p := by
  have hopen : (((d.port p).laneReq.isSome && !(d.port p).restoring) = true) = False := by
    rcases hread with h | h <;> simp [h]
  simp only [dataFlit, ha, hcrc, hdata, laneReq_applyHeader, restoring_applyHeader, rxSeq_applyHeader, hopen, if_false, Bool.not_true,
    Bool.false_eq_true, Bool.or_self, bne_self_eq_false, Bool.and_eq_true, decide_eq_true_eq]

/-- A flit that checks and is not DATA counts by its header alone (R86, R92). -/
theorem plainFlit_good (ha : d.isActive p = true) (hcrc : f.crcOk = true) (htype : f.ftype < 5) : d.plainFlit p f = d.applyHeader p f := by
  simp [plainFlit, goodFlit, ha, hcrc, htype]

/-- An ALIGN flit that checks announces the peer's port number (R84). -/
theorem alignFlitIn_good (ha : d.isActive p = true) (hcrc : f.crcOk = true) (htype : f.ftype < 5) :
    d.alignFlitIn p f = (d.applyHeader p f).modPort p (fun P => { P with peerPort := le f.payload 2 2 }) := by
  have hstill : (d.applyHeader p f).isActive p = true :=
    (isActive_congr (reg_applyHeader d p f (by simp [Reg.portState, Reg.nakRcvd]))).trans ha
  simp [alignFlitIn, plainFlit_good ha hcrc htype, hstill, goodFlit, hcrc, htype]

/-- The counter of a credit class raises its credits by what it advanced (R99); a selector of 15 carries none. -/
theorem credits_applyHeader (hsel : f.craSel ≤ 8) (hnone : f.crbSel = 15) (hlen : (d.port p).credits.length = 9) :
    ((d.applyHeader p f).port p).credits.getD f.craSel 0 =
      (d.port p).credits.getD f.craSel 0 + (f.craCnt + 256 - (d.port p).crSeen.getD f.craSel 0 % 256) % 256 := by
  obtain ⟨_, _, _, _, e⟩ := port_applyHeader_credits d p f
  have hlt : f.craSel < (d.port p).credits.length := by omega
  have hfirst : (takeCredit (d.port p) f.craSel f.craCnt).credits = setAt (d.port p).credits f.craSel
      ((d.port p).credits.getD f.craSel 0 + (f.craCnt + 256 - (d.port p).crSeen.getD f.craSel 0 % 256) % 256) := by
    rw [takeCredit, if_pos hsel]
  have hsecond (P : Port) : takeCredit P 15 f.crbCnt = P := if_neg (by decide)
  rw [e, hnone, hsecond]
  change (takeCredit (d.port p) f.craSel f.craCnt).credits.getD f.craSel 0 = _
  rw [hfirst, getD_setAt _ _ _ _ hlt]

end

end Dev

theorem exec_dataFlit (port : Nat) (f : Flit) (s : State) : exec (.dataFlit port f) s = onDev (fun d => d.dataFlit port f) s := rfl
theorem exec_idleFlit (port : Nat) (f : Flit) (s : State) : exec (.idleFlit port f) s = onDev (fun d => d.plainFlit port f) s := rfl
theorem exec_alignFlit (port lane skewNs : Nat) (f : Flit) (s : State) :
    exec (.alignFlit port lane skewNs f) s = onDev (fun d => if skewNs ≤ 64 then d.alignFlitIn port f else d) s := rfl

open Dev

/-- Settles O4: what each branch of a received flit leaves of the port. -/
theorem dataFlitsInSequence : Obligations.DataFlitsInSequence := by
  unfold Obligations.DataFlitsInSequence
  refine ⟨?inSequence, ?damaged, ?repeated, ?idle, ?align⟩
  case inSequence =>
    intro s port f _ hactive hcrc hdata hread hseq
    obtain ⟨rx, crRet, e⟩ := port_acceptData (s.dev.applyHeader port f) port f
    refine runs_of_dev (exec_dataFlit ..) ((dataFlit_read hactive hcrc hdata hread).trans (if_pos hseq)) ⟨?_, ?_, ?_, ?_⟩
    · rw [e, rxSeq_applyHeader]
    · rw [e]
    · rw [e]
    · rw [reg_flitsRx_acceptData]
      exact reg_bump_congr 1 (reg_applyHeader _ _ _ (by simp [Reg.flitsRx, Reg.nakRcvd]))
  case damaged =>
    intro s port f _ hactive hcrc
    refine runs_of_dev (exec_dataFlit ..) (dataFlit_damaged hactive hcrc) ⟨?_, ?_, ?_, ?_⟩
    · rw [port_requestReplay, port_bump]
    · rw [port_requestReplay]
    · rw [port_requestReplay, port_bump]
    · exact reg_requestReplay _ _ (by simp [Reg.crcErrors, Reg.nakSent])
  case repeated =>
    intro s port f _ hactive hcrc hdata hread hone hwindow
    have hother : f.seq ≠ (s.dev.port port).rxSeq := fun h => by rw [h] at hone; simp at hone
    refine runs_of_dev (exec_dataFlit ..) ((dataFlit_read hactive hcrc hdata hread).trans ((if_neg hother).trans (if_pos ⟨hone, hwindow⟩))) ?_
    exact ⟨rxSeq_applyHeader, rx_applyHeader, nak_applyHeader⟩
  case idle =>
    intro s port f _ hactive hcrc htype hsel hnone hlen _
    exact runs_of_dev (exec_idleFlit ..) (plainFlit_good hactive hcrc htype) ⟨credits_applyHeader hsel hnone hlen, rxSeq_applyHeader⟩
  case align =>
    intro s port lane skewNs f _ hactive hcrc htype hskew
    refine runs_of_dev (exec_alignFlit ..) ((if_pos hskew).trans (alignFlitIn_good hactive hcrc htype)) ⟨?_, ?_⟩
    · rw [port_modPort_same]
    · rw [port_modPort_same, rxSeq_applyHeader]

end Sys2Proof.Machine
end

section
/-! SUPPORT. What a lane exchange and a retrain leave of a port and of its entries (R92, R106 to R113). -/

namespace Sys2Proof.Machine

/-- A bit reads as it was written. -/
theorem bit_setBit (v i : Nat) (b : Bool) : bit (setBit v i b) i = b := by
  have hpos : 0 < 2 ^ i := Nat.two_pow_pos i
  have hcut : v - v / 2 ^ i % 2 * 2 ^ i = (v / 2 ^ i - v / 2 ^ i % 2) * 2 ^ i + v % 2 ^ i := by
    rw [Nat.sub_mul]
    have := Nat.div_add_mod' v (2 ^ i)
    have : v / 2 ^ i % 2 * 2 ^ i ≤ v / 2 ^ i * 2 ^ i := Nat.mul_le_mul_right _ (Nat.mod_le ..)
    omega
  have hdiv : (v - v / 2 ^ i % 2 * 2 ^ i + b.toNat * 2 ^ i) / 2 ^ i = v / 2 ^ i - v / 2 ^ i % 2 + b.toNat := by
    rw [hcut, Nat.add_right_comm, ← Nat.add_mul, Nat.add_comm, Nat.add_mul_div_right _ _ hpos, Nat.div_eq_of_lt (Nat.mod_lt _ hpos), Nat.zero_add]
  have hb : b.toNat % 2 = b.toNat := by cases b <;> rfl
  rw [bit, setBit, setBits, bits, Nat.shiftLeft_eq, Nat.shiftLeft_eq, Nat.shiftRight_eq_div_pow, Nat.testBit_eq_decide_div_mod_eq, Nat.pow_one,
    hb, hdiv]
  cases b
  · simp; omega
  · simp; omega

theorem bit_or_shiftLeft (v i : Nat) : bit (v ||| 1 <<< i) i = true := by
  simp [bit, Nat.testBit_or, Nat.shiftLeft_eq, Nat.testBit_two_pow_self]

/-- Every part of the device, and the entries from 0x2200:00 on: those of the port blocks stand below. -/
def ofLink : Scope := ⟨fun _ => true, fun k => 0x220000 ≤ k⟩

theorem ofLink_key {c : Nat} (hc : 0x220000 ≤ c) (i : Nat) : ofLink.key (c + i * 256) := Nat.le_trans hc (Nat.le_add_right ..)

theorem ofLink_enterRetrain : ofLink.enterRetrain :=
  ⟨ofLink_key (by decide), ofLink_key (by decide), ofLink_key (by decide), ofLink_key (by decide), ofLink_key (by decide), rfl⟩

theorem ofLink_askDegrade : ofLink.askDegrade := ⟨ofLink_enterRetrain, ofLink_key (by decide), rfl⟩

namespace Dev
variable (d : Dev) (p : Nat)

theorem port_sample (f : LinkSample → LinkSample) : ∃ samples, (d.sample p f).port p = { d.port p with samples := samples } := by
  unfold sample
  rw [port_modPort_same]
  split
  · split
    · exact ⟨_, rfl⟩
    · exact ⟨_, rfl⟩
  · exact ⟨_, rfl⟩

theorem port_showLanes (lanes q : Nat) : (d.showLanes p lanes).port q = d.port q := rfl

/-- A RETRAIN forgets the lane exchange and keeps what is unacknowledged and the marks of failed lanes. -/
theorem port_enterRetrain : ∃ lanes retrains due, (d.enterRetrain p).port p =
    { noExchange (d.port p) with expiries := 0, retrains := retrains, lastNak := none, txLanes := lanes, rxLanes := lanes, restoreDue := due } := by
  unfold enterRetrain
  extract_lets t was d₁ d₂ d₃
  have hd₂ : ∃ lanes retrains due, d₂.port p =
      { noExchange (d.port p) with expiries := 0, retrains := retrains, lastNak := none, txLanes := lanes, rxLanes := lanes, restoreDue := due } :=
    ⟨_, _, _, (port_modPort_same ..).trans (by unfold d₁; rw [port_bump, port_setReg])⟩
  unfold d₃
  rw [port_showLanes]
  split
  · rwa [port_bump]
  · exact hd₂

theorem portState_enterRetrain : (d.enterRetrain p).portState p = 7 := by
  unfold enterRetrain
  extract_lets t was d₁ d₂ d₃
  have h₁ : d₁.portState p = 7 := (reg_bump_ne _ _ (by simp [Reg.portState, Reg.retrains])).trans (reg_setReg_same ..)
  have h₃ : d₃.portState p = 7 := by
    unfold d₃
    split
    · exact (reg_bump_ne _ _ (by simp [Reg.portState, Reg.degrades])).trans h₁
    · exact h₁
  have h : (d₃.showLanes p (d₃.port p).rxLanes).portState p = d₃.portState p :=
    (reg_setReg_ne _ _ (by simp [Reg.portState, Reg.portWidth])).trans (reg_setReg_ne _ _ (by simp [Reg.portState, Reg.portLanes]))
  exact h.trans h₃

/-! ### Operations of the lane exchange -/

/-- An entry below those of the ports is no entry of an event record. -/
theorem reg_event {k : Nat} (hk : k < 0x220000) (q : Nat) (e : Event) : (d.event q e).reg k = d.reg k := by
  refine (event_within (.refl ofLink d) q e ?_).reg k (by simpa [ofLink] using hk)
  simp [ofLink, Reg.faultsWritten, Reg.lastFault, Reg.logNextSeq, Reg.recordsDropped]

theorem failed_askDegrade (set : Nat) : ((d.askDegrade p set).port p).failed = (d.port p).failed := by
  unfold askDegrade
  split
  · obtain ⟨_, _, _, e⟩ := port_enterRetrain d p
    rw [e]
    rfl
  · rw [port_modPort_same, port_requestReplay]

theorem reg_askDegrade {k : Nat} (hk : k < 0x220000) (set : Nat) : (d.askDegrade p set).reg k = d.reg k :=
  (askDegrade_within (.refl ofLink d) p set ofLink_askDegrade).reg k (by simpa [ofLink] using hk)

theorem regs_tryRestore : (d.tryRestore p).regs = d.regs := (tryRestore_within (.refl ofPorts d) p rfl).regs fun _ => id

/-- Asking for a repaired lane changes the lane request alone. -/
theorem port_tryRestore : ∃ req asks due, (d.tryRestore p).port p = { d.port p with laneReq := req, restoring := asks, restoreDue := due } := by
  unfold tryRestore
  dsimp only
  split
  · exact ⟨_, _, _, rfl⟩
  · split
    · split
      · exact ⟨_, _, _, (port_modPort_same ..).trans (by rw [port_modPort_same])⟩
      · exact ⟨_, _, _, port_modPort_same ..⟩
    · exact ⟨_, _, _, port_modPort_same ..⟩

theorem failed_tryRestore : ((d.tryRestore p).port p).failed = (d.port p).failed := by
  obtain ⟨_, _, _, e⟩ := port_tryRestore d p
  rw [e]

/-- Nothing is asked back where nothing is due, and while a request is open. -/
theorem tryRestore_idle {d : Dev} {p : Nat} (h : (d.port p).restoreDue = false ∨ (d.port p).laneReq.isSome = true) : d.tryRestore p = d := by
  unfold tryRestore
  exact if_pos (by rcases h with h | h <;> simp [h])

/-- A lane that is due is asked back with the largest group, where no exchange is open and the group is wider (R112). -/
theorem port_tryRestore_asks {d : Dev} {p g : Nat} (hdue : (d.port p).restoreDue = true) (ha : d.isActive p = true)
    (hreq : (d.port p).laneReq = none) (hsent : (d.port p).switchSent = false) (hswitch : (d.port p).switchDue = none)
    (hround : (d.port p).switching = false) (hg : largestGroup 8 (d.soundLanes p (d.port p).failed) = some g)
    (hw : laneCount (d.port p).rxLanes < laneCount g) :
    (d.tryRestore p).port p = { d.port p with restoreDue := false, laneReq := some g, restoring := true } := by
  have hg' : largestGroup 8 ((d.modPort p fun P => { P with restoreDue := false }).soundLanes p (d.port p).failed) = some g := hg
  unfold tryRestore
  simp only [hdue, ha, hreq, hsent, hswitch, hround, hg', hw, Bool.not_true, Option.isSome_none, Bool.or_self, Bool.false_eq_true, if_false, if_true,
    port_modPort_same]

/-! ### What the commands of the lane exchange run to -/

section
variable {d : Dev} {p : Nat} {f : Flit}

/-- An expiry of the retry timer is counted, among the samples of the link as well (R92, R116). -/
def expiryCounted (d : Dev) (p : Nat) : Dev := (d.bump (Reg.retryTimeouts p)).sample p (fun s => { s with timeouts := s.timeouts + 1 })

theorem port_expiryCounted (d : Dev) (p : Nat) : ∃ samples, (d.expiryCounted p).port p = { d.port p with samples := samples } := by
  obtain ⟨samples, e⟩ := port_sample (d.bump (Reg.retryTimeouts p)) p (fun s => { s with timeouts := s.timeouts + 1 })
  exact ⟨samples, by rw [expiryCounted, e, port_bump]⟩

theorem portState_expiryCounted (d : Dev) (p : Nat) : (d.expiryCounted p).portState p = d.portState p :=
  ((sample_within (.refl ofPorts _) p _ rfl).reg _ id).trans (reg_bump_ne _ _ (by simp [Reg.portState, Reg.retryTimeouts]))

/-- An expiry with DATA unacknowledged replays it; the fourth in a row retrains (R92). -/
theorem retryTimeout_eq (ha : d.isActive p = true) (hr : (d.port p).replay ≠ []) :
    d.retryTimeout p = if 3 ≤ (d.port p).expiries then (d.expiryCounted p).enterRetrain p
      else (d.expiryCounted p).modPort p (fun P => { P with resend := P.replay, expiries := P.expiries + 1 }) := by
  unfold retryTimeout
  exact if_neg (by simp [ha, hr])

theorem portLaneMask_applyHeader : (d.applyHeader p f).portLaneMask p = d.portLaneMask p :=
  portLaneMask_congr (reg_applyHeader d p f (by simp [Reg.pbMode, Reg.nakRcvd]; omega))

theorem isActive_applyHeader : (d.applyHeader p f).isActive p = d.isActive p :=
  isActive_congr (reg_applyHeader d p f (by simp [Reg.portState, Reg.nakRcvd]))

theorem txSet_applyHeader : txSet ((d.applyHeader p f).port p) = txSet (d.port p) := by
  obtain ⟨_, _, _, _, _, _, e⟩ := port_applyHeader d p f
  rw [e]; rfl

section
variable (ha : d.isActive p = true) (hcrc : f.crcOk = true) (htype : f.ftype < 5) (hown : (d.port p).restoring = false)
  (hgroup : largestGroup 8 (f.lmask &&& d.portLaneMask p) ≠ none)
  (hnew : txSet (d.port p) &&& (f.lmask &&& d.portLaneMask p) ≠ txSet (d.port p))
include ha hcrc htype hown hgroup hnew

/-- A DEGRADE_REQ whose set has a group, and which the set in use does not meet already, moves the transmitter to the group inside this side's
own request (R109). -/
theorem degradeReq_moves {g : Nat} (hg : largestGroup 8 (f.lmask &&& d.portLaneMask p &&& (d.port p).laneReq.getD 0xFF) = some g) :
    d.degradeReq p f = (d.applyHeader p f).switchTx p g true := by
  simp [degradeReq, goodFlit, ha, hcrc, htype, hown, hgroup, hnew, portLaneMask_applyHeader, txSet_applyHeader, restoring_applyHeader,
    laneReq_applyHeader, hg]

/-- Where this side's own request leaves no group, the port retrains (log 175). -/
theorem degradeReq_apart (hnone : largestGroup 8 (f.lmask &&& d.portLaneMask p &&& (d.port p).laneReq.getD 0xFF) = none) :
    d.degradeReq p f = (d.applyHeader p f).enterRetrain p := by
  simp [degradeReq, goodFlit, ha, hcrc, htype, hown, hgroup, hnew, portLaneMask_applyHeader, txSet_applyHeader, restoring_applyHeader,
    laneReq_applyHeader, hnone]

end

/-- A DEGRADE_REQ that the set in use meets counts by its header alone (R109). -/
theorem degradeReq_met (ha : d.isActive p = true) (hcrc : f.crcOk = true) (htype : f.ftype < 5)
    (hmet : txSet (d.port p) &&& (f.lmask &&& d.portLaneMask p) = txSet (d.port p)) : d.degradeReq p f = d.applyHeader p f := by
  simp [degradeReq, goodFlit, ha, hcrc, htype, portLaneMask_applyHeader, txSet_applyHeader, hmet]

/-- A RESTORE_REQ moves the transmitter to the group asked for, without replay (R112). -/
theorem restoreReq_moves {g : Nat} (ha : d.isActive p = true) (hcrc : f.crcOk = true) (htype : f.ftype < 5)
    (hread : (d.port p).laneReq = none ∨ (d.port p).restoring = true)
    (hg : largestGroup 8 (f.lmask &&& d.portLaneMask p &&& (d.port p).laneReq.getD 0xFF) = some g) (hnew : txSet (d.port p) ≠ g) :
    d.restoreReq p f = (d.applyHeader p f).switchTx p g false := by
  have hopen : (((d.port p).laneReq.isSome && !(d.port p).restoring) = true) = False := by
    rcases hread with h | h <;> simp [h]
  simp only [restoreReq, goodFlit, ha, hcrc, htype, hopen, hg, hnew, portLaneMask_applyHeader, txSet_applyHeader, restoring_applyHeader,
    laneReq_applyHeader, decide_true, Bool.and_self, Bool.not_true, Bool.false_eq_true, if_false]

/-- The SWITCH lies inside the set that this side asks for (R109). -/
def answersRequest (P : Port) (mask : Nat) : Bool := P.laneReq.any (fun m => decide (m &&& mask = mask))

/-- The port once its receiver has moved: an own request that the SWITCH answers ends. -/
def receiverMoved (P : Port) (mask : Nat) : Port :=
  { P with rxLanes := mask, laneReq := if answersRequest P mask then none else P.laneReq, restoring := P.restoring && !answersRequest P mask }

/-- The port once the SWITCH has been met: the transmitter follows one that answers an own request, where it is elsewhere. -/
def switchedPort (P : Port) (mask : Nat) : Port :=
  { (if answersRequest P mask && txSet P != mask then
        { receiverMoved P mask with switchDue := some mask, switchReplay := !P.restoring, switchSent := true }
      else receiverMoved P mask) with switchSent := false }

/-- A SWITCH moves the receiver and shows its lanes; then what is due is asked back, or a set with a failed lane is left again (R110, R113). -/
theorem laneSwitch_eq {mask : Nat} (ha : d.isActive p = true) (hmask : mask ≠ 0) : ∃ d' : Dev, d.laneSwitch p mask =
      (if mask &&& (d.port p).failed = 0 || (d'.port p).laneReq.isSome then d'.tryRestore p else d'.askDegrade p mask) ∧
    d'.port p = switchedPort (d.port p) mask ∧ d'.reg (Reg.portLanes p) = mask ∧ d'.reg (Reg.portWidth p) = laneCount mask ∧
    d'.reg (Reg.pbMode (p / 4)) = d.reg (Reg.pbMode (p / 4)) := by
  unfold laneSwitch
  rw [if_neg (by simp [ha, hmask])]
  extract_lets P ans d₁ d₂ d₃ d₄
  have hne₁ : Reg.pbMode (p / 4) ≠ Reg.degrades p := by simp [Reg.pbMode, Reg.degrades]; omega
  have hne₂ : Reg.pbMode (p / 4) ≠ Reg.portWidth p := by simp [Reg.pbMode, Reg.portWidth]; omega
  have hne₃ : Reg.pbMode (p / 4) ≠ Reg.portLanes p := by simp [Reg.pbMode, Reg.portLanes]; omega
  have h₁ : d₁.port p = d.port p := by
    unfold d₁
    split
    · exact port_bump ..
    · rfl
  have hb₁ : d₁.reg (Reg.pbMode (p / 4)) = d.reg (Reg.pbMode (p / 4)) := by
    unfold d₁
    split
    · exact reg_bump_ne _ _ hne₁
    · rfl
  have h₂ : d₂.port p = receiverMoved (d.port p) mask := by
    rw [← h₁]
    unfold d₂ ans P
    rw [port_modPort_same, ← h₁]
    rfl
  have hb₂ : d₂.reg (Reg.pbMode (p / 4)) = d.reg (Reg.pbMode (p / 4)) := (reg_modPort ..).trans hb₁
  clear_value d₂
  have h₃ : { d₃.port p with switchSent := false } = switchedPort (d.port p) mask := by
    unfold d₃ switchedPort
    by_cases hc : (answersRequest (d.port p) mask && txSet (d.port p) != mask) = true
    · rw [if_pos hc, ← h₂, if_pos (show (ans && txSet P != mask) = true from hc), switchTx, port_modPort_same]
    · rw [if_neg hc, ← h₂, if_neg (show ¬ (ans && txSet P != mask) = true from hc)]
  have hb₃ : d₃.reg (Reg.pbMode (p / 4)) = d.reg (Reg.pbMode (p / 4)) := by
    unfold d₃
    split
    · exact (reg_modPort ..).trans hb₂
    · exact hb₂
  clear_value d₃
  refine ⟨d₄, rfl, ?_, ?_, reg_setReg_same .., ?_⟩
  · rw [← h₃]
    unfold d₄
    rw [port_showLanes, port_modPort_same]
  · exact (reg_setReg_ne _ _ (by simp [Reg.portLanes, Reg.portWidth])).trans (reg_setReg_same ..)
  · exact ((reg_setReg_ne _ _ hne₂).trans (reg_setReg_ne _ _ hne₃)).trans hb₃

/-- A group of at most half the lanes of a set is asked for, where there is one (R107, R113). -/
theorem port_askDegrade {set g : Nat} (hg : largestGroup (laneCount set / 2) (d.soundLanes p (d.port p).failed) = some g) :
    (d.askDegrade p set).port p = { d.port p with nak := true, laneReq := some g, restoring := false, switchSent := false } := by
  unfold askDegrade
  rw [hg]
  exact (port_modPort_same ..).trans (by rw [port_requestReplay])

theorem soundLanes_congr {d' : Dev} (h : d'.reg (Reg.pbMode (p / 4)) = d.reg (Reg.pbMode (p / 4))) (failed : Nat) :
    d'.soundLanes p failed = d.soundLanes p failed := by
  rw [soundLanes, soundLanes, portLaneMask_congr h]

/-- The mark of a failed lane is set in the port and its LANE_OK bit cleared, whatever is then asked for (R106). -/
theorem laneFailed_marks {lane : Nat} (hp : p < 384) (ha : d.isActive p = true) (hlane : bit (d.portLaneMask p) lane = true) :
    ((d.laneFailed p lane).port p).failed = (d.port p).failed ||| 1 <<< lane ∧
    (d.laneFailed p lane).reg (Reg.pbLaneOk (p / 4)) = setBit (d.reg (Reg.pbLaneOk (p / 4))) lane false := by
  have hk : Reg.pbLaneOk (p / 4) < 0x220000 := by unfold Reg.pbLaneOk; omega
  unfold laneFailed
  rw [if_neg (by simp [ha, hlane])]
  extract_lets b failed d₁ d₂ d₃
  have hport : (d₃.port p).failed = failed := by unfold d₃; rw [port_modPort_same]
  have hreg : d₃.reg (Reg.pbLaneOk (p / 4)) = setBit (d.reg (Reg.pbLaneOk (p / 4))) lane false :=
    (reg_event d₁ hk _ _).trans (reg_setReg_same ..)
  clear_value d₃
  split
  · exact ⟨(failed_askDegrade ..).trans hport, (reg_askDegrade _ _ hk _).trans hreg⟩
  · split
    · exact ⟨by rw [port_modPort_same]; exact hport, hreg⟩
    · exact ⟨hport, hreg⟩

/-- The device in which a repaired lane is marked good and, where lanes are restored by themselves, due to be asked back (R112). -/
def laneMarkedGood (d : Dev) (p lane : Nat) : Dev :=
  (d.setReg (Reg.pbLaneOk (p / 4)) (setBit (d.reg (Reg.pbLaneOk (p / 4))) lane true)).modPort p (fun P =>
    { P with failed := setBit (d.port p).failed lane false,
             restoreDue := P.restoreDue || ((d.isActive p || d.portState p = 7) && d.flag (Reg.pbAutoRestore (p / 4))) })

theorem laneRepaired_eq {lane : Nat} (hfailed : bit (d.port p).failed lane = true) :
    d.laneRepaired p lane = (d.laneMarkedGood p lane).tryRestore p := by
  have hne : Reg.portState p ≠ Reg.pbLaneOk (p / 4) := by simp [Reg.portState, Reg.pbLaneOk]; omega
  have hne' : Reg.pbAutoRestore (p / 4) ≠ Reg.pbLaneOk (p / 4) := by simp [Reg.pbAutoRestore, Reg.pbLaneOk]
  unfold laneRepaired
  rw [if_neg (by simp [hfailed])]
  simp only [laneMarkedGood, isActive, portState, flag, reg_setReg_ne _ _ hne, reg_setReg_ne _ _ hne']
  rfl

/-- A slot in PARAM carries the own values, in a flit whose header is that of every flit (R86, R102). -/
theorem out_sendTrain (d : Dev) (p : Nat) : (d.sendTrain p).out = d.out ++
    [.train p (laneAt (d.port p).txLanes (d.port p).slot) (stamp (d.port p) { ftype := 4 }) (d.ownTrain p) (Config.freeValue d.freeCtr)] := by
  have h : (d.fresh.2.passSlot p (d.port p).txLanes).out = d.out := (passSlot_within (.refl ofPorts _) p _ rfl).out (by simp [ofPorts])
  exact congrArg (· ++ _) h

theorem flitSlot_param (hst : d.portState p = 4) (hleft : (d.port p).dyingLeft = 0) (hclosing : (d.port p).closing = false) :
    d.flitSlot p = d.sendTrain p := by
  simp [flitSlot, hst, hleft, hclosing]

end

end Dev
end Sys2Proof.Machine
end

section
/-! Lane changes and replay (O5). -/

namespace Sys2Proof.Machine
open Dev

theorem exec_linkRetryTimeout (port : Nat) (s : State) : exec (.linkRetryTimeout port) s = onDev (fun d => d.retryTimeout port) s := rfl
theorem exec_laneFailed (port lane : Nat) (s : State) : exec (.laneFailed port lane) s = onDev (fun d => d.laneFailed port lane) s := rfl
theorem exec_laneRepaired (port lane : Nat) (s : State) : exec (.laneRepaired port lane) s = onDev (fun d => d.laneRepaired port lane) s := rfl
theorem exec_degradeReq (port : Nat) (f : Flit) (s : State) : exec (.degradeReq port f) s = onDev (fun d => d.degradeReq port f) s := rfl
theorem exec_restoreReq (port : Nat) (f : Flit) (s : State) : exec (.restoreReq port f) s = onDev (fun d => d.restoreReq port f) s := rfl
theorem exec_laneSwitch (port mask : Nat) (s : State) : exec (.laneSwitch port mask) s = onDev (fun d => d.laneSwitch port mask) s := rfl
theorem exec_flitSlot (port : Nat) (s : State) : exec (.flitSlot port) s = onDev (fun d => d.flitSlot port) s := rfl

/-- A SWITCH that answers the own request ends it, and the transmitter follows (R109). -/
theorem switchedPort_answers {P : Port} {mask m : Nat} (hreq : P.laneReq = some m) (hin : m &&& mask = mask) (hset : txSet P ≠ mask) :
    switchedPort P mask = { P with rxLanes := mask, laneReq := none, restoring := false, switchDue := some mask,
                                   switchReplay := !P.restoring, switchSent := false } := by
  have hans : answersRequest P mask = true := by simp [answersRequest, hreq, hin]
  rw [switchedPort, if_pos (by simp [hans, hset])]
  simp [receiverMoved, hans]

/-- Any other SWITCH moves the receiver alone, and an own request stands (R109, R110). -/
theorem switchedPort_other {P : Port} {mask : Nat} (h : answersRequest P mask = false) :
    switchedPort P mask = { P with rxLanes := mask, switchSent := false } := by
  rw [switchedPort, if_neg (by simp [h])]
  simp [receiverMoved, h]

/-- Settles O5: what each command of the lane exchange, and a slot in PARAM, leaves of the port. -/
theorem replayAndLaneChanges : Obligations.ReplayAndLaneChanges := by
  unfold Obligations.ReplayAndLaneChanges
  refine ⟨?replayed, ?fourth, ?failed, ?repaired, ?asked, ?degraded, ?met, ?apart, ?restored, ?answer, ?unasked, ?earlier, ?again, ?param⟩
  case replayed =>
    intro s port _ hactive hreplay hfew
    obtain ⟨samples, e⟩ := port_expiryCounted s.dev port
    refine runs_of_dev (exec_linkRetryTimeout ..) ((retryTimeout_eq hactive hreplay).trans (if_neg (by omega))) ⟨?_, ?_, ?_⟩
    · rw [port_modPort_same, e]
    · rw [port_modPort_same, e]
    · exact (portState_expiryCounted ..).trans (portState_of_isActive hactive)
  case fourth =>
    intro s port _ hactive hreplay hmany
    obtain ⟨samples, e⟩ := port_expiryCounted s.dev port
    obtain ⟨_, _, _, e'⟩ := port_enterRetrain (s.dev.expiryCounted port) port
    refine runs_of_dev (exec_linkRetryTimeout ..) ((retryTimeout_eq hactive hreplay).trans (if_pos hmany)) ⟨portState_enterRetrain .., ?_⟩
    rw [e', e]
    rfl
  case failed =>
    intro s port lane hport _ hactive hlane
    obtain ⟨hfailed, hok⟩ := laneFailed_marks hport hactive hlane
    refine runs_of_dev (exec_laneFailed ..) rfl ⟨?_, ?_⟩
    · rw [hfailed, bit_or_shiftLeft]
    · rw [hok, bit_setBit]
  case repaired =>
    intro s port lane _ _ hfailed
    refine runs_of_dev (exec_laneRepaired ..) (laneRepaired_eq hfailed) ⟨?_, ?_⟩
    · rw [failed_tryRestore, laneMarkedGood, port_modPort_same, bit_setBit]
    · rw [reg, regs_tryRestore]
      exact (congrArg (bit · lane) (reg_setReg_same ..)).trans (bit_setBit ..)
  case asked =>
    intro s port lane g _ _ hactive hfailed hauto hreq hsent hdue hround hgroup hwider
    have hp : (s.dev.laneMarkedGood port lane).port port =
        { s.dev.port port with failed := setBit (s.dev.port port).failed lane false, restoreDue := true } := by
      rw [laneMarkedGood, port_modPort_same, port_setReg, hactive, hauto]
      simp
    have hstate : (s.dev.laneMarkedGood port lane).isActive port = true :=
      (isActive_congr (reg_setReg_ne _ _ (by simp [Reg.portState, Reg.pbLaneOk]; omega))).trans hactive
    have hmask : (s.dev.laneMarkedGood port lane).reg (Reg.pbMode (port / 4)) = s.dev.reg (Reg.pbMode (port / 4)) :=
      reg_setReg_ne _ _ (by simp [Reg.pbMode, Reg.pbLaneOk])
    have hrestore := port_tryRestore_asks (d := s.dev.laneMarkedGood port lane) (p := port) (g := g) (by rw [hp]) hstate (by rw [hp]; exact hreq)
      (by rw [hp]; exact hsent) (by rw [hp]; exact hdue) (by rw [hp]; exact hround) (by rw [soundLanes_congr hmask, hp]; exact hgroup)
      (by rw [hp]; exact hwider)
    refine runs_of_dev (exec_laneRepaired ..) (laneRepaired_eq hfailed) ⟨?_, ?_, ?_⟩ <;> rw [hrestore]
  case degraded =>
    intro s port f g _ hactive hcrc htype hown hgroup hnew hg
    obtain ⟨_, _, _, _, _, _, e⟩ := port_applyHeader s.dev port f
    refine runs_of_dev (exec_degradeReq ..) (degradeReq_moves hactive hcrc htype hown hgroup hnew hg) ⟨?_, ?_, ?_, ?_, ?_⟩ <;>
      rw [switchTx, port_modPort_same]
    · rw [e]; rfl
    · rw [e]; rfl
  case met =>
    intro s port f _ hactive hcrc htype hmet
    obtain ⟨_, _, _, _, _, _, e⟩ := port_applyHeader s.dev port f
    refine runs_of_dev (exec_degradeReq ..) (degradeReq_met hactive hcrc htype hmet) ⟨?_, ?_, ?_, ?_⟩
    · rw [e]; rfl
    · rw [e]; rfl
    · rw [e]; rfl
    · exact portState_of_isActive (isActive_applyHeader.trans hactive)
  case apart =>
    intro s port f _ hactive hcrc htype hown hgroup hnew hnone
    obtain ⟨_, _, _, e⟩ := port_enterRetrain (s.dev.applyHeader port f) port
    refine runs_of_dev (exec_degradeReq ..) (degradeReq_apart hactive hcrc htype hown hgroup hnew hnone) ⟨portState_enterRetrain .., ?_⟩
    rw [e]
    rfl
  case restored =>
    intro s port f g _ hactive hcrc htype hread hg hnew
    refine runs_of_dev (exec_restoreReq ..) (restoreReq_moves hactive hcrc htype hread hg hnew) ⟨?_, ?_, ?_⟩ <;>
      rw [switchTx, port_modPort_same]
  case answer =>
    intro s port mask m _ hactive hmask hsound hdue hreq hin hset
    obtain ⟨d', e, hport, hlanes, hwidth, -⟩ := laneSwitch_eq hactive hmask
    rw [switchedPort_answers hreq hin hset] at hport
    have hidle : d'.tryRestore port = d' := tryRestore_idle (.inl (by rw [hport]; exact hdue))
    refine runs_of_dev (exec_laneSwitch ..) (e.trans ((if_pos (by simp [hsound])).trans hidle)) ⟨?_, ?_, ?_, ?_, hlanes, hwidth⟩ <;> rw [hport]
  case unasked =>
    intro s port mask _ hactive hmask hsound hdue hreq
    obtain ⟨d', e, hport, hlanes, hwidth, -⟩ := laneSwitch_eq hactive hmask
    rw [switchedPort_other (by simp [answersRequest, hreq])] at hport
    have hidle : d'.tryRestore port = d' := tryRestore_idle (.inl (by rw [hport]; exact hdue))
    refine runs_of_dev (exec_laneSwitch ..) (e.trans ((if_pos (by simp [hsound])).trans hidle)) ⟨?_, ?_, ?_, ?_, hlanes, hwidth⟩ <;> rw [hport]
    exact hreq
  case earlier =>
    intro s port mask m _ hactive hmask hreq hout
    obtain ⟨d', e, hport, -⟩ := laneSwitch_eq hactive hmask
    rw [switchedPort_other (by simp [answersRequest, hreq, hout])] at hport
    have hopen : (d'.port port).laneReq.isSome = true := by rw [hport]; simp [hreq]
    have hidle : d'.tryRestore port = d' := tryRestore_idle (.inr hopen)
    refine runs_of_dev (exec_laneSwitch ..) (e.trans ((if_pos (by simp [hopen])).trans hidle)) ⟨?_, ?_, ?_⟩ <;> rw [hport]
    exact hreq
  case again =>
    intro s port mask g _ hactive hmask hbroken hreq hgroup
    obtain ⟨d', e, hport, -, -, hmode⟩ := laneSwitch_eq hactive hmask
    rw [switchedPort_other (by simp [answersRequest, hreq])] at hport
    have hask := port_askDegrade (d := d') (p := port) (set := mask) (g := g) (by rw [soundLanes_congr hmode, hport]; exact hgroup)
    refine runs_of_dev (exec_laneSwitch ..) (e.trans (if_neg (by simp [hbroken, hport, hreq]))) ⟨?_, ?_, ?_⟩ <;> rw [hask]
    rw [hport]
  case param =>
    intro s port hstate hleft hclosing
    exact runs_of_dev (exec_flitSlot ..) (flitSlot_param hstate hleft hclosing) ⟨out_sendTrain .., rfl, rfl, rfl⟩

end Sys2Proof.Machine
end

section
/-! SUPPORT. What the loss of an endpoint leaves of the links: every port but for what waits in its queue to send, and the entries below those of
the units. One lemma for each function of the model that it calls, in the order of the model, from the lemmas of those it calls. -/

namespace Sys2Proof.Machine
set_option Elab.async false

/-- A port but for what waits in its queue to send. -/
def unqueued (P : Port) : Port := { P with txq := [] }

/-- Entries `regs` and ports `ports` against those of a device: every port stands but for its queue to send, and every entry below
0x2380:00, those of the domain, the blocks and the ports among them. -/
def TablesStand (d₀ : Dev) (regs : Tab Nat) (ports : Tab Port) : Prop :=
  (∀ k < 0x238000, (Tab.look regs k).getD (regDefault k) = d₀.reg k) ∧
    ∀ p, unqueued (Tab.getD ports p {}) = unqueued (d₀.port p)

/-- A device whose links stand as in `d₀`. -/
def LinkStands (d₀ d : Dev) : Prop := TablesStand d₀ d.regs d.ports

section
variable {d₀ d : Dev}

theorem LinkStands.refl (d : Dev) : LinkStands d d := ⟨fun _ _ => rfl, fun _ => rfl⟩

theorem LinkStands.reg (h : LinkStands d₀ d) {k : Nat} (hk : k < 0x238000) : d.reg k = d₀.reg k := h.1 k hk

theorem LinkStands.port (h : LinkStands d₀ d) (p : Nat) : unqueued (d.port p) = unqueued (d₀.port p) := h.2 p

theorem Dev.setReg_stands (h : LinkStands d₀ d) (k v) (hk : 0x238000 ≤ k) : LinkStands d₀ (d.setReg k v) :=
  ⟨fun j hj => (Dev.reg_setReg_ne d v (Nat.ne_of_lt (Nat.lt_of_lt_of_le hj hk))).trans (h.1 j hj), h.2⟩

theorem Dev.bump_stands (h : LinkStands d₀ d) (k n) (hk : 0x238000 ≤ k) : LinkStands d₀ (d.bump k n) := by
  unfold bump
  split
  · exact h
  · exact setReg_stands h _ _ hk

theorem Dev.each_stands {α : Type} (h : LinkStands d₀ d) (l : List α) {f : Dev → α → Dev}
    (hf : ∀ d a, LinkStands d₀ d → LinkStands d₀ (f d a)) : LinkStands d₀ (d.each l f) := foldl_keeps (LinkStands d₀) l hf h

theorem Dev.sendPort_stands (h : LinkStands d₀ d) (p pk) : LinkStands d₀ (d.sendPort p pk) := by
  refine ⟨h.1, fun q => ?_⟩
  by_cases hq : q = p
  · subst hq
    exact (congrArg unqueued (Dev.port_modPort_same ..)).trans (h.2 q)
  · exact (congrArg unqueued (Dev.port_modPort_ne d _ hq)).trans (h.2 q)

/-- A change that leaves the ports and the entries below those of the units. -/
theorem LinkStands.within {S : Scope} {d' : Dev} (h : LinkStands d₀ d) (hw : Within S d d') (hports : ¬ S.part .ports)
    (hkey : ∀ k, S.key k → 0x238000 ≤ k) : LinkStands d₀ d' := by
  refine ⟨fun k hk => (hw.reg k fun hS => ?_).trans (h.1 k hk), fun p => ?_⟩
  · exact Nat.not_lt.mpr (hkey k hS) hk
  · rw [hw.ports hports]
    exact h.2 p

end

variable {d₀ : Dev}

/-! ### `Machine/Ops` -/

theorem Dev.modCore_stands {d : Dev} (h : LinkStands d₀ d) (q f) : LinkStands d₀ (d.modCore q f) := h

theorem Dev.modHome_stands {d : Dev} (h : LinkStands d₀ d) (q f) : LinkStands d₀ (d.modHome q f) := h

theorem Dev.modGroup_stands {d : Dev} (h : LinkStands d₀ d) (g f) : LinkStands d₀ (d.modGroup g f) := h

theorem Dev.modDom_stands {d : Dev} (h : LinkStands d₀ d) (f) : LinkStands d₀ (d.modDom f) := h

theorem Dev.flood_stands {d : Dev} (h : LinkStands d₀ d) (except pk) : LinkStands d₀ (d.flood except pk) := by
  unfold flood
  grind [each_stands, sendPort_stands]

theorem Dev.setSg_stands {d : Dev} (h : LinkStands d₀ d) (g v) : LinkStands d₀ (d.setSg g v) :=
  setReg_stands h _ _ (by unfold Reg.sgActive; omega)

/-! ### `Machine/Flags` -/

theorem Dev.event_stands {d : Dev} (h : LinkStands d₀ d) (q e) : LinkStands d₀ (d.event q e) := by
  refine h.within (event_within (.refl Dev.ofNotes d) q e (by simp [Dev.ofNotes])) (by simp [Dev.ofNotes]) fun k hk => ?_
  simp only [Dev.ofNotes, List.mem_cons, List.not_mem_nil, or_false] at hk
  rcases hk with rfl | rfl | rfl | rfl | rfl <;> decide

/-! ### `Machine/Router` -/

theorem Dev.countOut_stands {d : Dev} (h : LinkStands d₀ d) (pk) : LinkStands d₀ (d.countOut pk) := by
  unfold countOut
  grind [Reg.fabricOut, bump_stands]

theorem Dev.toHost_stands {d : Dev} (h : LinkStands d₀ d) (h0 pk) : LinkStands d₀ (d.toHost h0 pk) := h

theorem Dev.sendFeid_stands {d : Dev} (h : LinkStands d₀ d) (pk) : LinkStands d₀ (d.sendFeid pk) := by
  unfold sendFeid
  grind [Reg.unroutable, bump_stands, countOut_stands, sendPort_stands, toHost_stands]

theorem Dev.sendKeyed_stands {d : Dev} (h : LinkStands d₀ d) (pk) : LinkStands d₀ (d.sendKeyed pk) := by
  unfold sendKeyed
  grind [Reg.retiredDrops, bump_stands, sendFeid_stands]

/-! ### `Machine/Units` -/

theorem Dev.modTiers_stands {d : Dev} (h : LinkStands d₀ d) (f) : LinkStands d₀ (d.modTiers f) := h

theorem Dev.modTrans_stands {d : Dev} (h : LinkStands d₀ d) (f) : LinkStands d₀ (d.modTrans f) := h

theorem Dev.modJobs_stands {d : Dev} (h : LinkStands d₀ d) (f) : LinkStands d₀ (d.modJobs f) := h

theorem Dev.modYar_stands {d : Dev} (h : LinkStands d₀ d) (f) : LinkStands d₀ (d.modYar f) := h

theorem Dev.modJob_stands {d : Dev} (h : LinkStands d₀ d) (k f) : LinkStands d₀ (d.modJob k f) := h

theorem Dev.startFill_stands {d : Dev} (h : LinkStands d₀ d) (s) : LinkStands d₀ (d.startFill s) := by
  unfold startFill
  grind [Reg.wrongPlane, bump_stands, modTiers_stands]

theorem Dev.giveSlot_stands {d : Dev} (h : LinkStands d₀ d) (comp unit deadline) {d' : Dev} (e' : d.giveSlot comp unit deadline = some d') :
    LinkStands d₀ d' := by
  unfold giveSlot at e'
  grind [Reg.stageEvicted, bump_stands, modTiers_stands, startFill_stands]

theorem Dev.retestWaits_stands {d : Dev} (h : LinkStands d₀ d) : LinkStands d₀ d.retestWaits := by
  unfold retestWaits
  refine foldl_keeps (LinkStands d₀) _ (fun d w h => ?_) h
  grind [→ giveSlot_stands, modTiers_stands]

theorem Dev.unpin_stands {d : Dev} (h : LinkStands d₀ d) (u slots) : LinkStands d₀ (d.unpin u slots) := by
  unfold unpin
  grind [each_stands, modTiers_stands, retestWaits_stands, startFill_stands]

theorem Dev.withdrawFaults_stands {d : Dev} (h : LinkStands d₀ d) (units) : LinkStands d₀ (d.withdrawFaults units) := h

theorem Dev.setWalks_stands {d : Dev} (h : LinkStands d₀ d) (q ws) : LinkStands d₀ (d.setWalks q ws) := by
  unfold setWalks
  grind [Reg.walks, bump_stands, modTrans_stands]

theorem Dev.returnScratch_stands {d : Dev} (h : LinkStands d₀ d) (holder) : LinkStands d₀ (d.returnScratch holder) := h

theorem Dev.parkDone_stands {d : Dev} (h : LinkStands d₀ d) (x) : LinkStands d₀ (d.parkDone x) := by
  unfold parkDone
  grind [modJob_stands]

theorem Dev.dropQuantum_stands {d : Dev} (h : LinkStands d₀ d) (u) : LinkStands d₀ (d.dropQuantum u) := by
  unfold dropQuantum
  split
  · exact h
  · refine unpin_stands (withdrawFaults_stands (returnScratch_stands (each_stands ?_ _ fun _ _ h => setWalks_stands h _ _) _) _) _ _
    exact parkDone_stands h _

theorem Dev.sendCancel_stands {d : Dev} (h : LinkStands d₀ d) (workId reply op toSw) : LinkStands d₀ (d.sendCancel workId reply op toSw) :=
  flood_stands (modJobs_stands h ..) ..

theorem Dev.setClaim_stands {d : Dev} (h : LinkStands d₀ d) (comp reply work f) : LinkStands d₀ (d.setClaim comp reply work f) := h

theorem Dev.arbitrate_stands {d : Dev} (h : LinkStands d₀ d) (j) : LinkStands d₀ (d.arbitrate j).2 := by
  unfold arbitrate
  grind [Reg.cancelsSent, bump_stands, sendCancel_stands, setClaim_stands]

theorem Dev.jobOutput_stands {d : Dev} (h : LinkStands d₀ d) (k pk) : LinkStands d₀ (d.jobOutput k pk) := by
  unfold jobOutput
  grind [arbitrate_stands, modJob_stands, sendCancel_stands, sendKeyed_stands]

theorem Dev.freeJob_stands {d : Dev} (h : LinkStands d₀ d) (k) : LinkStands d₀ (d.freeJob k) := by
  unfold freeJob
  grind [Reg.libBanks, modJobs_stands, modTiers_stands, setReg_stands]

theorem Dev.finishJob_stands {d : Dev} (h : LinkStands d₀ d) (k) : LinkStands d₀ (d.finishJob k) := by
  unfold finishJob
  grind [Reg.jobsFailed, arbitrate_stands, bump_stands, freeJob_stands, jobOutput_stands, sendKeyed_stands]

theorem Dev.endJob_stands {d : Dev} (h : LinkStands d₀ d) (k status node) : LinkStands d₀ (d.endJob k status node) := by
  unfold endJob
  split
  · exact h
  · extract_lets pull waits anew d₁ d₂ us d₃ idle d₄
    have h₂ : LinkStands d₀ d₂ := by grind [modJob_stands]
    clear_value d₂
    have h₄ : LinkStands d₀ d₄ := by grind [dropQuantum_stands, each_stands, withdrawFaults_stands]
    clear_value d₄
    grind [finishJob_stands]

theorem Dev.setShown_stands {d : Dev} (h : LinkStands d₀ d) (g s) : LinkStands d₀ (d.setShown g s) := h

theorem Dev.noteRegistry_stands {d : Dev} (h : LinkStands d₀ d) (src m) : LinkStands d₀ (d.noteRegistry src m) := h

theorem Dev.sendRegistry_stands {d : Dev} (h : LinkStands d₀ d) (m) : LinkStands d₀ (d.sendRegistry m) :=
  flood_stands (noteRegistry_stands h ..) ..

theorem Dev.outcome_stands {d : Dev} (h : LinkStands d₀ d) (g state reason) : LinkStands d₀ (d.outcome g state reason) := by
  unfold outcome
  grind [setShown_stands]

theorem Dev.removeAt_stands {d : Dev} (h : LinkStands d₀ d) (g tick reason) : LinkStands d₀ (d.removeAt g tick reason) := by
  unfold removeAt
  grind [modYar_stands, outcome_stands, setShown_stands]

theorem Dev.reportInst_stands {d : Dev} (h : LinkStands d₀ d) (g) : LinkStands d₀ (d.reportInst g) := by
  unfold reportInst
  grind [flood_stands, removeAt_stands, sendRegistry_stands]

theorem Dev.freeJournal_stands {d : Dev} (h : LinkStands d₀ d) (g) : LinkStands d₀ (d.freeJournal g) := h

theorem Dev.failInst_stands {d : Dev} (h : LinkStands d₀ d) (g) : LinkStands d₀ (d.failInst g) := by
  unfold failInst
  grind [modYar_stands, reportInst_stands]

/-! ### `Machine/Fence` -/

theorem Dev.sendRecovery_stands {d : Dev} (h : LinkStands d₀ d) (m) : LinkStands d₀ (d.sendRecovery m) := by
  unfold sendRecovery
  grind [flood_stands, modDom_stands]

theorem Dev.fenceParts_stands {d : Dev} (h : LinkStands d₀ d) (c) : LinkStands d₀ (d.fenceParts c) := by
  unfold fenceParts
  grind [each_stands, endJob_stands, failInst_stands, freeJournal_stands, modTiers_stands, modTrans_stands, retestWaits_stands]

theorem Dev.fence_stands {d : Dev} (h : LinkStands d₀ d) (c code origin notice) : LinkStands d₀ (d.fence c code origin notice) := by
  unfold fence
  split
  · exact h
  · extract_lets t d₁ d₂ d₃
    have h₁ : LinkStands d₀ d₁ := by
      unfold d₁
      refine bump_stands (setReg_stands (setReg_stands (setReg_stands h _ _ (by decide)) _ _ ?_) _ _ ?_) _ _ (by decide)
      · unfold Reg.fenceReason; omega
      · unfold Reg.fenceTick; omega
    have h₃ : LinkStands d₀ d₃ := by grind [event_stands, sendRecovery_stands]
    exact fenceParts_stands h₃ _

theorem Dev.fenceOwn_stands {d : Dev} (h : LinkStands d₀ d) (code p) : LinkStands d₀ (d.fenceOwn code p) := by
  unfold fenceOwn
  grind [each_stands, fence_stands]

/-! ### `Machine/YarrowCore` -/

theorem Dev.setInst_stands {d : Dev} (h : LinkStands d₀ d) (g x) : LinkStands d₀ (d.setInst g x) := h

theorem Dev.giveUp_stands {d : Dev} (h : LinkStands d₀ d) (g idx) : LinkStands d₀ (d.giveUp g idx) := by
  unfold giveUp
  grind [Reg.exclusions, bump_stands, setInst_stands]

theorem Dev.contribGone_stands {d : Dev} (h : LinkStands d₀ d) (feid) : LinkStands d₀ (d.contribGone feid) := by
  unfold contribGone
  grind [each_stands, giveUp_stands]

/-! ### `Machine/Groups` -/

theorem Dev.rebuildDone_stands {d : Dev} (h : LinkStands d₀ d) (g) : LinkStands d₀ (d.rebuildDone g) := by
  unfold rebuildDone
  grind [Reg.rebuildsDone, Reg.sgStage, bump_stands, event_stands, modGroup_stands, setReg_stands, setSg_stands]

theorem Dev.rebuildFrom_stands {d : Dev} (h : LinkStands d₀ d) (g hmap s) : LinkStands d₀ (d.rebuildFrom g hmap s) := by
  unfold rebuildFrom
  grind [rebuildDone_stands, setSg_stands]

/-! ### `Machine/Home` -/

theorem Dev.setOp_stands {d : Dev} (h : LinkStands d₀ d) (q o) : LinkStands d₀ (d.setOp q o) := h

theorem Dev.dropOp_stands {d : Dev} (h : LinkStands d₀ d) (q id) : LinkStands d₀ (d.dropOp q id) := h

theorem Dev.addOp_stands {d : Dev} (h : LinkStands d₀ d) (q op) : LinkStands d₀ (d.addOp q op) := h

theorem Dev.countLost_stands {d : Dev} (h : LinkStands d₀ d) (status n) : LinkStands d₀ (d.countLost status n) := by
  unfold countLost
  grind [Reg.dataLost, Reg.homeLost, bump_stands]

theorem Dev.answerAtomic_stands {d : Dev} (h : LinkStands d₀ d) (q a status prior) : LinkStands d₀ (d.answerAtomic q a status prior) := by
  unfold answerAtomic
  grind [each_stands, sendFeid_stands]

theorem Dev.settleDedup_stands {d : Dev} (h : LinkStands d₀ d) (q op status a) : LinkStands d₀ (d.settleDedup q op status a) := h

theorem Dev.answerUnit_stands {d : Dev} (h : LinkStands d₀ d) (q id status data) : LinkStands d₀ (d.answerUnit q id status data) := h

theorem Dev.answerRead_stands {d : Dev} (h : LinkStands d₀ d) (q op status data) : LinkStands d₀ (d.answerRead q op status data) := by
  unfold answerRead
  grind [answerUnit_stands, modTiers_stands, sendFeid_stands]

theorem Dev.completeOp_stands {d : Dev} (h : LinkStands d₀ d) (q op status data) : LinkStands d₀ (d.completeOp q op status data) := by
  unfold completeOp
  grind [answerAtomic_stands, answerRead_stands, answerUnit_stands, dropOp_stands, each_stands, sendFeid_stands, settleDedup_stands]

theorem Dev.holdRebuild_stands {d : Dev} (h : LinkStands d₀ d) (g) : LinkStands d₀ (d.holdRebuild g) := h

theorem Dev.failOp_stands {d : Dev} (h : LinkStands d₀ d) (q op status) : LinkStands d₀ (d.failOp q op status) := by
  unfold failOp
  grind [completeOp_stands, countLost_stands, holdRebuild_stands]

theorem Dev.sendOwn_stands {d : Dev} (h : LinkStands d₀ d) (q op role feid write addr len data) :
    LinkStands d₀ (d.sendOwn q op role feid write addr len data) := sendKeyed_stands (modHome_stands h ..) ..

theorem Dev.forward_stands {d : Dev} (h : LinkStands d₀ d) (q op feid port) : LinkStands d₀ (d.forward q op feid port) :=
  sendPort_stands (countOut_stands (modHome_stands h ..) ..) ..

theorem Dev.applyMerge_stands {d : Dev} (h : LinkStands d₀ d) (q op line) : LinkStands d₀ (d.applyMerge q op line).2.2 := by
  unfold applyMerge
  refine bump_stands (foldl_keeps (fun x : Bytes × List Bytes × Dev => LinkStands d₀ x.2.2) _ (fun _ _ h => ?_) ?_) _ _
    (by unfold Reg.mergeRmw; omega)
  · exact modHome_stands h _ _
  · exact h

theorem Dev.newRange_stands {d : Dev} (h : LinkStands d₀ d) (q op old) : LinkStands d₀ (d.newRange q op old).2.2 := by
  unfold newRange
  grind [applyMerge_stands]

theorem Dev.singleWrite_stands {d : Dev} (h : LinkStands d₀ d) (q op new) : LinkStands d₀ (d.singleWrite q op new) := by
  unfold singleWrite
  split
  · exact failOp_stands h _ _ _
  · extract_lets da
    split
    · exact sendOwn_stands (setOp_stands h _ _) ..
    · split
      · exact failOp_stands h _ _ _
      · extract_lets c d₁ m
        have h₁ : LinkStands d₀ d₁ := sendOwn_stands (setOp_stands h _ _) ..
        clear_value d₁
        grind [sendOwn_stands]

theorem Dev.startSingle_stands {d : Dev} (h : LinkStands d₀ d) (q op) : LinkStands d₀ (d.startSingle q op) := by
  unfold startSingle
  grind [failOp_stands, forward_stands, sendOwn_stands, setOp_stands, singleWrite_stands]

theorem Dev.stripeReads_stands {d : Dev} (h : LinkStands d₀ d) (q g op units) : LinkStands d₀ (d.stripeReads q g op units) := by
  unfold stripeReads
  grind [each_stands, sendOwn_stands, setOp_stands]

theorem Dev.stripeRepair_stands {d : Dev} (h : LinkStands d₀ d) (q g op full written) : LinkStands d₀ (d.stripeRepair q g op full written) := by
  unfold stripeRepair
  grind [each_stands, sendOwn_stands]

theorem Dev.gfWork_stands {d : Dev} (h : LinkStands d₀ d) (q n) : LinkStands d₀ (d.gfWork q n) :=
  bump_stands h _ _ (by unfold Reg.gfBytes; omega)

theorem Dev.stripeAnswer_stands {d : Dev} (h : LinkStands d₀ d) (q g op) : LinkStands d₀ (d.stripeAnswer q g op) := by
  unfold stripeAnswer
  extract_lets k full full' r raw d₁ d₂ plain
  have h₂ : LinkStands d₀ d₂ := by grind [Reg.degradedReads, bump_stands, gfWork_stands]
  clear_value d₂ plain
  split
  · exact failOp_stands h₂ _ _ _
  · extract_lets d₃ d₄
    have h₄ : LinkStands d₀ d₄ := stripeRepair_stands (setOp_stands (answerRead_stands h₂ ..) ..) ..
    clear_value d₄
    grind [dropOp_stands]

theorem Dev.stripeAfter_stands {d : Dev} (h : LinkStands d₀ d) (q op) : LinkStands d₀ (d.stripeAfter q op) := by
  unfold stripeAfter
  grind [dropOp_stands, setOp_stands, stripeRepair_stands]

theorem Dev.answerWrite_stands {d : Dev} (h : LinkStands d₀ d) (q op) : LinkStands d₀ (d.answerWrite q op) := by
  unfold answerWrite
  grind [answerUnit_stands, countLost_stands, sendFeid_stands]

theorem Dev.stripeWritten_stands {d : Dev} (h : LinkStands d₀ d) (q op) : LinkStands d₀ (d.stripeWritten q op) := by
  unfold stripeWritten
  grind [answerWrite_stands, dropOp_stands, modGroup_stands, rebuildFrom_stands, setOp_stands, stripeAfter_stands]

theorem Dev.backBytes_stands {d : Dev} (h : LinkStands d₀ d) (n) : LinkStands d₀ (d.backBytes n) := bump_stands h _ _ (by decide)

theorem Dev.rebuildWrite_stands {d : Dev} (h : LinkStands d₀ d) (q g op) : LinkStands d₀ (d.rebuildWrite q g op) := by
  unfold rebuildWrite
  grind [backBytes_stands, each_stands, gfWork_stands, sendOwn_stands, setOp_stands, stripeRepair_stands, stripeWritten_stands]

theorem Dev.resyncWrite_stands {d : Dev} (h : LinkStands d₀ d) (q g op) : LinkStands d₀ (d.resyncWrite q g op) := by
  unfold resyncWrite
  grind [Reg.parityFixes, backBytes_stands, bump_stands, each_stands, gfWork_stands, sendOwn_stands, setOp_stands, stripeWritten_stands]

theorem Dev.stripeWrite_stands {d : Dev} (h : LinkStands d₀ d) (q g op) : LinkStands d₀ (d.stripeWrite q g op) := by
  unfold stripeWrite
  grind [Reg.degradedWrites, bump_stands, each_stands, failOp_stands, gfWork_stands, newRange_stands, sendOwn_stands, setOp_stands,
    stripeWritten_stands]

theorem Dev.stripeLost_stands {d : Dev} (h : LinkStands d₀ d) (q op) : LinkStands d₀ (d.stripeLost q op) := by
  unfold stripeLost
  grind [Reg.dataLost, bump_stands, event_stands, failOp_stands]

theorem Dev.stripeGo_stands {d : Dev} (h : LinkStands d₀ d) (q g op) : LinkStands d₀ (d.stripeGo q g op) := by
  unfold stripeGo
  grind [rebuildWrite_stands, resyncWrite_stands, stripeAnswer_stands, stripeLost_stands, stripeReads_stands, stripeWrite_stands]

theorem Dev.startTierH_stands {d : Dev} (h : LinkStands d₀ d) (q op) : LinkStands d₀ (d.startTierH q op) := h

theorem Dev.startOp_stands {d : Dev} (h : LinkStands d₀ d) (q op) : LinkStands d₀ (d.startOp q op) := by
  unfold startOp
  grind [failOp_stands, setOp_stands, startSingle_stands, startTierH_stands, stripeGo_stands]

theorem Dev.pump_stands {d : Dev} (h : LinkStands d₀ d) (q) : LinkStands d₀ (d.pump q) := by
  unfold pump
  refine foldl_keeps (LinkStands d₀) _ (fun d id h => ?_) h
  grind [startOp_stands]

theorem Dev.closeMerge_stands {d : Dev} (h : LinkStands d₀ d) (q line) : LinkStands d₀ (d.closeMerge q line) := by
  unfold closeMerge
  grind [addOp_stands, modHome_stands]

theorem Dev.failMerges_stands {d : Dev} (h : LinkStands d₀ d) (q status p) : LinkStands d₀ (d.failMerges q status p) := by
  unfold failMerges
  grind [closeMerge_stands, each_stands, failOp_stands]

theorem Dev.groupLost_stands {d : Dev} (h : LinkStands d₀ d) (g) : LinkStands d₀ (d.groupLost g) := by
  unfold groupLost
  extract_lets q d₁ d₂ d₃ d₄ cs
  have h₂ : LinkStands d₀ d₂ := event_stands (modGroup_stands (bump_stands (setSg_stands h ..) _ _ (by decide)) ..) ..
  have h₃ : LinkStands d₀ d₃ := each_stands h₂ _ fun d op h => by grind [dropOp_stands, failOp_stands]
  exact pump_stands (fenceOwn_stands (failMerges_stands h₃ ..) ..) _

theorem Dev.caught_stands {d : Dev} (h : LinkStands d₀ d) (q g m op) : LinkStands d₀ (d.caught q g m op) := by
  unfold caught
  grind [dropOp_stands, failOp_stands, modHome_stands, stripeWritten_stands]

theorem Dev.memberFailed_stands {d : Dev} (h : LinkStands d₀ d) (g m) : LinkStands d₀ (d.memberFailed g m) := by
  unfold memberFailed
  extract_lets e st q spare e₁ e₂ e₃ e₄ d₁ d₂ d₃ d₄
  split
  · exact h
  · have h₃ : LinkStands d₀ d₃ := event_stands (modGroup_stands (bump_stands (setSg_stands h ..) _ _ (by decide)) ..) ..
    have h₄ : LinkStands d₀ d₄ := each_stands h₃ _ fun d op h => dropOp_stands h ..
    clear_value d₄
    grind [caught_stands, each_stands, groupLost_stands, pump_stands]

/-! ### `Machine/PortDown` -/

theorem Dev.traysGone_stands {d : Dev} (h : LinkStands d₀ d) (p) : LinkStands d₀ (d.traysGone p) := by
  unfold traysGone
  grind [countLost_stands, each_stands, failOp_stands, modHome_stands, pump_stands, setOp_stands]

theorem Dev.endpointGone_stands {d : Dev} (h : LinkStands d₀ d) (p feid) : LinkStands d₀ (d.endpointGone p feid) := by
  unfold endpointGone
  grind [contribGone_stands, each_stands, fenceOwn_stands, memberFailed_stands, traysGone_stands]

end Sys2Proof.Machine
end

section
/-! SUPPORT. What the steps of a port's training leave (R58, R102 to R104, R392). -/

namespace Sys2Proof.Machine
namespace Dev

/-! ### Results sent again (R392) -/

theorem sendResult_stands {d₀ d : Dev} (h : LinkStands d₀ d) (pk feid) : LinkStands d₀ (d.sendResult pk feid) := sendKeyed_stands h _

theorem resendTo_stands {d₀ d : Dev} (h : LinkStands d₀ d) (feid) : LinkStands d₀ (d.resendTo feid) :=
  each_stands h _ fun _ q h => each_stands h _ fun _ e h => bump_stands (sendResult_stands h e.pkt feid) _ _ (by unfold Reg.resends; omega)

/-- The entries that the sending of a packet writes. -/
def ofSend : Scope :=
  ⟨fun | .cores | .ports => true | _ => false, fun k => k = Reg.unroutable ∨ k = Reg.retiredDrops ∨ ∃ i, k = Reg.fabricOut i⟩

/-- A port's state is no entry that a result sent again writes, whatever the port's number. -/
theorem portState_resendTo (d : Dev) (feid p : Nat) : (d.resendTo feid).portState p = d.portState p := by
  have hsend (d : Dev) (pk : Packet) : (d.sendResult pk feid).portState p = d.portState p := by
    refine (sendResult_within (.refl ofSend d) pk feid (by simp [ofSend])).reg _ ?_
    simp only [ofSend, Reg.portState, Reg.unroutable, Reg.retiredDrops, Reg.fabricOut, not_or, not_exists]
    exact ⟨by omega, by omega, fun i => by omega⟩
  have hquad (d' : Dev) (q : Nat) (hq : q ∈ [0, 1, 2, 3]) (l : List JEnt) (h : d'.portState p = d.portState p) :
      (d'.each l fun d e => (d.sendResult e.pkt feid).bump (Reg.resends q)).portState p = d.portState p := by
    have hne : Reg.portState p ≠ Reg.resends q := by
      have : q < 4 := by simp at hq; omega
      unfold Reg.portState Reg.resends
      omega
    exact foldl_keeps (fun d' : Dev => d'.portState p = d.portState p) l
      (fun d' e h => (reg_bump_ne _ _ hne).trans ((hsend d' e.pkt).trans h)) h
  unfold resendTo
  rw [each]
  refine List.foldlRecOn (motive := fun d' : Dev => d'.portState p = d.portState p) [0, 1, 2, 3] _ rfl fun d' h q hq => ?_
  exact hquad d' q hq _ h

/-! ### From DETECT to PARAM (R102, R103) -/

variable {d : Dev} {p : Nat}

theorem reg_showTrained {k : Nat} (ok : Nat) (hok : k ≠ Reg.pbLaneOk (p / 4)) (hpol : k ≠ Reg.pbPolarity (p / 4)) :
    (d.showTrained p ok).reg k = d.reg k := (reg_setReg_ne _ _ hpol).trans (reg_setReg_ne _ _ hok)

theorem signalDetected_trains (hst : d.portState p = 1) (hex : d.portExists p = true) (hhold : (d.port p).dyingHold = false)
    (hlevel : d.level (quadOf p) ≠ 0) (hfit : bit d.health.failedUnits (p / 4) = false) (hrefs : d.power.refs ≠ 0) :
    d.signalDetected p = (d.modPort p (fun P => { P with alloc := d.ownAllocation p })).setReg (Reg.portState p) 2 := by
  simp [signalDetected, hst, hex, hhold, hlevel, hfit, hrefs]

theorem equalizeDone_passed {passed g : Nat} (hst : d.portState p = 2) (hg : largestGroup 8 (passed &&& d.portLaneMask p) = some g) :
    d.equalizeDone p passed = ((d.showTrained p (passed &&& d.portLaneMask p)).modPort p (fun P =>
      { P with failed := d.portLaneMask p - (passed &&& d.portLaneMask p), txLanes := g, rxLanes := g })).setReg (Reg.portState p) 3 := by
  simp [equalizeDone, hst, hg]

theorem equalizeDone_none {passed : Nat} (hst : d.portState p = 2) (hnone : passed &&& d.portLaneMask p = 0) :
    d.equalizeDone p passed = d.untrained p 1 := by
  simp [equalizeDone, hst, hnone, show largestGroup 8 0 = none by decide]

theorem portState_untrained (d : Dev) (p nx : Nat) : (d.untrained p nx).portState p = nx := reg_setReg_same ..

/-- LOCK ends with the state PARAM and a fresh salt. -/
theorem lockDone_locked {polarity : Nat} (hst : d.portState p = 3) : (d.lockDone p polarity).portState p = 4 ∧
    ((d.lockDone p polarity).port p).salt = Config.freeBytes d.freeCtr 16 ∧ ((d.lockDone p polarity).port p).peer = none := by
  unfold lockDone
  rw [if_neg (by simp [hst])]
  refine ⟨reg_setReg_same .., ?_, ?_⟩
  · rw [port_setReg, port_modPort_same]
    rfl
  · rw [port_setReg, port_modPort_same]

theorem trainFlit_kept (hst : d.portState p = 4) (i : TrainInfo) : d.trainFlit p i = d.modPort p (fun P => { P with peer := some i }) := if_pos hst

/-! ### The end of the exchange (R42, R71, R102) -/

/-- The device in which the peer of a port and the round trip of its link are shown. -/
def peerShown (d : Dev) (p who rttPs : Nat) : Dev := (d.setReg (Reg.portPeer p) who).setReg (Reg.rttNs p) (min (rttPs / 1000) 0xFFFF)

theorem reg_peerShown (who rttPs : Nat) {k : Nat} (hpeer : k ≠ Reg.portPeer p) (hrtt : k ≠ Reg.rttNs p) :
    (d.peerShown p who rttPs).reg k = d.reg k := (reg_setReg_ne _ _ hrtt).trans (reg_setReg_ne _ _ hpeer)

theorem trainAlloc_peerShown (who rttPs : Nat) : (d.peerShown p who rttPs).trainAlloc p = d.trainAlloc p := by
  have hcred : Reg.pbCredDed (p / 4) ≠ Reg.portPeer p ∧ Reg.pbCredDed (p / 4) ≠ Reg.rttNs p := by
    simp [Reg.pbCredDed, Reg.portPeer, Reg.rttNs]; omega
  have hmode : Reg.pbMode (p / 4) ≠ Reg.portPeer p ∧ Reg.pbMode (p / 4) ≠ Reg.rttNs p := by
    simp [Reg.pbMode, Reg.portPeer, Reg.rttNs]; omega
  unfold trainAlloc ownAllocation portsOfBlock
  rw [reg_peerShown who rttPs hcred.1 hcred.2, reg_peerShown who rttPs hmode.1 hmode.2]
  rfl

/-- An exchange whose checks hold takes an ENDPOINT port to ADMIT. -/
theorem paramDone_admits {rttPs : Nat} {i : TrainInfo} (hst : d.portState p = 4) (hpeer : (d.port p).peer = some i)
    (hsalt : leNat (d.port p).salt ≠ i.salt) (hform : i.malformed = false) (hlanes : i.laneSet = (d.port p).rxLanes)
    (hcredits : i.credits = d.trainAlloc p) (hrole : d.role p = 0) (hfeid : d.reg (Reg.portExpectFeid p) = i.feid) (hset : i.feid ≠ 0xFFFF) :
    ∃ delays, d.paramDone p rttPs = ((d.peerShown p i.feid rttPs).modDom delays).setReg (Reg.portState p) 5 := by
  have hne (k : Nat) (hk : k = Reg.portRole p ∨ k = Reg.portExpectFeid p) : (d.peerShown p i.feid rttPs).reg k = d.reg k := by
    rcases hk with rfl | rfl <;>
      exact reg_peerShown _ _ (by simp [Reg.portRole, Reg.portExpectFeid, Reg.portPeer]) (by simp [Reg.portRole, Reg.portExpectFeid, Reg.rttNs])
  have hrole' : (d.peerShown p i.feid rttPs).role p = 0 := (hne _ (.inl rfl)).trans hrole
  have hwho : d.announced p i = i.feid := by simp [announced, hrole]
  have hadmit : (d.peerShown p i.feid rttPs).admitOk p i = true := by
    simp [admitOk, hrole', hne _ (.inr rfl), hfeid, hset]
  have hd : (d.setReg (Reg.portPeer p) (d.announced p i)).setReg (Reg.rttNs p) (min (rttPs / 1000) 0xFFFF) = d.peerShown p i.feid rttPs := by
    rw [hwho, peerShown]
  unfold paramDone
  rw [if_neg (by simp [hst]), hpeer]
  dsimp only
  have hport : (d.peerShown p i.feid rttPs).port p = d.port p := rfl
  rw [hd, hport, if_neg hsalt, if_neg (by simp [hform, hlanes, hcredits, trainAlloc_peerShown]), if_neg (by simp [hadmit])]
  exact ⟨_, if_neg (by simp [show ∀ f, ((d.peerShown p i.feid rttPs).modDom f).role p = 0 from fun _ => hrole'])⟩

/-! ### Into ACTIVE (R58) -/

/-- An ENDPOINT port of a switch in its place enters ACTIVE once the tick has been LOCKED. -/
theorem portActive_enters (hst : d.portState p = 5) (hlevel : d.level (quadOf p) ≠ 0) (hplace : d.ownId.isSome = true)
    (hadmitted : d.dom.admitted = true) (hphase : d.dom.phase = 5 ∨ d.reg Reg.managerCur = 0xFF) :
    d.portActive p = if (d.enterActive p).role p = 0 then (d.enterActive p).resendTo ((d.enterActive p).reg (Reg.portExpectFeid p))
      else d.enterActive p := by
  have hserve : d.mayServe p = true := by simp [mayServe, hlevel, hplace]
  have hearly : (!d.dom.admitted || (d.dom.phase != 5 && d.reg Reg.managerCur != 0xFF)) = false := by
    rcases hphase with h | h <;> simp [hadmitted, h]
  unfold portActive
  rw [hearly]
  exact if_neg (by simp [hst, hserve])

/-- ACTIVE starts with fresh numbers and shows the lanes in use. -/
theorem enterActive_starts (d : Dev) (p : Nat) : (d.enterActive p).portState p = 6 ∧ ((d.enterActive p).port p).txSeq = 0 ∧
    ((d.enterActive p).port p).rxSeq = 0 ∧ (d.enterActive p).reg (Reg.portLanes p) = (d.port p).rxLanes := by
  unfold enterActive
  extract_lets d₁ d₂
  have hport : d₂.port p = _ := port_modPort_same ..
  refine ⟨?_, ?_, ?_, ?_⟩
  · refine (reg_setReg_ne _ _ (by simp [Reg.portState, Reg.portWidth])).trans ((reg_setReg_ne _ _ (by simp [Reg.portState, Reg.portLanes])).trans ?_)
    exact reg_setReg_same ..
  · rw [port_showLanes, hport]
  · rw [port_showLanes, hport]
  · refine (reg_setReg_ne _ _ (by simp [Reg.portLanes, Reg.portWidth])).trans ((reg_setReg_same ..).trans ?_)
    rw [hport]
    rfl

/-- The end of a RETRAIN resends what is unacknowledged and keeps the numbering. -/
theorem retrainDone_resends (hst : d.portState p = 7) : (d.retrainDone p).portState p = 6 ∧
    ((d.retrainDone p).port p).resend = (d.port p).replay ∧ ((d.retrainDone p).port p).txSeq = (d.port p).txSeq := by
  obtain ⟨_, _, _, e⟩ := port_tryRestore ((d.setReg (Reg.portState p) 6).modPort p fun P => { P with resend := P.replay }) p
  have hd : d.retrainDone p = ((d.setReg (Reg.portState p) 6).modPort p fun P => { P with resend := P.replay }).tryRestore p := if_pos hst
  rw [hd]
  refine ⟨?_, ?_, ?_⟩
  · rw [portState, reg, regs_tryRestore]
    exact reg_setReg_same ..
  · rw [e, port_modPort_same, port_setReg]
  · rw [e, port_modPort_same, port_setReg]

/-! ### Out of RETRAIN (R102, R104) -/

theorem flushPort_stands {d₀ d : Dev} (h : LinkStands d₀ d) (p) : LinkStands d₀ (d.flushPort p) := by
  unfold flushPort
  refine each_stands h _ fun d q h => ?_
  dsimp only
  split
  · exact h
  · exact bump_stands (modCore_stands h ..) (Reg.flushed q) _ (by unfold Reg.flushed; omega)

/-- A port that leaves ACTIVE or RETRAIN for DETECT holds no flit, and nothing that follows takes its state or its buffers back. -/
theorem leaveActive_empties (hp : p < 384) (hst : d.portState p = 6 ∨ d.portState p = 7) : (d.leaveActive p 1).portState p = 1 ∧
    ((d.leaveActive p 1).port p).replay = [] ∧ ((d.leaveActive p 1).port p).rx = [] := by
  unfold leaveActive
  extract_lets st ep feid d₁ d₂ d₃ d₄ d₅ d₆ d₇
  rw [if_pos (by simpa [st] using hst)]
  have hstate : (d₄.showLanes p 0).portState p = 1 := by
    refine (reg_setReg_ne _ _ (by simp [Reg.portState, Reg.portWidth])).trans ((reg_setReg_ne _ _ (by simp [Reg.portState, Reg.portLanes])).trans ?_)
    refine (reg_showTrained 0 ?_ ?_).trans (reg_setReg_same ..)
    · simp [Reg.portState, Reg.pbLaneOk]; omega
    · simp [Reg.portState, Reg.pbPolarity]; omega
  have hempty : ((d₄.showLanes p 0).port p).replay = [] ∧ ((d₄.showLanes p 0).port p).rx = [] := by
    have hport : (d₄.showLanes p 0).port p = d₂.port p := rfl
    rw [hport]
    unfold d₂
    rw [port_modPort_same]
    exact ⟨rfl, rfl⟩
  have h₅ : LinkStands (d₄.showLanes p 0) d₅ := flushPort_stands (.refl _) p
  have h₆ : LinkStands (d₄.showLanes p 0) d₆ := by
    unfold d₆
    rw [if_neg (by decide)]
    exact event_stands h₅ ..
  have h₇ : LinkStands (d₄.showLanes p 0) d₇ := modDom_stands h₆ _
  have hgone : LinkStands (d₄.showLanes p 0) (if ep then d₇.endpointGone p feid else d₇) := by
    split
    · exact endpointGone_stands h₇ ..
    · exact h₇
  exact ⟨(hgone.reg (by unfold Reg.portState; omega)).trans hstate, (congrArg Port.replay (hgone.port p)).trans hempty.1,
    (congrArg Port.rx (hgone.port p)).trans hempty.2⟩

end Dev
end Sys2Proof.Machine
end

section
/-! Port training (O6). -/

namespace Sys2Proof.Machine
open Dev

theorem exec_signalDetected (port : Nat) (s : State) : exec (.signalDetected port) s = onDev (fun d => d.signalDetected port) s := rfl
theorem exec_equalizeDone (port passMask : Nat) (s : State) :
    exec (.equalizeDone port passMask) s = onDev (fun d => d.equalizeDone port passMask) s := rfl
theorem exec_lockDone (port polarity : Nat) (s : State) : exec (.lockDone port polarity) s = onDev (fun d => d.lockDone port polarity) s := rfl
theorem exec_trainFlit (port : Nat) (t : TrainInfo) (s : State) : exec (.trainFlit port t) s = onDev (fun d => d.trainFlit port t) s := rfl
theorem exec_paramDone (port rttPs : Nat) (s : State) : exec (.paramDone port rttPs) s = onDev (fun d => d.paramDone port rttPs) s := rfl
theorem exec_portActive (port : Nat) (s : State) : exec (.portActive port) s = onDev (fun d => d.portActive port) s := rfl
theorem exec_trainingTimeout (port : Nat) (s : State) : exec (.trainingTimeout port) s = onDev (fun d => d.trainingTimeout port) s := rfl
theorem exec_retrainDone (port : Nat) (s : State) : exec (.retrainDone port) s = onDev (fun d => d.retrained port) s := rfl
theorem exec_retrainTimeout (port : Nat) (s : State) :
    exec (.retrainTimeout port) s = onDev (fun d => if d.portState port = 7 then d.leaveActive port 1 else d) s := rfl

/-- Settles O6: each step of the training by what it writes, and the two that tell others of the port by what those leave of its link. -/
theorem portTraining : Obligations.PortTraining := by
  unfold Obligations.PortTraining
  refine ⟨?signal, ?passed, ?nonePassed, ?lock, ?train, ?param, ?active, ?timeout, ?retrained, ?retrainTimeout⟩
  case signal =>
    intro s port hst hex hhold hlevel hfit hrefs
    refine runs_of_dev (exec_signalDetected ..) (signalDetected_trains hst hex hhold hlevel hfit hrefs) ⟨reg_setReg_same .., ?_⟩
    rw [port_setReg, port_modPort_same]
  case passed =>
    intro s port passMask g _ hst hg
    refine runs_of_dev (exec_equalizeDone ..) (equalizeDone_passed hst hg) ⟨reg_setReg_same .., ?_, ?_, ?_⟩ <;>
      rw [port_setReg, port_modPort_same]
  case nonePassed =>
    intro s port passMask _ hst hnone
    exact runs_of_dev (exec_equalizeDone ..) (equalizeDone_none hst hnone) (portState_untrained ..)
  case lock =>
    intro s port polarity _ hst
    exact runs_of_dev (exec_lockDone ..) rfl (lockDone_locked hst)
  case train =>
    intro s port i hst
    refine runs_of_dev (exec_trainFlit ..) (trainFlit_kept hst i) ⟨?_, hst⟩
    rw [port_modPort_same]
  case param =>
    intro s port rttPs i _ hst hpeer hsalt hform hlanes hcredits hrole hfeid hset
    obtain ⟨delays, hd⟩ := paramDone_admits (rttPs := rttPs) hst hpeer hsalt hform hlanes hcredits hrole hfeid hset
    refine runs_of_dev (exec_paramDone ..) hd ⟨reg_setReg_same .., ?_, ?_⟩
    · rw [reg_setReg_ne _ _ (by simp [Reg.portPeer, Reg.portState]), reg_modDom, peerShown, reg_setReg_ne _ _ (by simp [Reg.portPeer, Reg.rttNs]),
        reg_setReg_same]
    · rw [reg_setReg_ne _ _ (by simp [Reg.rttNs, Reg.portState]), reg_modDom]
      exact reg_setReg_same ..
  case active =>
    intro s port hport hst hlevel hplace hadmitted hphase
    obtain ⟨hstate, htx, hrx, hlanes⟩ := enterActive_starts s.dev port
    have hlinks : LinkStands (s.dev.enterActive port) (s.dev.portActive port) := by
      rw [portActive_enters hst hlevel hplace hadmitted hphase]
      split
      · exact resendTo_stands (.refl _) _
      · exact .refl _
    refine runs_of_dev (exec_portActive ..) rfl ⟨?_, ?_, ?_, ?_⟩
    · exact (hlinks.reg (by unfold Reg.portState; omega)).trans hstate
    · exact (congrArg Port.txSeq (hlinks.port port)).trans htx
    · exact (congrArg Port.rxSeq (hlinks.port port)).trans hrx
    · exact (hlinks.reg (by unfold Reg.portLanes; omega)).trans hlanes
  case timeout =>
    intro s port hlo hhi
    have hst : s.dev.portState port = 2 ∨ s.dev.portState port = 3 ∨ s.dev.portState port = 4 := by omega
    exact runs_of_dev (exec_trainingTimeout ..) (if_pos (by simpa [or_assoc] using hst)) (portState_untrained ..)
  case retrained =>
    intro s port hst
    obtain ⟨hstate, hresend, htx⟩ := retrainDone_resends hst
    obtain ⟨hlinks, hkept⟩ : LinkStands (s.dev.retrainDone port) (s.dev.retrained port) ∧
        (s.dev.retrained port).portState port = (s.dev.retrainDone port).portState port := by
      unfold Dev.retrained
      dsimp only
      split
      · exact ⟨resendTo_stands (.refl _) _, portState_resendTo ..⟩
      · exact ⟨.refl _, rfl⟩
    refine runs_of_dev (exec_retrainDone ..) rfl ⟨hkept.trans hstate, ?_, ?_⟩
    · exact (congrArg Port.resend (hlinks.port port)).trans hresend
    · exact (congrArg Port.txSeq (hlinks.port port)).trans htx
  case retrainTimeout =>
    intro s port hport hst
    exact runs_of_dev (exec_retrainTimeout ..) (if_pos hst) (leaveActive_empties hport (.inr hst))

end Sys2Proof.Machine
end

section
/-! SUPPORT. What the checks of R151 answer and what they leave of the device: one lemma for each way in which they end. -/

namespace Sys2Proof.Machine
set_option Elab.async false
namespace Dev

/-! ### The region of a request (R197, R198) -/

section
variable {d : Dev} {comp da rkey kind r : Nat}

theorem regionCheck_missing (h : d.regionFor comp da = none) : d.regionCheck comp da rkey kind = (.error St.unmapped, d.bump Reg.regionMiss) := by
  simp [regionCheck, h]

theorem regionCheck_otherKey (h : d.regionFor comp da = some r) (hkey : Region.rkey r ≠ rkey) :
    d.regionCheck comp da rkey kind = (.error St.key, d.bump Reg.keyFails) := by
  simp [regionCheck, h, hkey]

theorem regionCheck_noRight (h : d.regionFor comp da = some r) (hkey : Region.rkey r = rkey)
    (hright : rightOk r kind = false ∨ inMacArea r da = true) : d.regionCheck comp da rkey kind = (.error St.rights, d.bump Reg.rightsFails) := by
  simp [regionCheck, h, hkey, hright]

theorem regionCheck_found (h : d.regionFor comp da = some r) (hkey : Region.rkey r = rkey) (hright : rightOk r kind = true)
    (hmac : inMacArea r da = false) : d.regionCheck comp da rkey kind = (.ok r, d) := by
  simp [regionCheck, h, hkey, hright, hmac]
end

/-! ### The checks (R151) -/

/-- A packet that passes checks 1 to 4: its fields, its key's generation, its composition's rights, and no fence. -/
structure PassesFence (d : Dev) (src : Ingress) (p : Packet) : Prop where
  fields : fieldsOk p = true
  cls7 : hostCls7 src p = false
  key : p.enc = true → d.liveGen p.kslot p.kgen = true
  rights : d.rightsOk src p = true
  fence : d.fenced p.comp = false

section
variable {d : Dev} {src : Ingress} {p : Packet}

theorem checks_badFields (h : fieldsOk p = false ∨ hostCls7 src p = true) : d.checks src p = (.fail St.badDesc, d) := by
  simp [checks, h]

theorem checks_deadKey (hfields : fieldsOk p = true) (hcls7 : hostCls7 src p = false) (henc : p.enc = true)
    (hdead : d.liveGen p.kslot p.kgen = false) : d.checks src p = (.fail St.keyRetired, d.bump Reg.retiredDrops) := by
  simp [checks, hfields, hcls7, henc, hdead]

theorem deadKey_eq_false (h : p.enc = true → d.liveGen p.kslot p.kgen = true) : (p.enc && !d.liveGen p.kslot p.kgen) = false := by
  cases henc : p.enc
  · rfl
  · simp [h henc]

theorem checks_foreign (hfields : fieldsOk p = true) (hcls7 : hostCls7 src p = false) (hkey : p.enc = true → d.liveGen p.kslot p.kgen = true)
    (hrights : d.rightsOk src p = false) : d.checks src p = (.fail St.rights, d) := by
  simp [checks, hfields, hcls7, hrights, deadKey_eq_false hkey]

theorem checks_fenced (hfields : fieldsOk p = true) (hcls7 : hostCls7 src p = false) (hkey : p.enc = true → d.liveGen p.kslot p.kgen = true)
    (hrights : d.rightsOk src p = true) (hfence : d.fenced p.comp = true) : d.checks src p = (.fail St.fenced, d) := by
  simp [checks, hfields, hcls7, hrights, hfence, deadKey_eq_false hkey]

namespace PassesFence

theorem checks_noRoute (h : d.PassesFence src p) {st : Nat} (hroute : d.route src p = .fail st) :
    d.checks src p = (.fail st, if d.wrongPlane p then d.bump Reg.wrongPlane else d) := by
  simp [checks, h.fields, h.cls7, h.rights, h.fence, deadKey_eq_false h.key, hroute]

theorem checks_silent (h : d.PassesFence src p) (hroute : d.route src p = .silent) :
    d.checks src p = (.silent, if d.wrongPlane p then d.bump Reg.wrongPlane else d) := by
  simp [checks, h.fields, h.cls7, h.rights, h.fence, deadKey_eq_false h.key, hroute]

theorem checks_routed (h : d.PassesFence src p) {r : Routed} (hroute : d.route src p = .go r) (hmem : p.ptype.isMem = false) :
    d.checks src p = (.go r, d) := by
  simp [checks, h.fields, h.cls7, h.rights, h.fence, deadKey_eq_false h.key, hroute, hmem]

theorem checks_noRegion (h : d.PassesFence src p) {r : Routed} (hroute : d.route src p = .go r) (hmem : p.ptype.isMem = true) {st : Nat} {d' : Dev}
    (hregion : d.regionCheck p.comp p.da p.rkey (rightOf p.ptype) = (.error st, d')) : d.checks src p = (.fail st, d') := by
  simp [checks, h.fields, h.cls7, h.rights, h.fence, deadKey_eq_false h.key, hroute, hmem, hregion]

theorem checks_inRegion (h : d.PassesFence src p) {r : Routed} (hroute : d.route src p = .go r) (hmem : p.ptype.isMem = true) {e : Nat} {d' : Dev}
    (hregion : d.regionCheck p.comp p.da p.rkey (rightOf p.ptype) = (.ok e, d')) : d.checks src p = (.go { r with region := e }, d') := by
  simp [checks, h.fields, h.cls7, h.rights, h.fence, deadKey_eq_false h.key, hroute, hmem, hregion]

end PassesFence

/-- The entries in which the checks count what they refuse. -/
def checkCounters : List Nat := [Reg.retiredDrops, Reg.wrongPlane, Reg.regionMiss, Reg.keyFails, Reg.rightsFails]

/-- What the region check leaves of the device: all of it where it finds a region, else all but one count. -/
theorem regionCheck_cases (d : Dev) (comp da rkey kind : Nat) : (∃ e, d.regionCheck comp da rkey kind = (.ok e, d)) ∨
    ∃ st, ∃ k ∈ checkCounters, d.regionCheck comp da rkey kind = (.error st, d.bump k) := by
  cases h : d.regionFor comp da with
  | none => exact .inr ⟨_, _, by simp [checkCounters], regionCheck_missing h⟩
  | some r =>
    by_cases hkey : Region.rkey r = rkey
    · by_cases hright : rightOk r kind = false ∨ inMacArea r da = true
      · exact .inr ⟨_, _, by simp [checkCounters], regionCheck_noRight h hkey hright⟩
      · simp only [not_or, Bool.not_eq_true, Bool.not_eq_false] at hright
        exact .inl ⟨_, regionCheck_found h hkey hright.1 hright.2⟩
    · exact .inr ⟨_, _, by simp [checkCounters], regionCheck_otherKey h hkey⟩

/-- One of checks 1 to 4 fails, with at most one count, or the packet passes them. -/
theorem checks_stop_or_pass (d : Dev) (src : Ingress) (p : Packet) : d.PassesFence src p ∨
    ∃ st d', d.checks src p = (.fail st, d') ∧ (d' = d ∨ ∃ k ∈ checkCounters, d' = d.bump k) := by
  by_cases hbad : fieldsOk p = false ∨ hostCls7 src p = true
  · exact .inr ⟨_, _, checks_badFields hbad, .inl rfl⟩
  simp only [not_or, Bool.not_eq_true, Bool.not_eq_false] at hbad
  obtain ⟨hfields, hcls7⟩ := hbad
  by_cases hdead : p.enc = true ∧ d.liveGen p.kslot p.kgen = false
  · exact .inr ⟨_, _, checks_deadKey hfields hcls7 hdead.1 hdead.2, .inr ⟨_, by simp [checkCounters], rfl⟩⟩
  have hkey : p.enc = true → d.liveGen p.kslot p.kgen = true := by simpa using hdead
  cases hrights : d.rightsOk src p
  · exact .inr ⟨_, _, checks_foreign hfields hcls7 hkey hrights, .inl rfl⟩
  cases hfence : d.fenced p.comp
  · exact .inl ⟨hfields, hcls7, hkey, hrights, hfence⟩
  · exact .inr ⟨_, _, checks_fenced hfields hcls7 hkey hrights hfence, .inl rfl⟩

/-- What a packet that passes checks 1 to 4 leaves of the device: all of it where it passes the others too, on the route of check 5, else all but at
most one count. -/
theorem PassesFence.checks_cases (h : d.PassesFence src p) :
    (∃ r r', d.route src p = .go r' ∧ r'.dests = r.dests ∧ d.checks src p = (.go r, d)) ∨
    ∃ v d', d.checks src p = (v, d') ∧ (∀ r, v ≠ .go r) ∧ (d' = d ∨ ∃ k ∈ checkCounters, d' = d.bump k) := by
  have hcount : (if d.wrongPlane p then d.bump Reg.wrongPlane else d) = d ∨
      ∃ k ∈ checkCounters, (if d.wrongPlane p then d.bump Reg.wrongPlane else d) = d.bump k := by
    split
    · exact .inr ⟨_, by simp [checkCounters], rfl⟩
    · exact .inl rfl
  cases hroute : d.route src p with
  | fail st => exact .inr ⟨_, _, h.checks_noRoute hroute, by simp, hcount⟩
  | silent => exact .inr ⟨_, _, h.checks_silent hroute, by simp, hcount⟩
  | go r =>
    cases hmem : p.ptype.isMem
    · exact .inl ⟨r, r, rfl, rfl, h.checks_routed hroute hmem⟩
    · rcases regionCheck_cases d p.comp p.da p.rkey (rightOf p.ptype) with ⟨e, he⟩ | ⟨st, k, hk, he⟩
      · exact .inl ⟨{ r with region := e }, r, rfl, rfl, h.checks_inRegion hroute hmem he⟩
      · exact .inr ⟨_, _, h.checks_noRegion hroute hmem he, by simp, .inr ⟨k, hk, rfl⟩⟩

/-- A packet that passes the checks goes where its route says, and the device stands. -/
theorem checks_of_go {r : Routed} (h : (d.checks src p).1 = .go r) :
    d.checks src p = (.go r, d) ∧ ∃ r', d.route src p = .go r' ∧ r'.dests = r.dests := by
  rcases checks_stop_or_pass d src p with hpass | ⟨st, d', e, -⟩
  · rcases hpass.checks_cases with ⟨r₁, r', hroute, hdests, e⟩ | ⟨v, d', e, hne, -⟩
    · rw [e] at h ⊢
      cases h
      exact ⟨rfl, r', hroute, hdests⟩
    · rw [e] at h
      exact absurd h (hne r)
  · rw [e] at h
    cases h

/-- The checks leave the device, but for at most one count. -/
theorem checks_counts (d : Dev) (src : Ingress) (p : Packet) :
    (d.checks src p).2 = d ∨ ∃ k ∈ checkCounters, (d.checks src p).2 = d.bump k := by
  rcases checks_stop_or_pass d src p with hpass | ⟨st, d', e, hcount⟩
  · rcases hpass.checks_cases with ⟨r, r', -, -, e⟩ | ⟨v, d', e, -, hcount⟩
    · exact .inl (by rw [e])
    · rwa [e]
  · rwa [e]

end

end Dev
end Sys2Proof.Machine
end

section
/-! The checks decide in their order (O9). -/

namespace Sys2Proof.Machine
set_option Elab.async false
open Dev

/-- Settles O9, check by check: each lemma above says what the first failing check answers. -/
theorem checksDecideInOrder : Obligations.ChecksDecideInOrder := by
  unfold Obligations.ChecksDecideInOrder
  intro d src p
  refine ⟨fun h => ?_, fun h => ?_, fun hf hc henc hdead => ?_, fun hf hc hkey => ⟨fun hr => ?_, fun hr hfence => ?_, fun hr hfence => ?_⟩⟩
  · rw [checks_badFields (.inl h)]; rfl
  · rw [checks_badFields (.inr h)]; rfl
  · rw [checks_deadKey hf hc henc hdead]; rfl
  · rw [checks_foreign hf hc hkey hr]; rfl
  · rw [checks_fenced hf hc hkey hr hfence]; rfl
  · have hpass : d.PassesFence src p := ⟨hf, hc, hkey, hr, hfence⟩
    refine ⟨fun st hroute => ?_, fun r hroute hmem => ⟨fun hnone => ?_, fun e he => ⟨fun hother => ?_, fun hsame hno => ?_, fun hsame hok hmac => ?_⟩⟩⟩
    · rw [hpass.checks_noRoute hroute]
    · rw [hpass.checks_noRegion hroute hmem (regionCheck_missing hnone)]; rfl
    · rw [hpass.checks_noRegion hroute hmem (regionCheck_otherKey he hother)]; rfl
    · rw [hpass.checks_noRegion hroute hmem (regionCheck_noRight he hsame (.inl hno))]; rfl
    · rw [hpass.checks_inRegion hroute hmem (regionCheck_found he hsame hok hmac)]

end Sys2Proof.Machine
end

section
/-! SUPPORT. What the functions of the model that a packet's way through the switch calls may change: one lemma for each, in the order of the
model, from the lemmas of those it calls, as for the link and domain commands above. One lemma at a time, as there. -/

namespace Sys2Proof.Machine
set_option Elab.async false

namespace Within
variable {S : Scope} {d₀ d : Dev}

theorem setCopies (h : Within S d₀ d) (x) (hp : S.part .copies := by assumption) : Within S d₀ { d with copies := x } :=
  { h with copies := fun n => absurd hp n }
theorem setWaiting (h : Within S d₀ d) (x) (hp : S.part .waiting := by assumption) : Within S d₀ { d with waiting := x } :=
  { h with waiting := fun n => absurd hp n }
theorem setArbCls (h : Within S d₀ d) (x) (hp : S.part .arbCls := by assumption) : Within S d₀ { d with arbCls := x } :=
  { h with arbCls := fun n => absurd hp n }
theorem setCrossing (h : Within S d₀ d) (x) (hp : S.part .crossing := by assumption) : Within S d₀ { d with crossing := x } :=
  { h with crossing := fun n => absurd hp n }
theorem setPaced (h : Within S d₀ d) (x) (hp : S.part .paced := by assumption) : Within S d₀ { d with paced := x } :=
  { h with paced := fun n => absurd hp n }
theorem setMcHeld (h : Within S d₀ d) (x) (hp : S.part .mcHeld := by assumption) : Within S d₀ { d with mcHeld := x } :=
  { h with mcHeld := fun n => absurd hp n }
theorem setArbQuad (h : Within S d₀ d) (x) (hp : S.part .arbQuad := by assumption) : Within S d₀ { d with arbQuad := x } :=
  { h with arbQuad := fun n => absurd hp n }
theorem setAllowance (h : Within S d₀ d) (x) (hp : S.part .allowance := by assumption) : Within S d₀ { d with allowance := x } :=
  { h with allowance := fun n => absurd hp n }
theorem setHostA (h : Within S d₀ d) (x) (hp : S.part .hostA := by assumption) : Within S d₀ { d with hostA := x } :=
  { h with hostA := fun n => absurd hp n }
theorem setHostB (h : Within S d₀ d) (x) (hp : S.part .hostB := by assumption) : Within S d₀ { d with hostB := x } :=
  { h with hostB := fun n => absurd hp n }
theorem setYar (h : Within S d₀ d) (x) (hp : S.part .yar := by assumption) : Within S d₀ { d with yar := x } :=
  { h with yar := fun n => absurd hp n }

end Within

variable {S : Scope} {d₀ : Dev}

/-! ### `Machine/Flags` -/

@[simp] def Scope.hosts (S : Scope) : Prop := S.part .hostA ∧ S.part .hostB

theorem Dev.modHost_within {d : Dev} (h : Within S d₀ d) (h0 f) (hS : S.hosts := by assumption) : Within S d₀ (d.modHost h0 f) := by
  obtain ⟨_, _⟩ := id hS
  cases h0
  · exact h.setHostA _
  · exact h.setHostB _

theorem Dev.msix_within {d : Dev} (h : Within S d₀ d) (h0 v) (hS : S.hosts := by assumption) (hp : S.part .out := by assumption) :
    Within S d₀ (d.msix h0 v) := by
  unfold msix
  grind [emit_within, modHost_within]

/-! ### `Machine/Buffer` -/

theorem Dev.coreUsed_within {d : Dev} (h : Within S d₀ d) (q c) (hk : ∀ i, S.key (Reg.usedHigh i) := by assumption)
    (hp : S.part .cores := by assumption) : Within S d₀ (d.coreUsed q c) := by
  unfold coreUsed
  grind [modCore_within, setReg_within]

theorem Dev.flushUnit_within {d : Dev} (h : Within S d₀ d) (u) (hk : ∀ i, S.key (Reg.flushed i) := by assumption)
    (hp : S.part .cores := by assumption) (hp' : S.part .crossing := by assumption) : Within S d₀ (d.flushUnit u) := by
  unfold flushUnit
  grind [bump_within, each_within, modCore_within, Within.setCrossing]

@[simp] def Scope.turns (S : Scope) : Prop := S.part .arbCls ∧ S.part .arbQuad

theorem Dev.turnPast_within {d : Dev} (h : Within S d₀ d) (b k cls q) (hS : S.turns := by assumption) : Within S d₀ (d.turnPast b k cls q) := by
  obtain ⟨_, _⟩ := id hS
  unfold turnPast
  exact (h.setArbQuad (Tab.put d.arbQuad k ((q + 1) % 4))).setArbCls _

@[simp] def Scope.consume (S : Scope) : Prop := S.turns ∧ S.part .cores ∧ S.part .crossing

theorem Dev.consume_within {d : Dev} (h : Within S d₀ d) (q k e) (hS : S.consume := by assumption) : Within S d₀ (d.consume q k e) := by
  obtain ⟨_, _, _⟩ := id hS
  unfold consume
  exact (turnPast_within (modCore_within h _ _) _ _ _ _).setCrossing _

/-! ### `Machine/LinkCrypto` and `Machine/Link` -/

theorem Dev.countRx_within {d : Dev} (h : Within S d₀ d) (src pk) (hp : S.part .ports := by assumption) : Within S d₀ (d.countRx src pk) := by
  unfold countRx
  grind [modPort_within]

theorem Dev.leaveFifo_within {d : Dev} (h : Within S d₀ d) (src pk) (hp : S.part .ports := by assumption) : Within S d₀ (d.leaveFifo src pk) := by
  unfold leaveFifo
  grind [drainFifo_within]

/-! ### `Machine/Teasel` -/

theorem Dev.auditStart_within {d : Dev} (h : Within S d₀ d) (q) (hp : S.part .cores := by assumption) : Within S d₀ (d.auditStart q) := by
  unfold auditStart
  grind [modCore_within]

@[simp] def Scope.auditDone (S : Scope) : Prop := S.event ∧ (∀ i, S.key (Reg.audits i)) ∧ (∀ i, S.key (Reg.doubleOwned i)) ∧
    (∀ i, S.key (Reg.freecountFix i)) ∧ (∀ i, S.key (Reg.reclaimed i)) ∧ (∀ i, S.key (Reg.refFixed i)) ∧ (∀ i, S.key (Reg.tally i)) ∧ S.part .cores

theorem Dev.auditDone_within {d : Dev} (h : Within S d₀ d) (q) (hS : S.auditDone := by assumption) : Within S d₀ (d.auditDone q) := by
  obtain ⟨_, _, _, _, _, _, _, _⟩ := id hS
  unfold auditDone
  extract_lets c w all orphans tally d₁ d₂ c₁ r c₂ back n c₃ c₄ len d₃ d₄ d₅
  split
  · exact h
  have h₁ : Within S d₀ d₁ := bump_within (setReg_within h _ _) _ _
  clear_value d₁
  have h₂ : Within S d₀ d₂ := by grind [bump_within, event_within]
  clear_value d₂
  refine .ite (modCore_within h₂ _ _) ?_
  have h₃ : Within S d₀ d₃ := .ite h₂ (bump_within h₂ _ _)
  clear_value d₃
  have h₄ : Within S d₀ d₄ := .ite h₃ (event_within (bump_within h₃ _ _) _ _)
  clear_value d₄
  exact modCore_within (.ite h₄ (bump_within h₄ _ _)) _ _

theorem Dev.hotWindowEnd_within {d : Dev} (h : Within S d₀ d) (q) (hk : ∀ i, S.key (Reg.hotLines i) := by assumption)
    (hp : S.part .cores := by assumption) : Within S d₀ (d.hotWindowEnd q) := by
  unfold hotWindowEnd
  grind [bump_within, modCore_within]

/-! ### `Machine/Router` -/

theorem Dev.failPacket_within {d : Dev} (h : Within S d₀ d) (src p status) (hS : S.sendFeid := by assumption) :
    Within S d₀ (d.failPacket src p status) := by
  unfold failPacket
  grind [Scope.sendFeid, bump_within, countOut_within, sendFeid_within, sendPort_within]

theorem Dev.checks_within {d : Dev} (h : Within S d₀ d) (src p) (hk : ∀ k ∈ Dev.checkCounters, S.key k := by assumption) :
    Within S d₀ (d.checks src p).2 := by
  rcases checks_counts d src p with e | ⟨k, hmem, e⟩ <;> rw [e]
  · exact h
  · exact bump_within h _ _ (hk k hmem)

theorem Dev.takeAllowance_within {d : Dev} (h : Within S d₀ d) (c cls q n) (hp : S.part .allowance := by assumption) :
    Within S d₀ (d.takeAllowance c cls q n) := by
  unfold takeAllowance
  grind [Within.setAllowance]

@[simp] def Scope.sourceDone (S : Scope) : Prop := S.hosts ∧ (∀ i, S.key (Reg.sendBusy i)) ∧ S.part .ports

theorem Dev.sourceDone_within {d : Dev} (h : Within S d₀ d) (src p) (hS : S.sourceDone := by assumption) : Within S d₀ (d.sourceDone src p) := by
  unfold sourceDone
  grind [Scope.sourceDone, leaveFifo_within, modHost_within, setReg_within]

@[simp] def Scope.countCut (S : Scope) : Prop := S.key Reg.cutThrough ∧ S.key Reg.storeForward

theorem Dev.countCut_within {d : Dev} (h : Within S d₀ d) (cut store) (hS : S.countCut := by assumption) : Within S d₀ (d.countCut cut store) := by
  unfold countCut
  grind [Scope.countCut, bump_within]

@[simp] def Scope.admitOne (S : Scope) : Prop := S.countCut ∧ S.sourceDone ∧ (∀ i, S.key (Reg.fabricIn i)) ∧ (∀ i, S.key (Reg.usedHigh i)) ∧
    S.part .allowance ∧ S.part .cores

theorem Dev.admitOne_within {d : Dev} (h : Within S d₀ d) (src p r dest) {d' : Dev} (e' : d.admitOne src p r dest = some d')
    (hS : S.admitOne := by assumption) : Within S d₀ d' := by
  obtain ⟨_, _, _, _, _, _⟩ := id hS
  unfold admitOne at e'
  grind [bump_within, coreUsed_within, countCut_within, sourceDone_within, takeAllowance_within]

@[simp] def Scope.placeMulticast (S : Scope) : Prop := S.countCut ∧ (∀ i, S.key (Reg.mcAdmitted i)) ∧ (∀ i, S.key (Reg.usedHigh i)) ∧ S.part .cores

theorem Dev.placeMulticast_within {d : Dev} (h : Within S d₀ d) (q src p dests) {d' : Dev} (e' : d.placeMulticast q src p dests = some d')
    (hS : S.placeMulticast := by assumption) : Within S d₀ d' := by
  obtain ⟨_, _, _, _⟩ := id hS
  unfold placeMulticast at e'
  grind [bump_within, coreUsed_within, countCut_within]

@[simp] def Scope.admitMany (S : Scope) : Prop := S.placeMulticast ∧ S.sourceDone ∧ (∀ i, S.key (Reg.fabricIn i)) ∧ S.part .allowance

theorem Dev.admitMany_within {d : Dev} (h : Within S d₀ d) (src p dests) {d' : Dev} (e' : d.admitMany src p dests = some d')
    (hS : S.admitMany := by assumption) : Within S d₀ d' := by
  obtain ⟨_, _, _, _⟩ := id hS
  unfold admitMany at e'
  extract_lets parts at e'
  split at e'
  · cases e'
  · obtain ⟨d₁, e₁, rfl⟩ := Option.map_eq_some_iff.1 e'
    refine sourceDone_within (bump_within ?_ _ _) src p
    refine foldl_keeps (fun o : Option Dev => ∀ d, o = some d → Within S d₀ d) parts (fun o x ho d e => ?_) (fun d e => ?_) d₁ e₁
    · obtain ⟨d₂, e₂, e⟩ := Option.bind_eq_some_iff.1 e
      obtain ⟨d₃, e₃, rfl⟩ := Option.map_eq_some_iff.1 e
      exact takeAllowance_within (placeMulticast_within (ho d₂ e₂) _ _ _ _ e₃) _ _ _ _
    · exact Option.some.inj e ▸ h

theorem Dev.countSkipped_within {d : Dev} (h : Within S d₀ d) (src p) (hk : ∀ i, S.key (Reg.mcSkipped i) := by assumption) :
    Within S d₀ (d.countSkipped src p) := by
  unfold countSkipped
  grind [bump_within, each_within]

theorem Dev.setDests_within {d : Dev} (h : Within S d₀ d) (q pk feids) (hp : S.part .yar := by assumption) : Within S d₀ (d.setDests q pk feids) :=
  h.setYar _

@[simp] def Scope.placeResult (S : Scope) : Prop := S.placeMulticast ∧ (∀ i, S.key (Reg.mcSkipped i)) ∧ S.part .yar

theorem Dev.placeResult_within {d : Dev} (h : Within S d₀ d) (q pk) {d' : Dev} (e' : d.placeResult q pk = some d')
    (hS : S.placeResult := by assumption) : Within S d₀ d' := by
  obtain ⟨_, _, _⟩ := id hS
  unfold placeResult at e'
  obtain ⟨d₁, e₁, rfl⟩ := Option.map_eq_some_iff.1 e'
  have h₁ : Within S d₀ d₁ := by
    split at e₁
    · exact Option.some.inj e₁ ▸ h
    · exact placeMulticast_within h q _ pk _ e₁
  grind [bump_within, setDests_within, Within.setYar]

@[simp] def Scope.admitTo (S : Scope) : Prop := S.admitMany ∧ S.admitOne ∧ S.sourceDone ∧ (∀ i, S.key (Reg.mcSkipped i))

theorem Dev.admitTo_within {d : Dev} (h : Within S d₀ d) (src p r) {d' : Dev} (e' : d.admitTo src p r = some d')
    (hS : S.admitTo := by assumption) : Within S d₀ d' := by
  obtain ⟨_, _, _, _⟩ := id hS
  unfold admitTo at e'
  grind [Option.map_eq_some_iff, → admitMany_within, → admitOne_within, countSkipped_within, sourceDone_within]

theorem Dev.hold_within {d : Dev} (h : Within S d₀ d) (src p region) (hp : S.part .waiting := by assumption) : Within S d₀ (d.hold src p region) :=
  h.setWaiting _

@[simp] def Scope.passOn (S : Scope) : Prop := S.admitTo ∧ S.sourceDone ∧ S.key Reg.tagFails ∧ S.part .ports ∧ S.part .waiting

theorem Dev.passOn_within {d : Dev} (h : Within S d₀ d) (src p r) (hS : S.passOn := by assumption) : Within S d₀ (d.passOn src p r) := by
  obtain ⟨_, _, _, _, _⟩ := id hS
  unfold passOn
  extract_lets d₁ t sound d₂ busy
  have h₁ : Within S d₀ d₁ := countRx_within h _ _
  have h₂ : Within S d₀ d₂ := .ite h₁ (bump_within h₁ _ _)
  clear_value d₂
  split
  · next d' e =>
    split at e
    · cases e
    · exact admitTo_within h₂ _ _ _ e
  · exact .ite (hold_within h₂ _ _ _) (sourceDone_within h₂ _ _)

@[simp] def Scope.arrive (S : Scope) : Prop := S.event ∧ S.sendFeid ∧ S.sourceDone ∧ S.key Reg.framingDrops ∧ ∀ k ∈ Dev.checkCounters, S.key k

theorem Dev.arrive_within {d : Dev} (h : Within S d₀ d) (src p pass) (hpass : ∀ p r d, Within S d₀ d → Within S d₀ (pass p r d))
    (hS : S.arrive := by assumption) : Within S d₀ (d.arrive src p pass) := by
  obtain ⟨_, _, _, _, _⟩ := id hS
  unfold arrive
  extract_lets out live keepDomain p₁ p₂
  clear_value out live keepDomain p₁ p₂
  refine .ite h (.ite (bump_within (sourceDone_within h _ _) _ _) (.ite (event_within (sourceDone_within h _ _) _ _) ?_))
  have hc := checks_within h src p₂
  split
  · next st d' e => exact failPacket_within (sourceDone_within (by rwa [e] at hc) _ _) _ _ _
  · next d' e => exact sourceDone_within (by rwa [e] at hc) _ _
  · next r d' e => exact hpass _ _ _ (by rwa [e] at hc)

@[simp] def Scope.ingest (S : Scope) : Prop := S.arrive ∧ S.passOn

theorem Dev.ingest_within {d : Dev} (h : Within S d₀ d) (src p) (hS : S.ingest := by assumption) : Within S d₀ (d.ingest src p) := by
  obtain ⟨_, _⟩ := id hS
  exact arrive_within h _ _ _ fun p r d h => passOn_within h _ _ _

theorem Dev.notePace_within {d : Dev} (h : Within S d₀ d) (ing now) (hp : S.part .paced := by assumption) : Within S d₀ (d.notePace ing now) := by
  unfold notePace
  grind [Within.setPaced]

@[simp] def Scope.retest (S : Scope) : Prop := S.admitTo ∧ S.sendFeid ∧ S.sourceDone ∧ S.key Reg.wrongPlane ∧ S.part .paced ∧ S.part .waiting

theorem Dev.retest_within {d : Dev} (h : Within S d₀ d) (src cls cycle) (hS : S.retest := by assumption) : Within S d₀ (d.retest src cls cycle) := by
  obtain ⟨_, _, _, _, _, _⟩ := id hS
  unfold retest
  split
  · next w rest _ =>
    extract_lets p now out
    have hout : Within S d₀ out := h.setWaiting _
    clear_value out
    split
    · split
      · exact h
      · split
        · next d' e =>
          have h' := admitTo_within hout _ _ _ e
          exact .ite (notePace_within h' _ _) h'
        · exact h
    · exact failPacket_within (sourceDone_within (.ite (bump_within hout _ _) hout) _ _) _ _ _
    · exact sourceDone_within hout _ _
  · exact h

/-! ### `Machine/Access` -/

@[simp] def Scope.wrote (S : Scope) : Prop := S.key Reg.lastReject ∧ S.key Reg.lockedWrites ∧ S.key Reg.rejectedWrites

theorem Dev.wrote_within {d : Dev} (h : Within S d₀ d) (acc idx sub status) (hS : S.wrote := by assumption) :
    Within S d₀ (d.wrote acc idx sub status) := by
  unfold wrote
  grind [Scope.wrote, bump_within, setReg_within]

theorem Dev.writeBy_within {d : Dev} (h : Within S d₀ d) (hash acc idx sub f) (hf : ∀ d, Within S d₀ d → Within S d₀ (f d).2)
    (hS : S.wrote := by assumption) : Within S d₀ (d.writeBy hash acc idx sub f) := by
  unfold writeBy
  grind [wrote_within]

theorem Dev.writeKey_within {d : Dev} (h : Within S d₀ d) (acc k f) (hf : ∀ d, Within S d₀ d → Within S d₀ (f d).2)
    (hS : S.wrote := by assumption) : Within S d₀ (d.writeKey acc k f) := writeBy_within h _ _ _ _ _ hf

theorem Dev.endAccessor_within {d : Dev} (h : Within S d₀ d) (acc) (hp : S.part .copies := by assumption) (hp' : S.part .mgmt := by assumption) :
    Within S d₀ (d.endAccessor acc) := by
  unfold endAccessor
  exact (h.setCopies (Tab.keep d.copies fun k _ => k / 2 ^ 48 != acc)).setMgmt _

/-! ### `Machine/SwitchCore` -/

theorem Dev.grantUnit_within {d : Dev} (h : Within S d₀ d) (x) (hp : S.part .cores := by assumption) (hp' : S.part .crossing := by assumption) :
    Within S d₀ (d.grantUnit x) := by
  unfold grantUnit
  grind [modCore_within, Within.setCrossing]

theorem Dev.setEntry_within {d : Dev} (h : Within S d₀ d) (q p cls e) (hp : S.part .cores := by assumption) : Within S d₀ (d.setEntry q p cls e) :=
  modCore_within h _ _

theorem Dev.dropAtEgress_within {d : Dev} (h : Within S d₀ d) (q p cls e status) (hS : S.sendFeid := by assumption) :
    Within S d₀ (d.dropAtEgress q p cls e status) := by
  unfold dropAtEgress
  grind [Scope.sendFeid, failPacket_within, modCore_within]

@[simp] def Scope.grantCell (S : Scope) : Prop := S.sendFeid ∧ S.turns ∧ S.key Reg.retiredDrops ∧ S.part .cores ∧ S.part .ports

theorem Dev.grantCell_within {d : Dev} (h : Within S d₀ d) (x) (hS : S.grantCell := by assumption) : Within S d₀ (d.grantCell x) := by
  obtain ⟨_, _, _, _, _⟩ := id hS
  unfold grantCell
  dsimp only
  split
  · exact modPort_within h _ _
  · split
    · next d' e =>
      have h' : Within S d₀ d' := by grind [sealPkt_within]
      exact dropAtEgress_within (bump_within h' _ _) _ _ _ _ _
    · next bs d' e =>
      have h' : Within S d₀ d' := by grind [sealPkt_within]
      exact turnPast_within (modPort_within (setEntry_within h' _ _ _ _) _ _) _ _ _ _

@[simp] def Scope.accept (S : Scope) : Prop := S.grantCell ∧ S.part .cores ∧ S.part .crossing

theorem Dev.accept_within {d : Dev} (h : Within S d₀ d) (q ps) (hS : S.accept := by assumption) : Within S d₀ (d.accept q ps) := by
  obtain ⟨_, _, _⟩ := id hS
  unfold accept
  grind [each_within, grantCell_within, grantUnit_within, modCore_within]

theorem Dev.retryHeld_within {d : Dev} (h : Within S d₀ d) (hS : S.placeResult := by assumption) (hp : S.part .mcHeld := by assumption) :
    Within S d₀ d.retryHeld := by
  unfold retryHeld
  refine foldl_keeps (Within S d₀) _ (fun d x h => ?_) (h.setMcHeld _)
  grind [→ placeResult_within, Within.setMcHeld]

@[simp] def Scope.crossbar (S : Scope) : Prop := S.accept ∧ S.placeResult ∧ S.part .mcHeld

theorem Dev.crossbar_within {d : Dev} (h : Within S d₀ d) (hS : S.crossbar := by assumption) : Within S d₀ d.crossbar := by
  obtain ⟨_, _, _⟩ := id hS
  unfold crossbar
  grind [accept_within, each_within, retryHeld_within]

/-! ### `Machine/HostPort` -/

theorem Dev.hostLinkUp_within {d : Dev} (h : Within S d₀ d) (h0 width gen) (hS : S.hosts := by assumption) (hp : S.part .power := by assumption) :
    Within S d₀ (d.hostLinkUp h0 width gen) := by
  unfold hostLinkUp
  grind [modHost_within, setPower_within]

@[simp] def Scope.hostReset (S : Scope) : Prop := S.hosts ∧ (∀ i, S.key (Reg.flushed i)) ∧ (∀ i, S.key (Reg.rxringCons i)) ∧
    (∀ i, S.key (Reg.rxringProd i)) ∧ (∀ i, S.key (Reg.sendBusy i)) ∧ S.part .copies ∧ S.part .cores ∧ S.part .crossing ∧ S.part .mgmt ∧
    S.part .waiting

theorem Dev.hostReset_within {d : Dev} (h : Within S d₀ d) (h0) (hS : S.hostReset := by assumption) : Within S d₀ (d.hostReset h0) := by
  obtain ⟨_, _, _, _, _, _, _, _, _, _⟩ := id hS
  exact endAccessor_within (flushUnit_within (.setWaiting
    (setReg_within (setReg_within (setReg_within (modHost_within h _ _) _ _) _ _) _ _) _) _) _

@[simp] def Scope.ringWrite (S : Scope) : Prop := S.hosts ∧ S.consume ∧ (∀ i, S.key (Reg.fabricOut i)) ∧ (∀ i, S.key (Reg.rxringProd i)) ∧ S.part .out

theorem Dev.ringWrite_within {d : Dev} (h : Within S d₀ d) (h0) (hS : S.ringWrite := by assumption) : Within S d₀ (d.ringWrite h0) := by
  obtain ⟨_, _, _, _, _⟩ := id hS
  unfold ringWrite
  extract_lets n u base
  split
  · exact h
  · split
    · exact h
    · next q k e _ =>
      extract_lets pk bs p d₁ d₂ d₃
      have h₃ : Within S d₀ d₃ := setReg_within (emit_within (countOut_within (consume_within h _ _ _) _) _) _ _
      clear_value d₃
      exact .ite (modHost_within (msix_within h₃ _ _) _ _) h₃

theorem Dev.ringCons_within {d : Dev} (h : Within S d₀ d) (n cons) (hS : S.hosts := by assumption)
    (hk : ∀ i, S.key (Reg.rxringCons i) := by assumption) : Within S d₀ (d.ringCons n cons) := modHost_within (setReg_within h _ _) _ _

theorem Dev.unmask_within {d : Dev} (h : Within S d₀ d) (h0 v) (hS : S.hosts := by assumption) (hp : S.part .out := by assumption) :
    Within S d₀ (d.unmask h0 v) := by
  unfold unmask
  grind [emit_within, modHost_within]

end Sys2Proof.Machine
end

section
/-! What a packet on its way through the switch leaves alone (O55). -/

namespace Sys2Proof.Machine
set_option Elab.async false
open Dev

/-- Settles O55, command by command: what each writes lies within the scope of its clause. -/
theorem trafficFrames : Obligations.TrafficFrames := by
  unfold Obligations.TrafficFrames
  intro c s t e
  cases c
  case read | write | writePosted | atomic | msg | jobPost | jobResult | reduceContrib | reduceResult =>
    cases e
    refine ⟨⟨rfl, rfl, rfl⟩, Within.frame
      (fun | .out | .ports | .cores | .waiting | .allowance | .logs | .mgmt | .hostA | .hostB => true | _ => false) fun S hP hC hF => ?_⟩
    simp only [List.forall_mem_cons, not_and_or, ne_eq, not_not, or_imp, forall_and, forall_eq] at hC hF
    exact ingest_within (.refl _ s.dev) _ _ (by simp [checkCounters, *])
  case packetAdmit =>
    cases e
    refine ⟨⟨rfl, rfl, rfl⟩, Within.frame
      (fun | .ports | .cores | .waiting | .paced | .allowance | .hostA | .hostB => true | _ => false) fun S hP hC hF => ?_⟩
    simp only [List.forall_mem_cons, not_and_or, ne_eq, not_not, or_imp, forall_and, forall_eq] at hC hF
    exact retest_within (.refl _ s.dev) _ _ _ (by simp [*])
  case hotWindowEnd =>
    cases e
    refine ⟨⟨rfl, rfl, rfl⟩, Within.frame_families (fun | .cores => true | _ => false) fun S hP hF => ?_⟩
    simp only [ne_eq, not_not, forall_eq] at hF
    refine hotWindowEnd_within (.refl _ s.dev) _ ?_ ?_ <;> simp [*]
  case teaselAuditStart =>
    cases e
    refine ⟨⟨rfl, rfl, rfl⟩, Within.frame_parts (fun | .cores => true | _ => false) fun S hP => ?_⟩
    exact auditStart_within (.refl _ s.dev) _ (by simp [*])
  case teaselAuditDone =>
    cases e
    refine ⟨⟨rfl, rfl, rfl⟩, Within.frame (fun | .out | .cores | .logs | .mgmt => true | _ => false) fun S hP hC hF => ?_⟩
    simp only [List.forall_mem_cons, not_and_or, ne_eq, not_not, or_imp, forall_and, forall_eq] at hC hF
    exact auditDone_within (.refl _ s.dev) _ (by simp [*])
  case rxringWrite =>
    cases e
    refine ⟨⟨rfl, rfl, rfl⟩, Within.frame_families
      (fun | .out | .cores | .arbCls | .crossing | .arbQuad | .hostA | .hostB => true | _ => false) fun S hP hF => ?_⟩
    simp only [not_and_or, ne_eq, not_not, or_imp, forall_and, forall_eq] at hF
    exact ringWrite_within (.refl _ s.dev) _ (by simp [*])
  case rxringConsWrite h cons =>
    cases e
    refine ⟨⟨rfl, rfl, rfl⟩, Within.frame (fun | .hostA | .hostB => true | _ => false) fun S hP hC hF => ?_⟩
    simp only [List.forall_mem_cons, ne_eq, not_not, forall_eq] at hC hF
    exact writeKey_within (.refl _ s.dev) _ _ (fun d => (Acc.done, d.ringCons (hostNo h) cons)) (fun d hd => ringCons_within hd _ _ (by simp [*]) hF)
      (by simp [*])
  case msixUnmask =>
    cases e
    refine ⟨⟨rfl, rfl, rfl⟩, Within.frame_parts (fun | .out | .hostA | .hostB => true | _ => false) fun S hP => ?_⟩
    refine unmask_within (.refl _ s.dev) _ _ ?_ ?_ <;> simp [*]
  case hostPortReset =>
    cases e
    refine ⟨⟨rfl, rfl, rfl⟩, Within.frame_families
      (fun | .copies | .cores | .waiting | .crossing | .mgmt | .hostA | .hostB => true | _ => false) fun S hP hF => ?_⟩
    simp only [not_and_or, ne_eq, not_not, or_imp, forall_and, forall_eq] at hF
    exact hostReset_within (.refl _ s.dev) _ (by simp [*])
  case hostLinkUp =>
    cases e
    refine ⟨⟨rfl, rfl, rfl⟩, Within.frame_parts (fun | .power | .hostA | .hostB => true | _ => false) fun S hP => ?_⟩
    refine hostLinkUp_within (.refl _ s.dev) _ _ _ ?_ ?_ <;> simp [*]
  case crossbarGrant =>
    cases e
    refine ⟨⟨rfl, rfl, rfl⟩, Within.frame
      (fun | .ports | .cores | .arbCls | .crossing | .mcHeld | .arbQuad | .yar => true | _ => false) fun S hP hC hF => ?_⟩
    simp only [List.forall_mem_cons, not_and_or, ne_eq, not_not, or_imp, forall_and, forall_eq] at hC hF
    exact crossbar_within (.refl _ s.dev) (by simp [*])
  all_goals exact trivial

end Sys2Proof.Machine
end

section
/-! SUPPORT. A packet's way from its ENDPOINT port into the buffer: what arrives, what the checks let through, and what is admitted (R139,
R151, R155 to R161). -/

namespace Sys2Proof.Machine
set_option Elab.async false
namespace Dev

/-! ### Arrival at an ENDPOINT port (R137, R151) -/

/-- A packet that an ACTIVE ENDPOINT port takes in as it came: not of CLS7, and of no other domain. -/
structure AtEndpoint (d : Dev) (n : Nat) (p : Packet) : Prop where
  active : d.isActive n = true
  role : d.role n = 0
  cls : p.cls ≠ 7
  domain : p.ptype = .msg → p.srcDomain = 0xFFFF

section
variable {d : Dev} {n : Nat} {p : Packet}

theorem AtEndpoint.withDomain_eq (h : d.AtEndpoint n p) : (if p.ptype = .msg then { p with srcDomain := 0xFFFF } else p) = p := by
  split
  · next hmsg => rw [← h.domain hmsg]
  · rfl

theorem AtEndpoint.ingest_passed (h : d.AtEndpoint n p) {r : Routed} (hgo : (d.checks (.port n) p).1 = .go r) :
    d.ingest (.port n) p = d.passOn (.port n) p r := by
  simp [ingest, arrive, h.active, h.role, h.cls, hostMute, h.withDomain_eq, (checks_of_go hgo).1]

theorem AtEndpoint.ingest_failed (h : d.AtEndpoint n p) {st : Nat} (hfail : (d.checks (.port n) p).1 = .fail st) :
    d.ingest (.port n) p = ((d.checks (.port n) p).2.leaveFifo (.port n) p).failPacket (.port n) p st := by
  have hchecks : d.checks (.port n) p = (.fail st, (d.checks (.port n) p).2) := Prod.ext hfail rfl
  generalize (d.checks (.port n) p).2 = d' at hchecks ⊢
  simp [ingest, arrive, h.active, h.role, h.cls, hostMute, h.withDomain_eq, hchecks, sourceDone]
end

/-! ### Where a packet that passes goes (R139, R140) -/

theorem lt_of_mem_activePorts {d : Dev} {p : Nat} (h : p ∈ d.activePorts) : p < 384 := by
  simp only [activePorts, liveStates, List.mem_map, List.mem_filter, List.mem_filterMap, Option.ite_none_right_eq_some] at h
  obtain ⟨x, ⟨⟨kv, -, ⟨hlo, hhi, -⟩, e⟩, -⟩, rfl⟩ := h
  rw [← Option.some.inj e]
  dsimp only
  omega

theorem lt_of_portOfFeid {d : Dev} {f p : Nat} (h : d.portOfFeid f = some p) : p < 384 :=
  lt_of_mem_activePorts (List.mem_of_mem_filter (List.mem_of_find?_eq_some h))

theorem voqKey_zero_div (p : Nat) : voqKey p 0 / 8 = p := by simp [voqKey]

theorem not_unitKey_lt (u cls : Nat) : ¬ unitKey u cls < 4096 := by unfold unitKey; omega

theorem port_of_routeFeid {d : Dev} {p : Packet} {r : Routed} {k : Nat} (h : d.routeFeid p = .go r) (hr : r.dests = [k]) (hk : k < 4096) :
    k / 8 < 384 := by
  unfold routeFeid at h
  split at h
  · cases h
    cases hr
    omega
  · split at h
    · next q hq =>
      cases h
      cases hr
      rw [voqKey_zero_div]
      exact lt_of_portOfFeid hq
    · cases h
      cases hr
      exact absurd hk (not_unitKey_lt _ _)
    · cases h

/-- The one VOQ to which a MSG from a port is routed is that of a port of the switch. -/
theorem port_of_route_msg {d : Dev} {n : Nat} {p : Packet} {r : Routed} {k : Nat} (hmsg : p.ptype = .msg) (hmc : p.mc = false)
    (h : d.route (.port n) p = .go r) (hr : r.dests = [k]) (hk : k < 4096) : k / 8 < 384 := by
  unfold route at h
  simp only [hmsg, hmc, bne_self_eq_false, Bool.and_false, Bool.false_eq_true, if_false, decide_eq_true_eq] at h
  split at h
  · cases h
  split at h
  · exact port_of_routeFeid h hr hk
  · split at h
    · cases h
    · next g gws hgws =>
      cases h
      cases hr
      rw [voqKey_zero_div]
      have hlt : Config.gatewayHash p.src p.dst % (g :: gws).length < (g :: gws).length := Nat.mod_lt _ (by simp)
      have hmem : (g :: gws).getD (Config.gatewayHash p.src p.dst % (g :: gws).length) g ∈ g :: gws := by
        rw [List.getD_eq_getElem _ _ hlt]
        exact List.getElem_mem hlt
      rw [← hgws] at hmem
      exact lt_of_mem_activePorts (List.mem_of_mem_filter hmem)

/-- A packet keeps its SRC_DOMAIN in a queue that is not that of a GATEWAY port (R128). -/
theorem outPkt_eq {d : Dev} {p : Packet} {k : Nat} (h : p.ptype = .msg → k < 4096 → d.role (k / 8) ≠ 2) : d.outPkt p k = p := by
  unfold outPkt
  rw [if_neg]
  simpa using h

/-! ### Admission (R155 to R161) -/

/-- The packet and the source of the youngest entry of a queue. -/
def youngest (d : Dev) (q k : Nat) : Option (Packet × Ingress) := ((d.core q).queue k).getLast?.map (fun e => (e.pkt, e.src))

theorem youngest_congr {d d' : Dev} (h : d'.cores = d.cores) (q k : Nat) : d'.youngest q k = d.youngest q k := by simp only [youngest, core, h]

@[simp] theorem coreUsed_core (d : Dev) (q : Nat) (c : Core) : (d.coreUsed q c).core q = c := core_modCore_same d q fun _ => c

@[simp] theorem enqueue_queue (c : Core) (k : Nat) (e : QEnt) : (c.enqueue k e).queue k = c.queue k ++ [e] := Tab.getD_upd_same c.queues k [] (· ++ [e])

theorem youngest_coreUsed_enqueue (d : Dev) (q k : Nat) (c : Core) (e : QEnt) : (d.coreUsed q (c.enqueue k e)).youngest q k = some (e.pkt, e.src) := by
  simp [youngest]

/-- What admission changes once the packet is in its queue: its allowance, its source, and counts. -/
def ofAdmission : Scope where
  part | .allowance | .ports | .hostA | .hostB => true | _ => false
  key _ := True

/-- A packet for which its allowance and a pool have room joins the queue, and no wait changes. -/
theorem admitOne_joins {d : Dev} {src : Ingress} {p : Packet} (r : Routed) {dest : Nat}
    (hallowed : d.allowed p.comp p.cls (ingressQuad src dest) = true)
    (hroom : (poolFor d (ingressQuad src dest) (dest + p.cls) p.cls p.cells).isSome = true) :
    ∃ d', d.admitOne src p r dest = some d' ∧ d'.waiting = d.waiting ∧
      d'.youngest (ingressQuad src dest) (dest + p.cls) = some (d.outPkt p dest, src) := by
  obtain ⟨pool, hpool⟩ := Option.isSome_iff_exists.1 hroom
  unfold admitOne
  extract_lets q n k cut c
  rw [if_pos (show d.allowed p.comp p.cls q = true from hallowed), show poolFor d q k p.cls n = some pool from hpool]
  dsimp -zeta only
  extract_lets a e d₁ d₂
  have hw : Within ofAdmission (d.coreUsed q (a.2.enqueue k e)) ((d₂.bump (Reg.fabricIn p.comp) p.wireLen).sourceDone src p) := by
    have h₁ : Within ofAdmission (d.coreUsed q (a.2.enqueue k e)) d₁ := takeAllowance_within (.refl _ _) _ _ _ _ rfl
    have h₂ : Within ofAdmission (d.coreUsed q (a.2.enqueue k e)) d₂ := .ite (countCut_within h₁ _ _ (by simp [ofAdmission])) h₁
    exact sourceDone_within (bump_within h₂ _ _ trivial) _ _ (by simp [ofAdmission])
  refine ⟨_, rfl, hw.waiting (by simp [ofAdmission]), ?_⟩
  rw [youngest_congr (hw.cores (by simp [ofAdmission]))]
  exact youngest_coreUsed_enqueue d q k a.2 e

/-- A packet with one destination in the buffer and with room is admitted there. -/
theorem admitTo_joins {d : Dev} {src : Ingress} {p : Packet} {r : Routed} {k : Nat} (hmc : p.mc = false) (hr : r.dests = [k]) (hk : k < 8192)
    (hallowed : d.allowed p.comp p.cls (ingressQuad src k) = true)
    (hroom : (poolFor d (ingressQuad src k) (k + p.cls) p.cls p.cells).isSome = true) :
    ∃ d', d.admitTo src p r = some d' ∧ d'.waiting = d.waiting ∧ d'.youngest (ingressQuad src k) (k + p.cls) = some (d.outPkt p k, src) := by
  have e : d.admitTo src p r = d.admitOne src p r k := by simp [admitTo, isMulti, hmc, hr, Nat.ne_of_lt hk]
  rw [e]
  exact admitOne_joins r hallowed hroom

theorem countRx_ports (d : Dev) (src : Ingress) (p : Packet) : ∃ P, d.countRx src p = { d with ports := P } := by
  unfold countRx
  split
  · split
    · exact ⟨_, rfl⟩
    · exact ⟨d.ports, rfl⟩
  · exact ⟨d.ports, rfl⟩

theorem isWithheld_ports (d : Dev) (P : Tab Port) (n : Nat) : { d with ports := P }.isWithheld n = d.isWithheld n := rfl

/-- A unicast packet whose tag holds, with no wait before it, bound for a queue of the buffer, for which its allowance and a pool have room. -/
structure Admissible (d : Dev) (n : Nat) (p : Packet) (k : Nat) : Prop where
  unicast : p.mc = false
  tag : p.tagOk = true
  first : Tab.has d.waiting (waitKey (.port n) p.cls) = false
  free : p.cls = 2 → d.isWithheld n = false
  buffered : k < 8192
  allowed : d.allowed p.comp p.cls (quadOf n) = true
  room : (poolFor d (quadOf n) (k + p.cls) p.cls p.cells).isSome = true

section
variable {d : Dev} {n : Nat} {p : Packet} {r : Routed} {k : Nat}

theorem Admissible.not_busy (h : d.Admissible n p k) :
    (Tab.has d.waiting (waitKey (.port n) p.cls) || (p.cls = 2 && d.isWithheld n)) = false := by simpa [h.first] using h.free

theorem Admissible.passOn_joins (h : d.Admissible n p k) (hr : r.dests = [k]) :
    (d.passOn (.port n) p r).youngest (quadOf n) (k + p.cls) = some (d.outPkt p k, .port n) := by
  obtain ⟨P, hP⟩ := countRx_ports d (.port n) p
  obtain ⟨d', e, -, hyoungest⟩ := admitTo_joins (d := { d with ports := P }) (src := .port n) h.unicast hr h.buffered h.allowed h.room
  have hpass : d.passOn (.port n) p r = d' := by
    unfold passOn
    simp only [hP, tagged, h.tag, Bool.true_or, if_true, Bool.not_true, Bool.or_false, Ingress.num, isWithheld_ports, h.not_busy, Bool.false_eq_true,
      if_false, e]
  rw [hpass]
  exact hyoungest

/-- A packet that arrives, passes the checks and has room joins the queue of its destination as it came. -/
theorem Admissible.ingest_joins (h : d.Admissible n p k) (hat : d.AtEndpoint n p) (hgo : (d.checks (.port n) p).1 = .go r) (hr : r.dests = [k])
    (hgate : p.ptype = .msg → k / 8 < 384 → d.role (k / 8) ≠ 2) :
    (d.ingest (.port n) p).youngest (quadOf n) (k + p.cls) = some (p, .port n) := by
  obtain ⟨-, r', hroute, hdests⟩ := checks_of_go hgo
  rw [hat.ingest_passed hgo, h.passOn_joins hr, outPkt_eq]
  exact fun hmsg hk => hgate hmsg (port_of_route_msg hmsg h.unicast hroute (hdests.trans hr) hk)

/-- What noting an admission under withholding changes (R180). -/
def ofPace : Scope := ⟨fun | .paced => true | _ => false, fun _ => False⟩

/-- A head that is retested and has room joins the queue of its destination, and those behind it wait on. -/
theorem retest_joins {cycle : Nat} {w : Waiting} {rest : List Waiting} (hlook : Tab.look d.waiting (waitKey (.port n) w.pkt.cls) = some (w :: rest))
    (hrest : rest ≠ []) (hroute : d.route (.port n) w.pkt = .go r) (hpace : w.pkt.cls = 2 → d.paceHolds n (d.coreCycle cycle) = false)
    (hmc : w.pkt.mc = false) (hr : r.dests = [k]) (hk : k < 8192) (hallowed : d.allowed w.pkt.comp w.pkt.cls (quadOf n) = true)
    (hroom : (poolFor d (quadOf n) (k + w.pkt.cls) w.pkt.cls w.pkt.cells).isSome = true) :
    (d.retest (.port n) w.pkt.cls cycle).youngest (quadOf n) (k + w.pkt.cls) = some (d.outPkt w.pkt k, .port n) ∧
      Tab.look (d.retest (.port n) w.pkt.cls cycle).waiting (waitKey (.port n) w.pkt.cls) = some rest := by
  obtain ⟨d', e, hwaiting, hyoungest⟩ := admitTo_joins (d := { d with waiting := Tab.set d.waiting (waitKey (.port n) w.pkt.cls) rest [] })
    (src := .port n) (r := { r with region := w.region }) hmc hr hk hallowed hroom
  have hretest : d.retest (.port n) w.pkt.cls cycle = if w.pkt.cls = 2 then d'.notePace n (d.coreCycle cycle) else d' := by
    have hfree : (w.pkt.cls = 2 && d.paceHolds n (d.coreCycle cycle)) = false := by simpa using hpace
    simp only [retest, hlook, hroute, Ingress.num, hfree, Bool.false_eq_true, if_false, e]
  have hnote : Within ofPace d' (d.retest (.port n) w.pkt.cls cycle) := by
    rw [hretest]
    exact .ite (notePace_within (.refl _ _) _ _ rfl) (.refl _ _)
  rw [youngest_congr (hnote.cores (by simp [ofPace])), hnote.waiting (by simp [ofPace]), hwaiting]
  refine ⟨hyoungest, ?_⟩
  simp [Tab.set, hrest]

end

end Dev
end Sys2Proof.Machine
end

section
/-! Packets that pass the checks and find room are admitted (O8). -/

namespace Sys2Proof.Machine
set_option Elab.async false
open Dev

/-- What holds after a packet has been taken in is what its command leads to. -/
theorem runs_of_ingest {c : Instr} {s : State} {n : Nat} {p : Packet} {t : PType} {P : State → Prop}
    (e : exec c s = onDev (fun d => d.ingest (.port n) { p with ptype := t }) s) (ht : p.ptype = t)
    (h : P { s with dev := s.dev.ingest (.port n) p }) : Runs c s P := by
  subst ht
  exact runs_of_dev e rfl h

/-- A RESP that answers no request of a home is taken in as any packet (R126, R137). -/
theorem respIn_ingest {d : Dev} {n : Nat} {p : Packet} (h : d.findSub n p = none) : d.respIn (.port n) p = d.ingest (.port n) p := by
  simp [respIn, h]

theorem runs_of_respIn {s : State} {n : Nat} {p : Packet} {P : State → Prop} (ht : p.ptype = .resp) (hsub : s.dev.findSub n p = none)
    (h : P { s with dev := s.dev.ingest (.port n) p }) : Runs (.resp (.port n) p) s P := by
  have e : exec (.resp (.port n) p) s = onDev (fun d => d.respIn (.port n) { p with ptype := .resp }) s := rfl
  rw [← ht] at e
  exact runs_of_dev e (respIn_ingest hsub) h

section
variable {s : State} {n : Nat} {p : Packet} {r : Routed} {k : Nat}

/-- A packet of the type that its command takes joins the queue of its destination. -/
theorem runs_admitted (c : Ingress → Packet → Instr) {t : PType}
    (e : ∀ n p s, exec (c (.port n) p) s = onDev (fun d => d.ingest (.port n) { p with ptype := t }) s)
    (hactive : s.dev.isActive n = true) (hrole : s.dev.role n = 0) (ht : p.ptype = t) (hcls : p.cls ≠ 7) (hmc : p.mc = false)
    (hdomain : p.srcDomain = 0xFFFF) (htag : p.tagOk = true) (hgo : (s.dev.checks (.port n) p).1 = .go r) (hr : r.dests = [k]) (hk : k < 8192)
    (hgate : k / 8 < 384 → s.dev.role (k / 8) ≠ 2) (hfirst : Tab.has s.dev.waiting (waitKey (.port n) p.cls) = false)
    (hfree : s.dev.isWithheld n = false) (hallowed : s.dev.allowed p.comp p.cls (quadOf n) = true)
    (hroom : (poolFor s.dev (quadOf n) (k + p.cls) p.cls p.cells).isSome = true) :
    Runs (c (.port n) p) s (fun t => t.dev.youngest (quadOf n) (k + p.cls) = some (p, .port n)) :=
  runs_of_ingest (e n p s) ht (Admissible.ingest_joins ⟨hmc, htag, hfirst, fun _ => hfree, hk, hallowed, hroom⟩
    ⟨hactive, hrole, hcls, fun _ => hdomain⟩ hgo hr fun _ => hgate)
end

/-- Settles O8: the checks leave the device, so the packet is admitted to the queue that its route names, where it is the youngest entry. -/
theorem packetsAreAdmitted : Obligations.PacketsAreAdmitted := by
  unfold Obligations.PacketsAreAdmitted
  refine ⟨?read, ?write, ?posted, ?atomic, ?msg, ?job, ?jobResult, ?contrib, ?result, ?resp, ?retest⟩
  case read => exact fun s n p r k => runs_admitted .read (fun _ _ _ => rfl)
  case write => exact fun s n p r k => runs_admitted .write (fun _ _ _ => rfl)
  case posted => exact fun s n p r k => runs_admitted .writePosted (fun _ _ _ => rfl)
  case atomic => exact fun s n p r k => runs_admitted .atomic (fun _ _ _ => rfl)
  case msg => exact fun s n p r k => runs_admitted .msg (fun _ _ _ => rfl)
  case job => exact fun s n p r k => runs_admitted .jobPost (fun _ _ _ => rfl)
  case jobResult => exact fun s n p r k => runs_admitted .jobResult (fun _ _ _ => rfl)
  case contrib => exact fun s n p r k => runs_admitted .reduceContrib (fun _ _ _ => rfl)
  case result => exact fun s n p r k => runs_admitted .reduceResult (fun _ _ _ => rfl)
  case resp =>
    intro s n p r k hactive hrole ht hcls hmc htag hsub _ hgo hr hk hfirst hallowed hroom
    refine runs_of_respIn ht hsub (Admissible.ingest_joins ⟨hmc, htag, hfirst, by simp [hcls], hk, hallowed, hroom⟩
      ⟨hactive, hrole, by simp [hcls], by simp [ht]⟩ hgo hr (by simp [ht]))
  case retest =>
    intro s n cls cycle w rest r k hlook hrest hcls hmsg hmc hroute hpace hr hk hallowed hroom
    subst hcls
    have h := retest_joins hlook hrest hroute hpace hmc hr hk hallowed hroom
    rw [outPkt_eq (by simp [hmsg])] at h
    have e : exec (.packetAdmit (.port n) { cls := w.pkt.cls, cycle := cycle }) s = onDev (fun d => d.retest (.port n) w.pkt.cls cycle) s := rfl
    exact runs_of_dev e rfl h

end Sys2Proof.Machine
end

section
/-! SUPPORT. What an answer to a failed packet, or its discard, leaves (R127, R152): the counts of the checks are no entries of a port. -/

namespace Sys2Proof.Machine
set_option Elab.async false

/-- A selection that sees nothing at a key of a table does not see a change there. -/
theorem filterMap_set {α β : Type} [DecidableEq α] {f : Nat × α → Option β} {k : Nat} (hf : ∀ v, f (k, v) = none) (t : Tab α) (v dflt : α) :
    (Tab.set t k v dflt).filterMap f = t.filterMap f := by
  unfold Tab.set
  split
  · unfold Tab.del
    induction t with
    | nil => rfl
    | cons c t ih =>
      obtain ⟨j, w⟩ := c
      by_cases h : j = k
      · subst h
        simpa [hf] using ih
      · simp [h, List.filterMap_cons, ih]
  · induction t with
    | nil => simp [Tab.put, hf]
    | cons c t ih =>
      obtain ⟨j, w⟩ := c
      unfold Tab.put
      split
      · simp [hf]
      · split
        · next h =>
          subst h
          simp [hf]
        · simp [List.filterMap_cons, ih]

namespace Dev

/-- The entries of the ports: their states, roles and FEIDs among them (R77, R118). -/
def IsPortEntry (k : Nat) : Prop := 0x220000 ≤ k ∧ k < 0x238000

theorem liveStates_setReg {d : Dev} {k : Nat} (hk : ¬ IsPortEntry k) (v : Nat) : (d.setReg k v).liveStates = d.liveStates :=
  filterMap_set (fun _ => if_neg fun ⟨hlo, hhi, _⟩ => hk ⟨hlo, hhi⟩) d.regs v (regDefault k)

theorem portOfFeid_setReg {d : Dev} {k : Nat} (hk : ¬ IsPortEntry k) (v f : Nat) : (d.setReg k v).portOfFeid f = d.portOfFeid f := by
  have hactive : (d.setReg k v).activePorts = d.activePorts := by rw [activePorts, liveStates_setReg hk]; rfl
  have hrole : ∀ p ∈ d.activePorts, (d.setReg k v).role p = d.role p := fun p hp =>
    reg_setReg_ne _ _ fun e => hk (by have := lt_of_mem_activePorts hp; unfold IsPortEntry; rw [← e, Reg.portRole]; omega)
  have hfeid : ∀ p ∈ d.activePorts, (d.setReg k v).reg (Reg.portExpectFeid p) = d.reg (Reg.portExpectFeid p) := fun p hp =>
    reg_setReg_ne _ _ fun e => hk (by have := lt_of_mem_activePorts hp; unfold IsPortEntry; rw [← e, Reg.portExpectFeid]; omega)
  have hend : (d.setReg k v).endpointPorts = d.endpointPorts := by
    rw [endpointPorts, hactive]
    exact List.filter_congr fun p hp => by rw [hrole p hp]
  rw [portOfFeid, hend]
  exact List.find?_congr fun p hp => by rw [hfeid p (List.mem_of_mem_filter hp)]

theorem portOfFeid_bump {d : Dev} {k : Nat} (hk : ¬ IsPortEntry k) (n f : Nat) : (d.bump k n).portOfFeid f = d.portOfFeid f := by
  unfold bump
  split
  · rfl
  · exact portOfFeid_setReg hk _ _

theorem stream_leaveFifo (d : Dev) (src : Ingress) (p : Packet) (m c : Nat) : (d.leaveFifo src p).stream m c = d.stream m c := by
  cases src with
  | host _ => rfl
  | port n =>
    by_cases h : m = n
    · subst h
      simp [stream, leaveFifo, drainFifo]
    · simp [stream, leaveFifo, drainFifo, port_modPort_ne _ _ h]

/-! ### The counts of the checks -/

/-- A device that differs from another in at most one count of the checks. -/
def Counted (d d' : Dev) : Prop := d' = d ∨ ∃ k ∈ checkCounters, d' = d.bump k

section
variable {d d' : Dev}

theorem not_isPortEntry_of_mem {k : Nat} (h : k ∈ checkCounters) : ¬ IsPortEntry k := by
  simp only [checkCounters, List.mem_cons, List.not_mem_nil, or_false] at h
  unfold IsPortEntry
  rcases h with rfl | rfl | rfl | rfl | rfl <;> decide

theorem Counted.portOfFeid (h : Counted d d') (f : Nat) : d'.portOfFeid f = d.portOfFeid f := by
  rcases h with rfl | ⟨k, hk, rfl⟩
  · rfl
  · exact portOfFeid_bump (not_isPortEntry_of_mem hk) 1 f

/-- The scope of the counts of the checks. -/
def ofCounts : Scope := ⟨fun _ => false, (· ∈ checkCounters)⟩

theorem Counted.within (h : Counted d d') : Within ofCounts d d' := by
  rcases h with rfl | ⟨k, hk, rfl⟩
  · exact .refl _ _
  · exact bump_within (.refl _ _) _ _ hk

theorem portRole_notMem_checkCounters (n : Nat) : Reg.portRole n ∉ checkCounters := by
  simp only [checkCounters, List.mem_cons, List.not_mem_nil, or_false, Reg.portRole, Reg.retiredDrops, Reg.wrongPlane, Reg.regionMiss, Reg.keyFails,
    Reg.rightsFails]
  omega

theorem unroutable_notMem_checkCounters : Reg.unroutable ∉ checkCounters := by decide
end

/-! ### The answer, or the discard (R127, R152) -/

/-- The answer to a request that fails a check. -/
def failAnswer (d : Dev) (p : Packet) (status : Nat) : Packet := if p.ptype = .jobPost then refusalOf p status 15 else d.respTo p status []

theorem failAnswer_dst (d : Dev) (p : Packet) (status : Nat) : (d.failAnswer p status).dst = p.src := by
  unfold failAnswer
  split <;> rfl

theorem failAnswer_congr {d d' : Dev} (h : d'.dom = d.dom) (p : Packet) (status : Nat) : d'.failAnswer p status = d.failAnswer p status := by
  simp only [failAnswer, respTo, h]

/-- The dictionary alone. -/
def ofDictionary : Scope := ⟨fun _ => false, fun _ => True⟩

theorem countOut_dictionary (d : Dev) (pk : Packet) : Within ofDictionary d (d.countOut pk) := countOut_within (.refl _ _) _ fun _ => trivial

theorem stream_countOut (d : Dev) (pk : Packet) (p c : Nat) : (d.countOut pk).stream p c = d.stream p c :=
  stream_congr ((countOut_dictionary d pk).ports (by simp [ofDictionary])) p c

theorem core_congr {d d' : Dev} (h : d'.cores = d.cores) (q : Nat) : d'.core q = d.core q := by simp only [core, h]

theorem core_countOut (d : Dev) (pk : Packet) (q : Nat) : (d.countOut pk).core q = d.core q :=
  core_congr ((countOut_dictionary d pk).cores (by simp [ofDictionary])) q

theorem leaveFifo_ports (d : Dev) (src : Ingress) (p : Packet) : ∃ P, d.leaveFifo src p = { d with ports := P } := by
  cases src
  · exact ⟨_, rfl⟩
  · exact ⟨d.ports, rfl⟩

/-- What the switch sends to an FEID goes to its port. -/
theorem sendFeid_port {d : Dev} {pk : Packet} {m : Nat} (h : d.portOfFeid pk.dst = some m) : d.sendFeid pk = (d.countOut pk).sendPort m pk := by
  unfold sendFeid
  rw [h]

/-- A request's answer waits, last of its class, at the port of its source; no queue of the buffer changes. -/
theorem failPacket_request {d : Dev} {n m : Nat} {p : Packet} (status : Nat) (hrole : d.role n ≠ 2) (hreq : p.ptype.isRequest = true)
    (hport : d.portOfFeid p.src = some m) :
    d.failPacket (.port n) p status = (d.countOut (d.failAnswer p status)).sendPort m (d.failAnswer p status) := by
  simp only [failPacket, hreq, hrole, Bool.not_true, Bool.false_eq_true, if_false]
  exact sendFeid_port ((congrArg _ (failAnswer_dst d p status)).trans hport)

theorem failPacket_other {d : Dev} {src : Ingress} {p : Packet} (status : Nat) (hreq : p.ptype.isRequest = false) :
    d.failPacket src p status = d.bump Reg.unroutable := by
  simp [failPacket, hreq]

section
variable {d : Dev} {n m : Nat} {p : Packet} {st : Nat}

/-- A request that fails a check is answered at the port of its source, and no queue of the buffer changes. -/
theorem AtEndpoint.ingest_answered (h : d.AtEndpoint n p) (hfail : (d.checks (.port n) p).1 = .fail st) (hreq : p.ptype.isRequest = true)
    (hport : d.portOfFeid p.src = some m) :
    (d.ingest (.port n) p).stream m (d.failAnswer p st).cls = d.stream m (d.failAnswer p st).cls ++ [d.failAnswer p st] ∧
      ∀ q, ((d.ingest (.port n) p).core q).queues = (d.core q).queues := by
  have hcount : Counted d (d.checks (.port n) p).2 := checks_counts d (.port n) p
  rw [h.ingest_failed hfail]
  generalize (d.checks (.port n) p).2 = d₁ at hcount ⊢
  have hw := hcount.within
  obtain ⟨P, hP⟩ := leaveFifo_ports d₁ (.port n) p
  have hport' : (d₁.leaveFifo (.port n) p).portOfFeid p.src = some m := by
    rw [hP]
    exact (hcount.portOfFeid _).trans hport
  have hrole' : (d₁.leaveFifo (.port n) p).role n ≠ 2 := by
    have hrole : d₁.role n = 0 := (hw.reg _ (portRole_notMem_checkCounters n)).trans h.role
    rw [hP]
    exact fun e => absurd (hrole.symm.trans e) (by decide)
  have hanswer : (d₁.leaveFifo (.port n) p).failAnswer p st = d.failAnswer p st := by
    rw [hP]
    exact failAnswer_congr (hw.dom (by simp [ofCounts])) p st
  have hcore : ∀ q, (d₁.leaveFifo (.port n) p).core q = d.core q := by
    rw [hP]
    exact core_congr (hw.cores (by simp [ofCounts]))
  rw [failPacket_request st hrole' hreq hport', hanswer, stream_sendPort_same, stream_countOut, stream_leaveFifo,
    stream_congr (hw.ports (by simp [ofCounts]))]
  exact ⟨rfl, fun q => congrArg Core.queues ((core_countOut _ _ q).trans (hcore q))⟩

/-- A packet of another type that fails a check is counted in UNROUTABLE and leaves every queue as it was. -/
theorem AtEndpoint.ingest_dropped (h : d.AtEndpoint n p) (hfail : (d.checks (.port n) p).1 = .fail st) (hreq : p.ptype.isRequest = false) :
    (d.ingest (.port n) p).reg Reg.unroutable = (d.bump Reg.unroutable).reg Reg.unroutable ∧
      (∀ q, ((d.ingest (.port n) p).core q).queues = (d.core q).queues) ∧ ∀ m c, (d.ingest (.port n) p).stream m c = d.stream m c := by
  have hcount : Counted d (d.checks (.port n) p).2 := checks_counts d (.port n) p
  rw [h.ingest_failed hfail, failPacket_other st hreq]
  generalize (d.checks (.port n) p).2 = d₁ at hcount ⊢
  have hw := hcount.within
  obtain ⟨P, hP⟩ := leaveFifo_ports d₁ (.port n) p
  have hreg : (d₁.leaveFifo (.port n) p).reg Reg.unroutable = d.reg Reg.unroutable := by
    rw [hP]
    exact hw.reg _ unroutable_notMem_checkCounters
  have hcore : ∀ q, (d₁.leaveFifo (.port n) p).core q = d.core q := by
    rw [hP]
    exact core_congr (hw.cores (by simp [ofCounts]))
  have hbump : Within ofDictionary (d₁.leaveFifo (.port n) p) ((d₁.leaveFifo (.port n) p).bump Reg.unroutable) := bump_within (.refl _ _) _ _ trivial
  refine ⟨reg_bump_congr 1 hreg, fun q => ?_, fun m c => ?_⟩
  · exact congrArg Core.queues ((core_congr (hbump.cores (by simp [ofDictionary])) q).trans (hcore q))
  · rw [stream_congr (hbump.ports (by simp [ofDictionary])), stream_leaveFifo, stream_congr (hw.ports (by simp [ofCounts]))]
end

end Dev
end Sys2Proof.Machine
end

section
/-! Packets that fail a check are answered, or discarded and counted (O10). -/

namespace Sys2Proof.Machine
set_option Elab.async false
open Dev

section
variable {s : State} {n m : Nat} {p : Packet} {st : Nat}

/-- A request of a type other than JOB_POST draws a RESP. -/
theorem runs_answered (c : Ingress → Packet → Instr) {t : PType}
    (e : ∀ n p s, exec (c (.port n) p) s = onDev (fun d => d.ingest (.port n) { p with ptype := t }) s)
    (hreq : t.isRequest = true) (hjob : t ≠ .jobPost)
    (hactive : s.dev.isActive n = true) (hrole : s.dev.role n = 0) (ht : p.ptype = t) (hcls : p.cls ≠ 7) (hdomain : p.srcDomain = 0xFFFF)
    (hfail : (s.dev.checks (.port n) p).1 = .fail st) (hport : s.dev.portOfFeid p.src = some m) :
    Runs (c (.port n) p) s (fun t => t.dev.stream m 1 = s.dev.stream m 1 ++ [s.dev.respTo p st []] ∧
      ∀ q, (t.dev.core q).queues = (s.dev.core q).queues) := by
  have h := AtEndpoint.ingest_answered ⟨hactive, hrole, hcls, fun _ => hdomain⟩ hfail (ht ▸ hreq) hport
  have hanswer : s.dev.failAnswer p st = s.dev.respTo p st [] := if_neg (ht ▸ hjob)
  rw [hanswer] at h
  exact runs_of_ingest (e n p s) ht h

/-- A packet that draws no answer is counted in UNROUTABLE. -/
theorem runs_dropped (c : Ingress → Packet → Instr) {t : PType}
    (e : ∀ n p s, exec (c (.port n) p) s = onDev (fun d => d.ingest (.port n) { p with ptype := t }) s)
    (hreq : t.isRequest = false) (hmsg : t ≠ .msg)
    (hactive : s.dev.isActive n = true) (hrole : s.dev.role n = 0) (ht : p.ptype = t) (hcls : p.cls ≠ 7)
    (hfail : (s.dev.checks (.port n) p).1 = .fail st) :
    Runs (c (.port n) p) s (fun t => t.dev.reg Reg.unroutable = (s.dev.bump Reg.unroutable).reg Reg.unroutable ∧
      (∀ q, (t.dev.core q).queues = (s.dev.core q).queues) ∧ ∀ m c, t.dev.stream m c = s.dev.stream m c) :=
  runs_of_ingest (e n p s) ht (AtEndpoint.ingest_dropped ⟨hactive, hrole, hcls, fun h => absurd (ht.symm.trans h) hmsg⟩ hfail (ht ▸ hreq))
end

/-- Settles O10: the checks leave the device but for a count, so the answer goes to the port of the source, or the discard to UNROUTABLE. -/
theorem requestsThatFailAreAnswered : Obligations.RequestsThatFailAreAnswered := by
  unfold Obligations.RequestsThatFailAreAnswered
  refine ⟨?read, ?write, ?posted, ?atomic, ?msg, ?contrib, ?job, ?jobResult, ?result⟩
  case read => exact fun s n m p st => runs_answered .read (fun _ _ _ => rfl) rfl (by decide)
  case write => exact fun s n m p st => runs_answered .write (fun _ _ _ => rfl) rfl (by decide)
  case posted => exact fun s n m p st => runs_answered .writePosted (fun _ _ _ => rfl) rfl (by decide)
  case atomic => exact fun s n m p st => runs_answered .atomic (fun _ _ _ => rfl) rfl (by decide)
  case msg => exact fun s n m p st => runs_answered .msg (fun _ _ _ => rfl) rfl (by decide)
  case contrib => exact fun s n m p st => runs_answered .reduceContrib (fun _ _ _ => rfl) rfl (by decide)
  case job =>
    intro s n m p st hactive hrole ht hcls hfail hport
    have h := AtEndpoint.ingest_answered ⟨hactive, hrole, hcls, by simp [ht]⟩ hfail (ht ▸ rfl) hport
    have hanswer : s.dev.failAnswer p st = refusalOf p st 15 := if_pos ht
    rw [hanswer] at h
    have e : exec (.jobPost (.port n) p) s = onDev (fun d => d.ingest (.port n) { p with ptype := .jobPost }) s := rfl
    exact runs_of_ingest e ht h
  case jobResult => exact fun s n p st => runs_dropped .jobResult (fun _ _ _ => rfl) rfl (by decide)
  case result => exact fun s n p st => runs_dropped .reduceResult (fun _ _ _ => rfl) rfl (by decide)

end Sys2Proof.Machine
end

section
/-! SUPPORT. A home's way with a request of a MODE SINGLE range at rest in the clear: taken, started, forwarded, answered (R126, R193, R200,
R203). -/

namespace Sys2Proof.Machine
set_option Elab.async false
namespace Dev

/-! ### Sending by FEID -/

theorem portOfFeid_congr {d d' : Dev} (h : d'.regs = d.regs) (f : Nat) : d'.portOfFeid f = d.portOfFeid f := by
  cases d
  cases d'
  cases h
  rfl

theorem stream_sendFeid {d : Dev} {pk : Packet} {m : Nat} (h : d.portOfFeid pk.dst = some m) :
    (d.sendFeid pk).stream m pk.cls = d.stream m pk.cls ++ [pk] := by
  rw [sendFeid_port h, stream_sendPort_same, stream_countOut]

theorem home_congr {d d' : Dev} (h : d'.homes = d.homes) (q : Nat) : d'.home q = d.home q := by simp only [home, h]

theorem home_sendFeid {d : Dev} {pk : Packet} {m : Nat} (h : d.portOfFeid pk.dst = some m) (q : Nat) : (d.sendFeid pk).home q = d.home q := by
  rw [sendFeid_port h]
  exact home_congr ((countOut_dictionary d pk).homes (by simp [ofDictionary])) q

/-! ### What the home takes (R169, R193) -/

theorem unitHead_fits {d : Dev} {u : Nat} {P : QEnt → Bool} {x : Nat × Nat × QEnt} (h : d.unitHead u P = some x) : P x.2.2 = true := by
  obtain ⟨cls, -, h⟩ := List.exists_of_findSome?_eq_some h
  split at h
  · split at h
    · next hfit =>
      cases h
      exact (Bool.and_eq_true_iff.1 hfit).2
    · cases h
  · cases h

theorem homeHead_fits {d : Dev} {q a k : Nat} {P : Packet → Bool} {e : QEnt} {tierH : Bool} (h : d.homeHead q P = some (a, k, e, tierH)) :
    P e.pkt = true := by
  have hunit : ∀ u t, (d.unitHead u (fun e => P e.pkt)).map (fun x => (x.1, x.2.1, x.2.2, t)) = some (a, k, e, tierH) → P e.pkt = true := by
    intro u t hu
    obtain ⟨x, hx, e⟩ := Option.map_eq_some_iff.1 hu
    cases e
    exact unitHead_fits hx
  unfold homeHead at h
  dsimp only at h
  split at h
  · rcases (Option.orElse_eq_some _ _ _).1 h with h | ⟨-, h⟩
    · exact hunit _ _ h
    · exact hunit _ _ h
  · rcases (Option.orElse_eq_some _ _ _).1 h with h | ⟨-, h⟩
    · exact hunit _ _ h
    · exact hunit _ _ h

/-- What taking a packet leaves: the dictionary, the ports, and the order, the records and the outstanding requests of the home. -/
structure KeepsOrder (q : Nat) (d d' : Dev) : Prop where
  regs : d'.regs = d.regs
  ports : d'.ports = d.ports
  ops : (d'.home q).ops = (d.home q).ops
  merges : (d'.home q).merges = (d.home q).merges
  subs : (d'.home q).subs = (d.home q).subs

variable {d d' d'' : Dev} {q m : Nat}

theorem KeepsOrder.trans (h : KeepsOrder q d d') (h' : KeepsOrder q d' d'') : KeepsOrder q d d'' :=
  ⟨h'.regs.trans h.regs, h'.ports.trans h.ports, h'.ops.trans h.ops, h'.merges.trans h.merges, h'.subs.trans h.subs⟩

theorem modHome_keepsOrder (d : Dev) (q : Nat) {f : Home → Home} (hops : ∀ H, (f H).ops = H.ops) (hmerges : ∀ H, (f H).merges = H.merges)
    (hsubs : ∀ H, (f H).subs = H.subs) : KeepsOrder q d (d.modHome q f) := by
  constructor <;> simp [hops, hmerges, hsubs]

theorem armStale_keepsOrder (d : Dev) (q : Nat) : KeepsOrder q d (d.armStale q) := by
  unfold armStale
  split
  · exact modHome_keepsOrder d q (fun _ => rfl) (fun _ => rfl) (fun _ => rfl)
  · exact ⟨rfl, rfl, rfl, rfl, rfl⟩

theorem homeConsume_keepsOrder (d : Dev) (q a k : Nat) (e : QEnt) : KeepsOrder q d (d.homeConsume q a k e) := by
  have hconsume : KeepsOrder q d (d.consume a k e) := ⟨rfl, rfl, rfl, rfl, rfl⟩
  have hturn := modHome_keepsOrder (d.consume a k e) q (f := fun H => { H with rr := if unitOf k = q then 1 else 0 }) (fun _ => rfl) (fun _ => rfl)
    (fun _ => rfl)
  exact (hconsume.trans hturn).trans (armStale_keepsOrder _ q)

theorem noteStore_keepsOrder (d : Dev) (q line src : Nat) : KeepsOrder q d (d.noteStore q line src) := by
  unfold noteStore
  split <;> exact ⟨rfl, rfl, rfl, rfl, rfl⟩

theorem each_noteStore_keepsOrder (q src : Nat) (l : List Nat) (d : Dev) : KeepsOrder q d (d.each l (fun d l => d.noteStore q l src)) := by
  induction l generalizing d with
  | nil => exact ⟨rfl, rfl, rfl, rfl, rfl⟩
  | cons line l ih => exact (noteStore_keepsOrder d q line src).trans (ih _)

theorem each_closeMerge_of_nil (h : (d.home q).merges = []) (l : List Nat) : d.each l (fun d l => d.closeMerge q l) = d := by
  have hclose : ∀ line, d.closeMerge q line = d := fun line => by simp [closeMerge, h, Tab.look]
  induction l with
  | nil => rfl
  | cons line l ih => exact (congrArg (each · l _) (hclose line)).trans ih

/-! ### Operations (R200 to R203) -/

/-- A request from outside of a MODE SINGLE range of tier P at rest in the clear. -/
structure IsPlain (op : HomeOp) : Prop where
  tierP : op.tierH = false
  single : op.grp = none
  clear : restSlotOf op = none
  atoms : op.atoms = []
  other : op.own = false
  kind : op.kind ≠ .merge

theorem restSlotOf_eq_none {op : HomeOp} (henc : Region.restEnc op.region = false) (hmac : Region.restMac op.region = false) : restSlotOf op = none := by
  simp [restSlotOf, henc, hmac]

theorem mkOp_isPlain (d : Dev) (q : Nat) {kind : OpKind} (p : Packet) (no : Nat) {hmap region : Nat} (hkind : kind ≠ .merge)
    (hstripe : HMap.stripe hmap = false) (henc : Region.restEnc region = false) (hmac : Region.restMac region = false) :
    IsPlain (d.mkOp q kind p false no hmap region) ∧ (d.mkOp q kind p false no hmap region).started = false ∧
      (d.mkOp q kind p false no hmap region).kind = kind ∧ (d.mkOp q kind p false no hmap region).pkt = p ∧
      (d.mkOp q kind p false no hmap region).hmap = hmap := by
  have hclear : ∀ op : HomeOp, op.region = region → restSlotOf op = none := fun op e => restSlotOf_eq_none (e ▸ henc) (e ▸ hmac)
  simp only [mkOp, hstripe, Bool.false_eq_true, if_false, and_self, and_true]
  exact ⟨rfl, rfl, hclear _ rfl, rfl, rfl, hkind⟩

theorem pump_nil (h : (d.home q).ops = []) : d.pump q = d := by simp [pump, h]

/-- Alone in the order and behind no request under an older version of its entry, an operation starts. -/
theorem pump_single {op : HomeOp} (hops : (d.home q).ops = [op]) (hstart : op.started = false) (hold : oldOutstanding (d.home q) op = false) :
    d.pump q = d.startOp q op := by
  have hop : d.opOf q op.id = some op := by simp [opOf, hops]
  simp [pump, hops, hop, hstart, hold]

/-- The request as its tray gets it (R126, R203). -/
def trayPacket (op : HomeOp) : Packet :=
  { op.pkt with ptype := if op.kind = .read then .read else .write, dst := HMap.tray op.hmap, epoch := HMap.epoch op.hmap }

theorem stream_forward (d : Dev) (q : Nat) (op : HomeOp) (m : Nat) :
    (d.forward q op (HMap.tray op.hmap) m).stream m op.pkt.cls = d.stream m op.pkt.cls ++ [trayPacket op] := by
  unfold forward
  extract_lets src p b
  have h := stream_sendPort_same ((d.modHome q fun H => { H with subs := H.subs ++ [b] }).countOut p) m p
  rw [stream_countOut] at h
  exact h

/-- A plain request that starts is forwarded to its tray, where no request of the switch's own holds its tag there. -/
theorem IsPlain.startOp_eq {op : HomeOp} (h : IsPlain op) (hport : d.portOfFeid (HMap.tray op.hmap) = some m)
    (hsubs : ∀ b ∈ (d.home q).subs, b.fwd = true ∨ b.tag ≠ op.pkt.tag ∨ op.pkt.src ≠ 0) :
    d.startOp q op = (d.setOp q { op with started := true }).forward q { op with started := true } (HMap.tray op.hmap) m := by
  have htag : (op.pkt.src = 0 && op.pkt.reqEpoch = 0 &&
      (d.home q).subs.any (fun s => !s.fwd && s.feid = HMap.tray op.hmap && s.tag = op.pkt.tag)) = false := by
    rw [Bool.eq_false_iff]
    simp only [ne_eq, Bool.and_eq_true, decide_eq_true_eq, List.any_eq_true, Bool.not_eq_true', not_and, not_exists]
    intro hsrc b hb hfwd htag
    rcases hsubs b hb with h | h | h
    · simp [h] at hfwd
    · exact h htag
    · exact h hsrc.1
  have hstart : d.startOp q op = d.startSingle q op := by simp [startOp, h.tierP, h.single, h.clear]
  rw [hstart]
  unfold startSingle
  simp -zeta only [singleTray, hport, Option.map_some]
  extract_lets op' r
  have hclear : restSlotOf op' = none := h.clear
  rw [hclear]
  exact (if_neg h.kind).trans ((if_neg (Bool.eq_false_iff.1 h.other)).trans (if_neg (Bool.eq_false_iff.1 htag)))

theorem IsPlain.stream_startOp {op : HomeOp} (h : IsPlain op) (hport : d.portOfFeid (HMap.tray op.hmap) = some m)
    (hsubs : ∀ b ∈ (d.home q).subs, b.fwd = true ∨ b.tag ≠ op.pkt.tag ∨ op.pkt.src ≠ 0) :
    (d.startOp q op).stream m op.pkt.cls = d.stream m op.pkt.cls ++ [trayPacket op] := by
  rw [h.startOp_eq hport hsubs]
  exact stream_forward (d.setOp q { op with started := true }) q { op with started := true } m

/-! ### Taking a request (R193, R200) -/

/-- The kind of the operation of a request. -/
def kindOf (t : PType) : OpKind := match t with | .read => .read | .write => .write | _ => .posted

theorem kindOf_eq_read_iff (t : PType) : kindOf t = .read ↔ t = .read := by cases t <;> simp [kindOf]

theorem kindOf_ne_merge (t : PType) : kindOf t ≠ .merge := by cases t <;> simp [kindOf]

/-- An operation joins an empty order and starts there, where nothing older is outstanding. -/
theorem IsPlain.stream_pump {op : HomeOp} (h : IsPlain op) (hstart : op.started = false) (hops : (d.home q).ops = [])
    (hport : d.portOfFeid (HMap.tray op.hmap) = some m)
    (hsubs : ∀ b ∈ (d.home q).subs, b.op ≠ 0 ∧ (b.fwd = true ∨ b.tag ≠ op.pkt.tag ∨ op.pkt.src ≠ 0)) :
    ((d.addOp q op).pump q).stream m op.pkt.cls = d.stream m op.pkt.cls ++ [trayPacket op] := by
  have hhome : (d.addOp q op).home q = { d.home q with ops := (d.home q).ops ++ [op], nextOp := (d.home q).nextOp + 1 } := home_modHome_same ..
  have hold : oldOutstanding ((d.addOp q op).home q) op = false := by
    rw [oldOutstanding, Bool.eq_false_iff]
    simp only [ne_eq, List.any_eq_true, Bool.and_eq_true, decide_eq_true_eq, not_exists, not_and, hhome]
    exact fun b hb hzero => absurd hzero.1.1 (hsubs b hb).1
  rw [pump_single (by rw [hhome, hops]; rfl) hstart hold]
  exact h.stream_startOp (d := d.addOp q op) hport fun b hb => (hsubs b (by rwa [hhome] at hb)).2

theorem IsPlain.not_refused {op : HomeOp} (h : IsPlain op) (d : Dev) : d.refusedAtHome op = none := by simp [refusedAtHome, h.single, h.clear]

/-- A request of a MODE SINGLE range at rest in the clear that finds the order empty goes on to its tray. -/
theorem stream_homePlain {want : PType → Bool} {a k : Nat} {e : QEnt} (hlevel : 2 ≤ d.level q)
    (hhead : d.homeHead q (fun p => want p.ptype) = some (a, k, e, false)) (hops : (d.home q).ops = []) (hmerges : (d.home q).merges = [])
    (hstripe : HMap.stripe e.hmap = false) (henc : Region.restEnc e.region = false) (hmac : Region.restMac e.region = false)
    (hsubs : ∀ b ∈ (d.home q).subs, b.op ≠ 0 ∧ (b.fwd = true ∨ b.tag ≠ e.pkt.tag ∨ e.pkt.src ≠ 0))
    (hport : d.portOfFeid (HMap.tray e.hmap) = some m) :
    (d.homePlain q want).stream m e.pkt.cls = d.stream m e.pkt.cls ++
      [{ e.pkt with ptype := if e.pkt.ptype = .read then .read else .write, dst := HMap.tray e.hmap, epoch := HMap.epoch e.hmap }] := by
  unfold homePlain
  rw [if_neg (Nat.not_lt.2 hlevel), hhead]
  dsimp -zeta only
  extract_lets p d₁ first n lines d₂ d₃ kind op d₄
  have h₁ : KeepsOrder q d d₁ := homeConsume_keepsOrder d q a k e
  have h₂ : d₂ = d₁ := each_closeMerge_of_nil (h₁.merges.trans hmerges) lines
  have h₃ : KeepsOrder q d d₃ := by
    have h₂' : KeepsOrder q d d₂ := h₂ ▸ h₁
    show KeepsOrder q d (if p.ptype = .read then d₂ else d₂.each lines fun d l => d.noteStore q l e.src.num)
    split
    · exact h₂'
    · exact h₂'.trans (each_noteStore_keepsOrder q _ lines d₂)
  have hk : kind = kindOf p.ptype := rfl
  obtain ⟨hplain, hstart, hkind, hpkt, hhmap⟩ := mkOp_isPlain d₃ q p e.hmapNo (hk ▸ kindOf_ne_merge p.ptype) hstripe henc hmac
  have hpump := hplain.stream_pump hstart (h₃.ops.trans hops) (by rw [hhmap, portOfFeid_congr h₃.regs, hport]) (by rw [h₃.subs, hpkt]; exact hsubs)
  rw [hpkt, stream_congr h₃.ports, trayPacket, hpkt, hhmap, hkind, hk] at hpump
  simp only [kindOf_eq_read_iff] at hpump
  rw [hplain.not_refused]
  exact hpump

/-! ### The answer of a tray (R126, R127) -/

/-- A completed READ or WRITE is answered to its requester, and leaves the order. -/
theorem completeOp_eq {op : HomeOp} (hkind : op.kind = .read ∨ op.kind = .write) (hatoms : op.atoms = []) (hown : op.own = false)
    (hfill : op.fill = none) (status : Nat) (data : Bytes) : d.completeOp q op status data =
      (d.sendFeid (d.respTo op.pkt status (if op.kind = .read ∧ status = 0 then data else []))).dropOp q op.id := by
  rcases hkind with hkind | hkind
  · simp [completeOp, asMerge, hatoms, hkind, answerRead, hfill, hown]
  · simp [completeOp, asMerge, hatoms, hkind]

/-- A request that a home function waits for, and whose answer holds, is taken from those outstanding. -/
theorem respIn_answer {n : Nat} {p : Packet} {b : TraySub} (hactive : d.isActive n = true) (hrole : d.role n = 0) (hcls : p.cls ≠ 7)
    (hfields : fieldsOk p = true) (henc : p.enc = false) (hrights : d.rightsOk (.port n) p = true) (hsub : d.findSub n p = some (q, b)) :
    d.respIn (.port n) p = d.trayAnswer n q b p := by
  simp [respIn, hactive, hrole, hcls, hsub, answerOk, hfields, henc, hrights]

theorem countRx_clear {p : Packet} (h : p.enc = false) (d : Dev) (src : Ingress) : d.countRx src p = d := by
  cases src <;> simp [countRx, h]

/-- The answer to the only request in the order, under the current version of its entry, completes it. -/
theorem trayAnswer_completes {n : Nat} {p : Packet} {b : TraySub} {op : HomeOp} (henc : p.enc = false) (hop : d.opOf q b.op = some op)
    (hepoch : p.epoch = HMap.epoch (d.reg (Reg.hmapActive b.hmapNo))) (hstatus : p.status ≠ St.unmapped) (hplain : IsPlain op) :
    d.trayAnswer n q b p =
      (((d.leaveFifo (.port n) p).dropSub q b).completeOp q op (knownStatus p.status) p.payload).pump q := by
  have hhome : ((d.leaveFifo (.port n) p).dropSub q b).home q = { d.home q with subs := removeFirst (fun x => x = b) (d.home q).subs } :=
    home_modHome_same ..
  have hop' : ((d.leaveFifo (.port n) p).dropSub q b).opOf q b.op = some op := by
    rw [opOf, hhome]
    exact hop
  have hreg : ((d.leaveFifo (.port n) p).dropSub q b).reg (Reg.hmapActive b.hmapNo) = d.reg (Reg.hmapActive b.hmapNo) := rfl
  simp [trayAnswer, henc, countRx_clear henc, hreg, ← hepoch, hstatus, hop', subDone, hplain.single, singleDone, hplain.kind, hplain.clear]

/-- A completed READ or WRITE, alone in the order, is answered, last of its class, at the port of its requester, and leaves the order empty. -/
theorem completeOp_answers {op : HomeOp} (hops : (d.home q).ops = [op]) (hkind : op.kind = .read ∨ op.kind = .write) (hatoms : op.atoms = [])
    (hown : op.own = false) (hfill : op.fill = none) (hport : d.portOfFeid op.pkt.src = some m) (status : Nat) (data : Bytes) :
    ((d.completeOp q op status data).pump q).stream m 1 =
        d.stream m 1 ++ [d.respTo op.pkt status (if op.kind = .read ∧ status = 0 then data else [])] ∧
      (((d.completeOp q op status data).pump q).home q).ops = [] := by
  rw [completeOp_eq hkind hatoms hown hfill]
  generalize hpk : d.respTo op.pkt status (if op.kind = .read ∧ status = 0 then data else []) = pk
  have hport' : d.portOfFeid pk.dst = some m := hpk ▸ hport
  have hempty : (((d.sendFeid pk).dropOp q op.id).home q).ops = [] := by
    simp [dropOp, home_sendFeid hport', hops]
  rw [pump_nil hempty]
  have hcls : pk.cls = 1 := hpk ▸ rfl
  exact ⟨hcls ▸ stream_sendFeid hport', hempty⟩

/-! ### The retry of a request of the home's own (R220, R475, R488) -/

theorem ownSub_spec {feid tag : Nat} {b : TraySub} (h : d.ownSub q feid tag = some b) : b ∈ (d.home q).subs ∧ b.feid = feid := by
  have hfit := List.find?_some h
  simp only [Bool.and_eq_true, decide_eq_true_eq] at hfit
  exact ⟨List.mem_of_find?_eq_some h, hfit.1.2⟩

/-- The request with one more try counted. -/
def triedAgain (d : Dev) (b : TraySub) : TraySub := { b with tries := b.tries + 1, port := (d.portOfFeid b.feid).getD b.port }

/-- The device with one more try of a request counted. -/
def countTry (d : Dev) (q : Nat) (b : TraySub) : Dev :=
  d.modHome q (fun H => { H with subs := H.subs.map (fun x => if x = b then d.triedAgain b else x) })

theorem ownRetry_eq {feid tag : Nat} {b : TraySub} (h : d.ownSub q feid tag = some b) (htries : b.tries < d.reg Reg.reqRetryMax) :
    d.ownRetry q feid tag = if b.stopped then d.countTry q b else (d.countTry q b).sendKeyed (ownPacket b) := by
  obtain ⟨-, rfl⟩ := ownSub_spec h
  simp only [ownRetry, h, htries, if_true]
  rfl

theorem countTry_counts {b : TraySub} (h : b ∈ (d.home q).subs) : ∃ x ∈ ((d.countTry q b).home q).subs, x.tag = b.tag ∧ x.tries = b.tries + 1 := by
  refine ⟨d.triedAgain b, ?_, rfl, rfl⟩
  rw [countTry, home_modHome_same]
  exact List.mem_map.2 ⟨b, h, if_pos rfl⟩

theorem sendKeyed_empty {pk : Packet} (h : pk.payload = []) (d : Dev) : d.sendKeyed pk = d.sendFeid pk := by simp [sendKeyed, h]

theorem sendKeyed_data {pk : Packet} {g : Nat} (hdata : pk.payload ≠ []) (hport : d.portOfFeid pk.dst = some m)
    (hslot : d.linkSlotOf (d.reg (Reg.linkSlot pk.comp)) pk.comp = true) (hlive : d.newestLive (d.reg (Reg.linkSlot pk.comp)) = some g) :
    d.sendKeyed pk = d.sendFeid { pk with enc := true, kslot := d.reg (Reg.linkSlot pk.comp), kgen := g } := by
  simp [sendKeyed, hdata, hport, hslot, hlive]

end Dev
end Sys2Proof.Machine
end

section
/-! A home forwards a request to its tray and delivers the tray's answer (O13). -/

namespace Sys2Proof.Machine
set_option Elab.async false
open Dev

/-- Settles O13: each clause follows one request through its home, by the rules above. -/
theorem homesForwardAndAnswer : Obligations.HomesForwardAndAnswer := by
  unfold Obligations.HomesForwardAndAnswer
  refine ⟨?read, ?write, ?answer, ?retry, ?keyed, ?stopped⟩
  case read =>
    intro s q a k m e _ hlevel hhead hops hmerges hstripe henc hmac hsubs hport
    have e' : exec (.homeRead q) s = onDev (fun d => d.homePlain q (fun t => t = .read)) s := rfl
    refine runs_of_dev e' rfl ?_
    have hread : e.pkt.ptype = .read := by simpa using homeHead_fits hhead
    have h := stream_homePlain (want := fun t => t = .read) hlevel hhead hops hmerges hstripe henc hmac hsubs hport
    have hsame : { e.pkt with ptype := .read, dst := HMap.tray e.hmap, epoch := HMap.epoch e.hmap } =
        { e.pkt with dst := HMap.tray e.hmap, epoch := HMap.epoch e.hmap } := by rw [← hread]
    rw [if_pos hread, hsame] at h
    exact h
  case write =>
    intro s q a k m e _ hlevel hhead hops hmerges hstripe henc hmac hsubs hport
    have e' : exec (.homeWrite q) s = onDev (fun d => d.homePlain q (fun t => t = .write || t = .writePosted)) s := rfl
    refine runs_of_dev e' rfl ?_
    have hwrite : e.pkt.ptype ≠ .read := by
      have hfits : e.pkt.ptype = .write ∨ e.pkt.ptype = .writePosted := by simpa using homeHead_fits hhead
      rcases hfits with hfits | hfits <;> simp [hfits]
    have h := stream_homePlain (want := fun t => t = .write || t = .writePosted) hlevel hhead hops hmerges hstripe henc hmac hsubs hport
    rw [if_neg hwrite] at h
    exact h
  case answer =>
    intro s n m q p b op hactive hrole ht hfields hcls henc _ hrights hsub hop hops hkind hatoms hown hfill hgrp htier hrenc hrmac hepoch hstatus hport
    have e : exec (.trayResp n p) s = onDev (fun d => d.respIn (.port n) { p with ptype := .resp }) s := rfl
    rw [← ht] at e
    refine runs_of_dev e ((respIn_answer hactive hrole hcls hfields henc hrights hsub).trans
      (trayAnswer_completes henc hop hepoch hstatus ⟨htier, hgrp, restSlotOf_eq_none hrenc hrmac, hatoms, hown, by rcases hkind with h | h <;> simp [h]⟩)) ?_
    have hops' : (((s.dev.leaveFifo (.port n) p).dropSub q b).home q).ops = [op] := (congrArg Home.ops (home_modHome_same ..)).trans hops
    have hport' : ((s.dev.leaveFifo (.port n) p).dropSub q b).portOfFeid op.pkt.src = some m := hport
    obtain ⟨hanswer, hempty⟩ := completeOp_answers hops' hkind hatoms hown hfill hport' (knownStatus p.status) p.payload
    refine ⟨hanswer.trans ?_, hempty⟩
    exact congrArg (· ++ _) (stream_leaveFifo s.dev (.port n) p m 1)
  case retry =>
    intro s q feid tag m b hsub htries hstopped hdata hport
    have e : exec (.requestRetryTimeout q feid tag) s = onDev (fun d => d.ownRetry q feid tag) s := rfl
    refine runs_of_dev e (ownRetry_eq hsub htries) ?_
    have hport' : (s.dev.countTry q b).portOfFeid (ownPacket b).dst = some m := hport
    rw [hstopped, if_neg Bool.false_ne_true, sendKeyed_empty (show (ownPacket b).payload = [] from hdata)]
    refine ⟨stream_sendFeid hport', ?_⟩
    dsimp only
    rw [home_sendFeid hport' q]
    exact countTry_counts (ownSub_spec hsub).1
  case keyed =>
    intro s q feid tag m g b hsub htries hstopped _ hdata hport hslot hlive
    have e : exec (.requestRetryTimeout q feid tag) s = onDev (fun d => d.ownRetry q feid tag) s := rfl
    refine runs_of_dev e (ownRetry_eq hsub htries) ?_
    have hport' : (s.dev.countTry q b).portOfFeid (ownPacket b).dst = some m := hport
    rw [hstopped, if_neg Bool.false_ne_true, sendKeyed_data (show (ownPacket b).payload ≠ [] from hdata) hport' hslot hlive]
    exact stream_sendFeid (pk := { ownPacket b with enc := true, kslot := s.dev.reg (Reg.linkSlot b.comp), kgen := g }) hport'
  case stopped =>
    intro s q feid tag b hsub htries hstopped
    have e : exec (.requestRetryTimeout q feid tag) s = onDev (fun d => d.ownRetry q feid tag) s := rfl
    refine runs_of_dev e (ownRetry_eq hsub htries) ?_
    rw [if_pos hstopped]
    exact ⟨fun _ _ => rfl, rfl, countTry_counts (ownSub_spec hsub).1⟩

end Sys2Proof.Machine
end

section
/-! SUPPORT. What the watchers of a quadrant's buffer leave: Teasel's audit (R182 to R187) and the hot-line detector (R178, R179). -/

namespace Sys2Proof.Machine
set_option Elab.async false

/-! ### An audit's flags -/

/-- Two states of a core agree on the flags of its audit. -/
structure Core.KeepsAudit (c c' : Core) : Prop where
  auditing : c'.auditing = c.auditing
  auditWaits : c'.auditWaits = c.auditWaits
  baseline : c'.baseline = c.baseline

namespace Core
variable {c c' : Core}

theorem KeepsAudit.refl (c : Core) : KeepsAudit c c := ⟨rfl, rfl, rfl⟩

theorem KeepsAudit.trans {c'' : Core} (h : KeepsAudit c c') (h' : KeepsAudit c' c'') : KeepsAudit c c'' :=
  ⟨h'.auditing.trans h.auditing, h'.auditWaits.trans h.auditWaits, h'.baseline.trans h.baseline⟩

theorem sight_keepsAudit (c : Core) (cells : Cells) : KeepsAudit c (c.sight cells) := by
  unfold sight
  split <;> exact ⟨rfl, rfl, rfl⟩

theorem giveBack_keepsAudit (c : Core) (cells : Cells) (n pool : Nat) : KeepsAudit c (c.giveBack cells n pool) := by
  unfold giveBack
  extract_lets twice kept cells' c₁ c₂
  have h₂ : KeepsAudit c c₂ := by
    unfold c₂
    split <;> exact ⟨rfl, rfl, rfl⟩
  exact h₂.trans (sight_keepsAudit c₂ cells')

end Core

theorem fixRef_keepsAudit (c : Core) (id : Nat) : Core.KeepsAudit c (fixRef c id).2 := by
  unfold fixRef
  split
  · exact .refl c
  · next s _ =>
    dsimp only
    split
    · exact .refl c
    · split
      · have hfreed : Core.KeepsAudit c { c with descs := Tab.del c.descs id, mcCells := c.mcCells - s.n } := ⟨rfl, rfl, rfl⟩
        exact hfreed.trans (Core.giveBack_keepsAudit _ s.cells s.n s.pool)
      · exact ⟨rfl, rfl, rfl⟩

namespace Dev
variable {d : Dev} {q : Nat}

theorem core_bump (d : Dev) (k n q : Nat) : (d.bump k n).core q = d.core q :=
  core_congr ((bump_within (.refl ofDictionary d) k n trivial).cores (by simp [ofDictionary])) q

/-! ### Teasel (R182, R184) -/

/-- A due audit of an enabled Teasel starts where none runs. -/
theorem core_auditStart_idle (hq : q < 4) (henabled : d.flag Reg.teaselEnable = true) (hidle : (d.core q).auditing = false)
    (hdue : (d.core q).auditDue ≤ d.tick) :
    (d.auditStart q).core q = { d.core q with
      auditDue := dueAfter (d.core q).auditDue (d.reg Reg.teaselPeriod) d.tick, auditing := true, seen := [], touched := [] } := by
  simp [auditStart, hq, henabled, hdue, hidle]

/-- A due audit of an enabled Teasel waits for the end of the running one. -/
theorem core_auditStart_running (hq : q < 4) (henabled : d.flag Reg.teaselEnable = true) (hruns : (d.core q).auditing = true)
    (hdue : (d.core q).auditDue ≤ d.tick) :
    (d.auditStart q).core q = { d.core q with
      auditDue := dueAfter (d.core q).auditDue (d.reg Reg.teaselPeriod) d.tick, auditWaits := true } := by
  simp [auditStart, hq, henabled, hdue, hruns]

/-- The flags of a core whose audit has ended: the one that waited runs, and the next is no baseline. -/
structure AuditOver (c c' : Core) : Prop where
  auditing : c'.auditing = c.auditWaits
  auditWaits : c'.auditWaits = false
  baseline : c'.baseline = false

/-- What an audit notes of its findings, its own count apart. -/
def ofFindings (q : Nat) : Scope := ⟨fun | .out | .logs | .mgmt => true | _ => false, fun k => k ≠ Reg.audits q⟩

theorem event_ofFindings (q : Nat) (hq : q < 4) : (ofFindings q).event := by
  simp only [Scope.event, ofFindings, ne_eq, Reg.audits, Reg.faultsWritten, Reg.lastFault, Reg.logNextSeq, Reg.recordsDropped, and_true]
  omega

/-- An audit that completes is over and counted once. -/
theorem auditDone_over (hq : q < 4) (hruns : (d.core q).auditing = true) :
    AuditOver (d.core q) ((d.auditDone q).core q) ∧ (d.auditDone q).reg (Reg.audits q) = (d.bump (Reg.audits q)).reg (Reg.audits q) := by
  have hevent := event_ofFindings q hq
  unfold auditDone
  extract_lets c w all orphans tally d₁ d₂ c₁ r c₂ back n c₃ c₄ len d₃ d₄ d₅
  rw [if_neg (by simpa [c] using hruns)]
  clear_value tally
  have hcore₁ : d₁.core q = d.core q := core_bump (d.setReg (Reg.tally q) tally) (Reg.audits q) 1 q
  have htally : (d.setReg (Reg.tally q) tally).reg (Reg.audits q) = d.reg (Reg.audits q) :=
    reg_setReg_ne d tally (by simp [Reg.audits, Reg.tally])
  have hreg₁ : d₁.reg (Reg.audits q) = (d.bump (Reg.audits q)).reg (Reg.audits q) := reg_bump_congr 1 htally
  clear_value d₁
  have h₂ : Within (ofFindings q) d₁ d₂ :=
    .ite (.refl _ _) (event_within (bump_within (.refl _ _) _ _ (by simp [ofFindings, Reg.audits, Reg.doubleOwned])) _ _)
  clear_value d₂
  have hcore₂ : d₂.core q = d.core q := (core_congr (h₂.cores (by simp [ofFindings])) q).trans hcore₁
  split
  · rw [core_modCore_same, hcore₂]
    exact ⟨⟨rfl, rfl, rfl⟩, (h₂.reg _ (by simp [ofFindings])).trans hreg₁⟩
  · next hbase =>
    have h₃ : Within (ofFindings q) d₁ d₃ := .ite h₂ (bump_within h₂ _ _ (by simp [ofFindings, Reg.audits, Reg.refFixed]))
    clear_value d₃
    have h₄ : Within (ofFindings q) d₁ d₄ :=
      .ite h₃ (event_within (bump_within h₃ _ _ (by simp [ofFindings, Reg.audits, Reg.reclaimed])) _ _)
    clear_value d₄
    have h₅ : Within (ofFindings q) d₁ d₅ := .ite h₄ (bump_within h₄ _ _ (by simp [ofFindings, Reg.audits, Reg.freecountFix]))
    clear_value d₅
    have hkeeps : Core.KeepsAudit c r.2 :=
      foldl_keeps (fun b : Nat × Core => Core.KeepsAudit c b.2) _ (fun b id hb => hb.trans (fixRef_keepsAudit b.2 id)) ⟨rfl, rfl, rfl⟩
    rw [core_modCore_same]
    exact ⟨⟨hkeeps.auditWaits, rfl, hkeeps.baseline.trans (Bool.eq_false_iff.2 hbase)⟩, (h₅.reg _ (by simp [ofFindings])).trans hreg₁⟩

/-! ### Hot lines (R178, R179) -/

/-- At the end of a window a line whose stores reached the threshold is hot, its offenders are named, and its counts start again. -/
theorem mem_hot_hotWindowEnd {h : HotLine} (hq : q < 4) (henabled : d.flag Reg.hotEnable = true) (hmem : h ∈ (d.core q).hot)
    (hcount : d.reg Reg.hotThresh ≤ h.count) :
    { h with hot := true, offenders := (h.bySrc.filter (fun s => d.reg Reg.hotSrcMin ≤ s.2)).map Prod.fst, count := 0, bySrc := [] } ∈
      ((d.hotWindowEnd q).core q).hot := by
  unfold hotWindowEnd
  extract_lets th c lines declared held d₁
  rw [if_neg (by simp [henabled, hq])]
  have hcore : ((if declared = 0 then d₁ else d₁.bump (Reg.hotLines q) declared).core q).hot = lines := by
    rw [apply_ite (core · q), core_bump, ite_self]
    exact congrArg Core.hot (core_modCore_same d q _)
  rw [hcore]
  exact List.mem_map.2 ⟨h, hmem, if_pos hcount⟩

end Dev
end Sys2Proof.Machine
end

section
/-! The watchers of the buffer (O12). -/

namespace Sys2Proof.Machine
set_option Elab.async false
open Dev

/-- Settles O12: each watcher's clause reads off what its command leaves of the quadrant's core. -/
theorem watchersOfTheBuffer : Obligations.WatchersOfTheBuffer := by
  unfold Obligations.WatchersOfTheBuffer
  refine ⟨?hot, ?starts, ?waits, ?done⟩
  case hot =>
    intro s q h hq henabled hmem hcount
    have e : exec (.hotWindowEnd q) s = onDev (fun d => d.hotWindowEnd q) s := rfl
    exact runs_of_dev e rfl ⟨_, mem_hot_hotWindowEnd hq henabled hmem hcount, rfl, rfl, rfl⟩
  case starts =>
    intro s q hq henabled hidle hdue
    have e : exec (.teaselAuditStart q) s = onDev (fun d => d.auditStart q) s := rfl
    have hcore := core_auditStart_idle hq henabled hidle hdue
    refine runs_of_dev e rfl ?_
    dsimp only
    rw [hcore]
    exact ⟨rfl, rfl, rfl⟩
  case waits =>
    intro s q hq henabled hruns hdue
    have e : exec (.teaselAuditStart q) s = onDev (fun d => d.auditStart q) s := rfl
    have hcore := core_auditStart_running hq henabled hruns hdue
    refine runs_of_dev e rfl ?_
    dsimp only
    rw [hcore]
    exact ⟨hruns, rfl, rfl⟩
  case done =>
    intro s q hruns hq
    have e : exec (.teaselAuditDone q) s = onDev (fun d => d.auditDone q) s := rfl
    obtain ⟨hover, hcounted⟩ := auditDone_over hq hruns
    exact runs_of_dev e rfl ⟨hover.auditing, hover.auditWaits, hover.baseline, hcounted⟩

end Sys2Proof.Machine
end

section
/-! SUPPORT. One cell through the crossbar (R164, R166, R169), and the release of a packet that has been read (R158): what a core cycle with one
proposal leaves of the device. -/

namespace Sys2Proof.Machine
set_option Elab.async false

/-! ### Lists with one contributor -/

theorem flatMap_eq_of_only {α β : Type} {l : List α} {f : α → List β} {a : α} (hl : l.Nodup) (ha : a ∈ l)
    (h : ∀ b ∈ l, b ≠ a → f b = []) : l.flatMap f = f a := by
  obtain ⟨pre, post, rfl⟩ := List.append_of_mem ha
  have hnot : a ∉ pre ++ post := (List.nodup_cons.1 (List.nodup_middle.1 hl)).1
  have hnil : ∀ b ∈ pre ++ post, f b = [] := fun b hb =>
    h b (by simp only [List.mem_append, List.mem_cons] at hb ⊢; tauto) fun e => hnot (e ▸ hb)
  have hpre : pre.flatMap f = [] := List.flatMap_eq_nil_iff.2 fun b hb => hnil b (List.mem_append_left _ hb)
  have hpost : post.flatMap f = [] := List.flatMap_eq_nil_iff.2 fun b hb => hnil b (List.mem_append_right _ hb)
  rw [List.flatMap_append, List.flatMap_cons, hpre, hpost, List.nil_append, List.append_nil]

theorem findSome?_eq_of_only {α β : Type} {l : List α} {f : α → Option β} {a : α} (ha : a ∈ l) (h : ∀ b ∈ l, b ≠ a → f b = none) :
    l.findSome? f = f a := by
  cases hfind : l.findSome? f with
  | none => exact (List.findSome?_eq_none_iff.1 hfind a ha).symm
  | some y =>
    obtain ⟨b, hb, hy⟩ := List.exists_of_findSome?_eq_some hfind
    by_cases hba : b = a
    · rw [← hba, hy]
    · rw [h b hb hba] at hy
      cases hy

/-! ### Entries that leave a queue (R158) -/

namespace Core

@[simp] theorem freeCnt_sight (c : Core) (cells : Cells) : (c.sight cells).freeCnt = c.freeCnt := by
  unfold sight
  split <;> rfl

@[simp] theorem queues_sight (c : Core) (cells : Cells) : (c.sight cells).queues = c.queues := by
  unfold sight
  split <;> rfl

/-- With no cell under two owners, all cells of a packet of the shared pool return to the free counter. -/
theorem giveBack_unshared {c : Core} (hshared : c.shared = []) (cells : Cells) (n : Nat) :
    (c.giveBack cells n 0).freeCnt = c.freeCnt + n ∧ (c.giveBack cells n 0).queues = c.queues := by
  simp [giveBack, hshared, Cells.count]

/-- A unicast packet of the shared pool that leaves its queue gives back its cells. -/
theorem dequeue_unicast {c : Core} {e : QEnt} (hdesc : e.desc = none) (hpool : e.pool = 0) (hshared : c.shared = []) (k : Nat) :
    (c.dequeue k e).2.freeCnt = c.freeCnt + e.n ∧ (c.dequeue k e).2.queue k = removeFirst (fun x => x.id = e.id) (c.queue k) := by
  have hback := giveBack_unshared (c := { c with queues := Tab.set c.queues k (removeFirst (fun x => x.id = e.id) (c.queue k)) [] })
    hshared e.cells e.n
  simp only [dequeue, release, hdesc, hpool]
  refine ⟨hback.1, ?_⟩
  rw [queue, hback.2]
  exact Tab.getD_set_same ..

end Core

namespace Dev

/-! ### A core cycle with one proposal (R164, R166) -/

theorem acceptOrder_nil (c : Core) : acceptOrder c [] = [] := by simp [acceptOrder]

theorem acceptOrder_singleton (c : Core) (x : Proposal) : acceptOrder c [x] = [x] := by
  have hturn : (List.range 114).flatMap (fun t => [x].filter (fun y => (y.block + 114 - c.rr % 114) % 114 = t)) = [x] := by
    rw [flatMap_eq_of_only List.nodup_range (List.mem_range.2 (Nat.mod_lt (x.block + 114 - c.rr % 114) (by decide)))]
    · simp
    · intro t _ ht
      simpa using ht.symm
  rcases Nat.lt_or_ge x.cls 2 with h | h
  · have hcls : x.cls = 0 ∨ x.cls = 1 := by omega
    rcases hcls with hcls | hcls <;> simp [acceptOrder, hcls]
  · have h0 : x.cls ≠ 0 := by omega
    have h1 : x.cls ≠ 1 := by omega
    simpa [acceptOrder, h, h0, h1] using hturn

/-- What a core cycle changes besides its grants: the cores' bridges and rotations. -/
structure OnlyTurns (d d' : Dev) : Prop where
  device : d' = { d with cores := d'.cores }
  queues : ∀ q, (d'.core q).queues = (d.core q).queues

section
variable {d d' d'' : Dev} {x : Proposal}

theorem OnlyTurns.refl (d : Dev) : OnlyTurns d d := ⟨rfl, fun _ => rfl⟩

theorem OnlyTurns.trans (h : OnlyTurns d d') (h' : OnlyTurns d' d'') : OnlyTurns d d'' where
  device := h'.device.trans (by rw [h.device])
  queues q := (h'.queues q).trans (h.queues q)

theorem OnlyTurns.queue (h : OnlyTurns d d') (q k : Nat) : (d'.core q).queue k = (d.core q).queue k := by simp only [Core.queue, h.queues]

theorem OnlyTurns.port (h : OnlyTurns d d') (p : Nat) : d'.port p = d.port p := (congrArg (Dev.port · p) h.device).trans rfl

theorem OnlyTurns.health (h : OnlyTurns d d') : d'.health = d.health := (congrArg Dev.health h.device).trans rfl

theorem OnlyTurns.nextEntry (h : OnlyTurns d d') (q p cls : Nat) : d'.nextEntry q p cls = d.nextEntry q p cls := by
  simp only [Dev.nextEntry, h.queue]

/-- A packet is sealed alike, whatever the cores hold. -/
theorem OnlyTurns.sealPkt_fst (h : OnlyTurns d d') (p : Nat) (pk : Packet) (badTag : Bool) :
    (d'.sealPkt p pk badTag).1 = (d.sealPkt p pk badTag).1 := by
  rw [h.device]
  unfold sealPkt
  simp only [apply_ite Prod.fst]
  rfl

theorem modCore_onlyTurns (d : Dev) (q : Nat) {f : Core → Core} (hf : ∀ c, (f c).queues = c.queues) : OnlyTurns d (d.modCore q f) where
  device := rfl
  queues a := by
    by_cases ha : a = q
    · rw [ha, core_modCore_same, hf]
    · rw [core_modCore_ne d f ha]

/-- A quadrant to which nothing is proposed keeps its core but for the bridges, which were idle. -/
theorem accept_idle {q : Nat} (h : x.quad ≠ q) : d.accept q [x] = d.modCore q (fun c => { c with bridge := [] }) := by
  simp only [accept, List.filter_cons, h, decide_false, Bool.false_eq_true, if_false, List.filter_nil, acceptOrder_nil]
  rfl

/-- The grant of one cell, to a port or to a unit. -/
def grant (d : Dev) (x : Proposal) : Dev := if x.block < 96 then d.grantCell x else d.grantUnit x

/-- The quadrant of the only proposal grants it, where its bridge is idle. -/
theorem accept_grants (hbridge : (d.core x.quad).bridge = []) : OnlyTurns (d.grant x) (d.accept x.quad [x]) := by
  unfold accept
  simp only [List.filter_cons, decide_true, if_true, List.filter_nil, acceptOrder_singleton, List.foldl_cons, List.foldl_nil, hbridge, Tab.getD,
    Tab.look, Option.getD_none, List.length_nil, Nat.reduceAdd, Nat.reduceLT, Bool.or_true, Bool.and_self, List.nil_append]
  exact modCore_onlyTurns (d.grant x) x.quad fun _ => rfl

/-- The other quadrants neither grant anything nor touch the core of the proposal's. -/
theorem each_accept_idle {l : List Nat} (hl : x.quad ∉ l) (d : Dev) :
    OnlyTurns d (d.each l (fun d q => d.accept q [x])) ∧ (d.each l (fun d q => d.accept q [x])).core x.quad = d.core x.quad := by
  induction l generalizing d with
  | nil => exact ⟨.refl d, rfl⟩
  | cons q l ih =>
    obtain ⟨hq, hl⟩ := not_or.1 (List.mem_cons.not.1 hl)
    have hturn : OnlyTurns d (d.accept q [x]) := by
      rw [accept_idle hq]
      exact modCore_onlyTurns _ _ fun _ => rfl
    have hcore : (d.accept q [x]).core x.quad = d.core x.quad := by
      rw [accept_idle hq, core_modCore_ne _ _ hq]
    obtain ⟨h, hcore'⟩ := ih hl (d.accept q [x])
    exact ⟨hturn.trans h, hcore'.trans hcore⟩

/-- What the blocks with an ACTIVE port and the units propose in a core cycle (R166 step 1). -/
def proposals (d : Dev) : List Proposal :=
  (d.activePorts.map (· / 4)).eraseDups.filterMap d.propose ++ (List.range 18).flatMap d.unitProposal

theorem crossbar_eq_each (hheld : d.mcHeld = []) (hone : d.proposals = [x]) : d.crossbar = d.each [0, 1, 2, 3] (fun d q => d.accept q [x]) := by
  have hretry : d.retryHeld = d := by
    unfold retryHeld
    rw [hheld]
    cases d
    cases hheld
    rfl
  have hcycle : d.crossbar = d.retryHeld.each [0, 1, 2, 3] (fun d' q =>
      if d.retryHeld.proposals.isEmpty ∧ (d'.core q).bridge = [] then d' else d'.accept q d.retryHeld.proposals) := rfl
  simp [hcycle, hretry, hone]

/-- A core cycle with one proposal and its bridge idle is that one grant. -/
theorem crossbar_grants (hheld : d.mcHeld = []) (hone : d.proposals = [x]) (hquad : x.quad < 4) (hbridge : (d.core x.quad).bridge = []) :
    ∃ d₁, OnlyTurns d d₁ ∧ OnlyTurns (d₁.grant x) d.crossbar := by
  have hmem : x.quad ∈ [0, 1, 2, 3] := by
    simp only [List.mem_cons, List.not_mem_nil, or_false]
    omega
  obtain ⟨pre, post, hsplit⟩ := List.append_of_mem hmem
  have hnodup : (pre ++ x.quad :: post).Nodup := hsplit ▸ by decide
  have hnot : x.quad ∉ pre ++ post := (List.nodup_cons.1 (List.nodup_middle.1 hnodup)).1
  rw [List.mem_append, not_or] at hnot
  obtain ⟨hbefore, hcore⟩ := each_accept_idle hnot.1 d
  refine ⟨_, hbefore, ?_⟩
  have hcycle : d.crossbar = ((d.each pre fun d q => d.accept q [x]).accept x.quad [x]).each post fun d q => d.accept q [x] := by
    rw [crossbar_eq_each hheld hone, hsplit]
    exact List.foldl_append
  rw [hcycle]
  exact (accept_grants ((congrArg Core.bridge hcore).trans hbridge)).trans (each_accept_idle hnot.2 _).1

/-! ### A cell to a port (R166) -/

theorem block_of_propose {b : Nat} (h : d.propose b = some x) : x.block = b := by
  obtain ⟨cls, -, h⟩ := List.exists_of_findSome?_eq_some h
  obtain ⟨p, -, h⟩ := List.exists_of_findSome?_eq_some h
  obtain ⟨q, -, rfl⟩ := Option.map_eq_some_iff.1 h
  rfl

theorem lt_of_activeBlocks {b : Nat} (h : (d.activePorts.map (· / 4)).eraseDups = [b]) : b < 96 := by
  have hb : b ∈ (d.activePorts.map (· / 4)).eraseDups := by simp [h]
  obtain ⟨p, hp, rfl⟩ := List.mem_map.1 (List.mem_eraseDups.1 hb)
  have := lt_of_mem_activePorts hp
  omega

@[simp] theorem port_turnPast (d : Dev) (b k cls q p : Nat) : (d.turnPast b k cls q).port p = d.port p := rfl

/-- The first cell of a packet joins the staging of its port and class, last. -/
theorem getLast?_staged_grantCell {e : QEnt} {bs : Bytes} (hstart : Tab.look (d.port x.port).inProgress x.cls = none)
    (hnext : d.nextEntry x.quad x.port x.cls = some e) (hseal : (d.sealPkt x.port e.pkt (!e.pkt.tagOk)).1 = some bs) :
    (Tab.getD ((d.grantCell x).port x.port).staged x.cls []).getLast? =
      some { bytes := bs.take 256, sop := true, eop := decide (e.n ≤ e.granted + 1),
             key := if e.pkt.enc then 1 + e.pkt.kslot * 256 + e.pkt.kgen else 0 } := by
  have hsealed : d.sealPkt x.port e.pkt (!e.pkt.tagOk) = (some bs, (d.sealPkt x.port e.pkt (!e.pkt.tagOk)).2) := Prod.ext hseal rfl
  generalize (d.sealPkt x.port e.pkt (!e.pkt.tagOk)).2 = d' at hsealed
  simp only [grantCell, hstart, hnext, hsealed, Option.isNone_none, if_true]
  rw [port_turnPast, port_modPort_same, Tab.getD_upd_same, List.getLast?_concat]

/-! ### A cell to a unit (R169) -/

theorem mem_quadTurn {q : Nat} (hq : q < 4) (halive : d.health.deadDies = 0) (k : Nat) : q ∈ d.quadTurn k := by
  simp only [quadTurn, List.mem_filter, List.mem_map, halive, bit, Nat.zero_testBit, Bool.not_false, and_true, List.mem_cons, List.not_mem_nil,
    or_false, exists_eq_or_imp, exists_eq_left]
  omega

theorem mem_classTurn {cls : Nat} (b : Nat) : cls ∈ d.classTurn b ↔ cls < 8 := by
  simp only [classTurn, List.mem_append, List.mem_map, List.mem_range, List.mem_cons, List.not_mem_nil, or_false]
  constructor
  · rintro ((rfl | rfl) | ⟨i, -, rfl⟩) <;> omega
  · intro h
    by_cases hc : cls < 2
    · omega
    · exact .inr ⟨(cls - 2 + 6 - Tab.getD d.arbCls b 0 % 6) % 6, by omega, by omega⟩

theorem unitKey_inj {u v c cls : Nat} (hc : c < 8) (hcls : cls < 8) (h : unitKey u c = unitKey v cls) : u = v ∧ c = cls := by
  unfold unitKey at h
  omega

/-- One packet stands in the buffer: `e`, in queue `k` of quadrant `q`. -/
def HoldsOnly (d : Dev) (q k : Nat) (e : QEnt) : Prop := ∀ a j, (d.core a).queue j = if a = q ∧ j = k then [e] else []

variable {q k : Nat} {e : QEnt}

theorem holdsOnly_of_cores (h : d.cores = [(q, { queues := [(k, [e])] })]) : HoldsOnly d q k e := by
  intro a j
  rcases eq_or_ne a q with rfl | ha
  · rcases eq_or_ne j k with rfl | hj
    · simp [core, Core.queue, h, Tab.getD, Tab.look]
    · simp [core, Core.queue, h, Tab.getD, Tab.look, hj, hj.symm]
  · simp [core, Core.queue, h, Tab.getD, Tab.look, ha, ha.symm]

theorem OnlyTurns.holdsOnly (h : OnlyTurns d d') (hd : HoldsOnly d q k e) : HoldsOnly d' q k e := fun a j => (h.queue a j).trans (hd a j)

theorem HoldsOnly.unitTurn_other (h : HoldsOnly d q k e) {j : Nat} (hj : j ≠ k) : d.unitTurn j = none := by
  have hempty : ∀ a, (d.core a).queue j = [] := fun a => (h a j).trans (if_neg fun c => hj c.2)
  simp [unitTurn, hempty]

/-- The only packet of its queue crosses to the unit, whether it has begun to or not. -/
theorem HoldsOnly.unitTurn_same (h : HoldsOnly d q k e) (hq : q < 4) (halive : d.health.deadDies = 0) : d.unitTurn k = some (q, e) := by
  have hhere : (d.core q).queue k = [e] := (h q k).trans (if_pos ⟨rfl, rfl⟩)
  have helse : ∀ a, a ≠ q → (d.core a).queue k = [] := fun a ha => (h a k).trans (if_neg fun c => ha c.1)
  have hhead : (d.quadTurn k).findSome? (fun a => ((d.core a).queue k).head?.map (fun e => (a, e))) = some (q, e) := by
    rw [findSome?_eq_of_only (mem_quadTurn hq halive k), hhere]
    · rfl
    · intro a _ ha
      rw [helse a ha]
      rfl
  unfold unitTurn
  rw [hhead]
  cases Tab.look d.crossing k with
  | none => rfl
  | some c =>
    obtain ⟨a, i⟩ := c
    by_cases ha : a = q
    · subst ha
      by_cases hi : e.id = i <;> simp [hhere, hi]
    · simp [helse a ha]

/-- The proposal of a cell of the only packet. -/
theorem HoldsOnly.unitProposal_same {u cls : Nat} (h : HoldsOnly d q (unitKey u cls) e) (hq : q < 4) (hcls : cls < 8) (halive : d.health.deadDies = 0)
    (hrate : unitRate u = 1) (hleft : e.granted < e.n) : d.unitProposal u = [{ block := 96 + u, cls := cls, quad := q }] := by
  have hdie : ∀ i, bit d.health.deadDies i = false := by simp [halive, bit]
  have hmin : min 1 (e.n - e.granted) = 1 := by omega
  unfold unitProposal
  rw [findSome?_eq_of_only ((mem_classTurn (96 + u)).2 hcls)]
  · simp [h.unitTurn_same hq halive, hdie, hleft, hrate, hmin]
  · intro c hc hne
    rw [h.unitTurn_other fun e => hne (unitKey_inj ((mem_classTurn _).1 hc) hcls e).2]

theorem HoldsOnly.unitProposal_other {u v cls : Nat} (h : HoldsOnly d q (unitKey u cls) e) (hcls : cls < 8) (hv : v ≠ u) :
    d.unitProposal v = [] := by
  unfold unitProposal
  rw [List.findSome?_eq_none_iff.2]
  · simp
  · intro c hc
    rw [h.unitTurn_other fun e => hv (unitKey_inj ((mem_classTurn _).1 hc) hcls e).1]

/-- With no port ACTIVE and one packet in the buffer, only a cell of it is proposed. -/
theorem HoldsOnly.proposals_eq {u cls : Nat} (h : HoldsOnly d q (unitKey u cls) e) (hports : d.activePorts = []) (hu : u < 16) (hq : q < 4)
    (hcls : cls < 8) (halive : d.health.deadDies = 0) (hrate : unitRate u = 1) (hleft : e.granted < e.n) :
    d.proposals = [{ block := 96 + u, cls := cls, quad := q }] := by
  have hunits := flatMap_eq_of_only List.nodup_range (List.mem_range.2 (by omega : u < 18)) fun v _ hv => h.unitProposal_other hcls hv
  rw [proposals, hports, hunits, h.unitProposal_same hq hcls halive hrate hleft]
  simp [List.eraseDups]

/-- One more cell of the only packet has crossed to its unit. -/
theorem HoldsOnly.queue_grantUnit (h : HoldsOnly d q k e) (hq : q < 4) (halive : d.health.deadDies = 0)
    (hx : unitKey (x.block - 96) x.cls = k) : ((d.grantUnit x).core q).queue k = [{ e with granted := e.granted + 1 }] := by
  have hhere : Tab.getD (d.core q).queues k [] = [e] := (h q k).trans (if_pos ⟨rfl, rfl⟩)
  have hqueues : ((d.grantUnit x).core q).queues =
      Tab.upd (d.core q).queues k [] (fun l => l.map fun y => if y.id = e.id then { y with granted := y.granted + 1 } else y) := by
    simp only [grantUnit, hx, h.unitTurn_same hq halive, core, modCore, Tab.getD_upd_same]
  rw [Core.queue, hqueues, Tab.getD_upd_same, hhere]
  simp

end
end Dev
end Sys2Proof.Machine
end

section
/-! Cells are granted to the egress and return to the free list once read (O11). -/

namespace Sys2Proof.Machine
set_option Elab.async false
open Dev

/-- Settles O11: a core cycle with one proposal is one grant, and a packet that has been read leaves its queue. -/
theorem cellsLeaveTheBuffer : Obligations.CellsLeaveTheBuffer := by
  unfold Obligations.CellsLeaveTheBuffer
  refine ⟨?port, ?unit, ?egress⟩
  case port =>
    intro s b x e bs hheld hunits hblocks hx hquad hbridges hstart hnext hseal
    have hblock : x.block < 96 := block_of_propose hx ▸ lt_of_activeBlocks hblocks
    have hone : s.dev.proposals = [x] := by simp [proposals, hblocks, hx, hunits]
    obtain ⟨d₁, hbefore, hafter⟩ := crossbar_grants hheld hone hquad (hbridges _ hquad)
    have e' : exec .crossbarGrant s = onDev (fun d => d.crossbar) s := rfl
    refine runs_of_dev e' rfl ?_
    dsimp only
    rw [hafter.port, grant, if_pos hblock]
    refine getLast?_staged_grantCell ?_ ((hbefore.nextEntry ..).trans hnext) ((hbefore.sealPkt_fst ..).trans hseal)
    rw [hbefore.port, hstart]
  case unit =>
    intro s u q cls e hheld hports hu hyarrow hq hcls halive hcores hleft
    have honly := holdsOnly_of_cores hcores
    have hrate : unitRate u = 1 := by
      rw [unitRate, if_neg]
      simp only [Bool.and_eq_true, decide_eq_true_eq]
      omega
    have hone := honly.proposals_eq hports hu hq hcls halive hrate hleft
    have hbridge : (s.dev.core q).bridge = [] := by simp [Dev.core, hcores, Tab.getD, Tab.look]
    obtain ⟨d₁, hbefore, hafter⟩ := crossbar_grants hheld hone hq hbridge
    have e' : exec .crossbarGrant s = onDev (fun d => d.crossbar) s := rfl
    refine runs_of_dev e' rfl ?_
    dsimp only
    rw [hafter.queue, grant, if_neg (by dsimp only; omega)]
    exact (hbefore.holdsOnly honly).queue_grantUnit hq (by rw [hbefore.health, halive]) (by rw [Nat.add_sub_cancel_left])
  case egress =>
    intro s port cls q e hport hdone _ hdesc hpool hshared
    have e' : exec (.packetEgressDone port cls false) s = onDev (fun d => if port < 384 then d.egressDone port cls else d) s := rfl
    have hcore : (s.dev.egressDone port cls).core q = ((s.dev.core q).dequeue (voqKey port cls) e).2 := by
      simp only [egressDone, hdone]
      rw [core_countOut, core_modCore_same]
    refine runs_of_dev e' (if_pos hport) ?_
    dsimp only
    rw [hcore]
    exact Core.dequeue_unicast hdesc hpool hshared _

end Sys2Proof.Machine
end
